-- ==== Sys2Proof/Word.lean ====
section
/-!
DEFINITION. The word types of the FS216 (R9, R47) and the plainest arithmetic on them.
-/
namespace Sys2Proof

/-- A doubleword, and every general register and control register (R47). -/
abbrev Word := BitVec 64
/-- One byte of memory (R9). -/
abbrev Byte := BitVec 8
/-- One 64-byte line (R9). -/
abbrev LineData := BitVec 512
/-- A physical line number: physical address bits [51:6] (R191, R239). -/
abbrev LineNo := Nat
/-- The thread index t = 36d + 2l + T of R454, which names every thread of the package. -/
abbrev Tid := Fin 432
/-- A register number of a g or f register file (R47, R74). -/
abbrev Rn := Fin 32
/-- A take domain (R207). -/
abbrev Dom := Fin 8
/-- A C-die (R18). -/
abbrev DieNo := Fin 12
/-- A privilege level: 0 U, 1 S, 2 H, 3 M (R49). -/
abbrev Lvl := Fin 4
/-- An agent that holds a take view (R211): 0-11 C-dies, 12-43 runners, 44-46 general root ports,
47 mirror port, 48-51 P-links. -/
abbrev ViewAgent := Fin 52

end Sys2Proof
end

