-- ==== Sys2Proof/Syntax.lean ====
section
/-!
DEFINITION. The commands of the FS216: one constructor of Instr per row of spec/opcode_table.json, in the
table's order, with the row's operands.
-/
namespace Sys2Proof

/-- A coherence agent (R188): a C-die of the package, a package of the group (by its position P), or an agent of the
H-die itself (R193). -/
inductive Agent where
  | die (d : DieNo)
  | pkg (p : Fin 16)
  | hub
deriving DecidableEq, Repr

/-- A cache structure that sweeps and purges (R224, R225): a cluster L2 (5d + physical cluster) or an L3 slice. -/
inductive Slice where
  | l2 (c : Fin 60)
  | l3 (d : DieNo) (s : Fin 16)
deriving DecidableEq, Repr

/-- The rails of R504, VAON apart. -/
inductive Rail where
  | vcore (d : DieNo)
  | vunc
  | vhub
  | vserA
  | vserB
  | vio
deriving DecidableEq, Repr

/-- An undo entry of R239: the prior image of a line, with its domain, key slot, poison flag and take. -/
structure UndoEntry where
  line   : LineNo
  dom    : Dom
  kslot  : Nat
  poison : Bool
  take   : Nat
  data   : LineData
deriving DecidableEq, Repr

/-- What a memory device reports when the port checks it (R290 to R293). -/
structure DevInfo where
  isSwitch : Bool
  type3    : Bool
  cxlMem   : Bool
  hdmH     : Bool
  lds      : Nat
  capGib   : Nat
  pbaseGib : Nat
  psizeGib : Nat
  gpfDvsec : Bool
  gpf2Us   : Nat
  width    : Nat
  rate     : Nat
  flit256  : Bool
deriving DecidableEq, Repr

/-- The MONITOR section of a call sheet (R465, R463): entry point, MVBASE, image, and whether the image's SHA-384 is
the section's. -/
structure MonitorImage where
  entry  : Word
  mvbase : Word
  image  : List Byte
  hashOk : Bool
deriving DecidableEq, Repr

/-- One copy of the call sheet as the continuity processor judges it (R464, R465). A register image is an I/O address
and a value. -/
structure SheetCopy where
  version     : Nat
  formatOk    : Bool
  keyHashOk   : Bool
  sigOk       : Bool
  part        : Nat
  uidBind     : Bool
  uid         : BitVec 128
  commit      : Bool
  criticalOk  : Bool
  dlink       : List (Nat × Word)
  dead        : List Nat
  repair      : List (Nat × Nat × Nat)
  gaffer      : List (Nat × Word)
  memory      : List (Nat × Word)
  keyContext  : BitVec 256
  keys        : List (Nat × BitVec 128)
  debugKey    : Bool
  mirror      : List (Nat × Word)
  mirrorIds   : Word
  monitor     : Option MonitorImage
  regulators  : List Nat
  locks       : List (Nat × Word)
deriving DecidableEq, Repr

/-- What the board gives a cold start: the straps (R516) and the call-sheet copies (R462), with the rails found out of
range at the PWRGOOD rise (R505) and whether TREFCLK is usable (R267). -/
structure BootInput where
  gpos      : Fin 16
  boot      : Fin 4
  mirmode   : Bool
  strapUnst : Bool
  railsBad  : List Rail
  trefOk    : Bool
  copyA     : Option SheetCopy
  copyB     : Option SheetCopy
  uart      : Option SheetCopy
deriving DecidableEq, Repr

/-- A P-link time symbol with its arrival times (R278, R279). Times t1 to t4 are in ps of the sender's or the
receiver's slate. -/
structure PtSym where
  t1     : Int
  t2     : Int
  t3     : Int
  t4     : Int
  slate  : Word
  unc    : Nat
  state  : Nat
  depth  : Nat
  leadp  : Fin 16
  checkOk : Bool
deriving DecidableEq, Repr

/-- A forward clapper frame with its arrival times (R281). -/
structure ClfFrame where
  t1     : Int
  t2     : Int
  t3     : Int
  t4     : Int
  slate  : Word
  rseq   : BitVec 16
  seq    : BitVec 16
  unc    : Nat
  root   : Nat
  depth  : Nat
  state  : Nat
  epoch  : BitVec 32
  checkOk : Bool
deriving DecidableEq, Repr

/-- A return clapper frame (R281). -/
structure ClrFrame where
  seq    : BitVec 16
  echo   : BitVec 16
  unc    : Nat
  depth  : Nat
  state  : Nat
  checkOk : Bool
deriving DecidableEq, Repr

/-- What a P-link training exchange presents (R330). -/
structure PlPeer where
  p        : Fin 16
  size     : Nat
  g        : Nat
  assigned : Bool
  coldBoot : BitVec 16
  width    : Nat
  rate     : Nat
  trained  : Bool
deriving DecidableEq, Repr

/-- A packet that arrives on a link (R318): SEQ, ACK, CHANNEL, whether its CRC is right, whether the two line addresses of an
UNDO agree, its destination where another package sent it (R331), and the logical core and incarnation of a core's message
(R425). -/
structure LinkPacket where
  seq    : BitVec 12
  ack    : BitVec 12
  chan   : Fin 8
  crcOk  : Bool
  lineOk : Bool
  dest   : Option (Fin 16)
  src    : Option (Fin 18 × Fin 16)
deriving DecidableEq, Repr

/-- A machine-check bank's contents (R432, R433). -/
structure BankRec where
  status : Word
  addr   : Word
  misc   : Word
  slate  : Word
  bank   : Nat
deriving DecidableEq, Repr

/-- One gaffer sample (R451, R452, R480): package power in W, and the temperature in degrees C and the rail voltage in mV
of each die, C-dies 0-11 and the H-die as 12 (none where the rail is out of range). -/
structure GafSample where
  watts : Nat
  dies  : List (Option (Nat × Nat))
deriving DecidableEq, Repr

/-- What an external debugger does over JTAG (R407, R409). -/
inductive JtagOp where
  | halt (t : Tid)
  | resume (t : Tid)
  | step (t : Tid)
  | readG (t : Tid) (r : Rn)
  | writeG (t : Tid) (r : Rn) (v : Word)
  | readMem (secure : Bool) (pa : Nat)
  | writeMem (secure : Bool) (pa : Nat) (b : Byte)
  | readReg (addr : Nat)
  | writeReg (addr : Nat) (v : Word)
  | boundaryScan
deriving DecidableEq, Repr

/-- What a data message of another package carries (R195, R232): the line and its take tag. A die's are in the state. -/
structure FarData where
  data : Option LineData
  tag  : Option Bool
deriving DecidableEq, Repr

/-- The line of an SWB (R225); the data is the sender's where another package sends it (R233). -/
structure SwbData where
  line : LineNo
  data : Option LineData
deriving DecidableEq, Repr

/-- The end of an online rollback (R237, R238): the package's own, or that of member p as its lead learns it. -/
structure RollEnd where
  dom : Dom
  p   : Option (Fin 16)
deriving DecidableEq, Repr

/-- A line and how many more contiguous lines a port read asks for (R295, R302). -/
structure LineSpan where
  line  : LineNo
  lines : Fin 4096
deriving DecidableEq, Repr

inductive Instr where
  -- integer, R80
  | addi (t : Tid) (d a : Rn) (imm : BitVec 16)
  | andi (t : Tid) (d a : Rn) (imm : BitVec 16)
  | ori (t : Tid) (d a : Rn) (imm : BitVec 16)
  | xori (t : Tid) (d a : Rn) (imm : BitVec 16)
  | slti (t : Tid) (d a : Rn) (imm : BitVec 16)
  | sltui (t : Tid) (d a : Rn) (imm : BitVec 16)
  | lui (t : Tid) (d : Rn) (imm : BitVec 16)
  | shori (t : Tid) (d : Rn) (imm : BitVec 16)
  | addpc (t : Tid) (d : Rn) (imm : BitVec 16)
  | slli (t : Tid) (d a : Rn) (sh : BitVec 6)
  | srli (t : Tid) (d a : Rn) (sh : BitVec 6)
  | srai (t : Tid) (d a : Rn) (sh : BitVec 6)
  | rori (t : Tid) (d a : Rn) (sh : BitVec 6)
  -- integer register forms, R81, R82
  | add (t : Tid) (d a b : Rn)
  | sub (t : Tid) (d a b : Rn)
  | and (t : Tid) (d a b : Rn)
  | or (t : Tid) (d a b : Rn)
  | xor (t : Tid) (d a b : Rn)
  | andn (t : Tid) (d a b : Rn)
  | orn (t : Tid) (d a b : Rn)
  | slt (t : Tid) (d a b : Rn)
  | sltu (t : Tid) (d a b : Rn)
  | min (t : Tid) (d a b : Rn)
  | max (t : Tid) (d a b : Rn)
  | minu (t : Tid) (d a b : Rn)
  | maxu (t : Tid) (d a b : Rn)
  | sll (t : Tid) (d a b : Rn)
  | srl (t : Tid) (d a b : Rn)
  | sra (t : Tid) (d a b : Rn)
  | ror (t : Tid) (d a b : Rn)
  | mul (t : Tid) (d a b : Rn)
  | mulh (t : Tid) (d a b : Rn)
  | mulhu (t : Tid) (d a b : Rn)
  | div (t : Tid) (d a b : Rn)
  | divu (t : Tid) (d a b : Rn)
  | rem (t : Tid) (d a b : Rn)
  | remu (t : Tid) (d a b : Rn)
  | clz (t : Tid) (d a : Rn)
  | ctz (t : Tid) (d a : Rn)
  | popc (t : Tid) (d a : Rn)
  | bswap (t : Tid) (d a : Rn)
  | sextb (t : Tid) (d a : Rn)
  | sexth (t : Tid) (d a : Rn)
  | sextw (t : Tid) (d a : Rn)
  | zextw (t : Tid) (d a : Rn)
  -- floating point, R84 to R86; w = true is binary32 (the field W)
  | fadd (t : Tid) (w : Bool) (d a b : Rn)
  | fsub (t : Tid) (w : Bool) (d a b : Rn)
  | fmul (t : Tid) (w : Bool) (d a b : Rn)
  | fdiv (t : Tid) (w : Bool) (d a b : Rn)
  | fsqrt (t : Tid) (w : Bool) (d a : Rn)
  | fmin (t : Tid) (w : Bool) (d a b : Rn)
  | fmax (t : Tid) (w : Bool) (d a b : Rn)
  | fneg (t : Tid) (w : Bool) (d a : Rn)
  | fabs (t : Tid) (w : Bool) (d a : Rn)
  | fmov (t : Tid) (w : Bool) (d a : Rn)
  | feq (t : Tid) (w : Bool) (d a b : Rn)
  | flt (t : Tid) (w : Bool) (d a b : Rn)
  | fle (t : Tid) (w : Bool) (d a b : Rn)
  | fclass (t : Tid) (w : Bool) (d a : Rn)
  | fcvti (t : Tid) (w : Bool) (d a : Rn)
  | fcvtiu (t : Tid) (w : Bool) (d a : Rn)
  | fcvtf (t : Tid) (w : Bool) (d a : Rn)
  | fcvtfu (t : Tid) (w : Bool) (d a : Rn)
  | fcvtx (t : Tid) (w : Bool) (d a : Rn)
  | fmvg (t : Tid) (w : Bool) (d a : Rn)
  | fmvf (t : Tid) (w : Bool) (d a : Rn)
  | fmadd (t : Tid) (w : Bool) (d a b c : Rn)
  | fmsub (t : Tid) (w : Bool) (d a b c : Rn)
  | fnmsub (t : Tid) (w : Bool) (d a b c : Rn)
  | fnmadd (t : Tid) (w : Bool) (d a b c : Rn)
  -- branches, jumps and calls, R87; an = true is the suffix .A
  | beq (t : Tid) (a b : Rn) (an : Bool) (disp : BitVec 15)
  | bne (t : Tid) (a b : Rn) (an : Bool) (disp : BitVec 15)
  | blt (t : Tid) (a b : Rn) (an : Bool) (disp : BitVec 15)
  | bge (t : Tid) (a b : Rn) (an : Bool) (disp : BitVec 15)
  | bltu (t : Tid) (a b : Rn) (an : Bool) (disp : BitVec 15)
  | bgeu (t : Tid) (a b : Rn) (an : Bool) (disp : BitVec 15)
  | j (t : Tid) (disp : BitVec 26)
  | call (t : Tid) (disp : BitVec 26)
  | jr (t : Tid) (a : Rn)
  | callr (t : Tid) (a : Rn)
  | ret (t : Tid)
  -- loads and stores, R88 to R93; ord is .AQ, .RL or .PC
  | load (t : Tid) (d a : Rn) (szk : Fin 16) (ord : Bool) (disp : BitVec 11)
  | store (t : Tid) (d a : Rn) (szk : Fin 16) (ord : Bool) (disp : BitVec 11)
  | loadx (t : Tid) (d a : Rn) (szk : Fin 16) (ord : Bool) (am : Fin 8) (amf : BitVec 8)
  | storex (t : Tid) (d a : Rn) (szk : Fin 16) (ord : Bool) (am : Fin 8) (amf : BitVec 8)
  | ldi (t : Tid) (d a : Rn) (szk : Fin 16) (ord : Bool) (disp : BitVec 11)
  | iold (t : Tid) (d a : Rn) (szk : Fin 16) (disp : BitVec 11)
  | iost (t : Tid) (d a : Rn) (szk : Fin 16) (disp : BitVec 11)
  -- atomics, R94; q = true is the 16-byte form
  | swap (t : Tid) (q : Bool) (d a b : Rn)
  | cas (t : Tid) (q : Bool) (d a b : Rn)
  | fetchAdd (t : Tid) (q : Bool) (d a b : Rn)
  | fetchAnd (t : Tid) (q : Bool) (d a b : Rn)
  | fetchOr (t : Tid) (q : Bool) (d a b : Rn)
  | fetchMax (t : Tid) (q : Bool) (d a b : Rn)
  | fetchMaxu (t : Tid) (q : Bool) (d a b : Rn)
  -- fences, R95; system, R96
  | fenceLl (t : Tid)
  | fenceLs (t : Tid)
  | fenceSl (t : Tid)
  | fenceSs (t : Tid)
  | fenceAll (t : Tid)
  | isync (t : Tid)
  | mfc (t : Tid) (d : Rn) (num : BitVec 12)
  | mtc (t : Tid) (a : Rn) (num : BitVec 12)
  | eret (t : Tid)
  | wait (t : Tid)
  | brk (t : Tid) (code : BitVec 12)
  | sysc (t : Tid) (code : BitVec 12)
  | hvc (t : Tid) (code : BitVec 12)
  | monc (t : Tid) (code : BitVec 12)
  | rdpmc (t : Tid) (d a : Rn)
  | keyset (t : Tid) (a : Rn)
  | keyget (t : Tid) (d : Rn)
  -- translation, R99
  | tlbwRnd (t : Tid)
  | tlbwSlot (t : Tid) (a : Rn)
  | tlbrd (t : Tid) (a : Rn)
  | tlbfind (t : Tid) (d : Rn)
  | tlbiVa (t : Tid) (a b : Rn)
  | tlbiAsid (t : Tid) (b : Rn)
  | tlbiVmid (t : Tid) (b : Rn)
  | tlbiAll (t : Tid)
  | gpmw (t : Tid) (a : Rn)
  | gpmr (t : Tid) (a : Rn)
  | gpmi (t : Tid)
  | ownersync (t : Tid)
  -- takes and slate, R100
  | cutreq (t : Tid) (d a : Rn)
  | cutwait (t : Tid) (d a : Rn)
  | cutstat (t : Tid) (d a : Rn)
  | rdslate (t : Tid) (d : Rn)
  | rdslateu (t : Tid) (d b : Rn)
  | slatewait (t : Tid) (d a : Rn)
  | slatewaitRelease (t : Tid)
  -- context, R104
  | rssave (t : Tid) (a : Rn)
  | rsload (t : Tid) (a : Rn)
  | dtload (t : Tid) (a b : Rn)
  | encrun (t : Tid) (a b : Rn)
  | encdone (t : Tid) (a : Rn)
  -- the repeat prefix with the word after it, R108; decode table, R109; coprocessor block, R110
  | repN (t : Tid) (nm1 : BitVec 6) (next : BitVec 32)
  | repG (t : Tid) (g : Rn) (next : BitVec 32)
  | udi (t : Tid) (sel : Fin 64) (f1 f2 f3 f4 : Rn)
  | cust (t : Tid) (func : BitVec 6) (operands : BitVec 20)
  -- sift data operations, R128
  | vbcast (t : Tid) (v : Fin 16) (g : Rn) (ew : Fin 4)
  | vins (t : Tid) (v : Fin 16) (g : Rn) (x : Fin 8)
  | vext (t : Tid) (v : Fin 16) (g : Rn) (x : Fin 8)
  | vmov (t : Tid) (vd va : Fin 16)
  | pscan (t : Tid) (g : Rn) (va vb : Fin 16) (ew : Fin 4) (pc : Fin 16)
  | compress (t : Tid) (v : Fin 16) (g : Rn) (h : Fin 16) (ew : Fin 4)
  | unpack (t : Tid) (v : Fin 16) (g : Rn) (h : Fin 16) (ew : Fin 4)
  | vhash (t : Tid) (v : Fin 16) (g : Rn) (h : Fin 16)
  | vcrc (t : Tid) (v : Fin 16) (g : Rn)
  | redmin (t : Tid) (v : Fin 16) (g h : Rn) (ew : Fin 4) (x : Fin 16)
  | redmax (t : Tid) (v : Fin 16) (g h : Rn) (ew : Fin 4) (x : Fin 16)
  | vcnt (t : Tid) (v : Fin 16) (g : Rn)
  -- sift stream operations, R130
  | sload (t : Tid) (v : Fin 16) (g : Rn) (post : Bool)
  | sscan (t : Tid) (v : Fin 16) (g h : Rn) (ew : Fin 4) (pc : Fin 16)
  | sgather (t : Tid) (v : Fin 16) (g h : Rn) (ew : Fin 4) (x : Fin 16)
  | sdict (t : Tid) (v : Fin 16) (g h : Rn) (ew : Fin 4) (x : Fin 16)
  | saccadd (t : Tid) (acc : Fin 4) (g : Rn)
  -- sift accumulator operations, R131
  | aclr (t : Tid) (acc : Fin 4)
  | aaddf (t : Tid) (acc : Fin 4) (v : Fin 16) (g : Rn) (ty : Fin 4) (x : BitVec 7)
  | amacf (t : Tid) (acc : Fin 4) (v : Fin 16) (g : Rn) (ty : Fin 4) (x : BitVec 7)
  | aaddi (t : Tid) (acc : Fin 4) (v : Fin 16) (g : Rn) (ty : Fin 4) (x : BitVec 7)
  | acnt (t : Tid) (acc : Fin 4) (v : Fin 16)
  | ardf (t : Tid) (acc : Fin 4) (g : Rn)
  | ardi (t : Tid) (acc : Fin 4) (g : Rn) (hi : Bool)
  | ardw (t : Tid) (acc : Fin 4) (g : Rn) (x : BitVec 7)
  | awrw (t : Tid) (acc : Fin 4) (g : Rn) (x : BitVec 7)
  -- events of a thread and of the store pipeline, R54, R418, R148
  | cueTake (t : Tid)
  | mcAsyncTake
  | storeCommit (t : Tid)
  -- coherence messages, R193 to R201; vict is the set victim when the directory set is full (R194); a package's
  -- data come with the command, tag being the parity of their take where they are of an uncut one (R195, R216)
  | rdS (a : Agent) (line : LineNo) (vict : Option LineNo)
  | rdX (a : Agent) (line : LineNo) (vict : Option LineNo)
  | upg (a : Agent) (line : LineNo) (vict : Option LineNo)
  | rdNc (a : Agent) (pa : Nat) (size : Nat)
  | wrNc (a : Agent) (view : ViewAgent) (pa : Nat) (data : List Byte)
  | lsr (d : DieNo) (pa : Nat) (size : Nat)
  | lsw (d : DieNo) (pa : Nat) (data : List Byte)
  | snpS (d : DieNo) (line : LineNo)
  | snpX (d : DieNo) (line : LineNo)
  | snpCur (d : DieNo) (line : LineNo)
  | snpBinv (d : DieNo) (line : LineNo)
  | snpLsr (d : DieNo) (pa : Nat) (size : Nat)
  | snpLsw (d : DieNo) (pa : Nat) (data : List Byte)
  | rspI (a : Agent) (line : LineNo)
  | rspS (a : Agent) (line : LineNo)
  | rspEvx (a : Agent) (line : LineNo)
  | goE (d : DieNo) (line : LineNo)
  | goF (d : DieNo) (line : LineNo)
  | goS (d : DieNo) (line : LineNo)
  | goNc (d : DieNo)
  | eva (d : DieNo) (line : LineNo)
  | dat (d : DieNo) (line : LineNo) (dirty : Bool)
  | fwd (a : Agent) (line : LineNo) (dirty : Bool) (far : FarData)
  | wbd (a : Agent) (line : LineNo) (far : FarData)
  | evc (a : Agent) (line : LineNo)
  | holdWindowEnd (d : DieNo) (line : LineNo)
  -- takes, R211 to R244
  | undo (a : Agent) (e : UndoEntry)
  | undoAcc (d : DieNo) (line : LineNo)
  | swb (a : Agent) (dom : Dom) (m : SwbData)
  | swbAcc (d : DieNo) (line : LineNo)
  | advance (a : ViewAgent) (dom : Dom)
  | advAck (a : ViewAgent) (dom : Dom)
  | sweep (u : Slice) (dom : Dom)
  | swept (u : Slice) (dom : Dom)
  | purge (u : Slice) (dom : Dom)
  | purged (u : Slice) (dom : Dom)
  | gAdvance (dom : Dom) (take : Word)
  | gSwept (p : Fin 16) (dom : Dom)
  | gPrepare (dom : Dom) (take : Word)
  | gPrepared (p : Fin 16) (dom : Dom)
  | gCommit (dom : Dom) (take : Word)
  | groupCutTimeout (p : Fin 16) (dom : Dom)
  | cutPeriodExpiry (dom : Dom)
  | reelBlockPersist (dom : Dom) (seq : BitVec 32)
  | reelBlockError (dom : Dom) (seq : BitVec 32)
  | persistenceMarkerDone (port : Fin 16) (dom : Dom)
  | cutRecordPersist (dom : Dom)
  | tdCmdCut (dom : Dom)
  | tdCmdRollback (dom : Dom)
  | onlineRollbackDone (e : RollEnd)
  | tdCfgEn (dom : Dom) (val : Word)
  | tdSeg1Link (dom : Dom) (val : Word)
  -- wrap, restart and resets, R247 to R260, R453, R457, R505
  | pwrfailAssert
  | fatalError (bank : Fin 354) (struct : BitVec 8) (type : BitVec 8) (addr : BitVec 52)
  | gpfPhase2Done (port : Fin 16)
  | gpfTimeoutExpiry
  | pwrfailDeassertHold
  | pwrfailStuck
  | autorestart
  | pwrgoodRise (b : BootInput)
  | pwrgoodFall
  | resetNAssert
  | warmNAssert
  | pkgRstCold (lvl : Lvl)
  | pkgRstWarm (lvl : Lvl)
  | dieStartSlot (d : DieNo) (vcoreOk : Bool)
  | clusterStartSlot (d : DieNo) (k : Fin 5)
  | restartRollbackDone (dom : Dom)
  | leadC (dom : Dom) (c : Word)
  | leadwaitExpiry (dom : Dom)
  -- pins, clocks and rails, R471, R452, R507 to R514
  | wakeNAssert
  | prochotAssert
  | prochotRelease
  | thermalTrip
  | jtagTrst (asserted : Bool)
  | refclkLoss
  | xtalLoss
  | railOutOfRange (r : Rail)
  | vaonLoss
  | vaonReturn
  | inputUnlock (i : Fin 10)
  | inputStuck (i : Fin 10)
  | i3cBusRecovery (bus : Fin 2)
  -- slate, R265 to R289
  | trefclkFault
  | trefclkReturn
  | tsymSend (d : DieNo)
  | tsym (d : DieNo)
  | tret (d : DieNo)
  | slateCopySettled (d : DieNo)
  | ptsymSend (k : Fin 4)
  | ptsym (k : Fin 4) (m : PtSym)
  | clfSend
  | clf (m : ClfFrame)
  | clrSend
  | clr (m : ClrFrame)
  | slateSourceLost
  | slateSettled
  | slateSaturate
  | slateAlarmFire (t : Tid) (lvl : Lvl)
  | slateSet (v : Word)
  | slateAdj (v : Word)
  | slateRoleWrite (v : Word)
  | slateEpochWrite (v : Word)
  | slcmpWrite (t : Tid) (lvl : Lvl) (v : Word)
  -- memory ports, R292 to R307
  | mpEnable (n : Fin 16) (v : Word)
  | mpLinkUp (n : Fin 16) (dev : DevInfo)
  | mpTrainTimeout (n : Fin 16)
  | memoryActive (n : Fin 16) (ideOk : Bool)
  | memoryActiveTimeout (n : Fin 16)
  | mpRetrain (n : Fin 16)
  | mpLinkLoss (n : Fin 16)
  | portWrite (n : Fin 16) (line : LineNo) (mask : BitVec 64) (data : LineData)
  | portRead (n : Fin 16) (rq : Fin 32) (span : LineSpan) (cls : Fin 64)
  | urgencyRise (n : Fin 16) (rq : Fin 32) (ageNs : Nat)
  | arbGrant (n : Fin 16) (cycles : Nat)
  | deviceWriteCompletion (n : Fin 16) (line : LineNo)
  | deviceReadResponse (n : Fin 16) (line : LineNo) (poison : Bool) (overload : Bool)
  | isValidate (s : Fin 16) (v : Word)
  | isInvalidate (s : Fin 16)
  | prtValidate (n : Fin 64) (v : Word)
  | prtInvalidate (n : Fin 64)
  | gpfTimeoutWrite (v : Word)
  -- die and package links, R313 to R335; link 0-23 is a D-link 2d + l, 24-27 a P-link
  | dlReset (j : Fin 24)
  | laneCheckDone (j : Fin 24) (up : BitVec 34) (down : BitVec 34)
  | trainingPacket (j : Fin 24)
  | trainingAnswer (j : Fin 24) (pos : Nat) (step : BitVec 8)
  | dlinkTrainTimeout (j : Fin 24)
  | packetReceive (l : Fin 28) (p : LinkPacket)
  | nak (l : Fin 28) (seq : BitVec 12)
  | failover (j : Fin 24) (seq : BitVec 12)
  | dlFlush (j : Fin 24)
  | dlResume (j : Fin 24)
  | heartbeatSend (l : Fin 28)
  | heartbeat (l : Fin 28)
  | heartbeatTimeout (d : DieNo) (atHub : Bool)
  | plReset (k : Fin 4)
  | plinkTrain (k : Fin 4) (peer : PlPeer)
  | plinkDown (k : Fin 4)
  | linkStateNotice (p : Fin 16) (up : BitVec 4)
  | fabIdAssign (v : Word)
  | fwValidate (w : Fin 16) (v : Word)
  -- general root ports and mirror port, R339 to R355; win is window A, window B or BAR0
  | gpInboundWrite (r : Fin 4) (addr : Nat) (data : List Byte)
  | gpInboundRead (r : Fin 4) (addr : Nat) (len : Nat)
  | inboundMsi (r : Fin 4) (addr : Nat) (data : BitVec 32)
  | cxlCacheRequest (r : Fin 3) (addr : Nat) (wantsCopy : Bool) (data : Option LineData)
  | pcieCompletion (r : Fin 4) (ok : Bool) (v : Word)
  | completionTimeout (r : Fin 4)
  | gpLinkLoss (r : Fin 4)
  | gpRetrain (r : Fin 4)
  | iwValidate (r : Fin 4) (j : Fin 32) (v : Word)
  | iwInvalidate (r : Fin 4) (j : Fin 32)
  | gdwValidate (w : Fin 8) (v : Word)
  | aspmL0sEntry (p : Fin 4)
  | aspmL1Entry (p : Fin 4) (partner : Bool)
  | ptmRequest (r : Fin 4)
  | mirrorInboundWrite (winB : Bool) (ofs : Nat) (data : List Byte)
  | mirrorInboundRead (win : Fin 3) (ofs : Nat) (len : Nat)
  | cutDb (v : Word)
  | hostDb (i : Fin 16)
  | mwCommit (v : Word)
  | mirrorLinkDown
  | mirRetrain
  -- runners, cues and virtual machines, R358 to R382
  | vrfSqtail (f : Fin 256) (v : Word)
  | descriptorFetch (f : Fin 256)
  | runCopy (f : Fin 256)
  | runFill (f : Fin 256)
  | runCrc (f : Fin 256)
  | runCsum (f : Fin 256)
  | runShip (f : Fin 256)
  | runnerUnitDone (e : Fin 32)
  | completionRecord (f : Fin 256)
  | vrfEn (f : Fin 256) (v : Word)
  | vrfNlog2Write (f : Fin 256) (v : Word)
  | ringResize (f : Fin 256)
  | vrfResetGen (f : Fin 256)
  | vrfResetQuiesce (f : Fin 256)
  | vrfQuiesce (f : Fin 256)
  | vrfQuiesced (f : Fin 256)
  | lateResponse (f : Fin 256)
  | rnModeWrite (v : Word)
  | rnCreditsWrite (e : Fin 32) (v : Word)
  | vrhWinValidate (f : Fin 256) (i : Fin 8) (v : Word)
  | vmrstCmd (v : Word)
  | qosAlloc (v : Word)
  | cueRaise (v : Fin 8192)
  | cuePtbaseValidate (i : Fin 1024) (v : Word)
  -- enclave engine, key slots, debug, R390 to R410
  | enclaveCreate
  | enclaveAdd
  | enclaveFinal
  | enclaveRemove
  | enclaveDestroy
  | enclaveSlotclr
  | enctBaseValidate (v : Word)
  | loadRandom (s : Fin 1024)
  | loadSealed (s : Fin 1024)
  | ksClear (s : Fin 1024)
  | dbgCheck (sigOk : Bool)
  | thermalEmergency (c : Fin 60)
  | graceExpiry (c : Fin 60)
  -- sparing, fencing and banks, R415 to R432, R41
  | coreSpareGo (d : DieNo) (l : Fin 18) (lvl : Lvl)
  | spareL1Answer (d : DieNo)
  | spareL1Timeout (d : DieNo) (l : Fin 18)
  | spareDrainDone (d : DieNo) (dropped : Nat)
  | dieFence (d : DieNo) (lvl : Lvl)
  | fatalDieReport (d : DieNo) (bank : Option BankRec)
  | fenceReclaimDone (d : DieNo)
  | mcBankClear (b : Fin 354) (lvl : Lvl)
  | mcDiebankClear (d : DieNo) (lvl : Lvl)
  | watchdogExpiry (bank : Fin 354)
  -- gaffer, power states, resets of dies and threads, R442 to R460
  | gafferSample (g : GafSample)
  | rootStep (d : DieNo)
  | setFreq (t : Tid) (target : BitVec 7) (arg : BitVec 16) (tag : BitVec 16)
  | gate (t : Tid) (target : BitVec 7) (tag : BitVec 16)
  | ungate (t : Tid) (target : BitVec 7) (tag : BitVec 16)
  | deep (t : Tid) (tag : BitVec 16)
  | off (t : Tid) (tag : BitVec 16)
  | withdraw (t : Tid) (tag : BitVec 16)
  | deepIdleTimeout
  | deepExit
  | sleepEntry (c : Fin 60)
  | dieRstReset (d : DieNo) (lvl : Lvl)
  | dieRstHoldRelease (d : DieNo) (lvl : Lvl)
  | thrStart (d : DieNo) (l : Fin 18) (th : Fin 2) (lvl : Lvl)
  | padReleaseBus (lvl : Lvl)
  | padReleaseGpio (lvl : Lvl)
  -- dailies, calendar, windows, R473 to R498
  | dailiesUpdate
  | wearDay
  | calSet (v : Word) (lvl : Lvl)
  | calAlarmFire
  | bwWindowEnd (p : Fin 48) (rd : BitVec 48) (wr : BitVec 48)
  | bwWinWrite (p : Fin 48) (v : Word) (lvl : Lvl)
  | bwPclr (p : Fin 48) (lvl : Lvl)
  -- any register, R12; later rows of the table
  | registerWrite (addr : Nat) (size : Nat) (v : Word) (lvl : Lvl)
  | mirrorConfigRequest (wr : Bool) (reg : Nat) (v : Word)
  | pcieLinkUp (p : Fin 4) (width : Nat) (rate : Nat) (cxlm : Bool) (pbr : Bool)
  | trefclkWarn
  | xtalReturn
  | railInRange (r : Rail)
  | clapDnPresentLoss
  | cutTriggerForward (p : Fin 16) (dom : Dom)
  | rollbackForward (dom : Dom)
  | domainSpoilForward (dom : Dom)
  | jtagDebugAccess (op : JtagOp)
deriving DecidableEq, Repr

end Sys2Proof
end

