-- ==== Sys2Proof/Machine/Regs.lean ====
section
/-!
DEFINITION. The registers of I/O space (R12 to R16, R523): their addresses, their fields with access code and reset
value, their lock bits, and which of them the always-on well keeps. Each register's rule of the spec stands beside it.
-/
namespace Sys2Proof.Machine

/-- The access codes of R12. -/
inductive Acc where
  | ro
  | rw
  | w1c
  | w1s
  | wo
  | rwl
deriving DecidableEq, Repr

/-- A field of a register: lowest bit, width, access, reset value, and the range of its values that are no reserved
encoding (R16). -/
structure Fld where
  lo   : Nat
  w    : Nat
  acc  : Acc
  rst  : Nat
  okLo : Nat
  okHi : Nat
deriving DecidableEq, Repr

/-- A reference to a field of the register at an address. -/
structure FRef where
  addr : Nat
  lo   : Nat
  w    : Nat
deriving DecidableEq, Repr

/-- A family of registers: register (i, j) with i < n1 and j < n2 lies at base + i * s1 + j * s2. lockA + i * lockS is the
register of its lock bit (0: no RWL field); mOnly: writes from below M are ignored; aon: kept by the always-on well. -/
structure RegDesc where
  base  : Nat
  n1    : Nat
  s1    : Nat
  n2    : Nat
  s2    : Nat
  flds  : List Fld
  lockA : Nat
  lockS : Nat
  lockB : Nat
  mOnly : Bool
  aon   : Bool
deriving DecidableEq, Repr

/-- A field of which every value is defined. -/
def fld (lo w : Nat) (acc : Acc) (rst : Nat) : Fld := ⟨lo, w, acc, rst, 0, 2 ^ w - 1⟩

/-- PKG_CAPS, R327. -/
abbrev A.PKG_CAPS : Nat := 0xfe0000000000
abbrev F.PKG_CAPS_PART : FRef := ⟨A.PKG_CAPS, 32, 16⟩
abbrev F.PKG_CAPS_HSTEP : FRef := ⟨A.PKG_CAPS, 24, 8⟩
abbrev F.PKG_CAPS_RUNNING : FRef := ⟨A.PKG_CAPS, 12, 12⟩
def D.PKG_CAPS : RegDesc := ⟨0xfe0000000000, 1, 0x0, 1, 0x0,
  [fld 32 16 .ro 0x3428, fld 24 8 .ro 16, fld 12 12 .ro 0],
  0x0, 0x0, 0, false, false⟩
/-- PKG_FEAT, R327. -/
abbrev A.PKG_FEAT : Nat := 0xfe0000000008
abbrev F.PKG_FEAT_FEAT : FRef := ⟨A.PKG_FEAT, 0, 32⟩
def D.PKG_FEAT : RegDesc := ⟨0xfe0000000008, 1, 0x0, 1, 0x0,
  [fld 0 32 .ro 1],
  0x0, 0x0, 0, false, false⟩
/-- PKG_DIEd, R327. -/
abbrev A.PKG_DIEd (i : Nat) : Nat := 0xfe0000000100 + i * 0x8
abbrev F.PKG_DIEd_DFEAT (i : Nat) : FRef := ⟨A.PKG_DIEd i, 24, 32⟩
abbrev F.PKG_DIEd_STEP (i : Nat) : FRef := ⟨A.PKG_DIEd i, 16, 8⟩
abbrev F.PKG_DIEd_CORES (i : Nat) : FRef := ⟨A.PKG_DIEd i, 8, 5⟩
abbrev F.PKG_DIEd_STATE (i : Nat) : FRef := ⟨A.PKG_DIEd i, 0, 3⟩
def D.PKG_DIEd : RegDesc := ⟨0xfe0000000100, 12, 0x8, 1, 0x0,
  [fld 24 32 .ro 0, fld 16 8 .ro 0, fld 8 5 .ro 0, fld 0 3 .ro 5],
  0x0, 0x0, 0, false, false⟩
/-- DIR_BINV, R204. -/
abbrev A.DIR_BINV : Nat := 0xfe0000001000
abbrev F.DIR_BINV_COUNT : FRef := ⟨A.DIR_BINV, 0, 48⟩
def D.DIR_BINV : RegDesc := ⟨0xfe0000001000, 1, 0x0, 1, 0x0,
  [fld 0 48 .ro 0],
  0x0, 0x0, 0, false, false⟩
/-- DIR_RECLAIM, R204. -/
abbrev A.DIR_RECLAIM : Nat := 0xfe0000001008
abbrev F.DIR_RECLAIM_BUSY : FRef := ⟨A.DIR_RECLAIM, 8, 1⟩
abbrev F.DIR_RECLAIM_REMOTE : FRef := ⟨A.DIR_RECLAIM, 7, 1⟩
abbrev F.DIR_RECLAIM_AGENT : FRef := ⟨A.DIR_RECLAIM, 0, 4⟩
def D.DIR_RECLAIM : RegDesc := ⟨0xfe0000001008, 1, 0x0, 1, 0x0,
  [fld 8 1 .ro 0, fld 7 1 .ro 0, fld 0 4 .ro 0],
  0x0, 0x0, 0, false, false⟩
/-- DIR_POISONED, R204. -/
abbrev A.DIR_POISONED : Nat := 0xfe0000001010
abbrev F.DIR_POISONED_COUNT : FRef := ⟨A.DIR_POISONED, 0, 32⟩
def D.DIR_POISONED : RegDesc := ⟨0xfe0000001010, 1, 0x0, 1, 0x0,
  [fld 0 32 .w1c 0],
  0x0, 0x0, 0, false, false⟩
/-- WRAP_CTL, R264. -/
abbrev A.WRAP_CTL : Nat := 0xfe0000003000
abbrev F.WRAP_CTL_GPF_TIMEOUT : FRef := ⟨A.WRAP_CTL, 8, 16⟩
abbrev F.WRAP_CTL_TOREF : FRef := ⟨A.WRAP_CTL, 3, 1⟩
abbrev F.WRAP_CTL_AUTORESTART : FRef := ⟨A.WRAP_CTL, 2, 1⟩
abbrev F.WRAP_CTL_LOCK : FRef := ⟨A.WRAP_CTL, 0, 1⟩
def D.WRAP_CTL : RegDesc := ⟨0xfe0000003000, 1, 0x0, 1, 0x0,
  [⟨8, 16, .rwl, 300, 50, 350⟩, fld 3 1 .w1c 0, fld 2 1 .rwl 1, fld 0 1 .w1s 0],
  0xfe0000003000, 0x0, 0, false, false⟩
/-- WRAP_STAT, R264. -/
abbrev A.WRAP_STAT : Nat := 0xfe0000003008
abbrev F.WRAP_STAT_GPF_LATE : FRef := ⟨A.WRAP_STAT, 32, 16⟩
abbrev F.WRAP_STAT_CAUSE : FRef := ⟨A.WRAP_STAT, 8, 4⟩
abbrev F.WRAP_STAT_CHATTER : FRef := ⟨A.WRAP_STAT, 7, 1⟩
abbrev F.WRAP_STAT_STUCK : FRef := ⟨A.WRAP_STAT, 6, 1⟩
abbrev F.WRAP_STAT_MISSING : FRef := ⟨A.WRAP_STAT, 5, 1⟩
abbrev F.WRAP_STAT_VALID : FRef := ⟨A.WRAP_STAT, 0, 1⟩
def D.WRAP_STAT : RegDesc := ⟨0xfe0000003008, 1, 0x0, 1, 0x0,
  [fld 32 16 .ro 0, fld 8 4 .ro 0, fld 7 1 .w1c 0, fld 6 1 .w1c 0, fld 5 1 .w1c 0, fld 0 1 .w1c 0],
  0x0, 0x0, 0, false, false⟩
/-- RESTART_T0, R264. -/
abbrev A.RESTART_T0 : Nat := 0xfe0000003010
abbrev F.RESTART_T0_DEVWAIT_MS : FRef := ⟨A.RESTART_T0, 48, 16⟩
abbrev F.RESTART_T0_PORTS_MS : FRef := ⟨A.RESTART_T0, 32, 16⟩
abbrev F.RESTART_T0_CDIE_MS : FRef := ⟨A.RESTART_T0, 16, 16⟩
abbrev F.RESTART_T0_BOOT_MS : FRef := ⟨A.RESTART_T0, 0, 16⟩
def D.RESTART_T0 : RegDesc := ⟨0xfe0000003010, 1, 0x0, 1, 0x0,
  [fld 48 16 .ro 0, fld 32 16 .ro 0, fld 16 16 .ro 0, fld 0 16 .ro 0],
  0x0, 0x0, 0, false, false⟩
/-- RESTART_T1, R264. -/
abbrev A.RESTART_T1 : Nat := 0xfe0000003018
abbrev F.RESTART_T1_TOTAL_MS : FRef := ⟨A.RESTART_T1, 48, 16⟩
abbrev F.RESTART_T1_MON_MS : FRef := ⟨A.RESTART_T1, 32, 16⟩
abbrev F.RESTART_T1_ROLL_MS : FRef := ⟨A.RESTART_T1, 16, 16⟩
abbrev F.RESTART_T1_SCAN_MS : FRef := ⟨A.RESTART_T1, 0, 16⟩
def D.RESTART_T1 : RegDesc := ⟨0xfe0000003018, 1, 0x0, 1, 0x0,
  [fld 48 16 .ro 0, fld 32 16 .ro 0, fld 16 16 .ro 0, fld 0 16 .ro 0],
  0x0, 0x0, 0, false, false⟩
/-- RESTART_DOMn, R264. -/
abbrev A.RESTART_DOMn (i : Nat) : Nat := 0xfe0000003100 + i * 0x8
abbrev F.RESTART_DOMn_UNDO_MIB (i : Nat) : FRef := ⟨A.RESTART_DOMn i, 32, 32⟩
abbrev F.RESTART_DOMn_FULLSCAN (i : Nat) : FRef := ⟨A.RESTART_DOMn i, 7, 1⟩
abbrev F.RESTART_DOMn_KEYMISS (i : Nat) : FRef := ⟨A.RESTART_DOMn i, 6, 1⟩
abbrev F.RESTART_DOMn_LEADWAIT (i : Nat) : FRef := ⟨A.RESTART_DOMn i, 5, 1⟩
abbrev F.RESTART_DOMn_UNREAD (i : Nat) : FRef := ⟨A.RESTART_DOMn i, 4, 1⟩
abbrev F.RESTART_DOMn_GPFLATE (i : Nat) : FRef := ⟨A.RESTART_DOMn i, 3, 1⟩
abbrev F.RESTART_DOMn_ROLLED (i : Nat) : FRef := ⟨A.RESTART_DOMn i, 0, 1⟩
def D.RESTART_DOMn : RegDesc := ⟨0xfe0000003100, 8, 0x8, 1, 0x0,
  [fld 32 32 .ro 0, fld 7 1 .ro 0, fld 6 1 .ro 0, fld 5 1 .ro 0, fld 4 1 .ro 0, fld 3 1 .ro 0, fld 0 1 .ro 0],
  0x0, 0x0, 0, false, false⟩
/-- IS_CTLs, R308. -/
abbrev A.IS_CTLs (i : Nat) : Nat := 0xfe0000004000 + i * 0x20
abbrev F.IS_CTLs_DEVOFF (i : Nat) : FRef := ⟨A.IS_CTLs i, 21, 20⟩
abbrev F.IS_CTLs_ORDER (i : Nat) : FRef := ⟨A.IS_CTLs i, 7, 2⟩
abbrev F.IS_CTLs_GRAN (i : Nat) : FRef := ⟨A.IS_CTLs i, 5, 2⟩
abbrev F.IS_CTLs_WAYS (i : Nat) : FRef := ⟨A.IS_CTLs i, 2, 3⟩
abbrev F.IS_CTLs_V (i : Nat) : FRef := ⟨A.IS_CTLs i, 0, 1⟩
def D.IS_CTLs : RegDesc := ⟨0xfe0000004000, 16, 0x20, 1, 0x0,
  [fld 21 20 .rw 0, ⟨7, 2, .rw, 0, 0, 2⟩, ⟨5, 2, .rw, 0, 0, 2⟩, ⟨2, 3, .rw, 0, 0, 4⟩, fld 0 1 .rw 0],
  0x0, 0x0, 0, false, false⟩
/-- IS_PORTSs, R308. -/
abbrev A.IS_PORTSs (i : Nat) : Nat := 0xfe0000004008 + i * 0x20
abbrev F.IS_PORTSs_PORT (i : Nat) : FRef := ⟨A.IS_PORTSs i, 0, 64⟩
def D.IS_PORTSs : RegDesc := ⟨0xfe0000004008, 16, 0x20, 1, 0x0,
  [fld 0 64 .rw 0],
  0x0, 0x0, 0, false, false⟩
/-- IS_BASEs, R308. -/
abbrev A.IS_BASEs (i : Nat) : Nat := 0xfe0000004010 + i * 0x20
abbrev F.IS_BASEs_BASE (i : Nat) : FRef := ⟨A.IS_BASEs i, 21, 31⟩
def D.IS_BASEs : RegDesc := ⟨0xfe0000004010, 16, 0x20, 1, 0x0,
  [fld 21 31 .rw 0],
  0x0, 0x0, 0, false, false⟩
/-- IS_SIZEs, R308. -/
abbrev A.IS_SIZEs (i : Nat) : Nat := 0xfe0000004018 + i * 0x20
abbrev F.IS_SIZEs_SIZE (i : Nat) : FRef := ⟨A.IS_SIZEs i, 21, 31⟩
def D.IS_SIZEs : RegDesc := ⟨0xfe0000004018, 16, 0x20, 1, 0x0,
  [fld 21 31 .rw 0],
  0x0, 0x0, 0, false, false⟩
/-- IS_REFUSE, R308. -/
abbrev A.IS_REFUSE : Nat := 0xfe0000004200
abbrev F.IS_REFUSE_VALID : FRef := ⟨A.IS_REFUSE, 8, 1⟩
abbrev F.IS_REFUSE_REASON : FRef := ⟨A.IS_REFUSE, 4, 4⟩
abbrev F.IS_REFUSE_SET : FRef := ⟨A.IS_REFUSE, 0, 4⟩
def D.IS_REFUSE : RegDesc := ⟨0xfe0000004200, 1, 0x0, 1, 0x0,
  [fld 8 1 .w1c 0, fld 4 4 .ro 0, fld 0 4 .ro 0],
  0x0, 0x0, 0, false, false⟩
/-- IS_UNDEC, R308. -/
abbrev A.IS_UNDEC : Nat := 0xfe0000004208
abbrev F.IS_UNDEC_COUNT : FRef := ⟨A.IS_UNDEC, 0, 32⟩
def D.IS_UNDEC : RegDesc := ⟨0xfe0000004208, 1, 0x0, 1, 0x0,
  [fld 0 32 .ro 0],
  0x0, 0x0, 0, false, false⟩
/-- PKG_RST, R468. -/
abbrev A.PKG_RST : Nat := 0xfe0000005000
abbrev F.PKG_RST_WARM : FRef := ⟨A.PKG_RST, 1, 1⟩
abbrev F.PKG_RST_COLD : FRef := ⟨A.PKG_RST, 0, 1⟩
def D.PKG_RST : RegDesc := ⟨0xfe0000005000, 1, 0x0, 1, 0x0,
  [fld 1 1 .wo 0, fld 0 1 .wo 0],
  0x0, 0x0, 0, true, false⟩
/-- DIE_RSTd, R468. -/
abbrev A.DIE_RSTd (i : Nat) : Nat := 0xfe0000005008 + i * 0x8
abbrev F.DIE_RSTd_HOLD (i : Nat) : FRef := ⟨A.DIE_RSTd i, 2, 1⟩
abbrev F.DIE_RSTd_RESET (i : Nat) : FRef := ⟨A.DIE_RSTd i, 1, 1⟩
abbrev F.DIE_RSTd_FENCE (i : Nat) : FRef := ⟨A.DIE_RSTd i, 0, 1⟩
def D.DIE_RSTd : RegDesc := ⟨0xfe0000005008, 12, 0x8, 1, 0x0,
  [fld 2 1 .rw 0, fld 1 1 .wo 0, fld 0 1 .wo 0],
  0x0, 0x0, 0, true, false⟩
/-- BOOT_STAT, R468. -/
abbrev A.BOOT_STAT : Nat := 0xfe0000005100
abbrev F.BOOT_STAT_VERSION : FRef := ⟨A.BOOT_STAT, 32, 32⟩
abbrev F.BOOT_STAT_COPY : FRef := ⟨A.BOOT_STAT, 24, 4⟩
abbrev F.BOOT_STAT_REASON : FRef := ⟨A.BOOT_STAT, 16, 8⟩
abbrev F.BOOT_STAT_STEP : FRef := ⟨A.BOOT_STAT, 0, 8⟩
def D.BOOT_STAT : RegDesc := ⟨0xfe0000005100, 1, 0x0, 1, 0x0,
  [fld 32 32 .ro 0, fld 24 4 .ro 0, fld 16 8 .ro 0, fld 0 8 .ro 1],
  0x0, 0x0, 0, true, false⟩
/-- TK_CAPS, R242. -/
abbrev A.TK_CAPS : Nat := 0xfe0000100000
abbrev F.TK_CAPS_STAGE : FRef := ⟨A.TK_CAPS, 8, 8⟩
abbrev F.TK_CAPS_DOMAINS : FRef := ⟨A.TK_CAPS, 0, 4⟩
def D.TK_CAPS : RegDesc := ⟨0xfe0000100000, 1, 0x0, 1, 0x0,
  [fld 8 8 .ro 16, fld 0 4 .ro 8],
  0x0, 0x0, 0, false, false⟩
/-- TK_LOCK, R242. -/
abbrev A.TK_LOCK : Nat := 0xfe0000100008
abbrev F.TK_LOCK_LOCK : FRef := ⟨A.TK_LOCK, 0, 1⟩
def D.TK_LOCK : RegDesc := ⟨0xfe0000100008, 1, 0x0, 1, 0x0,
  [fld 0 1 .w1s 0],
  0x0, 0x0, 0, false, false⟩
/-- TK_UNDO, R242. -/
abbrev A.TK_UNDO : Nat := 0xfe0000100010
abbrev F.TK_UNDO_ACCEPTED : FRef := ⟨A.TK_UNDO, 32, 32⟩
abbrev F.TK_UNDO_PERSISTED : FRef := ⟨A.TK_UNDO, 0, 32⟩
def D.TK_UNDO : RegDesc := ⟨0xfe0000100010, 1, 0x0, 1, 0x0,
  [fld 32 32 .ro 0, fld 0 32 .ro 0],
  0x0, 0x0, 0, false, false⟩
/-- TK_HELD, R242. -/
abbrev A.TK_HELD : Nat := 0xfe0000100018
abbrev F.TK_HELD_COUNT : FRef := ⟨A.TK_HELD, 0, 24⟩
def D.TK_HELD : RegDesc := ⟨0xfe0000100018, 1, 0x0, 1, 0x0,
  [fld 0 24 .ro 0],
  0x0, 0x0, 0, false, false⟩
/-- TDn_CFG, R243. -/
abbrev A.TDn_CFG (i : Nat) : Nat := 0xfe0000101000 + i * 0x100
abbrev F.TDn_CFG_RKSLOT (i : Nat) : FRef := ⟨A.TDn_CFG i, 32, 10⟩
abbrev F.TDn_CFG_PERIOD (i : Nat) : FRef := ⟨A.TDn_CFG i, 16, 16⟩
abbrev F.TDn_CFG_LEAD (i : Nat) : FRef := ⟨A.TDn_CFG i, 12, 4⟩
abbrev F.TDn_CFG_MIRTRIG (i : Nat) : FRef := ⟨A.TDn_CFG i, 3, 1⟩
abbrev F.TDn_CFG_SPAN (i : Nat) : FRef := ⟨A.TDn_CFG i, 2, 1⟩
abbrev F.TDn_CFG_EN (i : Nat) : FRef := ⟨A.TDn_CFG i, 0, 1⟩
def D.TDn_CFG : RegDesc := ⟨0xfe0000101000, 8, 0x100, 1, 0x0,
  [fld 32 10 .rwl 0, fld 16 16 .rw 0, fld 12 4 .rwl 0, fld 3 1 .rw 0, fld 2 1 .rwl 0, fld 0 1 .rwl 0],
  0xfe0000100008, 0x0, 0, false, false⟩
/-- TDn_SEG0, R243. -/
abbrev A.TDn_SEG0 (i : Nat) : Nat := 0xfe0000101008 + i * 0x100
abbrev F.TDn_SEG0_BASE (i : Nat) : FRef := ⟨A.TDn_SEG0 i, 30, 22⟩
abbrev F.TDn_SEG0_GIB (i : Nat) : FRef := ⟨A.TDn_SEG0 i, 0, 11⟩
def D.TDn_SEG0 : RegDesc := ⟨0xfe0000101008, 8, 0x100, 1, 0x0,
  [fld 30 22 .rwl 0, ⟨0, 11, .rwl, 0, 0, 1024⟩],
  0xfe0000100008, 0x0, 0, false, false⟩
/-- TDn_SEG1, R243. -/
abbrev A.TDn_SEG1 (i : Nat) : Nat := 0xfe0000101010 + i * 0x100
abbrev F.TDn_SEG1_BASE (i : Nat) : FRef := ⟨A.TDn_SEG1 i, 30, 22⟩
abbrev F.TDn_SEG1_LINK (i : Nat) : FRef := ⟨A.TDn_SEG1 i, 11, 1⟩
abbrev F.TDn_SEG1_GIB (i : Nat) : FRef := ⟨A.TDn_SEG1 i, 0, 11⟩
def D.TDn_SEG1 : RegDesc := ⟨0xfe0000101010, 8, 0x100, 1, 0x0,
  [fld 30 22 .rw 0, fld 11 1 .rw 0, ⟨0, 11, .rw, 0, 0, 1024⟩],
  0x0, 0x0, 0, false, false⟩
/-- TDn_TAKE, R243. -/
abbrev A.TDn_TAKE (i : Nat) : Nat := 0xfe0000101018 + i * 0x100
abbrev F.TDn_TAKE_OPEN (i : Nat) : FRef := ⟨A.TDn_TAKE i, 0, 64⟩
def D.TDn_TAKE : RegDesc := ⟨0xfe0000101018, 8, 0x100, 1, 0x0,
  [fld 0 64 .ro 0],
  0x0, 0x0, 0, false, false⟩
/-- TDn_CUT, R243. -/
abbrev A.TDn_CUT (i : Nat) : Nat := 0xfe0000101020 + i * 0x100
abbrev F.TDn_CUT_LAST (i : Nat) : FRef := ⟨A.TDn_CUT i, 0, 64⟩
def D.TDn_CUT : RegDesc := ⟨0xfe0000101020, 8, 0x100, 1, 0x0,
  [fld 0 64 .ro 0],
  0x0, 0x0, 0, false, false⟩
/-- TDn_CUTSLATE, R243. -/
abbrev A.TDn_CUTSLATE (i : Nat) : Nat := 0xfe0000101028 + i * 0x100
abbrev F.TDn_CUTSLATE_SLATE (i : Nat) : FRef := ⟨A.TDn_CUTSLATE i, 0, 64⟩
def D.TDn_CUTSLATE : RegDesc := ⟨0xfe0000101028, 8, 0x100, 1, 0x0,
  [fld 0 64 .ro 0],
  0x0, 0x0, 0, false, false⟩
/-- TDn_SPOIL, R243. -/
abbrev A.TDn_SPOIL (i : Nat) : Nat := 0xfe0000101030 + i * 0x100
abbrev F.TDn_SPOIL_FIRST (i : Nat) : FRef := ⟨A.TDn_SPOIL i, 0, 64⟩
def D.TDn_SPOIL : RegDesc := ⟨0xfe0000101030, 8, 0x100, 1, 0x0,
  [fld 0 64 .ro 0],
  0x0, 0x0, 0, false, false⟩
/-- TDn_RESUME, R243. -/
abbrev A.TDn_RESUME (i : Nat) : Nat := 0xfe0000101038 + i * 0x100
abbrev F.TDn_RESUME_TAKE (i : Nat) : FRef := ⟨A.TDn_RESUME i, 0, 64⟩
def D.TDn_RESUME : RegDesc := ⟨0xfe0000101038, 8, 0x100, 1, 0x0,
  [fld 0 64 .ro 0],
  0x0, 0x0, 0, false, false⟩
/-- TDn_STAT, R243. -/
abbrev A.TDn_STAT (i : Nat) : Nat := 0xfe0000101040 + i * 0x100
abbrev F.TDn_STAT_CFGREASON (i : Nat) : FRef := ⟨A.TDn_STAT i, 8, 8⟩
abbrev F.TDn_STAT_FOREIGN (i : Nat) : FRef := ⟨A.TDn_STAT i, 5, 1⟩
abbrev F.TDn_STAT_CFGERR (i : Nat) : FRef := ⟨A.TDn_STAT i, 4, 1⟩
abbrev F.TDn_STAT_ROLLING (i : Nat) : FRef := ⟨A.TDn_STAT i, 3, 1⟩
abbrev F.TDn_STAT_SPOILED (i : Nat) : FRef := ⟨A.TDn_STAT i, 2, 1⟩
abbrev F.TDn_STAT_CUTTING (i : Nat) : FRef := ⟨A.TDn_STAT i, 1, 1⟩
abbrev F.TDn_STAT_PENDING (i : Nat) : FRef := ⟨A.TDn_STAT i, 0, 1⟩
def D.TDn_STAT : RegDesc := ⟨0xfe0000101040, 8, 0x100, 1, 0x0,
  [fld 8 8 .ro 0, fld 5 1 .w1c 0, fld 4 1 .w1c 0, fld 3 1 .ro 0, fld 2 1 .ro 0, fld 1 1 .ro 0, fld 0 1 .ro 0],
  0x0, 0x0, 0, false, false⟩
/-- TDn_HEAD, R243. -/
abbrev A.TDn_HEAD (i : Nat) : Nat := 0xfe0000101048 + i * 0x100
abbrev F.TDn_HEAD_OFFSET (i : Nat) : FRef := ⟨A.TDn_HEAD i, 0, 64⟩
def D.TDn_HEAD : RegDesc := ⟨0xfe0000101048, 8, 0x100, 1, 0x0,
  [fld 0 64 .ro 0],
  0x0, 0x0, 0, false, false⟩
/-- TDn_TAIL, R243. -/
abbrev A.TDn_TAIL (i : Nat) : Nat := 0xfe0000101050 + i * 0x100
abbrev F.TDn_TAIL_OFFSET (i : Nat) : FRef := ⟨A.TDn_TAIL i, 0, 64⟩
def D.TDn_TAIL : RegDesc := ⟨0xfe0000101050, 8, 0x100, 1, 0x0,
  [fld 0 64 .ro 0],
  0x0, 0x0, 0, false, false⟩
/-- TDn_CMD, R243. -/
abbrev A.TDn_CMD (i : Nat) : Nat := 0xfe0000101058 + i * 0x100
abbrev F.TDn_CMD_CMD (i : Nat) : FRef := ⟨A.TDn_CMD i, 0, 2⟩
def D.TDn_CMD : RegDesc := ⟨0xfe0000101058, 8, 0x100, 1, 0x0,
  [fld 0 2 .wo 0],
  0x0, 0x0, 0, false, false⟩
/-- TDn_OVF, R243. -/
abbrev A.TDn_OVF (i : Nat) : Nat := 0xfe0000101060 + i * 0x100
abbrev F.TDn_OVF_COUNT (i : Nat) : FRef := ⟨A.TDn_OVF i, 0, 32⟩
def D.TDn_OVF : RegDesc := ⟨0xfe0000101060, 8, 0x100, 1, 0x0,
  [fld 0 32 .ro 0],
  0x0, 0x0, 0, false, false⟩
/-- TDn_DISC, R243. -/
abbrev A.TDn_DISC (i : Nat) : Nat := 0xfe0000101068 + i * 0x100
abbrev F.TDn_DISC_COUNT (i : Nat) : FRef := ⟨A.TDn_DISC i, 0, 32⟩
def D.TDn_DISC : RegDesc := ⟨0xfe0000101068, 8, 0x100, 1, 0x0,
  [fld 0 32 .ro 0],
  0x0, 0x0, 0, false, false⟩
/-- SLATE_CAPS, R289. -/
abbrev A.SLATE_CAPS : Nat := 0xfe0000200000
abbrev F.SLATE_CAPS_UNIT_PS : FRef := ⟨A.SLATE_CAPS, 8, 8⟩
abbrev F.SLATE_CAPS_PHASES : FRef := ⟨A.SLATE_CAPS, 0, 8⟩
def D.SLATE_CAPS : RegDesc := ⟨0xfe0000200000, 1, 0x0, 1, 0x0,
  [fld 8 8 .ro 125, fld 0 8 .ro 64],
  0x0, 0x0, 0, false, false⟩
/-- SLATE_CTL, R289. -/
abbrev A.SLATE_CTL : Nat := 0xfe0000200008
abbrev F.SLATE_CTL_HOLDOVER_RATE : FRef := ⟨A.SLATE_CTL, 16, 16⟩
abbrev F.SLATE_CTL_LEADP : FRef := ⟨A.SLATE_CTL, 12, 4⟩
abbrev F.SLATE_CTL_DN_EN : FRef := ⟨A.SLATE_CTL, 5, 1⟩
abbrev F.SLATE_CTL_UP_EN : FRef := ⟨A.SLATE_CTL, 4, 1⟩
abbrev F.SLATE_CTL_ROLE : FRef := ⟨A.SLATE_CTL, 0, 2⟩
def D.SLATE_CTL : RegDesc := ⟨0xfe0000200008, 1, 0x0, 1, 0x0,
  [⟨16, 16, .rw, 40, 1, 65535⟩, fld 12 4 .rwl 0, fld 5 1 .rw 0, fld 4 1 .rw 0, ⟨0, 2, .rwl, 0, 0, 2⟩],
  0xfe0000200010, 0x0, 0, false, false⟩
/-- SLATE_LOCK, R289. -/
abbrev A.SLATE_LOCK : Nat := 0xfe0000200010
abbrev F.SLATE_LOCK_LOCK : FRef := ⟨A.SLATE_LOCK, 0, 1⟩
def D.SLATE_LOCK : RegDesc := ⟨0xfe0000200010, 1, 0x0, 1, 0x0,
  [fld 0 1 .w1s 0],
  0x0, 0x0, 0, false, false⟩
/-- SLATE_NOW, R289. -/
abbrev A.SLATE_NOW : Nat := 0xfe0000200018
abbrev F.SLATE_NOW_SLATE : FRef := ⟨A.SLATE_NOW, 0, 64⟩
def D.SLATE_NOW : RegDesc := ⟨0xfe0000200018, 1, 0x0, 1, 0x0,
  [fld 0 64 .ro 0],
  0x0, 0x0, 0, false, false⟩
/-- SLATE_SET, R289. -/
abbrev A.SLATE_SET : Nat := 0xfe0000200020
abbrev F.SLATE_SET_VALUE : FRef := ⟨A.SLATE_SET, 0, 64⟩
def D.SLATE_SET : RegDesc := ⟨0xfe0000200020, 1, 0x0, 1, 0x0,
  [fld 0 64 .wo 0],
  0x0, 0x0, 0, false, false⟩
/-- SLATE_ADJ, R289. -/
abbrev A.SLATE_ADJ : Nat := 0xfe0000200028
abbrev F.SLATE_ADJ_OFFSET : FRef := ⟨A.SLATE_ADJ, 0, 32⟩
def D.SLATE_ADJ : RegDesc := ⟨0xfe0000200028, 1, 0x0, 1, 0x0,
  [fld 0 32 .wo 0],
  0x0, 0x0, 0, false, false⟩
/-- SLATE_STAT, R289. -/
abbrev A.SLATE_STAT : Nat := 0xfe0000200030
abbrev F.SLATE_STAT_SATURATED : FRef := ⟨A.SLATE_STAT, 21, 1⟩
abbrev F.SLATE_STAT_SETREF : FRef := ⟨A.SLATE_STAT, 20, 1⟩
abbrev F.SLATE_STAT_EPOCHMIS : FRef := ⟨A.SLATE_STAT, 19, 1⟩
abbrev F.SLATE_STAT_LOOP : FRef := ⟨A.SLATE_STAT, 18, 1⟩
abbrev F.SLATE_STAT_REFFAULT : FRef := ⟨A.SLATE_STAT, 17, 1⟩
abbrev F.SLATE_STAT_REFWARN : FRef := ⟨A.SLATE_STAT, 16, 1⟩
abbrev F.SLATE_STAT_PHOPS : FRef := ⟨A.SLATE_STAT, 12, 4⟩
abbrev F.SLATE_STAT_DEPTH : FRef := ⟨A.SLATE_STAT, 8, 4⟩
abbrev F.SLATE_STAT_SOURCE : FRef := ⟨A.SLATE_STAT, 4, 2⟩
abbrev F.SLATE_STAT_STATE : FRef := ⟨A.SLATE_STAT, 0, 3⟩
def D.SLATE_STAT : RegDesc := ⟨0xfe0000200030, 1, 0x0, 1, 0x0,
  [fld 21 1 .ro 0, fld 20 1 .w1c 0, fld 19 1 .w1c 0, fld 18 1 .w1c 0, fld 17 1 .w1c 0, fld 16 1 .w1c 0, fld 12 4 .ro 0, fld 8 4 .ro 0, fld 4 2 .ro 0, fld 0 3 .ro 0],
  0x0, 0x0, 0, false, false⟩
/-- SLATE_UNC, R289. -/
abbrev A.SLATE_UNC : Nat := 0xfe0000200038
abbrev F.SLATE_UNC_PS : FRef := ⟨A.SLATE_UNC, 0, 64⟩
def D.SLATE_UNC : RegDesc := ⟨0xfe0000200038, 1, 0x0, 1, 0x0,
  [fld 0 64 .ro 0],
  0x0, 0x0, 0, false, false⟩
/-- SLATE_EPOCH, R289. -/
abbrev A.SLATE_EPOCH : Nat := 0xfe0000200040
abbrev F.SLATE_EPOCH_SECONDS : FRef := ⟨A.SLATE_EPOCH, 0, 32⟩
def D.SLATE_EPOCH : RegDesc := ⟨0xfe0000200040, 1, 0x0, 1, 0x0,
  [fld 0 32 .rwl 0],
  0xfe0000200010, 0x0, 0, false, true⟩
/-- SLATE_HOP, R289. -/
abbrev A.SLATE_HOP : Nat := 0xfe0000200048
abbrev F.SLATE_HOP_PLINK_PS : FRef := ⟨A.SLATE_HOP, 16, 16⟩
abbrev F.SLATE_HOP_CLAP_PS : FRef := ⟨A.SLATE_HOP, 0, 16⟩
def D.SLATE_HOP : RegDesc := ⟨0xfe0000200048, 1, 0x0, 1, 0x0,
  [fld 16 16 .rw 45, fld 0 16 .rw 90],
  0x0, 0x0, 0, false, false⟩
/-- SLATE_ROOTUNC, R289. -/
abbrev A.SLATE_ROOTUNC : Nat := 0xfe0000200050
abbrev F.SLATE_ROOTUNC_PS : FRef := ⟨A.SLATE_ROOTUNC, 0, 32⟩
def D.SLATE_ROOTUNC : RegDesc := ⟨0xfe0000200050, 1, 0x0, 1, 0x0,
  [fld 0 32 .rw 0],
  0x0, 0x0, 0, false, false⟩
/-- SLATE_OFS, R289. -/
abbrev A.SLATE_OFS : Nat := 0xfe0000200058
abbrev F.SLATE_OFS_DELAY : FRef := ⟨A.SLATE_OFS, 32, 32⟩
abbrev F.SLATE_OFS_OFFSET : FRef := ⟨A.SLATE_OFS, 0, 32⟩
def D.SLATE_OFS : RegDesc := ⟨0xfe0000200058, 1, 0x0, 1, 0x0,
  [fld 32 32 .ro 0, fld 0 32 .ro 0],
  0x0, 0x0, 0, false, false⟩
/-- CLAP_UP, R289. -/
abbrev A.CLAP_UP : Nat := 0xfe0000200100
abbrev F.CLAP_UP_FRAMES : FRef := ⟨A.CLAP_UP, 32, 32⟩
abbrev F.CLAP_UP_CRCERR : FRef := ⟨A.CLAP_UP, 16, 16⟩
abbrev F.CLAP_UP_PRESENT : FRef := ⟨A.CLAP_UP, 0, 1⟩
def D.CLAP_UP : RegDesc := ⟨0xfe0000200100, 1, 0x0, 1, 0x0,
  [fld 32 32 .ro 0, fld 16 16 .ro 0, fld 0 1 .ro 0],
  0x0, 0x0, 0, false, false⟩
/-- CLAP_DN, R289. -/
abbrev A.CLAP_DN : Nat := 0xfe0000200108
abbrev F.CLAP_DN_FRAMES : FRef := ⟨A.CLAP_DN, 32, 32⟩
abbrev F.CLAP_DN_CRCERR : FRef := ⟨A.CLAP_DN, 16, 16⟩
abbrev F.CLAP_DN_PRESENT : FRef := ⟨A.CLAP_DN, 0, 1⟩
def D.CLAP_DN : RegDesc := ⟨0xfe0000200108, 1, 0x0, 1, 0x0,
  [fld 32 32 .ro 0, fld 16 16 .ro 0, fld 0 1 .ro 0],
  0x0, 0x0, 0, false, false⟩
/-- CLAP_ASYM, R289. -/
abbrev A.CLAP_ASYM : Nat := 0xfe0000200110
abbrev F.CLAP_ASYM_PS : FRef := ⟨A.CLAP_ASYM, 0, 16⟩
def D.CLAP_ASYM : RegDesc := ⟨0xfe0000200110, 1, 0x0, 1, 0x0,
  [fld 0 16 .rw 0],
  0x0, 0x0, 0, false, false⟩
/-- PLT_ASYMk, R289. -/
abbrev A.PLT_ASYMk (i : Nat) : Nat := 0xfe0000200200 + i * 0x8
abbrev F.PLT_ASYMk_PS (i : Nat) : FRef := ⟨A.PLT_ASYMk i, 0, 16⟩
def D.PLT_ASYMk : RegDesc := ⟨0xfe0000200200, 4, 0x8, 1, 0x0,
  [fld 0 16 .rw 0],
  0x0, 0x0, 0, false, false⟩
/-- CUE_STAT, R382. -/
abbrev A.CUE_STAT : Nat := 0xfe0000300000
abbrev F.CUE_STAT_DROP : FRef := ⟨A.CUE_STAT, 32, 32⟩
abbrev F.CUE_STAT_PURGED : FRef := ⟨A.CUE_STAT, 0, 32⟩
def D.CUE_STAT : RegDesc := ⟨0xfe0000300000, 1, 0x0, 1, 0x0,
  [fld 32 32 .ro 0, fld 0 32 .ro 0],
  0x0, 0x0, 0, false, false⟩
/-- CUE_RAISE, R382. -/
abbrev A.CUE_RAISE : Nat := 0xfe0000300010
abbrev F.CUE_RAISE_VECTOR : FRef := ⟨A.CUE_RAISE, 0, 13⟩
def D.CUE_RAISE : RegDesc := ⟨0xfe0000300010, 1, 0x0, 1, 0x0,
  [fld 0 13 .wo 0],
  0x0, 0x0, 0, false, false⟩
/-- CUEV, R375. -/
abbrev A.CUEV (i : Nat) : Nat := 0xfe0000310000 + i * 0x8
abbrev F.CUEV_V (i : Nat) : FRef := ⟨A.CUEV i, 63, 1⟩
abbrev F.CUEV_VIRT (i : Nat) : FRef := ⟨A.CUEV i, 62, 1⟩
abbrev F.CUEV_LEVEL (i : Nat) : FRef := ⟨A.CUEV i, 60, 2⟩
abbrev F.CUEV_VMID (i : Nat) : FRef := ⟨A.CUEV i, 48, 12⟩
abbrev F.CUEV_MSIM (i : Nat) : FRef := ⟨A.CUEV i, 44, 4⟩
abbrev F.CUEV_PEND (i : Nat) : FRef := ⟨A.CUEV i, 24, 1⟩
abbrev F.CUEV_MASK (i : Nat) : FRef := ⟨A.CUEV i, 23, 1⟩
abbrev F.CUEV_TARGET (i : Nat) : FRef := ⟨A.CUEV i, 0, 23⟩
def D.CUEV : RegDesc := ⟨0xfe0000310000, 8192, 0x8, 1, 0x0,
  [fld 63 1 .rw 0, fld 62 1 .rw 0, ⟨60, 2, .rw, 1, 1, 3⟩, fld 48 12 .rw 0, fld 44 4 .rw 0, fld 24 1 .ro 0, fld 23 1 .rw 0, fld 0 23 .rw 0],
  0x0, 0x0, 0, false, false⟩
/-- CUE_PTBASEi, R382. -/
abbrev A.CUE_PTBASEi (i : Nat) : Nat := 0xfe0000320000 + i * 0x8
abbrev F.CUE_PTBASEi_BASE (i : Nat) : FRef := ⟨A.CUE_PTBASEi i, 6, 46⟩
abbrev F.CUE_PTBASEi_REFUSE (i : Nat) : FRef := ⟨A.CUE_PTBASEi i, 1, 1⟩
abbrev F.CUE_PTBASEi_V (i : Nat) : FRef := ⟨A.CUE_PTBASEi i, 0, 1⟩
def D.CUE_PTBASEi : RegDesc := ⟨0xfe0000320000, 1024, 0x8, 1, 0x0,
  [fld 6 46 .rw 0, fld 1 1 .w1c 0, fld 0 1 .rw 0],
  0x0, 0x0, 0, false, false⟩
/-- GAF_LIMIT, R466. -/
abbrev A.GAF_LIMIT : Nat := 0xfe0000400000
abbrev F.GAF_LIMIT_WINDOW_MS : FRef := ⟨A.GAF_LIMIT, 32, 16⟩
abbrev F.GAF_LIMIT_BURST_W : FRef := ⟨A.GAF_LIMIT, 16, 16⟩
abbrev F.GAF_LIMIT_SUSTAIN_W : FRef := ⟨A.GAF_LIMIT, 0, 16⟩
def D.GAF_LIMIT : RegDesc := ⟨0xfe0000400000, 1, 0x0, 1, 0x0,
  [⟨32, 16, .rwl, 1000, 10, 10000⟩, fld 16 16 .rwl 650, fld 0 16 .rwl 520],
  0xfe0000400010, 0x0, 0, false, false⟩
/-- GAF_STAGGER, R466. -/
abbrev A.GAF_STAGGER : Nat := 0xfe0000400008
abbrev F.GAF_STAGGER_DEEP_DIE_US : FRef := ⟨A.GAF_STAGGER, 32, 16⟩
abbrev F.GAF_STAGGER_CLU_US : FRef := ⟨A.GAF_STAGGER, 16, 16⟩
abbrev F.GAF_STAGGER_DIE_MS : FRef := ⟨A.GAF_STAGGER, 0, 8⟩
def D.GAF_STAGGER : RegDesc := ⟨0xfe0000400008, 1, 0x0, 1, 0x0,
  [⟨32, 16, .rw, 200, 50, 250⟩, ⟨16, 16, .rwl, 200, 50, 1000⟩, ⟨0, 8, .rwl, 4, 1, 15⟩],
  0xfe0000400010, 0x0, 0, false, false⟩
/-- GAF_PWR, R466. -/
abbrev A.GAF_PWR : Nat := 0xfe0000400010
abbrev F.GAF_PWR_SLEEP_US : FRef := ⟨A.GAF_PWR, 16, 16⟩
abbrev F.GAF_PWR_OFFPIN : FRef := ⟨A.GAF_PWR, 2, 1⟩
abbrev F.GAF_PWR_SLEEPEN : FRef := ⟨A.GAF_PWR, 1, 1⟩
abbrev F.GAF_PWR_LOCK : FRef := ⟨A.GAF_PWR, 0, 1⟩
def D.GAF_PWR : RegDesc := ⟨0xfe0000400010, 1, 0x0, 1, 0x0,
  [⟨16, 16, .rw, 100, 1, 65535⟩, fld 2 1 .rwl 0, fld 1 1 .rw 1, fld 0 1 .w1s 0],
  0xfe0000400010, 0x0, 0, false, false⟩
/-- GAF_STAT, R466. -/
abbrev A.GAF_STAT : Nat := 0xfe0000400018
abbrev F.GAF_STAT_PKG_W : FRef := ⟨A.GAF_STAT, 48, 16⟩
abbrev F.GAF_STAT_CAP_MHZ : FRef := ⟨A.GAF_STAT, 32, 16⟩
abbrev F.GAF_STAT_TJMAX : FRef := ⟨A.GAF_STAT, 24, 8⟩
abbrev F.GAF_STAT_WHY : FRef := ⟨A.GAF_STAT, 12, 4⟩
abbrev F.GAF_STAT_FOREIGN : FRef := ⟨A.GAF_STAT, 0, 12⟩
def D.GAF_STAT : RegDesc := ⟨0xfe0000400018, 1, 0x0, 1, 0x0,
  [fld 48 16 .ro 0, fld 32 16 .ro 3400, fld 24 8 .ro 0, fld 12 4 .ro 0, fld 0 12 .ro 0],
  0x0, 0x0, 0, false, false⟩
/-- GAF_DEEP, R466. -/
abbrev A.GAF_DEEP : Nat := 0xfe0000400020
abbrev F.GAF_DEEP_US : FRef := ⟨A.GAF_DEEP, 0, 64⟩
def D.GAF_DEEP : RegDesc := ⟨0xfe0000400020, 1, 0x0, 1, 0x0,
  [fld 0 64 .ro 0],
  0x0, 0x0, 0, false, false⟩
/-- GAF_DEEPCNT, R466. -/
abbrev A.GAF_DEEPCNT : Nat := 0xfe0000400028
abbrev F.GAF_DEEPCNT_ENTRIES : FRef := ⟨A.GAF_DEEPCNT, 32, 32⟩
abbrev F.GAF_DEEPCNT_ABORTS : FRef := ⟨A.GAF_DEEPCNT, 0, 32⟩
def D.GAF_DEEPCNT : RegDesc := ⟨0xfe0000400028, 1, 0x0, 1, 0x0,
  [fld 32 32 .ro 0, fld 0 32 .ro 0],
  0x0, 0x0, 0, false, false⟩
/-- PAD_RELEASE, R466. -/
abbrev A.PAD_RELEASE : Nat := 0xfe0000400030
abbrev F.PAD_RELEASE_BUS : FRef := ⟨A.PAD_RELEASE, 1, 1⟩
abbrev F.PAD_RELEASE_GPIO : FRef := ⟨A.PAD_RELEASE, 0, 1⟩
def D.PAD_RELEASE : RegDesc := ⟨0xfe0000400030, 1, 0x0, 1, 0x0,
  [fld 1 1 .w1c 0, fld 0 1 .w1c 0],
  0x0, 0x0, 0, false, false⟩
/-- GAF_REQt, R466. -/
abbrev A.GAF_REQt (i : Nat) : Nat := 0xfe0000401000 + i * 0x10
abbrev F.GAF_REQt_TAG (i : Nat) : FRef := ⟨A.GAF_REQt i, 48, 16⟩
abbrev F.GAF_REQt_ARG (i : Nat) : FRef := ⟨A.GAF_REQt i, 32, 16⟩
abbrev F.GAF_REQt_TARGET (i : Nat) : FRef := ⟨A.GAF_REQt i, 4, 7⟩
abbrev F.GAF_REQt_OP (i : Nat) : FRef := ⟨A.GAF_REQt i, 0, 4⟩
def D.GAF_REQt : RegDesc := ⟨0xfe0000401000, 432, 0x10, 1, 0x0,
  [fld 48 16 .wo 0, fld 32 16 .wo 0, fld 4 7 .wo 0, fld 0 4 .wo 0],
  0x0, 0x0, 0, false, false⟩
/-- GAF_RSPt, R466. -/
abbrev A.GAF_RSPt (i : Nat) : Nat := 0xfe0000401008 + i * 0x10
abbrev F.GAF_RSPt_TAG (i : Nat) : FRef := ⟨A.GAF_RSPt i, 48, 16⟩
abbrev F.GAF_RSPt_REASON (i : Nat) : FRef := ⟨A.GAF_RSPt i, 8, 8⟩
abbrev F.GAF_RSPt_RESULT (i : Nat) : FRef := ⟨A.GAF_RSPt i, 1, 3⟩
abbrev F.GAF_RSPt_BUSY (i : Nat) : FRef := ⟨A.GAF_RSPt i, 0, 1⟩
def D.GAF_RSPt : RegDesc := ⟨0xfe0000401008, 432, 0x10, 1, 0x0,
  [fld 48 16 .ro 0, fld 8 8 .ro 0, fld 1 3 .ro 0, fld 0 1 .ro 0],
  0x0, 0x0, 0, false, false⟩
/-- RN_ENGe, R369. -/
abbrev A.RN_ENGe (i : Nat) : Nat := 0xfe0001000000 + i * 0x10000
abbrev F.RN_ENGe_CREDITS (i : Nat) : FRef := ⟨A.RN_ENGe i, 16, 11⟩
abbrev F.RN_ENGe_REFUSED (i : Nat) : FRef := ⟨A.RN_ENGe i, 12, 1⟩
abbrev F.RN_ENGe_BUSY (i : Nat) : FRef := ⟨A.RN_ENGe i, 1, 1⟩
def D.RN_ENGe : RegDesc := ⟨0xfe0001000000, 32, 0x10000, 1, 0x0,
  [fld 16 11 .rw 1024, fld 12 1 .w1c 0, fld 1 1 .ro 0],
  0x0, 0x0, 0, false, false⟩
/-- RN_CFG, R369. -/
abbrev A.RN_CFG : Nat := 0xfe0001700000
abbrev F.RN_CFG_NVRF : FRef := ⟨A.RN_CFG, 1, 9⟩
abbrev F.RN_CFG_MODE : FRef := ⟨A.RN_CFG, 0, 1⟩
def D.RN_CFG : RegDesc := ⟨0xfe0001700000, 1, 0x0, 1, 0x0,
  [fld 1 9 .ro 64, fld 0 1 .rw 0],
  0x0, 0x0, 0, false, false⟩
/-- QOS_ALLOC, R382. -/
abbrev A.QOS_ALLOC : Nat := 0xfe0001701000
abbrev F.QOS_ALLOC_GO : FRef := ⟨A.QOS_ALLOC, 12, 1⟩
abbrev F.QOS_ALLOC_VMID : FRef := ⟨A.QOS_ALLOC, 0, 12⟩
def D.QOS_ALLOC : RegDesc := ⟨0xfe0001701000, 1, 0x0, 1, 0x0,
  [fld 12 1 .wo 0, fld 0 12 .wo 0],
  0x0, 0x0, 0, false, false⟩
/-- QOS_STAT, R382. -/
abbrev A.QOS_STAT : Nat := 0xfe0001701008
abbrev F.QOS_STAT_SHARE63 : FRef := ⟨A.QOS_STAT, 0, 16⟩
def D.QOS_STAT : RegDesc := ⟨0xfe0001701008, 1, 0x0, 1, 0x0,
  [fld 0 16 .ro 0],
  0x0, 0x0, 0, false, false⟩
/-- QOS_FREE, R382. -/
abbrev A.QOS_FREE : Nat := 0xfe0001701010
abbrev F.QOS_FREE_FREE : FRef := ⟨A.QOS_FREE, 0, 64⟩
def D.QOS_FREE : RegDesc := ⟨0xfe0001701010, 1, 0x0, 1, 0x0,
  [fld 0 64 .ro 18446744073709551614],
  0x0, 0x0, 0, false, false⟩
/-- VMRST_CMD, R382. -/
abbrev A.VMRST_CMD : Nat := 0xfe0001702000
abbrev F.VMRST_CMD_GO : FRef := ⟨A.VMRST_CMD, 12, 1⟩
abbrev F.VMRST_CMD_VMID : FRef := ⟨A.VMRST_CMD, 0, 12⟩
def D.VMRST_CMD : RegDesc := ⟨0xfe0001702000, 1, 0x0, 1, 0x0,
  [fld 12 1 .wo 0, fld 0 12 .wo 0],
  0x0, 0x0, 0, false, false⟩
/-- VMRST_STAT, R382. -/
abbrev A.VMRST_STAT : Nat := 0xfe0001702008
abbrev F.VMRST_STAT_CUES : FRef := ⟨A.VMRST_STAT, 48, 16⟩
abbrev F.VMRST_STAT_VRFS : FRef := ⟨A.VMRST_STAT, 40, 8⟩
abbrev F.VMRST_STAT_VMID : FRef := ⟨A.VMRST_STAT, 20, 12⟩
abbrev F.VMRST_STAT_RESULT : FRef := ⟨A.VMRST_STAT, 4, 2⟩
abbrev F.VMRST_STAT_BUSY : FRef := ⟨A.VMRST_STAT, 0, 1⟩
def D.VMRST_STAT : RegDesc := ⟨0xfe0001702008, 1, 0x0, 1, 0x0,
  [fld 48 16 .ro 0, fld 40 8 .ro 0, fld 20 12 .ro 0, fld 4 2 .ro 0, fld 0 1 .ro 0],
  0x0, 0x0, 0, false, false⟩
/-- QOS_MAPv, R382. -/
abbrev A.QOS_MAPv (i : Nat) : Nat := 0xfe0001708000 + i * 0x8
abbrev F.QOS_MAPv_V (i : Nat) : FRef := ⟨A.QOS_MAPv i, 7, 1⟩
abbrev F.QOS_MAPv_SH (i : Nat) : FRef := ⟨A.QOS_MAPv i, 6, 1⟩
abbrev F.QOS_MAPv_CLASS (i : Nat) : FRef := ⟨A.QOS_MAPv i, 0, 6⟩
def D.QOS_MAPv : RegDesc := ⟨0xfe0001708000, 4096, 0x8, 1, 0x0,
  [fld 7 1 .ro 1, fld 6 1 .ro 0, fld 0 6 .ro 0],
  0x0, 0x0, 0, false, false⟩
/-- VRF_SQBASE, R369. -/
abbrev A.VRF_SQBASE (i : Nat) : Nat := 0xfe0001800000 + i * 0x1000
abbrev F.VRF_SQBASE_BASE (i : Nat) : FRef := ⟨A.VRF_SQBASE i, 12, 40⟩
def D.VRF_SQBASE : RegDesc := ⟨0xfe0001800000, 256, 0x1000, 1, 0x0,
  [fld 12 40 .rw 0],
  0x0, 0x0, 0, false, false⟩
/-- VRF_SQCFG, R369. -/
abbrev A.VRF_SQCFG (i : Nat) : Nat := 0xfe0001800008 + i * 0x1000
abbrev F.VRF_SQCFG_NLOG2 (i : Nat) : FRef := ⟨A.VRF_SQCFG i, 8, 5⟩
abbrev F.VRF_SQCFG_LOG2 (i : Nat) : FRef := ⟨A.VRF_SQCFG i, 0, 5⟩
def D.VRF_SQCFG : RegDesc := ⟨0xfe0001800008, 256, 0x1000, 1, 0x0,
  [⟨8, 5, .rw, 4, 4, 15⟩, fld 0 5 .ro 4],
  0x0, 0x0, 0, false, false⟩
/-- VRF_SQTAIL, R369. -/
abbrev A.VRF_SQTAIL (i : Nat) : Nat := 0xfe0001800010 + i * 0x1000
abbrev F.VRF_SQTAIL_TAIL (i : Nat) : FRef := ⟨A.VRF_SQTAIL i, 0, 16⟩
def D.VRF_SQTAIL : RegDesc := ⟨0xfe0001800010, 256, 0x1000, 1, 0x0,
  [fld 0 16 .rw 0],
  0x0, 0x0, 0, false, false⟩
/-- VRF_SQHEAD, R369. -/
abbrev A.VRF_SQHEAD (i : Nat) : Nat := 0xfe0001800018 + i * 0x1000
abbrev F.VRF_SQHEAD_HEAD (i : Nat) : FRef := ⟨A.VRF_SQHEAD i, 0, 16⟩
def D.VRF_SQHEAD : RegDesc := ⟨0xfe0001800018, 256, 0x1000, 1, 0x0,
  [fld 0 16 .ro 0],
  0x0, 0x0, 0, false, false⟩
/-- VRF_CQBASE, R369. -/
abbrev A.VRF_CQBASE (i : Nat) : Nat := 0xfe0001800020 + i * 0x1000
abbrev F.VRF_CQBASE_BASE (i : Nat) : FRef := ⟨A.VRF_CQBASE i, 12, 40⟩
def D.VRF_CQBASE : RegDesc := ⟨0xfe0001800020, 256, 0x1000, 1, 0x0,
  [fld 12 40 .rw 0],
  0x0, 0x0, 0, false, false⟩
/-- VRF_CQTAIL, R369. -/
abbrev A.VRF_CQTAIL (i : Nat) : Nat := 0xfe0001800030 + i * 0x1000
abbrev F.VRF_CQTAIL_TAIL (i : Nat) : FRef := ⟨A.VRF_CQTAIL i, 0, 16⟩
def D.VRF_CQTAIL : RegDesc := ⟨0xfe0001800030, 256, 0x1000, 1, 0x0,
  [fld 0 16 .ro 0],
  0x0, 0x0, 0, false, false⟩
/-- VRF_CQHEAD, R369. -/
abbrev A.VRF_CQHEAD (i : Nat) : Nat := 0xfe0001800038 + i * 0x1000
abbrev F.VRF_CQHEAD_HEAD (i : Nat) : FRef := ⟨A.VRF_CQHEAD i, 0, 16⟩
def D.VRF_CQHEAD : RegDesc := ⟨0xfe0001800038, 256, 0x1000, 1, 0x0,
  [fld 0 16 .rw 0],
  0x0, 0x0, 0, false, false⟩
/-- VRF_CTL, R369. -/
abbrev A.VRF_CTL (i : Nat) : Nat := 0xfe0001800040 + i * 0x1000
abbrev F.VRF_CTL_EN (i : Nat) : FRef := ⟨A.VRF_CTL i, 0, 1⟩
def D.VRF_CTL : RegDesc := ⟨0xfe0001800040, 256, 0x1000, 1, 0x0,
  [fld 0 1 .rw 0],
  0x0, 0x0, 0, false, false⟩
/-- VRF_STAT, R369. -/
abbrev A.VRF_STAT (i : Nat) : Nat := 0xfe0001800048 + i * 0x1000
abbrev F.VRF_STAT_LATE (i : Nat) : FRef := ⟨A.VRF_STAT i, 32, 32⟩
abbrev F.VRF_STAT_GEN (i : Nat) : FRef := ⟨A.VRF_STAT i, 24, 8⟩
abbrev F.VRF_STAT_ERR (i : Nat) : FRef := ⟨A.VRF_STAT i, 16, 8⟩
abbrev F.VRF_STAT_RESIZED (i : Nat) : FRef := ⟨A.VRF_STAT i, 3, 1⟩
abbrev F.VRF_STAT_QUIESCED (i : Nat) : FRef := ⟨A.VRF_STAT i, 2, 1⟩
abbrev F.VRF_STAT_STOPPED (i : Nat) : FRef := ⟨A.VRF_STAT i, 1, 1⟩
abbrev F.VRF_STAT_ACTIVE (i : Nat) : FRef := ⟨A.VRF_STAT i, 0, 1⟩
def D.VRF_STAT : RegDesc := ⟨0xfe0001800048, 256, 0x1000, 1, 0x0,
  [fld 32 32 .ro 0, fld 24 8 .ro 0, fld 16 8 .ro 0, fld 3 1 .w1c 0, fld 2 1 .ro 0, fld 1 1 .ro 0, fld 0 1 .ro 0],
  0x0, 0x0, 0, false, false⟩
/-- VRH_CTL, R369. -/
abbrev A.VRH_CTL (i : Nat) : Nat := 0xfe0001900000 + i * 0x1000
abbrev F.VRH_CTL_VMID (i : Nat) : FRef := ⟨A.VRH_CTL i, 32, 12⟩
abbrev F.VRH_CTL_SHARE (i : Nat) : FRef := ⟨A.VRH_CTL i, 24, 8⟩
abbrev F.VRH_CTL_KSLOT (i : Nat) : FRef := ⟨A.VRH_CTL i, 14, 10⟩
abbrev F.VRH_CTL_SHIPEN (i : Nat) : FRef := ⟨A.VRH_CTL i, 13, 1⟩
abbrev F.VRH_CTL_SHIPPORT (i : Nat) : FRef := ⟨A.VRH_CTL i, 11, 2⟩
abbrev F.VRH_CTL_QUIESCE (i : Nat) : FRef := ⟨A.VRH_CTL i, 4, 1⟩
abbrev F.VRH_CTL_RESET (i : Nat) : FRef := ⟨A.VRH_CTL i, 1, 1⟩
abbrev F.VRH_CTL_ALLOW (i : Nat) : FRef := ⟨A.VRH_CTL i, 0, 1⟩
def D.VRH_CTL : RegDesc := ⟨0xfe0001900000, 256, 0x1000, 1, 0x0,
  [fld 32 12 .rw 0, ⟨24, 8, .rw, 16, 1, 255⟩, fld 14 10 .rw 0, fld 13 1 .rw 0, fld 11 2 .rw 0, fld 4 1 .rw 0, fld 1 1 .wo 0, fld 0 1 .rw 0],
  0x0, 0x0, 0, false, false⟩
/-- VRH_ENG, R369. -/
abbrev A.VRH_ENG (i : Nat) : Nat := 0xfe0001900008 + i * 0x1000
abbrev F.VRH_ENG_MASK (i : Nat) : FRef := ⟨A.VRH_ENG i, 0, 32⟩
def D.VRH_ENG : RegDesc := ⟨0xfe0001900008, 256, 0x1000, 1, 0x0,
  [fld 0 32 .rw 4294967295],
  0x0, 0x0, 0, false, false⟩
/-- VRH_CUE, R369. -/
abbrev A.VRH_CUE (i : Nat) : Nat := 0xfe0001900010 + i * 0x1000
abbrev F.VRH_CUE_EN (i : Nat) : FRef := ⟨A.VRH_CUE i, 13, 1⟩
abbrev F.VRH_CUE_VECTOR (i : Nat) : FRef := ⟨A.VRH_CUE i, 0, 13⟩
def D.VRH_CUE : RegDesc := ⟨0xfe0001900010, 256, 0x1000, 1, 0x0,
  [fld 13 1 .rw 0, fld 0 13 .rw 0],
  0x0, 0x0, 0, false, false⟩
/-- VRH_STAT, R369. -/
abbrev A.VRH_STAT (i : Nat) : Nat := 0xfe0001900018 + i * 0x1000
abbrev F.VRH_STAT_DISC (i : Nat) : FRef := ⟨A.VRH_STAT i, 32, 32⟩
abbrev F.VRH_STAT_FAULTS (i : Nat) : FRef := ⟨A.VRH_STAT i, 16, 16⟩
abbrev F.VRH_STAT_RSTREF (i : Nat) : FRef := ⟨A.VRH_STAT i, 1, 1⟩
abbrev F.VRH_STAT_RSTBUSY (i : Nat) : FRef := ⟨A.VRH_STAT i, 0, 1⟩
def D.VRH_STAT : RegDesc := ⟨0xfe0001900018, 256, 0x1000, 1, 0x0,
  [fld 32 32 .ro 0, fld 16 16 .ro 0, fld 1 1 .w1c 0, fld 0 1 .ro 0],
  0x0, 0x0, 0, false, false⟩
/-- VRH_WIN_BASE, R369. -/
abbrev A.VRH_WIN_BASE (i j : Nat) : Nat := 0xfe0001900100 + i * 0x1000 + j * 0x20
abbrev F.VRH_WIN_BASE_BASE (i j : Nat) : FRef := ⟨A.VRH_WIN_BASE i j, 20, 44⟩
def D.VRH_WIN_BASE : RegDesc := ⟨0xfe0001900100, 256, 0x1000, 8, 0x20,
  [fld 20 44 .rw 0],
  0x0, 0x0, 0, false, false⟩
/-- VRH_WIN_SIZE, R369. -/
abbrev A.VRH_WIN_SIZE (i j : Nat) : Nat := 0xfe0001900108 + i * 0x1000 + j * 0x20
abbrev F.VRH_WIN_SIZE_LOG2 (i j : Nat) : FRef := ⟨A.VRH_WIN_SIZE i j, 0, 6⟩
def D.VRH_WIN_SIZE : RegDesc := ⟨0xfe0001900108, 256, 0x1000, 8, 0x20,
  [fld 0 6 .rw 20],
  0x0, 0x0, 0, false, false⟩
/-- VRH_WIN_PA, R369. -/
abbrev A.VRH_WIN_PA (i j : Nat) : Nat := 0xfe0001900110 + i * 0x1000 + j * 0x20
abbrev F.VRH_WIN_PA_PA (i j : Nat) : FRef := ⟨A.VRH_WIN_PA i j, 20, 32⟩
def D.VRH_WIN_PA : RegDesc := ⟨0xfe0001900110, 256, 0x1000, 8, 0x20,
  [fld 20 32 .rw 0],
  0x0, 0x0, 0, false, false⟩
/-- VRH_WIN_ATTR, R369. -/
abbrev A.VRH_WIN_ATTR (i j : Nat) : Nat := 0xfe0001900118 + i * 0x1000 + j * 0x20
abbrev F.VRH_WIN_ATTR_KSLOT (i j : Nat) : FRef := ⟨A.VRH_WIN_ATTR i j, 22, 10⟩
abbrev F.VRH_WIN_ATTR_VMID (i j : Nat) : FRef := ⟨A.VRH_WIN_ATTR i j, 10, 12⟩
abbrev F.VRH_WIN_ATTR_REASON (i j : Nat) : FRef := ⟨A.VRH_WIN_ATTR i j, 6, 4⟩
abbrev F.VRH_WIN_ATTR_W (i j : Nat) : FRef := ⟨A.VRH_WIN_ATTR i j, 2, 1⟩
abbrev F.VRH_WIN_ATTR_R (i j : Nat) : FRef := ⟨A.VRH_WIN_ATTR i j, 1, 1⟩
abbrev F.VRH_WIN_ATTR_V (i j : Nat) : FRef := ⟨A.VRH_WIN_ATTR i j, 0, 1⟩
def D.VRH_WIN_ATTR : RegDesc := ⟨0xfe0001900118, 256, 0x1000, 8, 0x20,
  [fld 22 10 .rw 0, fld 10 12 .rw 0, fld 6 4 .ro 0, fld 2 1 .rw 0, fld 1 1 .rw 0, fld 0 1 .rw 0],
  0x0, 0x0, 0, false, false⟩
/-- MPn_CAP, R309. -/
abbrev A.MPn_CAP (i : Nat) : Nat := 0xfe0002000000 + i * 0x10000
abbrev F.MPn_CAP_GPF2_US (i : Nat) : FRef := ⟨A.MPn_CAP i, 48, 16⟩
abbrev F.MPn_CAP_CAP_GIB (i : Nat) : FRef := ⟨A.MPn_CAP i, 36, 12⟩
abbrev F.MPn_CAP_PERSIST (i : Nat) : FRef := ⟨A.MPn_CAP i, 24, 1⟩
abbrev F.MPn_CAP_LDS (i : Nat) : FRef := ⟨A.MPn_CAP i, 20, 4⟩
abbrev F.MPn_CAP_WIDTH (i : Nat) : FRef := ⟨A.MPn_CAP i, 12, 4⟩
abbrev F.MPn_CAP_RATE (i : Nat) : FRef := ⟨A.MPn_CAP i, 4, 4⟩
abbrev F.MPn_CAP_FLIT256 (i : Nat) : FRef := ⟨A.MPn_CAP i, 3, 1⟩
def D.MPn_CAP : RegDesc := ⟨0xfe0002000000, 16, 0x10000, 1, 0x0,
  [fld 48 16 .ro 0, fld 36 12 .ro 0, fld 24 1 .ro 0, fld 20 4 .ro 0, fld 12 4 .ro 0, fld 4 4 .ro 0, fld 3 1 .ro 0],
  0x0, 0x0, 0, false, false⟩
/-- MPn_PPART, R309. -/
abbrev A.MPn_PPART (i : Nat) : Nat := 0xfe0002000008 + i * 0x10000
abbrev F.MPn_PPART_PBASE_GIB (i : Nat) : FRef := ⟨A.MPn_PPART i, 16, 12⟩
abbrev F.MPn_PPART_PSIZE_GIB (i : Nat) : FRef := ⟨A.MPn_PPART i, 0, 12⟩
def D.MPn_PPART : RegDesc := ⟨0xfe0002000008, 16, 0x10000, 1, 0x0,
  [fld 16 12 .ro 0, fld 0 12 .ro 0],
  0x0, 0x0, 0, false, false⟩
/-- MPn_CTL, R309. -/
abbrev A.MPn_CTL (i : Nat) : Nat := 0xfe0002000010 + i * 0x10000
abbrev F.MPn_CTL_LDID (i : Nat) : FRef := ⟨A.MPn_CTL i, 28, 4⟩
abbrev F.MPn_CTL_RETRAIN (i : Nat) : FRef := ⟨A.MPn_CTL i, 8, 1⟩
abbrev F.MPn_CTL_LOCK (i : Nat) : FRef := ⟨A.MPn_CTL i, 1, 1⟩
abbrev F.MPn_CTL_EN (i : Nat) : FRef := ⟨A.MPn_CTL i, 0, 1⟩
def D.MPn_CTL : RegDesc := ⟨0xfe0002000010, 16, 0x10000, 1, 0x0,
  [fld 28 4 .rwl 0, fld 8 1 .wo 0, fld 1 1 .w1s 0, fld 0 1 .rwl 0],
  0xfe0002000010, 0x10000, 1, false, false⟩
/-- MPn_DEVBASE, R309. -/
abbrev A.MPn_DEVBASE (i : Nat) : Nat := 0xfe0002000018 + i * 0x10000
abbrev F.MPn_DEVBASE_BASE (i : Nat) : FRef := ⟨A.MPn_DEVBASE i, 28, 24⟩
def D.MPn_DEVBASE : RegDesc := ⟨0xfe0002000018, 16, 0x10000, 1, 0x0,
  [fld 28 24 .rwl 0],
  0xfe0002000010, 0x10000, 1, false, false⟩
/-- MPn_STAT, R309. -/
abbrev A.MPn_STAT (i : Nat) : Nat := 0xfe0002000020 + i * 0x10000
abbrev F.MPn_STAT_REFUSE (i : Nat) : FRef := ⟨A.MPn_STAT i, 8, 8⟩
abbrev F.MPn_STAT_LOST (i : Nat) : FRef := ⟨A.MPn_STAT i, 2, 1⟩
abbrev F.MPn_STAT_READY (i : Nat) : FRef := ⟨A.MPn_STAT i, 1, 1⟩
abbrev F.MPn_STAT_UP (i : Nat) : FRef := ⟨A.MPn_STAT i, 0, 1⟩
def D.MPn_STAT : RegDesc := ⟨0xfe0002000020, 16, 0x10000, 1, 0x0,
  [fld 8 8 .ro 0, fld 2 1 .w1c 0, fld 1 1 .ro 0, fld 0 1 .ro 0],
  0x0, 0x0, 0, false, false⟩
/-- MPn_WQ, R309. -/
abbrev A.MPn_WQ (i : Nat) : Nat := 0xfe0002000028 + i * 0x10000
abbrev F.MPn_WQ_FWD_HITS (i : Nat) : FRef := ⟨A.MPn_WQ i, 32, 32⟩
abbrev F.MPn_WQ_PEAK (i : Nat) : FRef := ⟨A.MPn_WQ i, 16, 10⟩
abbrev F.MPn_WQ_OCC (i : Nat) : FRef := ⟨A.MPn_WQ i, 0, 10⟩
def D.MPn_WQ : RegDesc := ⟨0xfe0002000028, 16, 0x10000, 1, 0x0,
  [fld 32 32 .ro 0, fld 16 10 .ro 0, fld 0 10 .ro 0],
  0x0, 0x0, 0, false, false⟩
/-- MPn_ERR, R309. -/
abbrev A.MPn_ERR (i : Nat) : Nat := 0xfe0002000030 + i * 0x10000
abbrev F.MPn_ERR_POISON_RD (i : Nat) : FRef := ⟨A.MPn_ERR i, 32, 32⟩
abbrev F.MPn_ERR_DISCARD (i : Nat) : FRef := ⟨A.MPn_ERR i, 0, 32⟩
def D.MPn_ERR : RegDesc := ⟨0xfe0002000030, 16, 0x10000, 1, 0x0,
  [fld 32 32 .ro 0, fld 0 32 .ro 0],
  0x0, 0x0, 0, false, false⟩
/-- MPn_URG, R309. -/
abbrev A.MPn_URG (i : Nat) : Nat := 0xfe0002000038 + i * 0x10000
abbrev F.MPn_URG_OVERRUN (i : Nat) : FRef := ⟨A.MPn_URG i, 0, 32⟩
def D.MPn_URG : RegDesc := ⟨0xfe0002000038, 16, 0x10000, 1, 0x0,
  [fld 0 32 .ro 0],
  0x0, 0x0, 0, false, false⟩
/-- MPn_QOSc, R309. -/
abbrev A.MPn_QOSc (i j : Nat) : Nat := 0xfe0002001000 + i * 0x10000 + j * 0x8
abbrev F.MPn_QOSc_WEIGHT (i j : Nat) : FRef := ⟨A.MPn_QOSc i j, 16, 8⟩
abbrev F.MPn_QOSc_TARGET_NS (i j : Nat) : FRef := ⟨A.MPn_QOSc i j, 0, 16⟩
def D.MPn_QOSc : RegDesc := ⟨0xfe0002001000, 16, 0x10000, 64, 0x8,
  [⟨16, 8, .rw, 1, 1, 255⟩, fld 0 16 .rw 0],
  0x0, 0x0, 0, false, false⟩
/-- MPn_ARBr_GRANTS, R309. -/
abbrev A.MPn_ARBr_GRANTS (i j : Nat) : Nat := 0xfe0002002000 + i * 0x10000 + j * 0x18
abbrev F.MPn_ARBr_GRANTS_COUNT (i j : Nat) : FRef := ⟨A.MPn_ARBr_GRANTS i j, 0, 48⟩
def D.MPn_ARBr_GRANTS : RegDesc := ⟨0xfe0002002000, 16, 0x10000, 32, 0x18,
  [fld 0 48 .ro 0],
  0x0, 0x0, 0, false, false⟩
/-- MPn_ARBr_WAIT, R309. -/
abbrev A.MPn_ARBr_WAIT (i j : Nat) : Nat := 0xfe0002002008 + i * 0x10000 + j * 0x18
abbrev F.MPn_ARBr_WAIT_CYCLES (i j : Nat) : FRef := ⟨A.MPn_ARBr_WAIT i j, 0, 64⟩
def D.MPn_ARBr_WAIT : RegDesc := ⟨0xfe0002002008, 16, 0x10000, 32, 0x18,
  [fld 0 64 .ro 0],
  0x0, 0x0, 0, false, false⟩
/-- MPn_ARBr_MAXWAIT, R309. -/
abbrev A.MPn_ARBr_MAXWAIT (i j : Nat) : Nat := 0xfe0002002010 + i * 0x10000 + j * 0x18
abbrev F.MPn_ARBr_MAXWAIT_CYCLES (i j : Nat) : FRef := ⟨A.MPn_ARBr_MAXWAIT i j, 0, 32⟩
def D.MPn_ARBr_MAXWAIT : RegDesc := ⟨0xfe0002002010, 16, 0x10000, 32, 0x18,
  [fld 0 32 .w1c 0],
  0x0, 0x0, 0, false, false⟩
/-- GP_CTLr, R356. -/
abbrev A.GP_CTLr (i : Nat) : Nat := 0xfe0002800000 + i * 0x10000
abbrev F.GP_CTLr_LOCK (i : Nat) : FRef := ⟨A.GP_CTLr i, 3, 1⟩
abbrev F.GP_CTLr_RETRAIN (i : Nat) : FRef := ⟨A.GP_CTLr i, 2, 1⟩
abbrev F.GP_CTLr_CXL (i : Nat) : FRef := ⟨A.GP_CTLr i, 1, 1⟩
abbrev F.GP_CTLr_EN (i : Nat) : FRef := ⟨A.GP_CTLr i, 0, 1⟩
def D.GP_CTLr : RegDesc := ⟨0xfe0002800000, 4, 0x10000, 1, 0x0,
  [fld 3 1 .w1s 0, fld 2 1 .wo 0, fld 1 1 .rwl 0, fld 0 1 .rwl 0],
  0xfe0002800000, 0x10000, 3, false, false⟩
/-- GP_STATr, R356. -/
abbrev A.GP_STATr (i : Nat) : Nat := 0xfe0002800008 + i * 0x10000
abbrev F.GP_STATr_WIDTH (i : Nat) : FRef := ⟨A.GP_STATr i, 12, 4⟩
abbrev F.GP_STATr_RATE (i : Nat) : FRef := ⟨A.GP_STATr i, 8, 4⟩
abbrev F.GP_STATr_CXLM (i : Nat) : FRef := ⟨A.GP_STATr i, 4, 1⟩
abbrev F.GP_STATr_PBR (i : Nat) : FRef := ⟨A.GP_STATr i, 3, 1⟩
abbrev F.GP_STATr_LOST (i : Nat) : FRef := ⟨A.GP_STATr i, 1, 1⟩
abbrev F.GP_STATr_UP (i : Nat) : FRef := ⟨A.GP_STATr i, 0, 1⟩
def D.GP_STATr : RegDesc := ⟨0xfe0002800008, 4, 0x10000, 1, 0x0,
  [fld 12 4 .ro 0, fld 8 4 .ro 0, fld 4 1 .ro 0, fld 3 1 .ro 0, fld 1 1 .w1c 0, fld 0 1 .ro 0],
  0x0, 0x0, 0, false, false⟩
/-- GP_PMr, R356. -/
abbrev A.GP_PMr (i : Nat) : Nat := 0xfe0002800010 + i * 0x10000
abbrev F.GP_PMr_L1_US (i : Nat) : FRef := ⟨A.GP_PMr i, 16, 16⟩
abbrev F.GP_PMr_L0S_US (i : Nat) : FRef := ⟨A.GP_PMr i, 0, 16⟩
def D.GP_PMr : RegDesc := ⟨0xfe0002800010, 4, 0x10000, 1, 0x0,
  [fld 16 16 .rw 0, fld 0 16 .rw 0],
  0x0, 0x0, 0, false, false⟩
/-- GP_CPLr, R356. -/
abbrev A.GP_CPLr (i : Nat) : Nat := 0xfe0002800018 + i * 0x10000
abbrev F.GP_CPLr_TIMEOUT_MS (i : Nat) : FRef := ⟨A.GP_CPLr i, 0, 8⟩
def D.GP_CPLr : RegDesc := ⟨0xfe0002800018, 4, 0x10000, 1, 0x0,
  [⟨0, 8, .rw, 50, 1, 255⟩],
  0x0, 0x0, 0, false, false⟩
/-- GP_MSIr, R356. -/
abbrev A.GP_MSIr (i : Nat) : Nat := 0xfe0002800020 + i * 0x10000
abbrev F.GP_MSIr_ADDR (i : Nat) : FRef := ⟨A.GP_MSIr i, 12, 52⟩
abbrev F.GP_MSIr_V (i : Nat) : FRef := ⟨A.GP_MSIr i, 0, 1⟩
def D.GP_MSIr : RegDesc := ⟨0xfe0002800020, 4, 0x10000, 1, 0x0,
  [fld 12 52 .rw 0, fld 0 1 .rw 0],
  0x0, 0x0, 0, false, false⟩
/-- GP_ERRr, R356. -/
abbrev A.GP_ERRr (i : Nat) : Nat := 0xfe0002800028 + i * 0x10000
abbrev F.GP_ERRr_CPL_TO (i : Nat) : FRef := ⟨A.GP_ERRr i, 48, 16⟩
abbrev F.GP_ERRr_CPL_ERR (i : Nat) : FRef := ⟨A.GP_ERRr i, 32, 16⟩
abbrev F.GP_ERRr_IN_UR (i : Nat) : FRef := ⟨A.GP_ERRr i, 16, 16⟩
abbrev F.GP_ERRr_IN_DROP (i : Nat) : FRef := ⟨A.GP_ERRr i, 0, 16⟩
def D.GP_ERRr : RegDesc := ⟨0xfe0002800028, 4, 0x10000, 1, 0x0,
  [fld 48 16 .ro 0, fld 32 16 .ro 0, fld 16 16 .ro 0, fld 0 16 .ro 0],
  0x0, 0x0, 0, false, false⟩
/-- GP_LOGr, R356. -/
abbrev A.GP_LOGr (i : Nat) : Nat := 0xfe0002800030 + i * 0x10000
abbrev F.GP_LOGr_ADDR (i : Nat) : FRef := ⟨A.GP_LOGr i, 0, 64⟩
def D.GP_LOGr : RegDesc := ⟨0xfe0002800030, 4, 0x10000, 1, 0x0,
  [fld 0 64 .ro 0],
  0x0, 0x0, 0, false, false⟩
/-- GP_LOGSr, R356. -/
abbrev A.GP_LOGSr (i : Nat) : Nat := 0xfe0002800038 + i * 0x10000
abbrev F.GP_LOGSr_NP (i : Nat) : FRef := ⟨A.GP_LOGSr i, 1, 1⟩
abbrev F.GP_LOGSr_VALID (i : Nat) : FRef := ⟨A.GP_LOGSr i, 0, 1⟩
def D.GP_LOGSr : RegDesc := ⟨0xfe0002800038, 4, 0x10000, 1, 0x0,
  [fld 1 1 .ro 0, fld 0 1 .w1c 0],
  0x0, 0x0, 0, false, false⟩
/-- IW_BASErj, R356. -/
abbrev A.IW_BASErj (i j : Nat) : Nat := 0xfe0002801000 + i * 0x10000 + j * 0x20
abbrev F.IW_BASErj_BASE (i j : Nat) : FRef := ⟨A.IW_BASErj i j, 20, 44⟩
def D.IW_BASErj : RegDesc := ⟨0xfe0002801000, 4, 0x10000, 32, 0x20,
  [fld 20 44 .rw 0],
  0x0, 0x0, 0, false, false⟩
/-- IW_SIZErj, R356. -/
abbrev A.IW_SIZErj (i j : Nat) : Nat := 0xfe0002801008 + i * 0x10000 + j * 0x20
abbrev F.IW_SIZErj_LOG2 (i j : Nat) : FRef := ⟨A.IW_SIZErj i j, 0, 6⟩
def D.IW_SIZErj : RegDesc := ⟨0xfe0002801008, 4, 0x10000, 32, 0x20,
  [fld 0 6 .rw 20],
  0x0, 0x0, 0, false, false⟩
/-- IW_PArj, R356. -/
abbrev A.IW_PArj (i j : Nat) : Nat := 0xfe0002801010 + i * 0x10000 + j * 0x20
abbrev F.IW_PArj_PA (i j : Nat) : FRef := ⟨A.IW_PArj i j, 20, 32⟩
def D.IW_PArj : RegDesc := ⟨0xfe0002801010, 4, 0x10000, 32, 0x20,
  [fld 20 32 .rw 0],
  0x0, 0x0, 0, false, false⟩
/-- IW_ATTRrj, R356. -/
abbrev A.IW_ATTRrj (i j : Nat) : Nat := 0xfe0002801018 + i * 0x10000 + j * 0x20
abbrev F.IW_ATTRrj_KSLOT (i j : Nat) : FRef := ⟨A.IW_ATTRrj i j, 22, 10⟩
abbrev F.IW_ATTRrj_VMID (i j : Nat) : FRef := ⟨A.IW_ATTRrj i j, 10, 12⟩
abbrev F.IW_ATTRrj_REASON (i j : Nat) : FRef := ⟨A.IW_ATTRrj i j, 6, 4⟩
abbrev F.IW_ATTRrj_W (i j : Nat) : FRef := ⟨A.IW_ATTRrj i j, 2, 1⟩
abbrev F.IW_ATTRrj_R (i j : Nat) : FRef := ⟨A.IW_ATTRrj i j, 1, 1⟩
abbrev F.IW_ATTRrj_V (i j : Nat) : FRef := ⟨A.IW_ATTRrj i j, 0, 1⟩
def D.IW_ATTRrj : RegDesc := ⟨0xfe0002801018, 4, 0x10000, 32, 0x20,
  [fld 22 10 .rw 0, fld 10 12 .rw 0, fld 6 4 .ro 0, fld 2 1 .rw 0, fld 1 1 .rw 0, fld 0 1 .rw 0],
  0x0, 0x0, 0, false, false⟩
/-- GDW_BASEw, R356. -/
abbrev A.GDW_BASEw (i : Nat) : Nat := 0xfe0002840000 + i * 0x20
abbrev F.GDW_BASEw_BASE (i : Nat) : FRef := ⟨A.GDW_BASEw i, 21, 31⟩
def D.GDW_BASEw : RegDesc := ⟨0xfe0002840000, 8, 0x20, 1, 0x0,
  [fld 21 31 .rw 0],
  0x0, 0x0, 0, false, false⟩
/-- GDW_SIZEw, R356. -/
abbrev A.GDW_SIZEw (i : Nat) : Nat := 0xfe0002840008 + i * 0x20
abbrev F.GDW_SIZEw_SIZE (i : Nat) : FRef := ⟨A.GDW_SIZEw i, 21, 31⟩
def D.GDW_SIZEw : RegDesc := ⟨0xfe0002840008, 8, 0x20, 1, 0x0,
  [fld 21 31 .rw 0],
  0x0, 0x0, 0, false, false⟩
/-- GDW_TGTw, R356. -/
abbrev A.GDW_TGTw (i : Nat) : Nat := 0xfe0002840010 + i * 0x20
abbrev F.GDW_TGTw_PORT (i : Nat) : FRef := ⟨A.GDW_TGTw i, 2, 2⟩
abbrev F.GDW_TGTw_REFUSE (i : Nat) : FRef := ⟨A.GDW_TGTw i, 1, 1⟩
abbrev F.GDW_TGTw_V (i : Nat) : FRef := ⟨A.GDW_TGTw i, 0, 1⟩
def D.GDW_TGTw : RegDesc := ⟨0xfe0002840010, 8, 0x20, 1, 0x0,
  [⟨2, 2, .rw, 0, 0, 2⟩, fld 1 1 .w1c 0, fld 0 1 .rw 0],
  0x0, 0x0, 0, false, false⟩
/-- GDW_DEVBASEw, R356. -/
abbrev A.GDW_DEVBASEw (i : Nat) : Nat := 0xfe0002840018 + i * 0x20
abbrev F.GDW_DEVBASEw_BASE (i : Nat) : FRef := ⟨A.GDW_DEVBASEw i, 0, 64⟩
def D.GDW_DEVBASEw : RegDesc := ⟨0xfe0002840018, 8, 0x20, 1, 0x0,
  [fld 0 64 .rw 0],
  0x0, 0x0, 0, false, false⟩
/-- PL_CTLk, R338. -/
abbrev A.PL_CTLk (i : Nat) : Nat := 0xfe0003000000 + i * 0x1000
abbrev F.PL_CTLk_REPLAY_LIMIT (i : Nat) : FRef := ⟨A.PL_CTLk i, 4, 4⟩
abbrev F.PL_CTLk_RESET (i : Nat) : FRef := ⟨A.PL_CTLk i, 0, 1⟩
def D.PL_CTLk : RegDesc := ⟨0xfe0003000000, 4, 0x1000, 1, 0x0,
  [⟨4, 4, .rw, 8, 1, 15⟩, fld 0 1 .wo 0],
  0x0, 0x0, 0, false, false⟩
/-- PL_STATk, R338. -/
abbrev A.PL_STATk (i : Nat) : Nat := 0xfe0003000008 + i * 0x1000
abbrev F.PL_STATk_PEERP (i : Nat) : FRef := ⟨A.PL_STATk i, 20, 4⟩
abbrev F.PL_STATk_WIDTH (i : Nat) : FRef := ⟨A.PL_STATk i, 16, 4⟩
abbrev F.PL_STATk_RATE (i : Nat) : FRef := ⟨A.PL_STATk i, 12, 4⟩
abbrev F.PL_STATk_REASON (i : Nat) : FRef := ⟨A.PL_STATk i, 8, 4⟩
abbrev F.PL_STATk_STATE (i : Nat) : FRef := ⟨A.PL_STATk i, 0, 3⟩
def D.PL_STATk : RegDesc := ⟨0xfe0003000008, 4, 0x1000, 1, 0x0,
  [fld 20 4 .ro 0, fld 16 4 .ro 0, fld 12 4 .ro 0, fld 8 4 .ro 0, fld 0 3 .ro 0],
  0x0, 0x0, 0, false, false⟩
/-- PL_ERRk, R338. -/
abbrev A.PL_ERRk (i : Nat) : Nat := 0xfe0003000010 + i * 0x1000
abbrev F.PL_ERRk_STALE (i : Nat) : FRef := ⟨A.PL_ERRk i, 32, 32⟩
abbrev F.PL_ERRk_CRCERR (i : Nat) : FRef := ⟨A.PL_ERRk i, 16, 16⟩
abbrev F.PL_ERRk_REPLAYS (i : Nat) : FRef := ⟨A.PL_ERRk i, 0, 16⟩
def D.PL_ERRk : RegDesc := ⟨0xfe0003000010, 4, 0x1000, 1, 0x0,
  [fld 32 32 .ro 0, fld 16 16 .ro 0, fld 0 16 .ro 0],
  0x0, 0x0, 0, false, false⟩
/-- GRP_CFG, R338. -/
abbrev A.GRP_CFG : Nat := 0xfe0003008000
abbrev F.GRP_CFG_SIZE : FRef := ⟨A.GRP_CFG, 1, 3⟩
abbrev F.GRP_CFG_LOCK : FRef := ⟨A.GRP_CFG, 0, 1⟩
def D.GRP_CFG : RegDesc := ⟨0xfe0003008000, 1, 0x0, 1, 0x0,
  [⟨1, 3, .rwl, 0, 0, 4⟩, fld 0 1 .w1s 0],
  0xfe0003008000, 0x0, 0, false, false⟩
/-- GRP_STAT, R338. -/
abbrev A.GRP_STAT : Nat := 0xfe0003008008
abbrev F.GRP_STAT_LOST : FRef := ⟨A.GRP_STAT, 16, 16⟩
abbrev F.GRP_STAT_MEMBER : FRef := ⟨A.GRP_STAT, 0, 16⟩
def D.GRP_STAT : RegDesc := ⟨0xfe0003008008, 1, 0x0, 1, 0x0,
  [fld 16 16 .w1c 0, fld 0 16 .ro 0],
  0x0, 0x0, 0, false, false⟩
/-- FAB_ID, R338. -/
abbrev A.FAB_ID : Nat := 0xfe0003008010
abbrev F.FAB_ID_G : FRef := ⟨A.FAB_ID, 1, 8⟩
abbrev F.FAB_ID_ASSIGNED : FRef := ⟨A.FAB_ID, 0, 1⟩
def D.FAB_ID : RegDesc := ⟨0xfe0003008010, 1, 0x0, 1, 0x0,
  [fld 1 8 .rwl 0, fld 0 1 .w1s 0],
  0xfe0003008010, 0x0, 0, false, false⟩
/-- FW_BASEw, R338. -/
abbrev A.FW_BASEw (i : Nat) : Nat := 0xfe0003008100 + i * 0x20
abbrev F.FW_BASEw_BASE (i : Nat) : FRef := ⟨A.FW_BASEw i, 21, 31⟩
def D.FW_BASEw : RegDesc := ⟨0xfe0003008100, 16, 0x20, 1, 0x0,
  [fld 21 31 .rw 0],
  0x0, 0x0, 0, false, false⟩
/-- FW_SIZEw, R338. -/
abbrev A.FW_SIZEw (i : Nat) : Nat := 0xfe0003008108 + i * 0x20
abbrev F.FW_SIZEw_SIZE (i : Nat) : FRef := ⟨A.FW_SIZEw i, 21, 31⟩
def D.FW_SIZEw : RegDesc := ⟨0xfe0003008108, 16, 0x20, 1, 0x0,
  [fld 21 31 .rw 0],
  0x0, 0x0, 0, false, false⟩
/-- FW_TGTw, R338. -/
abbrev A.FW_TGTw (i : Nat) : Nat := 0xfe0003008110 + i * 0x20
abbrev F.FW_TGTw_PORT (i : Nat) : FRef := ⟨A.FW_TGTw i, 16, 2⟩
abbrev F.FW_TGTw_DPID (i : Nat) : FRef := ⟨A.FW_TGTw i, 4, 12⟩
abbrev F.FW_TGTw_REFUSE (i : Nat) : FRef := ⟨A.FW_TGTw i, 1, 1⟩
abbrev F.FW_TGTw_V (i : Nat) : FRef := ⟨A.FW_TGTw i, 0, 1⟩
def D.FW_TGTw : RegDesc := ⟨0xfe0003008110, 16, 0x20, 1, 0x0,
  [⟨16, 2, .rw, 0, 0, 2⟩, fld 4 12 .rw 0, fld 1 1 .w1c 0, fld 0 1 .rw 0],
  0x0, 0x0, 0, false, false⟩
/-- FW_DEVBASEw, R338. -/
abbrev A.FW_DEVBASEw (i : Nat) : Nat := 0xfe0003008118 + i * 0x20
abbrev F.FW_DEVBASEw_BASE (i : Nat) : FRef := ⟨A.FW_DEVBASEw i, 0, 64⟩
def D.FW_DEVBASEw : RegDesc := ⟨0xfe0003008118, 16, 0x20, 1, 0x0,
  [fld 0 64 .rw 0],
  0x0, 0x0, 0, false, false⟩
/-- LOC_PORTd, R338. -/
abbrev A.LOC_PORTd (i : Nat) : Nat := 0xfe0003009000 + i * 0x8
def D.LOC_PORTd : RegDesc := ⟨0xfe0003009000, 12, 0x8, 1, 0x0,
  [fld 0 2 .ro 0, fld 2 2 .ro 0, fld 4 2 .ro 0, fld 6 2 .ro 0, fld 8 2 .ro 0, fld 10 2 .ro 0, fld 12 2 .ro 0, fld 14 2 .ro 0, fld 16 2 .ro 0, fld 18 2 .ro 0, fld 20 2 .ro 0, fld 22 2 .ro 0, fld 24 2 .ro 0, fld 26 2 .ro 0, fld 28 2 .ro 0, fld 30 2 .ro 0],
  0x0, 0x0, 0, false, false⟩
/-- LOC_PKG, R338. -/
abbrev A.LOC_PKG : Nat := 0xfe0003009100
def D.LOC_PKG : RegDesc := ⟨0xfe0003009100, 1, 0x0, 1, 0x0,
  [fld 0 3 .ro 7, fld 3 3 .ro 7, fld 6 3 .ro 7, fld 9 3 .ro 7, fld 12 3 .ro 7, fld 15 3 .ro 7, fld 18 3 .ro 7, fld 21 3 .ro 7, fld 24 3 .ro 7, fld 27 3 .ro 7, fld 30 3 .ro 7, fld 33 3 .ro 7, fld 36 3 .ro 7, fld 39 3 .ro 7, fld 42 3 .ro 7, fld 45 3 .ro 7],
  0x0, 0x0, 0, false, false⟩
/-- LOC_WINw, R338. -/
abbrev A.LOC_WINw (i : Nat) : Nat := 0xfe0003009200 + i * 0x8
abbrev F.LOC_WINw_LAT_NS (i : Nat) : FRef := ⟨A.LOC_WINw i, 32, 32⟩
abbrev F.LOC_WINw_BW_MBS (i : Nat) : FRef := ⟨A.LOC_WINw i, 0, 32⟩
def D.LOC_WINw : RegDesc := ⟨0xfe0003009200, 16, 0x8, 1, 0x0,
  [fld 32 32 .rw 0, fld 0 32 .rw 0],
  0x0, 0x0, 0, false, false⟩
/-- DL_CTL, R337. -/
abbrev A.DL_CTL (i : Nat) : Nat := 0xfe0003100000 + i * 0x1000
abbrev F.DL_CTL_REPLAY_LIMIT (i : Nat) : FRef := ⟨A.DL_CTL i, 28, 4⟩
abbrev F.DL_CTL_CUT_TH (i : Nat) : FRef := ⟨A.DL_CTL i, 12, 8⟩
abbrev F.DL_CTL_WIDTH (i : Nat) : FRef := ⟨A.DL_CTL i, 6, 2⟩
abbrev F.DL_CTL_MODE (i : Nat) : FRef := ⟨A.DL_CTL i, 4, 2⟩
abbrev F.DL_CTL_RESUME (i : Nat) : FRef := ⟨A.DL_CTL i, 3, 1⟩
abbrev F.DL_CTL_FLUSH (i : Nat) : FRef := ⟨A.DL_CTL i, 2, 1⟩
abbrev F.DL_CTL_RESET (i : Nat) : FRef := ⟨A.DL_CTL i, 1, 1⟩
abbrev F.DL_CTL_LOCK (i : Nat) : FRef := ⟨A.DL_CTL i, 0, 1⟩
def D.DL_CTL : RegDesc := ⟨0xfe0003100000, 24, 0x1000, 1, 0x0,
  [⟨28, 4, .rw, 8, 1, 15⟩, ⟨12, 8, .rw, 0, 0, 7⟩, ⟨6, 2, .rwl, 0, 0, 2⟩, fld 4 2 .rw 0, fld 3 1 .wo 0, fld 2 1 .wo 0, fld 1 1 .wo 0, fld 0 1 .w1s 0],
  0xfe0003100000, 0x1000, 0, false, false⟩
/-- DL_STAT, R337. -/
abbrev A.DL_STAT (i : Nat) : Nat := 0xfe0003100008 + i * 0x1000
abbrev F.DL_STAT_EWIDTH (i : Nat) : FRef := ⟨A.DL_STAT i, 14, 2⟩
abbrev F.DL_STAT_MAPDIFF (i : Nat) : FRef := ⟨A.DL_STAT i, 13, 1⟩
abbrev F.DL_STAT_PARTIAL (i : Nat) : FRef := ⟨A.DL_STAT i, 12, 1⟩
abbrev F.DL_STAT_MOVED (i : Nat) : FRef := ⟨A.DL_STAT i, 11, 1⟩
abbrev F.DL_STAT_FLUSHED (i : Nat) : FRef := ⟨A.DL_STAT i, 10, 1⟩
abbrev F.DL_STAT_STATE (i : Nat) : FRef := ⟨A.DL_STAT i, 0, 2⟩
def D.DL_STAT : RegDesc := ⟨0xfe0003100008, 24, 0x1000, 1, 0x0,
  [fld 14 2 .ro 0, fld 13 1 .ro 0, fld 12 1 .ro 0, fld 11 1 .ro 0, fld 10 1 .ro 0, fld 0 2 .ro 0],
  0x0, 0x0, 0, false, false⟩
/-- DL_MAPUj, R337. -/
abbrev A.DL_MAPUj (i j : Nat) : Nat := 0xfe0003100100 + i * 0x1000 + j * 0x8
def D.DL_MAPUj : RegDesc := ⟨0xfe0003100100, 24, 0x1000, 4, 0x8,
  [⟨0, 8, .rwl, 8, 0, 33⟩, ⟨8, 8, .rwl, 8, 0, 33⟩, ⟨16, 8, .rwl, 8, 0, 33⟩, ⟨24, 8, .rwl, 8, 0, 33⟩, ⟨32, 8, .rwl, 8, 0, 33⟩, ⟨40, 8, .rwl, 8, 0, 33⟩, ⟨48, 8, .rwl, 8, 0, 33⟩, ⟨56, 8, .rwl, 8, 0, 33⟩],
  0xfe0003100000, 0x1000, 0, false, false⟩
/-- DL_MAPDj, R337. -/
abbrev A.DL_MAPDj (i j : Nat) : Nat := 0xfe0003100120 + i * 0x1000 + j * 0x8
def D.DL_MAPDj : RegDesc := ⟨0xfe0003100120, 24, 0x1000, 4, 0x8,
  [⟨0, 8, .rwl, 8, 0, 33⟩, ⟨8, 8, .rwl, 8, 0, 33⟩, ⟨16, 8, .rwl, 8, 0, 33⟩, ⟨24, 8, .rwl, 8, 0, 33⟩, ⟨32, 8, .rwl, 8, 0, 33⟩, ⟨40, 8, .rwl, 8, 0, 33⟩, ⟨48, 8, .rwl, 8, 0, 33⟩, ⟨56, 8, .rwl, 8, 0, 33⟩],
  0xfe0003100000, 0x1000, 0, false, false⟩
/-- DL_EMAPUj, R337. -/
abbrev A.DL_EMAPUj (i j : Nat) : Nat := 0xfe0003100140 + i * 0x1000 + j * 0x8
def D.DL_EMAPUj : RegDesc := ⟨0xfe0003100140, 24, 0x1000, 4, 0x8,
  [fld 0 8 .ro 8, fld 8 8 .ro 8, fld 16 8 .ro 8, fld 24 8 .ro 8, fld 32 8 .ro 8, fld 40 8 .ro 8, fld 48 8 .ro 8, fld 56 8 .ro 8],
  0x0, 0x0, 0, false, false⟩
/-- DL_EMAPDj, R337. -/
abbrev A.DL_EMAPDj (i j : Nat) : Nat := 0xfe0003100160 + i * 0x1000 + j * 0x8
def D.DL_EMAPDj : RegDesc := ⟨0xfe0003100160, 24, 0x1000, 4, 0x8,
  [fld 0 8 .ro 8, fld 8 8 .ro 8, fld 16 8 .ro 8, fld 24 8 .ro 8, fld 32 8 .ro 8, fld 40 8 .ro 8, fld 48 8 .ro 8, fld 56 8 .ro 8],
  0x0, 0x0, 0, false, false⟩
/-- DL_DLYHj, R337. -/
abbrev A.DL_DLYHj (i j : Nat) : Nat := 0xfe0003100200 + i * 0x1000 + j * 0x8
def D.DL_DLYHj : RegDesc := ⟨0xfe0003100200, 24, 0x1000, 4, 0x8,
  [fld 0 8 .rwl 0, fld 8 8 .rwl 0, fld 16 8 .rwl 0, fld 24 8 .rwl 0, fld 32 8 .rwl 0, fld 40 8 .rwl 0, fld 48 8 .rwl 0, fld 56 8 .rwl 0],
  0xfe0003100000, 0x1000, 0, false, false⟩
/-- DL_DLYHj for j = 4, of which bits [63:16] are reserved (R337). -/
def D.DL_DLYH4 : RegDesc := ⟨0xfe0003100220, 24, 0x1000, 1, 0x8, [fld 0 8 .rwl 0, fld 8 8 .rwl 0],
  0xfe0003100000, 0x1000, 0, false, false⟩
/-- DL_DLYCj for j = 4, of which bits [63:16] are reserved (R337). -/
def D.DL_DLYC4 : RegDesc := ⟨0xfe0003100260, 24, 0x1000, 1, 0x8, [fld 0 8 .rwl 0, fld 8 8 .rwl 0],
  0xfe0003100000, 0x1000, 0, false, false⟩
/-- DL_DLYCj, R337. -/
abbrev A.DL_DLYCj (i j : Nat) : Nat := 0xfe0003100240 + i * 0x1000 + j * 0x8
def D.DL_DLYCj : RegDesc := ⟨0xfe0003100240, 24, 0x1000, 4, 0x8,
  [fld 0 8 .rwl 0, fld 8 8 .rwl 0, fld 16 8 .rwl 0, fld 24 8 .rwl 0, fld 32 8 .rwl 0, fld 40 8 .rwl 0, fld 48 8 .rwl 0, fld 56 8 .rwl 0],
  0xfe0003100000, 0x1000, 0, false, false⟩
/-- DL_LANEFAIL, R337. -/
abbrev A.DL_LANEFAIL (i : Nat) : Nat := 0xfe0003100300 + i * 0x1000
abbrev F.DL_LANEFAIL_UP (i : Nat) : FRef := ⟨A.DL_LANEFAIL i, 0, 34⟩
def D.DL_LANEFAIL : RegDesc := ⟨0xfe0003100300, 24, 0x1000, 1, 0x0,
  [fld 0 34 .ro 0],
  0x0, 0x0, 0, false, false⟩
/-- DL_LANEFAILD, R337. -/
abbrev A.DL_LANEFAILD (i : Nat) : Nat := 0xfe0003100308 + i * 0x1000
abbrev F.DL_LANEFAILD_DOWN (i : Nat) : FRef := ⟨A.DL_LANEFAILD i, 0, 34⟩
def D.DL_LANEFAILD : RegDesc := ⟨0xfe0003100308, 24, 0x1000, 1, 0x0,
  [fld 0 34 .ro 0],
  0x0, 0x0, 0, false, false⟩
/-- DL_ERR, R337. -/
abbrev A.DL_ERR (i : Nat) : Nat := 0xfe0003100310 + i * 0x1000
abbrev F.DL_ERR_CRCERR (i : Nat) : FRef := ⟨A.DL_ERR i, 32, 32⟩
abbrev F.DL_ERR_REPLAYS (i : Nat) : FRef := ⟨A.DL_ERR i, 0, 32⟩
def D.DL_ERR : RegDesc := ⟨0xfe0003100310, 24, 0x1000, 1, 0x0,
  [fld 32 32 .ro 0, fld 0 32 .ro 0],
  0x0, 0x0, 0, false, false⟩
/-- MC_CAPS, R433. -/
abbrev A.MC_CAPS : Nat := 0xfe0004000000
abbrev F.MC_CAPS_BANKS : FRef := ⟨A.MC_CAPS, 0, 16⟩
def D.MC_CAPS : RegDesc := ⟨0xfe0004000000, 1, 0x0, 1, 0x0,
  [fld 0 16 .ro 354],
  0x0, 0x0, 0, true, false⟩
/-- MC_CTL, R433. -/
abbrev A.MC_CTL : Nat := 0xfe0004000008
abbrev F.MC_CTL_CETHRESH : FRef := ⟨A.MC_CTL, 32, 16⟩
abbrev F.MC_CTL_DEFEN : FRef := ⟨A.MC_CTL, 29, 1⟩
abbrev F.MC_CTL_DEFVEC : FRef := ⟨A.MC_CTL, 16, 13⟩
abbrev F.MC_CTL_CEEN : FRef := ⟨A.MC_CTL, 13, 1⟩
abbrev F.MC_CTL_CEVEC : FRef := ⟨A.MC_CTL, 0, 13⟩
def D.MC_CTL : RegDesc := ⟨0xfe0004000008, 1, 0x0, 1, 0x0,
  [⟨32, 16, .rw, 16, 1, 65535⟩, fld 29 1 .rw 0, fld 16 13 .rw 0, fld 13 1 .rw 0, fld 0 13 .rw 0],
  0x0, 0x0, 0, true, false⟩
/-- MC_ROUTE, R433. -/
abbrev A.MC_ROUTE : Nat := 0xfe0004000010
abbrev F.MC_ROUTE_SECONDARY : FRef := ⟨A.MC_ROUTE, 32, 22⟩
abbrev F.MC_ROUTE_PRIMARY : FRef := ⟨A.MC_ROUTE, 0, 22⟩
def D.MC_ROUTE : RegDesc := ⟨0xfe0004000010, 1, 0x0, 1, 0x0,
  [fld 32 22 .rw 0, fld 0 22 .rw 0],
  0x0, 0x0, 0, true, false⟩
/-- MC_GSTAT, R433. -/
abbrev A.MC_GSTAT : Nat := 0xfe0004000018
abbrev F.MC_GSTAT_PENDING : FRef := ⟨A.MC_GSTAT, 1, 1⟩
abbrev F.MC_GSTAT_REROUTED : FRef := ⟨A.MC_GSTAT, 0, 1⟩
def D.MC_GSTAT : RegDesc := ⟨0xfe0004000018, 1, 0x0, 1, 0x0,
  [fld 1 1 .ro 0, fld 0 1 .w1c 0],
  0x0, 0x0, 0, true, false⟩
/-- MC_FATALLOG, R433. -/
abbrev A.MC_FATALLOG (i : Nat) : Nat := 0xfe0004000040 + i * 0x8
abbrev F.MC_FATALLOG_VAL (i : Nat) : FRef := ⟨A.MC_FATALLOG i, 0, 64⟩
def D.MC_FATALLOG : RegDesc := ⟨0xfe0004000040, 4, 0x8, 1, 0x0,
  [fld 0 64 .ro 0],
  0x0, 0x0, 0, true, true⟩
/-- MC_FATALIDX, R433. -/
abbrev A.MC_FATALIDX : Nat := 0xfe0004000060
abbrev F.MC_FATALIDX_BANK : FRef := ⟨A.MC_FATALIDX, 0, 9⟩
def D.MC_FATALIDX : RegDesc := ⟨0xfe0004000060, 1, 0x0, 1, 0x0,
  [fld 0 9 .ro 0],
  0x0, 0x0, 0, true, true⟩
/-- STALE_SPEAKERd, R433. -/
abbrev A.STALE_SPEAKERd (i : Nat) : Nat := 0xfe0004000100 + i * 0x8
abbrev F.STALE_SPEAKERd_DIE (i : Nat) : FRef := ⟨A.STALE_SPEAKERd i, 32, 32⟩
abbrev F.STALE_SPEAKERd_CORE (i : Nat) : FRef := ⟨A.STALE_SPEAKERd i, 0, 32⟩
def D.STALE_SPEAKERd : RegDesc := ⟨0xfe0004000100, 12, 0x8, 1, 0x0,
  [fld 32 32 .ro 0, fld 0 32 .ro 0],
  0x0, 0x0, 0, true, false⟩
/-- MC_DIEFATALd, R433. -/
abbrev A.MC_DIEFATALd (i j : Nat) : Nat := 0xfe0004000200 + i * 0x20 + j * 0x8
abbrev F.MC_DIEFATALd_VAL (i j : Nat) : FRef := ⟨A.MC_DIEFATALd i j, 0, 64⟩
def D.MC_DIEFATALd : RegDesc := ⟨0xfe0004000200, 12, 0x20, 4, 0x8,
  [fld 0 64 .ro 0],
  0x0, 0x0, 0, true, false⟩
/-- MC_DIEBANKd, R433. -/
abbrev A.MC_DIEBANKd (i : Nat) : Nat := 0xfe0004000400 + i * 0x8
abbrev F.MC_DIEBANKd_V (i : Nat) : FRef := ⟨A.MC_DIEBANKd i, 9, 1⟩
abbrev F.MC_DIEBANKd_BANK (i : Nat) : FRef := ⟨A.MC_DIEBANKd i, 0, 9⟩
def D.MC_DIEBANKd : RegDesc := ⟨0xfe0004000400, 12, 0x8, 1, 0x0,
  [fld 9 1 .w1c 0, fld 0 9 .ro 0],
  0x0, 0x0, 0, true, false⟩
/-- MCb_STATUS, R433. -/
abbrev A.MCb_STATUS (i : Nat) : Nat := 0xfe0004001000 + i * 0x40
abbrev F.MCb_STATUS_VAL (i : Nat) : FRef := ⟨A.MCb_STATUS i, 63, 1⟩
abbrev F.MCb_STATUS_OVER (i : Nat) : FRef := ⟨A.MCb_STATUS i, 62, 1⟩
abbrev F.MCb_STATUS_SEV (i : Nat) : FRef := ⟨A.MCb_STATUS i, 60, 2⟩
abbrev F.MCb_STATUS_ADDRV (i : Nat) : FRef := ⟨A.MCb_STATUS i, 59, 1⟩
abbrev F.MCb_STATUS_PKG (i : Nat) : FRef := ⟨A.MCb_STATUS i, 58, 1⟩
abbrev F.MCb_STATUS_SIGNALLED (i : Nat) : FRef := ⟨A.MCb_STATUS i, 57, 1⟩
abbrev F.MCb_STATUS_CECOUNT (i : Nat) : FRef := ⟨A.MCb_STATUS i, 32, 16⟩
abbrev F.MCb_STATUS_STRUCT (i : Nat) : FRef := ⟨A.MCb_STATUS i, 16, 8⟩
abbrev F.MCb_STATUS_TYPE (i : Nat) : FRef := ⟨A.MCb_STATUS i, 8, 8⟩
abbrev F.MCb_STATUS_CAUSE (i : Nat) : FRef := ⟨A.MCb_STATUS i, 0, 8⟩
def D.MCb_STATUS : RegDesc := ⟨0xfe0004001000, 354, 0x40, 1, 0x0,
  [fld 63 1 .w1c 0, fld 62 1 .ro 0, fld 60 2 .ro 0, fld 59 1 .ro 0, fld 58 1 .ro 0, fld 57 1 .ro 0, fld 32 16 .ro 0, fld 16 8 .ro 0, fld 8 8 .ro 0, fld 0 8 .ro 0],
  0x0, 0x0, 0, true, false⟩
/-- MCb_ADDR, R433. -/
abbrev A.MCb_ADDR (i : Nat) : Nat := 0xfe0004001008 + i * 0x40
abbrev F.MCb_ADDR_ADDR (i : Nat) : FRef := ⟨A.MCb_ADDR i, 0, 52⟩
def D.MCb_ADDR : RegDesc := ⟨0xfe0004001008, 354, 0x40, 1, 0x0,
  [fld 0 52 .ro 0],
  0x0, 0x0, 0, true, false⟩
/-- MCb_MISC, R433. -/
abbrev A.MCb_MISC (i : Nat) : Nat := 0xfe0004001010 + i * 0x40
abbrev F.MCb_MISC_ROW (i : Nat) : FRef := ⟨A.MCb_MISC i, 48, 16⟩
abbrev F.MCb_MISC_WAY (i : Nat) : FRef := ⟨A.MCb_MISC i, 40, 8⟩
abbrev F.MCb_MISC_INC (i : Nat) : FRef := ⟨A.MCb_MISC i, 24, 4⟩
abbrev F.MCb_MISC_GTIDV (i : Nat) : FRef := ⟨A.MCb_MISC i, 23, 1⟩
abbrev F.MCb_MISC_GTID (i : Nat) : FRef := ⟨A.MCb_MISC i, 0, 22⟩
def D.MCb_MISC : RegDesc := ⟨0xfe0004001010, 354, 0x40, 1, 0x0,
  [fld 48 16 .ro 0, fld 40 8 .ro 0, fld 24 4 .ro 0, fld 23 1 .ro 0, fld 0 22 .ro 0],
  0x0, 0x0, 0, true, false⟩
/-- MCb_SLATE, R433. -/
abbrev A.MCb_SLATE (i : Nat) : Nat := 0xfe0004001018 + i * 0x40
abbrev F.MCb_SLATE_SLATE (i : Nat) : FRef := ⟨A.MCb_SLATE i, 0, 64⟩
def D.MCb_SLATE : RegDesc := ⟨0xfe0004001018, 354, 0x40, 1, 0x0,
  [fld 0 64 .ro 0],
  0x0, 0x0, 0, true, false⟩
/-- HCE_ADDRj, R436. -/
abbrev A.HCE_ADDRj (i : Nat) : Nat := 0xfe0004008000 + i * 0x10
abbrev F.HCE_ADDRj_ADDR (i : Nat) : FRef := ⟨A.HCE_ADDRj i, 0, 52⟩
def D.HCE_ADDRj : RegDesc := ⟨0xfe0004008000, 16, 0x10, 1, 0x0,
  [fld 0 52 .ro 0],
  0x0, 0x0, 0, true, false⟩
/-- HCE_INFOj, R436. -/
abbrev A.HCE_INFOj (i : Nat) : Nat := 0xfe0004008008 + i * 0x10
abbrev F.HCE_INFOj_COUNT (i : Nat) : FRef := ⟨A.HCE_INFOj i, 16, 16⟩
abbrev F.HCE_INFOj_STRUCT (i : Nat) : FRef := ⟨A.HCE_INFOj i, 8, 8⟩
abbrev F.HCE_INFOj_V (i : Nat) : FRef := ⟨A.HCE_INFOj i, 0, 1⟩
def D.HCE_INFOj : RegDesc := ⟨0xfe0004008008, 16, 0x10, 1, 0x0,
  [fld 16 16 .ro 0, fld 8 8 .ro 0, fld 0 1 .w1c 0],
  0x0, 0x0, 0, true, false⟩
/-- HCE_LOST, R436. -/
abbrev A.HCE_LOST : Nat := 0xfe0004008100
abbrev F.HCE_LOST_COUNT : FRef := ⟨A.HCE_LOST, 0, 32⟩
def D.HCE_LOST : RegDesc := ⟨0xfe0004008100, 1, 0x0, 1, 0x0,
  [fld 0 32 .ro 0],
  0x0, 0x0, 0, true, false⟩
/-- CNT_CTL, R495. -/
abbrev A.CNT_CTL : Nat := 0xfe0005000000
abbrev F.CNT_CTL_CUEEN : FRef := ⟨A.CNT_CTL, 13, 1⟩
abbrev F.CNT_CTL_VEC : FRef := ⟨A.CNT_CTL, 0, 13⟩
def D.CNT_CTL : RegDesc := ⟨0xfe0005000000, 1, 0x0, 1, 0x0,
  [fld 13 1 .rw 0, fld 0 13 .rw 0],
  0x0, 0x0, 0, true, false⟩
/-- GCTLg, R495. -/
abbrev A.GCTLg (i : Nat) : Nat := 0xfe0005001000 + i * 0x100
abbrev F.GCTLg_CUE (i : Nat) : FRef := ⟨A.GCTLg i, 16, 8⟩
abbrev F.GCTLg_OVF (i : Nat) : FRef := ⟨A.GCTLg i, 8, 8⟩
abbrev F.GCTLg_EN (i : Nat) : FRef := ⟨A.GCTLg i, 0, 8⟩
def D.GCTLg : RegDesc := ⟨0xfe0005001000, 114, 0x100, 1, 0x0,
  [fld 16 8 .rw 0, fld 8 8 .rw 0, fld 0 8 .rw 0],
  0x0, 0x0, 0, true, false⟩
/-- GSELgi, R495. -/
abbrev A.GSELgi (i j : Nat) : Nat := 0xfe0005001040 + i * 0x100 + j * 0x8
abbrev F.GSELgi_EVENT (i j : Nat) : FRef := ⟨A.GSELgi i j, 0, 12⟩
def D.GSELgi : RegDesc := ⟨0xfe0005001040, 114, 0x100, 8, 0x8,
  [⟨0, 12, .rw, 0, 0, 8⟩],
  0x0, 0x0, 0, true, false⟩
/-- GCNTgi, R495. -/
abbrev A.GCNTgi (i j : Nat) : Nat := 0xfe0005001080 + i * 0x100 + j * 0x8
abbrev F.GCNTgi_COUNT (i j : Nat) : FRef := ⟨A.GCNTgi i j, 0, 48⟩
def D.GCNTgi : RegDesc := ⟨0xfe0005001080, 114, 0x100, 8, 0x8,
  [fld 0 48 .rw 0],
  0x0, 0x0, 0, true, false⟩
/-- BW_CTLp, R497. -/
abbrev A.BW_CTLp (i : Nat) : Nat := 0xfe0005010000 + i * 0x40
abbrev F.BW_CTLp_SEQ (i : Nat) : FRef := ⟨A.BW_CTLp i, 32, 32⟩
abbrev F.BW_CTLp_PCLR (i : Nat) : FRef := ⟨A.BW_CTLp i, 20, 1⟩
abbrev F.BW_CTLp_WIN_US (i : Nat) : FRef := ⟨A.BW_CTLp i, 0, 20⟩
def D.BW_CTLp : RegDesc := ⟨0xfe0005010000, 48, 0x40, 1, 0x0,
  [fld 32 32 .ro 0, fld 20 1 .wo 0, ⟨0, 20, .rw, 1000, 1, 1000000⟩],
  0x0, 0x0, 0, true, false⟩
/-- BW_LASTRp, R497. -/
abbrev A.BW_LASTRp (i : Nat) : Nat := 0xfe0005010008 + i * 0x40
abbrev F.BW_LASTRp_BYTES (i : Nat) : FRef := ⟨A.BW_LASTRp i, 0, 48⟩
def D.BW_LASTRp : RegDesc := ⟨0xfe0005010008, 48, 0x40, 1, 0x0,
  [fld 0 48 .ro 0],
  0x0, 0x0, 0, true, false⟩
/-- BW_LASTWp, R497. -/
abbrev A.BW_LASTWp (i : Nat) : Nat := 0xfe0005010010 + i * 0x40
abbrev F.BW_LASTWp_BYTES (i : Nat) : FRef := ⟨A.BW_LASTWp i, 0, 48⟩
def D.BW_LASTWp : RegDesc := ⟨0xfe0005010010, 48, 0x40, 1, 0x0,
  [fld 0 48 .ro 0],
  0x0, 0x0, 0, true, false⟩
/-- BW_PEAKRp, R497. -/
abbrev A.BW_PEAKRp (i : Nat) : Nat := 0xfe0005010018 + i * 0x40
abbrev F.BW_PEAKRp_BYTES (i : Nat) : FRef := ⟨A.BW_PEAKRp i, 0, 48⟩
def D.BW_PEAKRp : RegDesc := ⟨0xfe0005010018, 48, 0x40, 1, 0x0,
  [fld 0 48 .ro 0],
  0x0, 0x0, 0, true, false⟩
/-- BW_PEAKWp, R497. -/
abbrev A.BW_PEAKWp (i : Nat) : Nat := 0xfe0005010020 + i * 0x40
abbrev F.BW_PEAKWp_BYTES (i : Nat) : FRef := ⟨A.BW_PEAKWp i, 0, 48⟩
def D.BW_PEAKWp : RegDesc := ⟨0xfe0005010020, 48, 0x40, 1, 0x0,
  [fld 0 48 .ro 0],
  0x0, 0x0, 0, true, false⟩
/-- AON_STAT, R487. -/
abbrev A.AON_STAT : Nat := 0xfe0006000000
abbrev F.AON_STAT_VAONLOST : FRef := ⟨A.AON_STAT, 7, 1⟩
abbrev F.AON_STAT_ALARM : FRef := ⟨A.AON_STAT, 6, 1⟩
abbrev F.AON_STAT_WAKEPIN : FRef := ⟨A.AON_STAT, 5, 1⟩
abbrev F.AON_STAT_WAKESRC : FRef := ⟨A.AON_STAT, 0, 2⟩
def D.AON_STAT : RegDesc := ⟨0xfe0006000000, 1, 0x0, 1, 0x0,
  [fld 7 1 .w1c 0, fld 6 1 .w1c 0, fld 5 1 .w1c 0, fld 0 2 .ro 0],
  0x0, 0x0, 0, true, true⟩
/-- CAL_NOW, R487. -/
abbrev A.CAL_NOW : Nat := 0xfe0006000008
abbrev F.CAL_NOW_SECONDS : FRef := ⟨A.CAL_NOW, 20, 44⟩
abbrev F.CAL_NOW_FRAC : FRef := ⟨A.CAL_NOW, 0, 20⟩
def D.CAL_NOW : RegDesc := ⟨0xfe0006000008, 1, 0x0, 1, 0x0,
  [fld 20 44 .ro 0, fld 0 20 .ro 0],
  0x0, 0x0, 0, true, true⟩
/-- CAL_SET, R487. -/
abbrev A.CAL_SET : Nat := 0xfe0006000010
abbrev F.CAL_SET_VALUE : FRef := ⟨A.CAL_SET, 0, 64⟩
def D.CAL_SET : RegDesc := ⟨0xfe0006000010, 1, 0x0, 1, 0x0,
  [fld 0 64 .wo 0],
  0x0, 0x0, 0, true, true⟩
/-- CAL_ALARM, R487. -/
abbrev A.CAL_ALARM : Nat := 0xfe0006000018
abbrev F.CAL_ALARM_SECONDS : FRef := ⟨A.CAL_ALARM, 20, 44⟩
abbrev F.CAL_ALARM_EN : FRef := ⟨A.CAL_ALARM, 0, 1⟩
def D.CAL_ALARM : RegDesc := ⟨0xfe0006000018, 1, 0x0, 1, 0x0,
  [fld 20 44 .rw 0, fld 0 1 .rw 0],
  0x0, 0x0, 0, true, true⟩
/-- CAL_STAT, R487. -/
abbrev A.CAL_STAT : Nat := 0xfe0006000020
abbrev F.CAL_STAT_TRIM : FRef := ⟨A.CAL_STAT, 32, 32⟩
abbrev F.CAL_STAT_UNBOUND : FRef := ⟨A.CAL_STAT, 2, 1⟩
abbrev F.CAL_STAT_DISC : FRef := ⟨A.CAL_STAT, 1, 1⟩
abbrev F.CAL_STAT_VALID : FRef := ⟨A.CAL_STAT, 0, 1⟩
def D.CAL_STAT : RegDesc := ⟨0xfe0006000020, 1, 0x0, 1, 0x0,
  [fld 32 32 .ro 0, fld 2 1 .w1c 0, fld 1 1 .ro 0, fld 0 1 .ro 0],
  0x0, 0x0, 0, true, true⟩
/-- PIN_LVL, R522. -/
abbrev A.PIN_LVL : Nat := 0xfe0006000400
abbrev F.PIN_LVL_GPIO : FRef := ⟨A.PIN_LVL, 16, 16⟩
abbrev F.PIN_LVL_IN : FRef := ⟨A.PIN_LVL, 0, 10⟩
def D.PIN_LVL : RegDesc := ⟨0xfe0006000400, 1, 0x0, 1, 0x0,
  [fld 16 16 .ro 0, fld 0 10 .ro 0],
  0x0, 0x0, 0, true, true⟩
/-- PIN_STUCK, R522. -/
abbrev A.PIN_STUCK : Nat := 0xfe0006000408
abbrev F.PIN_STUCK_IN : FRef := ⟨A.PIN_STUCK, 0, 10⟩
def D.PIN_STUCK : RegDesc := ⟨0xfe0006000408, 1, 0x0, 1, 0x0,
  [fld 0 10 .w1c 0],
  0x0, 0x0, 0, true, true⟩
/-- PIN_LOCK, R522. -/
abbrev A.PIN_LOCK : Nat := 0xfe0006000410
abbrev F.PIN_LOCK_IN : FRef := ⟨A.PIN_LOCK, 0, 10⟩
def D.PIN_LOCK : RegDesc := ⟨0xfe0006000410, 1, 0x0, 1, 0x0,
  [fld 0 10 .ro 0],
  0x0, 0x0, 0, true, true⟩
/-- PIN_CHAT, R522. -/
abbrev A.PIN_CHAT : Nat := 0xfe0006000418
abbrev F.PIN_CHAT_IN : FRef := ⟨A.PIN_CHAT, 0, 10⟩
def D.PIN_CHAT : RegDesc := ⟨0xfe0006000418, 1, 0x0, 1, 0x0,
  [fld 0 10 .w1c 0],
  0x0, 0x0, 0, true, true⟩
/-- PIN_EVT, R522. -/
abbrev A.PIN_EVT : Nat := 0xfe0006000420
abbrev F.PIN_EVT_VCORE : FRef := ⟨A.PIN_EVT, 16, 12⟩
abbrev F.PIN_EVT_STRAPUNST : FRef := ⟨A.PIN_EVT, 8, 1⟩
abbrev F.PIN_EVT_XTAL : FRef := ⟨A.PIN_EVT, 7, 1⟩
abbrev F.PIN_EVT_REFCLK : FRef := ⟨A.PIN_EVT, 6, 1⟩
abbrev F.PIN_EVT_VSER_B : FRef := ⟨A.PIN_EVT, 4, 1⟩
abbrev F.PIN_EVT_VSER_A : FRef := ⟨A.PIN_EVT, 3, 1⟩
abbrev F.PIN_EVT_VUNC : FRef := ⟨A.PIN_EVT, 2, 1⟩
abbrev F.PIN_EVT_VHUB : FRef := ⟨A.PIN_EVT, 1, 1⟩
abbrev F.PIN_EVT_VIO : FRef := ⟨A.PIN_EVT, 0, 1⟩
def D.PIN_EVT : RegDesc := ⟨0xfe0006000420, 1, 0x0, 1, 0x0,
  [fld 16 12 .w1c 0, fld 8 1 .w1c 0, fld 7 1 .w1c 0, fld 6 1 .w1c 0, fld 4 1 .w1c 0, fld 3 1 .w1c 0, fld 2 1 .w1c 0, fld 1 1 .w1c 0, fld 0 1 .w1c 0],
  0x0, 0x0, 0, true, true⟩
/-- PIN_SLEW, R522. -/
abbrev A.PIN_SLEW : Nat := 0xfe0006000428
abbrev F.PIN_SLEW_GPIO : FRef := ⟨A.PIN_SLEW, 6, 2⟩
abbrev F.PIN_SLEW_TDO : FRef := ⟨A.PIN_SLEW, 4, 2⟩
abbrev F.PIN_SLEW_UART : FRef := ⟨A.PIN_SLEW, 2, 2⟩
abbrev F.PIN_SLEW_SPI : FRef := ⟨A.PIN_SLEW, 0, 2⟩
def D.PIN_SLEW : RegDesc := ⟨0xfe0006000428, 1, 0x0, 1, 0x0,
  [⟨6, 2, .rw, 0, 0, 2⟩, ⟨4, 2, .rw, 1, 0, 2⟩, ⟨2, 2, .rw, 0, 0, 2⟩, ⟨0, 2, .rw, 1, 0, 2⟩],
  0x0, 0x0, 0, true, false⟩
/-- DLY_POWERON, R488. -/
abbrev A.DLY_POWERON : Nat := 0xfe0006001000
abbrev F.DLY_POWERON_SECONDS : FRef := ⟨A.DLY_POWERON, 0, 32⟩
def D.DLY_POWERON : RegDesc := ⟨0xfe0006001000, 1, 0x0, 1, 0x0,
  [fld 0 32 .ro 0],
  0x0, 0x0, 0, true, true⟩
/-- DLY_COLDBOOTS, R488. -/
abbrev A.DLY_COLDBOOTS : Nat := 0xfe0006001008
abbrev F.DLY_COLDBOOTS_COUNT : FRef := ⟨A.DLY_COLDBOOTS, 0, 64⟩
def D.DLY_COLDBOOTS : RegDesc := ⟨0xfe0006001008, 1, 0x0, 1, 0x0,
  [fld 0 64 .ro 0],
  0x0, 0x0, 0, true, true⟩
/-- DLY_WRAPS, R488. -/
abbrev A.DLY_WRAPS : Nat := 0xfe0006001010
abbrev F.DLY_WRAPS_COUNT : FRef := ⟨A.DLY_WRAPS, 0, 64⟩
def D.DLY_WRAPS : RegDesc := ⟨0xfe0006001010, 1, 0x0, 1, 0x0,
  [fld 0 64 .ro 0],
  0x0, 0x0, 0, true, true⟩
/-- DLY_CUTS, R488. -/
abbrev A.DLY_CUTS : Nat := 0xfe0006001018
abbrev F.DLY_CUTS_COUNT : FRef := ⟨A.DLY_CUTS, 0, 64⟩
def D.DLY_CUTS : RegDesc := ⟨0xfe0006001018, 1, 0x0, 1, 0x0,
  [fld 0 64 .ro 0],
  0x0, 0x0, 0, true, true⟩
/-- DLY_EVENTS, R488. -/
abbrev A.DLY_EVENTS : Nat := 0xfe0006001020
abbrev F.DLY_EVENTS_MISSING : FRef := ⟨A.DLY_EVENTS, 48, 16⟩
abbrev F.DLY_EVENTS_PFOFF : FRef := ⟨A.DLY_EVENTS, 32, 16⟩
abbrev F.DLY_EVENTS_OFFS : FRef := ⟨A.DLY_EVENTS, 16, 16⟩
abbrev F.DLY_EVENTS_VAONLOSS : FRef := ⟨A.DLY_EVENTS, 0, 16⟩
def D.DLY_EVENTS : RegDesc := ⟨0xfe0006001020, 1, 0x0, 1, 0x0,
  [fld 48 16 .ro 0, fld 32 16 .ro 0, fld 16 16 .ro 0, fld 0 16 .ro 0],
  0x0, 0x0, 0, true, true⟩
/-- DLY_FIRSTON, R488. -/
abbrev A.DLY_FIRSTON : Nat := 0xfe0006001028
abbrev F.DLY_FIRSTON_SECONDS : FRef := ⟨A.DLY_FIRSTON, 0, 64⟩
def D.DLY_FIRSTON : RegDesc := ⟨0xfe0006001028, 1, 0x0, 1, 0x0,
  [fld 0 64 .ro 0],
  0x0, 0x0, 0, true, true⟩
/-- DLY_WRAPSLATE, R488. -/
abbrev A.DLY_WRAPSLATE : Nat := 0xfe0006001030
abbrev F.DLY_WRAPSLATE_SLATE : FRef := ⟨A.DLY_WRAPSLATE, 0, 64⟩
def D.DLY_WRAPSLATE : RegDesc := ⟨0xfe0006001030, 1, 0x0, 1, 0x0,
  [fld 0 64 .ro 0],
  0x0, 0x0, 0, true, true⟩
/-- DLY_WRAPINFO, R488. -/
abbrev A.DLY_WRAPINFO : Nat := 0xfe0006001038
abbrev F.DLY_WRAPINFO_CAUSE : FRef := ⟨A.DLY_WRAPINFO, 16, 4⟩
abbrev F.DLY_WRAPINFO_GPF_LATE : FRef := ⟨A.DLY_WRAPINFO, 0, 16⟩
def D.DLY_WRAPINFO : RegDesc := ⟨0xfe0006001038, 1, 0x0, 1, 0x0,
  [fld 16 4 .ro 0, fld 0 16 .ro 0],
  0x0, 0x0, 0, true, true⟩
/-- DLY_LIFE, R488. -/
abbrev A.DLY_LIFE : Nat := 0xfe0006001040
abbrev F.DLY_LIFE_DIE : FRef := ⟨A.DLY_LIFE, 32, 4⟩
abbrev F.DLY_LIFE_REMAIN_DAYS : FRef := ⟨A.DLY_LIFE, 0, 32⟩
def D.DLY_LIFE : RegDesc := ⟨0xfe0006001040, 1, 0x0, 1, 0x0,
  [fld 32 4 .ro 0, fld 0 32 .ro 4294967295],
  0x0, 0x0, 0, true, true⟩
/-- DLY_WEARi, R488. -/
abbrev A.DLY_WEARi (i : Nat) : Nat := 0xfe0006001100 + i * 0x8
abbrev F.DLY_WEARi_UNITS (i : Nat) : FRef := ⟨A.DLY_WEARi i, 0, 64⟩
def D.DLY_WEARi : RegDesc := ⟨0xfe0006001100, 13, 0x8, 1, 0x0,
  [fld 0 64 .ro 0],
  0x0, 0x0, 0, true, true⟩
/-- DLY_CYCLESi, R488. -/
abbrev A.DLY_CYCLESi (i : Nat) : Nat := 0xfe0006001180 + i * 0x8
abbrev F.DLY_CYCLESi_C60 (i : Nat) : FRef := ⟨A.DLY_CYCLESi i, 32, 32⟩
abbrev F.DLY_CYCLESi_C20 (i : Nat) : FRef := ⟨A.DLY_CYCLESi i, 0, 32⟩
def D.DLY_CYCLESi : RegDesc := ⟨0xfe0006001180, 13, 0x8, 1, 0x0,
  [fld 32 32 .ro 0, fld 0 32 .ro 0],
  0x0, 0x0, 0, true, true⟩
/-- DLY_CEs, R488. -/
abbrev A.DLY_CEs (i : Nat) : Nat := 0xfe0006001200 + i * 0x8
abbrev F.DLY_CEs_COUNT (i : Nat) : FRef := ⟨A.DLY_CEs i, 0, 48⟩
def D.DLY_CEs : RegDesc := ⟨0xfe0006001200, 25, 0x8, 1, 0x0,
  [fld 0 48 .ro 0],
  0x0, 0x0, 0, true, true⟩
/-- DLY_LANEq, R488. -/
abbrev A.DLY_LANEq (i : Nat) : Nat := 0xfe0006002000 + i * 0x8
def D.DLY_LANEq : RegDesc := ⟨0xfe0006002000, 472, 0x8, 1, 0x0,
  [fld 0 16 .ro 0, fld 16 16 .ro 0, fld 32 16 .ro 0, fld 48 16 .ro 0],
  0x0, 0x0, 0, true, true⟩
/-- DLY_LOGWR, R488. -/
abbrev A.DLY_LOGWR : Nat := 0xfe0006003000
abbrev F.DLY_LOGWR_NEXT : FRef := ⟨A.DLY_LOGWR, 0, 8⟩
def D.DLY_LOGWR : RegDesc := ⟨0xfe0006003000, 1, 0x0, 1, 0x0,
  [fld 0 8 .ro 0],
  0x0, 0x0, 0, true, true⟩
/-- DLY_LOGACK, R488. -/
abbrev A.DLY_LOGACK : Nat := 0xfe0006003008
abbrev F.DLY_LOGACK_ACK : FRef := ⟨A.DLY_LOGACK, 0, 8⟩
def D.DLY_LOGACK : RegDesc := ⟨0xfe0006003008, 1, 0x0, 1, 0x0,
  [fld 0 8 .rw 0],
  0x0, 0x0, 0, true, true⟩
/-- DLY_LOGSLe, R488. -/
abbrev A.DLY_LOGSLe (i : Nat) : Nat := 0xfe0006003100 + i * 0x10
abbrev F.DLY_LOGSLe_SLATE (i : Nat) : FRef := ⟨A.DLY_LOGSLe i, 0, 64⟩
def D.DLY_LOGSLe : RegDesc := ⟨0xfe0006003100, 256, 0x10, 1, 0x0,
  [fld 0 64 .ro 0],
  0x0, 0x0, 0, true, true⟩
/-- DLY_LOGe, R488. -/
abbrev A.DLY_LOGe (i : Nat) : Nat := 0xfe0006003108 + i * 0x10
abbrev F.DLY_LOGe_DATA (i : Nat) : FRef := ⟨A.DLY_LOGe i, 32, 32⟩
abbrev F.DLY_LOGe_CODE (i : Nat) : FRef := ⟨A.DLY_LOGe i, 0, 16⟩
def D.DLY_LOGe : RegDesc := ⟨0xfe0006003108, 256, 0x10, 1, 0x0,
  [fld 32 32 .ro 0, fld 0 16 .ro 0],
  0x0, 0x0, 0, true, true⟩
/-- MIR_CTL, R357. -/
abbrev A.MIR_CTL : Nat := 0xfe0007000000
abbrev F.MIR_CTL_CUEBASE : FRef := ⟨A.MIR_CTL, 16, 13⟩
abbrev F.MIR_CTL_LOCK : FRef := ⟨A.MIR_CTL, 2, 1⟩
abbrev F.MIR_CTL_RETRAIN : FRef := ⟨A.MIR_CTL, 1, 1⟩
abbrev F.MIR_CTL_EN : FRef := ⟨A.MIR_CTL, 0, 1⟩
def D.MIR_CTL : RegDesc := ⟨0xfe0007000000, 1, 0x0, 1, 0x0,
  [fld 16 13 .rw 0, fld 2 1 .w1s 0, fld 1 1 .wo 0, fld 0 1 .rwl 0],
  0xfe0007000000, 0x0, 2, false, false⟩
/-- MIR_STAT, R357. -/
abbrev A.MIR_STAT : Nat := 0xfe0007000008
abbrev F.MIR_STAT_WIDTH : FRef := ⟨A.MIR_STAT, 12, 4⟩
abbrev F.MIR_STAT_RATE : FRef := ⟨A.MIR_STAT, 8, 4⟩
abbrev F.MIR_STAT_ENDPOINT : FRef := ⟨A.MIR_STAT, 2, 1⟩
abbrev F.MIR_STAT_LOST : FRef := ⟨A.MIR_STAT, 1, 1⟩
abbrev F.MIR_STAT_UP : FRef := ⟨A.MIR_STAT, 0, 1⟩
def D.MIR_STAT : RegDesc := ⟨0xfe0007000008, 1, 0x0, 1, 0x0,
  [fld 12 4 .ro 0, fld 8 4 .ro 0, fld 2 1 .ro 0, fld 1 1 .w1c 0, fld 0 1 .ro 0],
  0x0, 0x0, 0, false, false⟩
/-- MIR_PM, R357. -/
abbrev A.MIR_PM : Nat := 0xfe0007000010
abbrev F.MIR_PM_L1_US : FRef := ⟨A.MIR_PM, 16, 16⟩
abbrev F.MIR_PM_L0S_US : FRef := ⟨A.MIR_PM, 0, 16⟩
def D.MIR_PM : RegDesc := ⟨0xfe0007000010, 1, 0x0, 1, 0x0,
  [fld 16 16 .rw 0, fld 0 16 .rw 0],
  0x0, 0x0, 0, false, false⟩
/-- MIR_BARSZ, R357. -/
abbrev A.MIR_BARSZ : Nat := 0xfe0007000018
abbrev F.MIR_BARSZ_LOG2B : FRef := ⟨A.MIR_BARSZ, 8, 6⟩
abbrev F.MIR_BARSZ_LOG2A : FRef := ⟨A.MIR_BARSZ, 0, 6⟩
def D.MIR_BARSZ : RegDesc := ⟨0xfe0007000018, 1, 0x0, 1, 0x0,
  [⟨8, 6, .rwl, 26, 20, 40⟩, ⟨0, 6, .rwl, 26, 20, 40⟩],
  0xfe0007000000, 0x0, 2, false, false⟩
/-- MWx_LOCAL, R357. -/
abbrev A.MWx_LOCAL (i : Nat) : Nat := 0xfe0007000100 + i * 0x40
abbrev F.MWx_LOCAL_PA (i : Nat) : FRef := ⟨A.MWx_LOCAL i, 20, 32⟩
def D.MWx_LOCAL : RegDesc := ⟨0xfe0007000100, 2, 0x40, 1, 0x0,
  [fld 20 32 .ro 0],
  0x0, 0x0, 0, false, false⟩
/-- MWx_LEN, R357. -/
abbrev A.MWx_LEN (i : Nat) : Nat := 0xfe0007000108 + i * 0x40
abbrev F.MWx_LEN_LEN (i : Nat) : FRef := ⟨A.MWx_LEN i, 20, 21⟩
def D.MWx_LEN : RegDesc := ⟨0xfe0007000108, 2, 0x40, 1, 0x0,
  [fld 20 21 .ro 0],
  0x0, 0x0, 0, false, false⟩
/-- MWx_ATTR, R357. -/
abbrev A.MWx_ATTR (i : Nat) : Nat := 0xfe0007000110 + i * 0x40
abbrev F.MWx_ATTR_KSLOT (i : Nat) : FRef := ⟨A.MWx_ATTR i, 22, 10⟩
abbrev F.MWx_ATTR_VMID (i : Nat) : FRef := ⟨A.MWx_ATTR i, 10, 12⟩
abbrev F.MWx_ATTR_W (i : Nat) : FRef := ⟨A.MWx_ATTR i, 2, 1⟩
abbrev F.MWx_ATTR_R (i : Nat) : FRef := ⟨A.MWx_ATTR i, 1, 1⟩
abbrev F.MWx_ATTR_V (i : Nat) : FRef := ⟨A.MWx_ATTR i, 0, 1⟩
def D.MWx_ATTR : RegDesc := ⟨0xfe0007000110, 2, 0x40, 1, 0x0,
  [fld 22 10 .ro 0, fld 10 12 .ro 0, fld 2 1 .ro 0, fld 1 1 .ro 0, fld 0 1 .ro 0],
  0x0, 0x0, 0, false, false⟩
/-- MWx_NLOCAL, R357. -/
abbrev A.MWx_NLOCAL (i : Nat) : Nat := 0xfe0007000120 + i * 0x40
abbrev F.MWx_NLOCAL_PA (i : Nat) : FRef := ⟨A.MWx_NLOCAL i, 20, 32⟩
def D.MWx_NLOCAL : RegDesc := ⟨0xfe0007000120, 2, 0x40, 1, 0x0,
  [fld 20 32 .rw 0],
  0x0, 0x0, 0, false, false⟩
/-- MWx_NLEN, R357. -/
abbrev A.MWx_NLEN (i : Nat) : Nat := 0xfe0007000128 + i * 0x40
abbrev F.MWx_NLEN_LEN (i : Nat) : FRef := ⟨A.MWx_NLEN i, 20, 21⟩
def D.MWx_NLEN : RegDesc := ⟨0xfe0007000128, 2, 0x40, 1, 0x0,
  [fld 20 21 .rw 0],
  0x0, 0x0, 0, false, false⟩
/-- MWx_NATTR, R357. -/
abbrev A.MWx_NATTR (i : Nat) : Nat := 0xfe0007000130 + i * 0x40
abbrev F.MWx_NATTR_KSLOT (i : Nat) : FRef := ⟨A.MWx_NATTR i, 22, 10⟩
abbrev F.MWx_NATTR_VMID (i : Nat) : FRef := ⟨A.MWx_NATTR i, 10, 12⟩
abbrev F.MWx_NATTR_W (i : Nat) : FRef := ⟨A.MWx_NATTR i, 2, 1⟩
abbrev F.MWx_NATTR_R (i : Nat) : FRef := ⟨A.MWx_NATTR i, 1, 1⟩
abbrev F.MWx_NATTR_V (i : Nat) : FRef := ⟨A.MWx_NATTR i, 0, 1⟩
def D.MWx_NATTR : RegDesc := ⟨0xfe0007000130, 2, 0x40, 1, 0x0,
  [fld 22 10 .rw 0, fld 10 12 .rw 0, fld 2 1 .rw 0, fld 1 1 .rw 0, fld 0 1 .rw 0],
  0x0, 0x0, 0, false, false⟩
/-- MW_COMMIT, R357. -/
abbrev A.MW_COMMIT : Nat := 0xfe0007000200
abbrev F.MW_COMMIT_REASON : FRef := ⟨A.MW_COMMIT, 6, 4⟩
abbrev F.MW_COMMIT_REFUSED : FRef := ⟨A.MW_COMMIT, 5, 1⟩
abbrev F.MW_COMMIT_BUSY : FRef := ⟨A.MW_COMMIT, 4, 1⟩
abbrev F.MW_COMMIT_B : FRef := ⟨A.MW_COMMIT, 1, 1⟩
abbrev F.MW_COMMIT_A : FRef := ⟨A.MW_COMMIT, 0, 1⟩
def D.MW_COMMIT : RegDesc := ⟨0xfe0007000200, 1, 0x0, 1, 0x0,
  [fld 6 4 .ro 0, fld 5 1 .w1c 0, fld 4 1 .ro 0, fld 1 1 .wo 0, fld 0 1 .wo 0],
  0x0, 0x0, 0, false, false⟩
/-- MW_DROP, R357. -/
abbrev A.MW_DROP : Nat := 0xfe0007000208
abbrev F.MW_DROP_COUNT : FRef := ⟨A.MW_DROP, 32, 32⟩
abbrev F.MW_DROP_NP : FRef := ⟨A.MW_DROP, 3, 1⟩
abbrev F.MW_DROP_WIN : FRef := ⟨A.MW_DROP, 2, 1⟩
abbrev F.MW_DROP_VALID : FRef := ⟨A.MW_DROP, 0, 1⟩
def D.MW_DROP : RegDesc := ⟨0xfe0007000208, 1, 0x0, 1, 0x0,
  [fld 32 32 .ro 0, fld 3 1 .ro 0, fld 2 1 .ro 0, fld 0 1 .w1c 0],
  0x0, 0x0, 0, false, false⟩
/-- MW_DROPOFS, R357. -/
abbrev A.MW_DROPOFS : Nat := 0xfe0007000210
abbrev F.MW_DROPOFS_OFFSET : FRef := ⟨A.MW_DROPOFS, 0, 64⟩
def D.MW_DROPOFS : RegDesc := ⟨0xfe0007000210, 1, 0x0, 1, 0x0,
  [fld 0 64 .ro 0],
  0x0, 0x0, 0, false, false⟩
/-- MIR_DB, R357. -/
abbrev A.MIR_DB : Nat := 0xfe0007000218
abbrev F.MIR_DB_PEND : FRef := ⟨A.MIR_DB, 0, 16⟩
def D.MIR_DB : RegDesc := ⟨0xfe0007000218, 1, 0x0, 1, 0x0,
  [fld 0 16 .w1c 0],
  0x0, 0x0, 0, false, false⟩
/-- MIR_RCn, R357. -/
abbrev A.MIR_RCn (i : Nat) : Nat := 0xfe0007000300 + i * 0x10
abbrev F.MIR_RCn_SEQ (i : Nat) : FRef := ⟨A.MIR_RCn i, 16, 16⟩
abbrev F.MIR_RCn_STATE (i : Nat) : FRef := ⟨A.MIR_RCn i, 0, 3⟩
def D.MIR_RCn : RegDesc := ⟨0xfe0007000300, 8, 0x10, 1, 0x0,
  [fld 16 16 .ro 0, fld 0 3 .ro 0],
  0x0, 0x0, 0, false, false⟩
/-- MIR_RCTn, R357. -/
abbrev A.MIR_RCTn (i : Nat) : Nat := 0xfe0007000308 + i * 0x10
abbrev F.MIR_RCTn_TAKE (i : Nat) : FRef := ⟨A.MIR_RCTn i, 0, 64⟩
def D.MIR_RCTn : RegDesc := ⟨0xfe0007000308, 8, 0x10, 1, 0x0,
  [fld 0 64 .ro 0],
  0x0, 0x0, 0, false, false⟩
/-- PRT_BASEn, R174. -/
abbrev A.PRT_BASEn (i : Nat) : Nat := 0xfe0008000000 + i * 0x20
abbrev F.PRT_BASEn_BASE (i : Nat) : FRef := ⟨A.PRT_BASEn i, 21, 31⟩
def D.PRT_BASEn : RegDesc := ⟨0xfe0008000000, 64, 0x20, 1, 0x0,
  [fld 21 31 .rw 0],
  0x0, 0x0, 0, false, false⟩
/-- PRT_LIMITn, R174. -/
abbrev A.PRT_LIMITn (i : Nat) : Nat := 0xfe0008000008 + i * 0x20
abbrev F.PRT_LIMITn_LIMIT (i : Nat) : FRef := ⟨A.PRT_LIMITn i, 21, 31⟩
def D.PRT_LIMITn : RegDesc := ⟨0xfe0008000008, 64, 0x20, 1, 0x0,
  [fld 21 31 .rw 0],
  0x0, 0x0, 0, false, false⟩
/-- PRT_ATTRn, R174. -/
abbrev A.PRT_ATTRn (i : Nat) : Nat := 0xfe0008000010 + i * 0x20
abbrev F.PRT_ATTRn_REEL (i : Nat) : FRef := ⟨A.PRT_ATTRn i, 11, 1⟩
abbrev F.PRT_ATTRn_MONO (i : Nat) : FRef := ⟨A.PRT_ATTRn i, 10, 1⟩
abbrev F.PRT_ATTRn_ISET (i : Nat) : FRef := ⟨A.PRT_ATTRn i, 6, 4⟩
abbrev F.PRT_ATTRn_DOMAIN (i : Nat) : FRef := ⟨A.PRT_ATTRn i, 3, 3⟩
abbrev F.PRT_ATTRn_MTYPE (i : Nat) : FRef := ⟨A.PRT_ATTRn i, 1, 2⟩
abbrev F.PRT_ATTRn_V (i : Nat) : FRef := ⟨A.PRT_ATTRn i, 0, 1⟩
def D.PRT_ATTRn : RegDesc := ⟨0xfe0008000010, 64, 0x20, 1, 0x0,
  [fld 11 1 .rw 0, fld 10 1 .rw 0, fld 6 4 .rw 0, fld 3 3 .rw 0, fld 1 2 .rw 0, fld 0 1 .rw 0],
  0x0, 0x0, 0, false, false⟩
/-- PRT_MONOn, R174. -/
abbrev A.PRT_MONOn (i : Nat) : Nat := 0xfe0008000018 + i * 0x20
abbrev F.PRT_MONOn_VMID (i : Nat) : FRef := ⟨A.PRT_MONOn i, 0, 12⟩
def D.PRT_MONOn : RegDesc := ⟨0xfe0008000018, 64, 0x20, 1, 0x0,
  [fld 0 12 .rw 0],
  0x0, 0x0, 0, false, false⟩
/-- POT_BASE, R174. -/
abbrev A.POT_BASE : Nat := 0xfe0008000800
abbrev F.POT_BASE_BASE : FRef := ⟨A.POT_BASE, 14, 38⟩
def D.POT_BASE : RegDesc := ⟨0xfe0008000800, 1, 0x0, 1, 0x0,
  [fld 14 38 .rwl 0],
  0xfe0008000820, 0x0, 0, false, false⟩
/-- POT_SUMBASE, R174. -/
abbrev A.POT_SUMBASE : Nat := 0xfe0008000808
abbrev F.POT_SUMBASE_BASE : FRef := ⟨A.POT_SUMBASE, 14, 38⟩
def D.POT_SUMBASE : RegDesc := ⟨0xfe0008000808, 1, 0x0, 1, 0x0,
  [fld 14 38 .rwl 0],
  0xfe0008000820, 0x0, 0, false, false⟩
/-- POT_SPAN, R174. -/
abbrev A.POT_SPAN : Nat := 0xfe0008000810
abbrev F.POT_SPAN_TOP : FRef := ⟨A.POT_SPAN, 21, 31⟩
def D.POT_SPAN : RegDesc := ⟨0xfe0008000810, 1, 0x0, 1, 0x0,
  [fld 21 31 .rwl 0],
  0xfe0008000820, 0x0, 0, false, false⟩
/-- PRT_REFUSE, R174. -/
abbrev A.PRT_REFUSE : Nat := 0xfe0008000818
abbrev F.PRT_REFUSE_VALID : FRef := ⟨A.PRT_REFUSE, 12, 1⟩
abbrev F.PRT_REFUSE_REASON : FRef := ⟨A.PRT_REFUSE, 8, 4⟩
abbrev F.PRT_REFUSE_REGION : FRef := ⟨A.PRT_REFUSE, 0, 6⟩
def D.PRT_REFUSE : RegDesc := ⟨0xfe0008000818, 1, 0x0, 1, 0x0,
  [fld 12 1 .w1c 0, fld 8 4 .ro 0, fld 0 6 .ro 0],
  0x0, 0x0, 0, false, false⟩
/-- PRT_LOCK, R411. -/
abbrev A.PRT_LOCK : Nat := 0xfe0008000820
abbrev F.PRT_LOCK_LOCK : FRef := ⟨A.PRT_LOCK, 0, 1⟩
def D.PRT_LOCK : RegDesc := ⟨0xfe0008000820, 1, 0x0, 1, 0x0,
  [fld 0 1 .w1s 0],
  0x0, 0x0, 0, false, false⟩
/-- ENCT_BASE, R411. -/
abbrev A.ENCT_BASE : Nat := 0xfe0008000828
abbrev F.ENCT_BASE_BASE : FRef := ⟨A.ENCT_BASE, 19, 33⟩
abbrev F.ENCT_BASE_V : FRef := ⟨A.ENCT_BASE, 0, 1⟩
def D.ENCT_BASE : RegDesc := ⟨0xfe0008000828, 1, 0x0, 1, 0x0,
  [fld 19 33 .rwl 0, fld 0 1 .rwl 0],
  0xfe0008000820, 0x0, 0, false, false⟩
/-- ERMAP_BASE, R411. -/
abbrev A.ERMAP_BASE : Nat := 0xfe0008000830
abbrev F.ERMAP_BASE_ADDR : FRef := ⟨A.ERMAP_BASE, 14, 38⟩
def D.ERMAP_BASE : RegDesc := ⟨0xfe0008000830, 1, 0x0, 1, 0x0,
  [fld 14 38 .rwl 0],
  0xfe0008000820, 0x0, 0, false, false⟩
/-- ERMAP_LO, R411. -/
abbrev A.ERMAP_LO : Nat := 0xfe0008000838
abbrev F.ERMAP_LO_ADDR : FRef := ⟨A.ERMAP_LO, 14, 38⟩
def D.ERMAP_LO : RegDesc := ⟨0xfe0008000838, 1, 0x0, 1, 0x0,
  [fld 14 38 .rwl 0],
  0xfe0008000820, 0x0, 0, false, false⟩
/-- ERMAP_HI, R411. -/
abbrev A.ERMAP_HI : Nat := 0xfe0008000840
abbrev F.ERMAP_HI_ADDR : FRef := ⟨A.ERMAP_HI, 14, 38⟩
def D.ERMAP_HI : RegDesc := ⟨0xfe0008000840, 1, 0x0, 1, 0x0,
  [fld 14 38 .rwl 0],
  0xfe0008000820, 0x0, 0, false, false⟩
/-- SEC_CTL, R411. -/
abbrev A.SEC_CTL : Nat := 0xfe0008000848
abbrev F.SEC_CTL_TVEC : FRef := ⟨A.SEC_CTL, 16, 13⟩
abbrev F.SEC_CTL_GRACE_US : FRef := ⟨A.SEC_CTL, 0, 10⟩
def D.SEC_CTL : RegDesc := ⟨0xfe0008000848, 1, 0x0, 1, 0x0,
  [fld 16 13 .rw 0, ⟨0, 10, .rw, 500, 1, 1000⟩],
  0x0, 0x0, 0, false, false⟩
/-- SEC_HOLD0, R411. -/
abbrev A.SEC_HOLD0 : Nat := 0xfe0008000850
abbrev F.SEC_HOLD0_CLUSTER : FRef := ⟨A.SEC_HOLD0, 0, 60⟩
def D.SEC_HOLD0 : RegDesc := ⟨0xfe0008000850, 1, 0x0, 1, 0x0,
  [fld 0 60 .rw 0],
  0x0, 0x0, 0, false, false⟩
/-- SEC_HOLD1, R411. -/
abbrev A.SEC_HOLD1 : Nat := 0xfe0008000858
abbrev F.SEC_HOLD1_CDIE : FRef := ⟨A.SEC_HOLD1, 0, 12⟩
def D.SEC_HOLD1 : RegDesc := ⟨0xfe0008000858, 1, 0x0, 1, 0x0,
  [fld 0 12 .rw 0],
  0x0, 0x0, 0, false, false⟩
/-- DBG_AUTH, R411. -/
abbrev A.DBG_AUTH : Nat := 0xfe0008000860
abbrev F.DBG_AUTH_SLEVEL : FRef := ⟨A.DBG_AUTH, 2, 2⟩
abbrev F.DBG_AUTH_NLEVEL : FRef := ⟨A.DBG_AUTH, 0, 2⟩
def D.DBG_AUTH : RegDesc := ⟨0xfe0008000860, 1, 0x0, 1, 0x0,
  [⟨2, 2, .rw, 0, 0, 2⟩, ⟨0, 2, .rw, 1, 0, 2⟩],
  0x0, 0x0, 0, false, false⟩
/-- PKG_DBG, R411. -/
abbrev A.PKG_DBG : Nat := 0xfe0008000868
abbrev F.PKG_DBG_REASON : FRef := ⟨A.PKG_DBG, 4, 4⟩
abbrev F.PKG_DBG_FAIL : FRef := ⟨A.PKG_DBG, 2, 1⟩
abbrev F.PKG_DBG_STATE : FRef := ⟨A.PKG_DBG, 0, 2⟩
def D.PKG_DBG : RegDesc := ⟨0xfe0008000868, 1, 0x0, 1, 0x0,
  [fld 4 4 .ro 0, fld 2 1 .w1c 0, fld 0 2 .ro 0],
  0x0, 0x0, 0, false, false⟩
/-- DBG_NONCE, R411. -/
abbrev A.DBG_NONCE : Nat := 0xfe0008000870
abbrev F.DBG_NONCE_NONCE : FRef := ⟨A.DBG_NONCE, 0, 64⟩
def D.DBG_NONCE : RegDesc := ⟨0xfe0008000870, 1, 0x0, 1, 0x0,
  [fld 0 64 .ro 0],
  0x0, 0x0, 0, false, false⟩
/-- DBG_UID0, R411. -/
abbrev A.DBG_UID0 : Nat := 0xfe0008000878
abbrev F.DBG_UID0_UID : FRef := ⟨A.DBG_UID0, 0, 64⟩
def D.DBG_UID0 : RegDesc := ⟨0xfe0008000878, 1, 0x0, 1, 0x0,
  [fld 0 64 .ro 0],
  0x0, 0x0, 0, false, false⟩
/-- DBG_UID1, R411. -/
abbrev A.DBG_UID1 : Nat := 0xfe0008000880
abbrev F.DBG_UID1_UID : FRef := ⟨A.DBG_UID1, 0, 64⟩
def D.DBG_UID1 : RegDesc := ⟨0xfe0008000880, 1, 0x0, 1, 0x0,
  [fld 0 64 .ro 0],
  0x0, 0x0, 0, false, false⟩
/-- DBG_CMD, R411. -/
abbrev A.DBG_CMD : Nat := 0xfe0008000888
abbrev F.DBG_CMD_CHECK : FRef := ⟨A.DBG_CMD, 0, 1⟩
def D.DBG_CMD : RegDesc := ⟨0xfe0008000888, 1, 0x0, 1, 0x0,
  [fld 0 1 .wo 0],
  0x0, 0x0, 0, false, false⟩
/-- DBG_CERTk, R411. -/
abbrev A.DBG_CERTk (i : Nat) : Nat := 0xfe0008000900 + i * 0x8
abbrev F.DBG_CERTk_DATA (i : Nat) : FRef := ⟨A.DBG_CERTk i, 0, 64⟩
def D.DBG_CERTk : RegDesc := ⟨0xfe0008000900, 16, 0x8, 1, 0x0,
  [fld 0 64 .rw 0],
  0x0, 0x0, 0, false, false⟩
/-- KS_CMD, R411. -/
abbrev A.KS_CMD : Nat := 0xfe0008001000
abbrev F.KS_CMD_SLOT : FRef := ⟨A.KS_CMD, 4, 10⟩
abbrev F.KS_CMD_OP : FRef := ⟨A.KS_CMD, 0, 2⟩
def D.KS_CMD : RegDesc := ⟨0xfe0008001000, 1, 0x0, 1, 0x0,
  [fld 4 10 .wo 0, fld 0 2 .wo 0],
  0x0, 0x0, 0, false, false⟩
/-- KS_LABEL0, R411. -/
abbrev A.KS_LABEL0 : Nat := 0xfe0008001008
abbrev F.KS_LABEL0_LABEL : FRef := ⟨A.KS_LABEL0, 0, 64⟩
def D.KS_LABEL0 : RegDesc := ⟨0xfe0008001008, 1, 0x0, 1, 0x0,
  [fld 0 64 .rw 0],
  0x0, 0x0, 0, false, false⟩
/-- KS_LABEL1, R411. -/
abbrev A.KS_LABEL1 : Nat := 0xfe0008001010
abbrev F.KS_LABEL1_LABEL : FRef := ⟨A.KS_LABEL1, 0, 64⟩
def D.KS_LABEL1 : RegDesc := ⟨0xfe0008001010, 1, 0x0, 1, 0x0,
  [fld 0 64 .rw 0],
  0x0, 0x0, 0, false, false⟩
/-- KS_STAT, R411. -/
abbrev A.KS_STAT : Nat := 0xfe0008001018
abbrev F.KS_STAT_RESULT : FRef := ⟨A.KS_STAT, 4, 4⟩
abbrev F.KS_STAT_BUSY : FRef := ⟨A.KS_STAT, 0, 1⟩
def D.KS_STAT : RegDesc := ⟨0xfe0008001018, 1, 0x0, 1, 0x0,
  [fld 4 4 .ro 0, fld 0 1 .ro 0],
  0x0, 0x0, 0, false, false⟩
/-- KS_ATTRs, R411. -/
abbrev A.KS_ATTRs (i : Nat) : Nat := 0xfe0008002000 + i * 0x8
abbrev F.KS_ATTRs_ENCID (i : Nat) : FRef := ⟨A.KS_ATTRs i, 4, 12⟩
abbrev F.KS_ATTRs_ENC (i : Nat) : FRef := ⟨A.KS_ATTRs i, 3, 1⟩
abbrev F.KS_ATTRs_KIND (i : Nat) : FRef := ⟨A.KS_ATTRs i, 1, 2⟩
abbrev F.KS_ATTRs_V (i : Nat) : FRef := ⟨A.KS_ATTRs i, 0, 1⟩
def D.KS_ATTRs : RegDesc := ⟨0xfe0008002000, 1024, 0x8, 1, 0x0,
  [fld 4 12 .ro 0, fld 3 1 .ro 0, fld 1 2 .ro 0, fld 0 1 .ro 1],
  0x0, 0x0, 0, false, false⟩
/-- ENC_CMD, R411. -/
abbrev A.ENC_CMD : Nat := 0xfe0008004000
abbrev F.ENC_CMD_OP : FRef := ⟨A.ENC_CMD, 0, 4⟩
def D.ENC_CMD : RegDesc := ⟨0xfe0008004000, 1, 0x0, 1, 0x0,
  [fld 0 4 .wo 0],
  0x0, 0x0, 0, false, false⟩
/-- ENC_ARGk, R411. -/
abbrev A.ENC_ARGk (i : Nat) : Nat := 0xfe0008004008 + i * 0x8
abbrev F.ENC_ARGk_ARG (i : Nat) : FRef := ⟨A.ENC_ARGk i, 0, 64⟩
def D.ENC_ARGk : RegDesc := ⟨0xfe0008004008, 4, 0x8, 1, 0x0,
  [fld 0 64 .rw 0],
  0x0, 0x0, 0, false, false⟩
/-- ENC_STAT, R411. -/
abbrev A.ENC_STAT : Nat := 0xfe0008004028
abbrev F.ENC_STAT_ID : FRef := ⟨A.ENC_STAT, 16, 12⟩
abbrev F.ENC_STAT_RESULT : FRef := ⟨A.ENC_STAT, 8, 8⟩
abbrev F.ENC_STAT_BUSY : FRef := ⟨A.ENC_STAT, 0, 1⟩
def D.ENC_STAT : RegDesc := ⟨0xfe0008004028, 1, 0x0, 1, 0x0,
  [fld 16 12 .ro 0, fld 8 8 .ro 0, fld 0 1 .ro 0],
  0x0, 0x0, 0, false, false⟩
/-- ENC_SEL, R411. -/
abbrev A.ENC_SEL : Nat := 0xfe0008004030
abbrev F.ENC_SEL_ID : FRef := ⟨A.ENC_SEL, 0, 12⟩
def D.ENC_SEL : RegDesc := ⟨0xfe0008004030, 1, 0x0, 1, 0x0,
  [fld 0 12 .rw 0],
  0x0, 0x0, 0, false, false⟩
/-- ENC_MEASk, R411. -/
abbrev A.ENC_MEASk (i : Nat) : Nat := 0xfe0008004040 + i * 0x8
abbrev F.ENC_MEASk_MEAS (i : Nat) : FRef := ⟨A.ENC_MEASk i, 0, 64⟩
def D.ENC_MEASk : RegDesc := ⟨0xfe0008004040, 6, 0x8, 1, 0x0,
  [fld 0 64 .ro 0],
  0x0, 0x0, 0, false, false⟩
/-- COH_CTL, R199. -/
abbrev A.COH_CTL (i : Nat) : Nat := 0xfe1000002000 + i * 0x100000000
abbrev F.COH_CTL_HOLD (i : Nat) : FRef := ⟨A.COH_CTL i, 0, 9⟩
def D.COH_CTL : RegDesc := ⟨0xfe1000002000, 12, 0x100000000, 1, 0x0,
  [⟨0, 9, .rw, 64, 16, 256⟩],
  0x0, 0x0, 0, false, false⟩
/-- PART_MASKc, R403. -/
abbrev A.PART_MASKc (i j : Nat) : Nat := 0xfe1000002100 + i * 0x100000000 + j * 0x8
abbrev F.PART_MASKc_L3 (i j : Nat) : FRef := ⟨A.PART_MASKc i j, 16, 16⟩
abbrev F.PART_MASKc_L2 (i j : Nat) : FRef := ⟨A.PART_MASKc i j, 0, 16⟩
def D.PART_MASKc : RegDesc := ⟨0xfe1000002100, 12, 0x100000000, 4, 0x8,
  [⟨16, 16, .rw, 65535, 1, 65535⟩, ⟨0, 16, .rw, 65535, 1, 65535⟩],
  0x0, 0x0, 0, true, false⟩
/-- CORE_MAPl, R436. -/
abbrev A.CORE_MAPl (i j : Nat) : Nat := 0xfe1000002200 + i * 0x100000000 + j * 0x8
abbrev F.CORE_MAPl_POP (i j : Nat) : FRef := ⟨A.CORE_MAPl i j, 15, 1⟩
abbrev F.CORE_MAPl_PHYS (i j : Nat) : FRef := ⟨A.CORE_MAPl i j, 8, 5⟩
abbrev F.CORE_MAPl_INC (i j : Nat) : FRef := ⟨A.CORE_MAPl i j, 4, 4⟩
def D.CORE_MAPl : RegDesc := ⟨0xfe1000002200, 12, 0x100000000, 18, 0x8,
  [fld 15 1 .ro 0, fld 8 5 .ro 0, fld 4 4 .ro 0],
  0x0, 0x0, 0, true, false⟩
/-- CORE_SPARE, R436. -/
abbrev A.CORE_SPARE (i : Nat) : Nat := 0xfe1000002300 + i * 0x100000000
abbrev F.CORE_SPARE_L1LOST (i : Nat) : FRef := ⟨A.CORE_SPARE i, 16, 1⟩
abbrev F.CORE_SPARE_LOGICAL (i : Nat) : FRef := ⟨A.CORE_SPARE i, 4, 5⟩
abbrev F.CORE_SPARE_RESULT (i : Nat) : FRef := ⟨A.CORE_SPARE i, 2, 2⟩
abbrev F.CORE_SPARE_BUSY (i : Nat) : FRef := ⟨A.CORE_SPARE i, 1, 1⟩
abbrev F.CORE_SPARE_GO (i : Nat) : FRef := ⟨A.CORE_SPARE i, 0, 1⟩
def D.CORE_SPARE : RegDesc := ⟨0xfe1000002300, 12, 0x100000000, 1, 0x0,
  [fld 16 1 .ro 0, ⟨4, 5, .rw, 0, 0, 17⟩, fld 2 2 .ro 0, fld 1 1 .ro 0, fld 0 1 .wo 0],
  0x0, 0x0, 0, true, false⟩
/-- CORE_PHYS, R436. -/
abbrev A.CORE_PHYS (i : Nat) : Nat := 0xfe1000002308 + i * 0x100000000
abbrev F.CORE_PHYS_SPARE (i : Nat) : FRef := ⟨A.CORE_PHYS i, 20, 20⟩
abbrev F.CORE_PHYS_DEAD (i : Nat) : FRef := ⟨A.CORE_PHYS i, 0, 20⟩
def D.CORE_PHYS : RegDesc := ⟨0xfe1000002308, 12, 0x100000000, 1, 0x0,
  [fld 20 20 .ro 0, fld 0 20 .ro 0],
  0x0, 0x0, 0, true, false⟩
/-- CE_ADDRj, R436. -/
abbrev A.CE_ADDRj (i j : Nat) : Nat := 0xfe1000002400 + i * 0x100000000 + j * 0x10
abbrev F.CE_ADDRj_ADDR (i j : Nat) : FRef := ⟨A.CE_ADDRj i j, 0, 52⟩
def D.CE_ADDRj : RegDesc := ⟨0xfe1000002400, 12, 0x100000000, 16, 0x10,
  [fld 0 52 .ro 0],
  0x0, 0x0, 0, true, false⟩
/-- CE_INFOj, R436. -/
abbrev A.CE_INFOj (i j : Nat) : Nat := 0xfe1000002408 + i * 0x100000000 + j * 0x10
abbrev F.CE_INFOj_COUNT (i j : Nat) : FRef := ⟨A.CE_INFOj i j, 16, 16⟩
abbrev F.CE_INFOj_STRUCT (i j : Nat) : FRef := ⟨A.CE_INFOj i j, 8, 8⟩
abbrev F.CE_INFOj_V (i j : Nat) : FRef := ⟨A.CE_INFOj i j, 0, 1⟩
def D.CE_INFOj : RegDesc := ⟨0xfe1000002408, 12, 0x100000000, 16, 0x10,
  [fld 16 16 .ro 0, fld 8 8 .ro 0, fld 0 1 .w1c 0],
  0x0, 0x0, 0, true, false⟩
/-- CE_LOST, R436. -/
abbrev A.CE_LOST (i : Nat) : Nat := 0xfe1000002500 + i * 0x100000000
abbrev F.CE_LOST_COUNT (i : Nat) : FRef := ⟨A.CE_LOST i, 0, 32⟩
def D.CE_LOST : RegDesc := ⟨0xfe1000002500, 12, 0x100000000, 1, 0x0,
  [fld 0 32 .ro 0],
  0x0, 0x0, 0, true, false⟩
/-- WAYDIS_L2k, R436. -/
abbrev A.WAYDIS_L2k (i j : Nat) : Nat := 0xfe1000002600 + i * 0x100000000 + j * 0x8
abbrev F.WAYDIS_L2k_FLOOR (i j : Nat) : FRef := ⟨A.WAYDIS_L2k i j, 16, 1⟩
abbrev F.WAYDIS_L2k_MASK (i j : Nat) : FRef := ⟨A.WAYDIS_L2k i j, 0, 16⟩
def D.WAYDIS_L2k : RegDesc := ⟨0xfe1000002600, 12, 0x100000000, 5, 0x8,
  [fld 16 1 .w1c 0, fld 0 16 .ro 0],
  0x0, 0x0, 0, true, false⟩
/-- WAYDIS_L3s, R436. -/
abbrev A.WAYDIS_L3s (i j : Nat) : Nat := 0xfe1000002640 + i * 0x100000000 + j * 0x8
abbrev F.WAYDIS_L3s_FLOOR (i j : Nat) : FRef := ⟨A.WAYDIS_L3s i j, 16, 1⟩
abbrev F.WAYDIS_L3s_MASK (i j : Nat) : FRef := ⟨A.WAYDIS_L3s i j, 0, 16⟩
def D.WAYDIS_L3s : RegDesc := ⟨0xfe1000002640, 12, 0x100000000, 16, 0x8,
  [fld 16 1 .w1c 0, fld 0 16 .ro 0],
  0x0, 0x0, 0, true, false⟩
/-- CLK_CTL, R467. -/
abbrev A.CLK_CTL (i : Nat) : Nat := 0xfe1000002800 + i * 0x100000000
abbrev F.CLK_CTL_ROOT_MHZ (i : Nat) : FRef := ⟨A.CLK_CTL i, 16, 16⟩
abbrev F.CLK_CTL_LOCKED (i : Nat) : FRef := ⟨A.CLK_CTL i, 3, 1⟩
abbrev F.CLK_CTL_SPREAD (i : Nat) : FRef := ⟨A.CLK_CTL i, 1, 2⟩
abbrev F.CLK_CTL_LOCK (i : Nat) : FRef := ⟨A.CLK_CTL i, 0, 1⟩
def D.CLK_CTL : RegDesc := ⟨0xfe1000002800, 12, 0x100000000, 1, 0x0,
  [fld 16 16 .ro 0, fld 3 1 .ro 0, ⟨1, 2, .rwl, 0, 0, 2⟩, fld 0 1 .w1s 0],
  0xfe1000002800, 0x100000000, 0, true, false⟩
/-- CLU_CLKk, R467. -/
abbrev A.CLU_CLKk (i j : Nat) : Nat := 0xfe1000002810 + i * 0x100000000 + j * 0x8
abbrev F.CLU_CLKk_MHZ (i j : Nat) : FRef := ⟨A.CLU_CLKk i j, 16, 16⟩
abbrev F.CLU_CLKk_DIV (i j : Nat) : FRef := ⟨A.CLU_CLKk i j, 8, 4⟩
abbrev F.CLU_CLKk_SLEEP (i j : Nat) : FRef := ⟨A.CLU_CLKk i j, 1, 1⟩
abbrev F.CLU_CLKk_SEL (i j : Nat) : FRef := ⟨A.CLU_CLKk i j, 0, 1⟩
def D.CLU_CLKk : RegDesc := ⟨0xfe1000002810, 12, 0x100000000, 5, 0x8,
  [fld 16 16 .ro 400, fld 8 4 .ro 0, fld 1 1 .ro 0, fld 0 1 .ro 0],
  0x0, 0x0, 0, true, false⟩
/-- RES_RUNl, R467. -/
abbrev A.RES_RUNl (i j : Nat) : Nat := 0xfe1000002900 + i * 0x100000000 + j * 0x10
abbrev F.RES_RUNl_US (i j : Nat) : FRef := ⟨A.RES_RUNl i j, 0, 64⟩
def D.RES_RUNl : RegDesc := ⟨0xfe1000002900, 12, 0x100000000, 18, 0x10,
  [fld 0 64 .ro 0],
  0x0, 0x0, 0, true, false⟩
/-- RES_IDLEl, R467. -/
abbrev A.RES_IDLEl (i j : Nat) : Nat := 0xfe1000002908 + i * 0x100000000 + j * 0x10
abbrev F.RES_IDLEl_US (i j : Nat) : FRef := ⟨A.RES_IDLEl i j, 0, 64⟩
def D.RES_IDLEl : RegDesc := ⟨0xfe1000002908, 12, 0x100000000, 18, 0x10,
  [fld 0 64 .ro 0],
  0x0, 0x0, 0, true, false⟩
/-- RES_SLEEPk, R467. -/
abbrev A.RES_SLEEPk (i j : Nat) : Nat := 0xfe1000002a00 + i * 0x100000000 + j * 0x8
abbrev F.RES_SLEEPk_US (i j : Nat) : FRef := ⟨A.RES_SLEEPk i j, 0, 64⟩
def D.RES_SLEEPk : RegDesc := ⟨0xfe1000002a00, 12, 0x100000000, 5, 0x8,
  [fld 0 64 .ro 0],
  0x0, 0x0, 0, true, false⟩
/-- THR_PC, R467. -/
abbrev A.THR_PC (i : Nat) : Nat := 0xfe1000002b00 + i * 0x100000000
abbrev F.THR_PC_PC (i : Nat) : FRef := ⟨A.THR_PC i, 0, 64⟩
def D.THR_PC : RegDesc := ⟨0xfe1000002b00, 12, 0x100000000, 1, 0x0,
  [fld 0 64 .rw 0],
  0x0, 0x0, 0, true, false⟩
/-- THR_START, R467. -/
abbrev A.THR_START (i : Nat) : Nat := 0xfe1000002b08 + i * 0x100000000
abbrev F.THR_START_LOGICAL (i : Nat) : FRef := ⟨A.THR_START i, 2, 5⟩
abbrev F.THR_START_T (i : Nat) : FRef := ⟨A.THR_START i, 1, 1⟩
abbrev F.THR_START_GO (i : Nat) : FRef := ⟨A.THR_START i, 0, 1⟩
def D.THR_START : RegDesc := ⟨0xfe1000002b08, 12, 0x100000000, 1, 0x0,
  [fld 2 5 .wo 0, fld 1 1 .wo 0, fld 0 1 .wo 0],
  0x0, 0x0, 0, true, false⟩
/-- THR_STAT, R467. -/
abbrev A.THR_STAT (i : Nat) : Nat := 0xfe1000002b10 + i * 0x100000000
abbrev F.THR_STAT_RUN (i : Nat) : FRef := ⟨A.THR_STAT i, 0, 36⟩
def D.THR_STAT : RegDesc := ⟨0xfe1000002b10, 12, 0x100000000, 1, 0x0,
  [fld 0 36 .ro 0],
  0x0, 0x0, 0, true, false⟩
def regTable0 : List RegDesc := [D.PKG_CAPS, D.PKG_FEAT, D.PKG_DIEd, D.DIR_BINV, D.DIR_RECLAIM, D.DIR_POISONED, D.WRAP_CTL, D.WRAP_STAT, D.RESTART_T0, D.RESTART_T1, D.RESTART_DOMn, D.IS_CTLs, D.IS_PORTSs, D.IS_BASEs, D.IS_SIZEs, D.IS_REFUSE, D.IS_UNDEC, D.PKG_RST, D.DIE_RSTd, D.BOOT_STAT, D.TK_CAPS, D.TK_LOCK, D.TK_UNDO, D.TK_HELD, D.TDn_CFG, D.TDn_SEG0, D.TDn_SEG1, D.TDn_TAKE, D.TDn_CUT, D.TDn_CUTSLATE]
def regTable1 : List RegDesc := [D.TDn_SPOIL, D.TDn_RESUME, D.TDn_STAT, D.TDn_HEAD, D.TDn_TAIL, D.TDn_CMD, D.TDn_OVF, D.TDn_DISC, D.SLATE_CAPS, D.SLATE_CTL, D.SLATE_LOCK, D.SLATE_NOW, D.SLATE_SET, D.SLATE_ADJ, D.SLATE_STAT, D.SLATE_UNC, D.SLATE_EPOCH, D.SLATE_HOP, D.SLATE_ROOTUNC, D.SLATE_OFS, D.CLAP_UP, D.CLAP_DN, D.CLAP_ASYM, D.PLT_ASYMk, D.CUE_STAT, D.CUE_RAISE, D.CUEV, D.CUE_PTBASEi, D.GAF_LIMIT, D.GAF_STAGGER]
def regTable2 : List RegDesc := [D.GAF_PWR, D.GAF_STAT, D.GAF_DEEP, D.GAF_DEEPCNT, D.PAD_RELEASE, D.GAF_REQt, D.GAF_RSPt, D.RN_ENGe, D.RN_CFG, D.QOS_ALLOC, D.QOS_STAT, D.QOS_FREE, D.VMRST_CMD, D.VMRST_STAT, D.QOS_MAPv, D.VRF_SQBASE, D.VRF_SQCFG, D.VRF_SQTAIL, D.VRF_SQHEAD, D.VRF_CQBASE, D.VRF_CQTAIL, D.VRF_CQHEAD, D.VRF_CTL, D.VRF_STAT, D.VRH_CTL, D.VRH_ENG, D.VRH_CUE, D.VRH_STAT, D.VRH_WIN_BASE, D.VRH_WIN_SIZE]
def regTable3 : List RegDesc := [D.VRH_WIN_PA, D.VRH_WIN_ATTR, D.MPn_CAP, D.MPn_PPART, D.MPn_CTL, D.MPn_DEVBASE, D.MPn_STAT, D.MPn_WQ, D.MPn_ERR, D.MPn_URG, D.MPn_QOSc, D.MPn_ARBr_GRANTS, D.MPn_ARBr_WAIT, D.MPn_ARBr_MAXWAIT, D.GP_CTLr, D.GP_STATr, D.GP_PMr, D.GP_CPLr, D.GP_MSIr, D.GP_ERRr, D.GP_LOGr, D.GP_LOGSr, D.IW_BASErj, D.IW_SIZErj, D.IW_PArj, D.IW_ATTRrj, D.GDW_BASEw, D.GDW_SIZEw, D.GDW_TGTw, D.GDW_DEVBASEw]
def regTable4 : List RegDesc := [D.PL_CTLk, D.PL_STATk, D.PL_ERRk, D.GRP_CFG, D.GRP_STAT, D.FAB_ID, D.FW_BASEw, D.FW_SIZEw, D.FW_TGTw, D.FW_DEVBASEw, D.LOC_PORTd, D.LOC_PKG, D.LOC_WINw, D.DL_CTL, D.DL_STAT, D.DL_MAPUj, D.DL_MAPDj, D.DL_EMAPUj, D.DL_EMAPDj, D.DL_DLYHj, D.DL_DLYH4, D.DL_DLYCj, D.DL_DLYC4, D.DL_LANEFAIL, D.DL_LANEFAILD, D.DL_ERR, D.MC_CAPS, D.MC_CTL, D.MC_ROUTE, D.MC_GSTAT, D.MC_FATALLOG, D.MC_FATALIDX]
def regTable5 : List RegDesc := [D.STALE_SPEAKERd, D.MC_DIEFATALd, D.MC_DIEBANKd, D.MCb_STATUS, D.MCb_ADDR, D.MCb_MISC, D.MCb_SLATE, D.HCE_ADDRj, D.HCE_INFOj, D.HCE_LOST, D.CNT_CTL, D.GCTLg, D.GSELgi, D.GCNTgi, D.BW_CTLp, D.BW_LASTRp, D.BW_LASTWp, D.BW_PEAKRp, D.BW_PEAKWp, D.AON_STAT, D.CAL_NOW, D.CAL_SET, D.CAL_ALARM, D.CAL_STAT, D.PIN_LVL, D.PIN_STUCK, D.PIN_LOCK, D.PIN_CHAT, D.PIN_EVT, D.PIN_SLEW]
def regTable6 : List RegDesc := [D.DLY_POWERON, D.DLY_COLDBOOTS, D.DLY_WRAPS, D.DLY_CUTS, D.DLY_EVENTS, D.DLY_FIRSTON, D.DLY_WRAPSLATE, D.DLY_WRAPINFO, D.DLY_LIFE, D.DLY_WEARi, D.DLY_CYCLESi, D.DLY_CEs, D.DLY_LANEq, D.DLY_LOGWR, D.DLY_LOGACK, D.DLY_LOGSLe, D.DLY_LOGe, D.MIR_CTL, D.MIR_STAT, D.MIR_PM, D.MIR_BARSZ, D.MWx_LOCAL, D.MWx_LEN, D.MWx_ATTR, D.MWx_NLOCAL, D.MWx_NLEN, D.MWx_NATTR, D.MW_COMMIT, D.MW_DROP, D.MW_DROPOFS]
def regTable7 : List RegDesc := [D.MIR_DB, D.MIR_RCn, D.MIR_RCTn, D.PRT_BASEn, D.PRT_LIMITn, D.PRT_ATTRn, D.PRT_MONOn, D.POT_BASE, D.POT_SUMBASE, D.POT_SPAN, D.PRT_REFUSE, D.PRT_LOCK, D.ENCT_BASE, D.ERMAP_BASE, D.ERMAP_LO, D.ERMAP_HI, D.SEC_CTL, D.SEC_HOLD0, D.SEC_HOLD1, D.DBG_AUTH, D.PKG_DBG, D.DBG_NONCE, D.DBG_UID0, D.DBG_UID1, D.DBG_CMD, D.DBG_CERTk, D.KS_CMD, D.KS_LABEL0, D.KS_LABEL1, D.KS_STAT]
def regTable8 : List RegDesc := [D.KS_ATTRs, D.ENC_CMD, D.ENC_ARGk, D.ENC_STAT, D.ENC_SEL, D.ENC_MEASk, D.COH_CTL, D.PART_MASKc, D.CORE_MAPl, D.CORE_SPARE, D.CORE_PHYS, D.CE_ADDRj, D.CE_INFOj, D.CE_LOST, D.WAYDIS_L2k, D.WAYDIS_L3s, D.CLK_CTL, D.CLU_CLKk, D.RES_RUNl, D.RES_IDLEl, D.RES_SLEEPk, D.THR_PC, D.THR_START, D.THR_STAT]
/-- Every register family of I/O space. -/
def regTable : List RegDesc :=
  regTable0 ++ regTable1 ++ regTable2 ++ regTable3 ++ regTable4 ++ regTable5 ++ regTable6 ++ regTable7 ++ regTable8

/-- The indices of an address in a family, if it lies in it. -/
def RegDesc.index (r : RegDesc) (a : Nat) : Option (Nat × Nat) :=
  if a < r.base then none
  else
    let o := a - r.base
    let i := if r.n1 = 1 then 0 else o / r.s1
    let p := if r.n1 = 1 then o else o % r.s1
    let j := if r.n2 = 1 then 0 else p / r.s2
    let q := if r.n2 = 1 then p else p % r.s2
    if i < r.n1 && j < r.n2 && q == 0 then some (i, j) else none

/-- The family and indices of the register at an address. -/
def regAt : List RegDesc → Nat → Option (RegDesc × Nat × Nat)
  | [], _ => none
  | r :: rs, a => match r.index a with
    | some (i, j) => some (r, i, j)
    | none => regAt rs a

/-- A register's value with every field at its reset value (R14). -/
def RegDesc.reset (r : RegDesc) : Nat := r.flds.foldl (fun v f => v + f.rst * 2 ^ f.lo) 0

/-- The lanes of an identity lane map (R337): byte i of register j names physical lane 8j + i. -/
def identityLanes (j : Nat) : Nat := (List.range 8).foldl (fun v i => v + (8 * j + i) * 2 ^ (8 * i)) 0

/-- Resets that differ within a family: identity lane maps (R337), the core map with no core listed dead (R27, R436),
key slot 0 and the class of VMID 0 (R411, R380). -/
def resetOverride (r : RegDesc) (i j : Nat) : Nat :=
  if r.base = A.DL_MAPUj 0 0 ∨ r.base = A.DL_MAPDj 0 0 ∨ r.base = A.DL_EMAPUj 0 0 ∨ r.base = A.DL_EMAPDj 0 0 then
    identityLanes j
  else if r.base = A.CORE_MAPl 0 0 then 2 ^ 15 + j * 2 ^ 8
  else if r.base = A.CORE_PHYS 0 then 3 * 2 ^ 38
  else if r.base = A.KS_ATTRs 0 then (if i = 0 then 1 else 0)
  else if r.base = A.QOS_MAPv 0 then (if i = 0 then 2 ^ 7 else 0)
  else r.reset

/-- The reset value of the register at an address; 0 where no register lies. -/
def ioReset (a : Nat) : Word :=
  match regAt regTable a with
  | some (r, i, j) => BitVec.ofNat 64 (resetOverride r i j)
  | none => 0

end Sys2Proof.Machine
end

