-- ==== Sys2Proof/Machine/Bits.lean ====
section
/-!
DEFINITION. Bit fields of registers, and the write of a register under the access codes of R12, R13, R15, R16 and the
byte coverage of R523.
-/
namespace Sys2Proof.Machine

/-- The n bits of w from bit lo up. -/
def fget (w : Word) (lo n : Nat) : Nat := w.toNat / 2 ^ lo % 2 ^ n

/-- w with the n bits from bit lo up replaced by v. -/
def fset (w : Word) (lo n v : Nat) : Word :=
  BitVec.ofNat 64 (w.toNat - fget w lo n * 2 ^ lo + v % 2 ^ n * 2 ^ lo)

/-- Bit i of a word. -/
def bit (w : Word) (i : Nat) : Bool := w.getLsbD i

/-- w with bit i set to b. -/
def setBit (w : Word) (i : Nat) (b : Bool) : Word := fset w i 1 (if b then 1 else 0)

/-- The sign extension to 64 bits of the low n bits. -/
def sextN (n : Nat) (w : Word) : Word := (w.setWidth n).signExtend 64

/-- 1 for true, 0 for false. -/
def b2n (b : Bool) : Nat := if b then 1 else 0

/-- What a field of old value o holds after a write of n whose bytes cover the bits of m (R12, R16, R523). -/
def Fld.write (f : Fld) (o n m : Nat) (locked : Bool) : Nat :=
  let mix := (o - (o &&& m)) ||| (n &&& m)
  match f.acc with
  | .ro => o
  | .wo => 0
  | .rw => if f.okLo ≤ mix && mix ≤ f.okHi then mix else o
  | .rwl => if locked then o else if f.okLo ≤ mix && mix ≤ f.okHi then mix else o
  | .w1c => o - (o &&& (n &&& m))
  | .w1s => o ||| (n &&& m)

/-- What a register of the given fields holds after a write; bits of no field read zero (R15). -/
def fldsWrite (fs : List Fld) (old new mask : Word) (locked : Bool) : Word :=
  fs.foldl (fun v f => fset v f.lo f.w
    (f.write (fget old f.lo f.w) (fget new f.lo f.w) (fget mask f.lo f.w) locked)) 0

/-- The fields at their reset values. -/
def fldsReset (fs : List Fld) : Word := fs.foldl (fun v f => fset v f.lo f.w f.rst) 0

/-- A register's value with its write-only fields, which read zero (R12), taken out. -/
def fldsRead (fs : List Fld) (w : Word) : Word :=
  fs.foldl (fun v f => match f.acc with | .wo => fset v f.lo f.w 0 | _ => v) w

/-- The mask of the bits that an access of size bytes at byte ofs of a doubleword covers (R523). -/
def byteMask (ofs size : Nat) : Word := BitVec.ofNat 64 ((2 ^ (8 * size) - 1) * 2 ^ (8 * ofs))

/-- The bytes of a number, little-endian (R9). -/
def bytesOf : Nat → Nat → List Byte
  | 0, _ => []
  | n + 1, v => BitVec.ofNat 8 v :: bytesOf n (v / 256)

/-- The number that bytes make, little-endian (R9). -/
def ofBytes : List Byte → Nat
  | [] => 0
  | b :: bs => b.toNat + 256 * ofBytes bs

/-- Byte i of a line. -/
def lineByte (d : LineData) (i : Nat) : Byte := BitVec.ofNat 8 (d.toNat / 2 ^ (8 * i))

/-- A line with the given bytes written from byte ofs up. -/
def lineSet (d : LineData) (ofs : Nat) (bs : List Byte) : LineData :=
  let n := bs.length
  let old := d.toNat / 2 ^ (8 * ofs) % 2 ^ (8 * n)
  BitVec.ofNat 512 (d.toNat - old * 2 ^ (8 * ofs) + ofBytes bs * 2 ^ (8 * ofs))

/-- The n bytes of a line from byte ofs up. -/
def lineGet (d : LineData) (ofs n : Nat) : List Byte := bytesOf n (d.toNat / 2 ^ (8 * ofs))

/-- A line whose bytes in the mask come from new, the others from old. -/
def lineMerge (old new : LineData) (mask : BitVec 64) : LineData :=
  (List.range 64).foldl (fun d i => if mask.getLsbD i then lineSet d i [lineByte new i] else d) old

/-- The byte mask of n bytes from byte ofs up. -/
def lineMask (ofs n : Nat) : BitVec 64 := BitVec.ofNat 64 ((2 ^ n - 1) * 2 ^ ofs)

end Sys2Proof.Machine
end

