-- ==== Sys2Proof/Machine/Ctl.lean ====
section
/-!
DEFINITION. The control registers that MFC and MTC name (R48): numbers, scope, the levels that may read and write them,
and their fields (R49, R50, R55, R63, R69, R113, R164, R229, R273, R380, R385, R435, R489).
-/
namespace Sys2Proof.Machine

/-- A run of n control registers of one layout from number num. core: of core scope; rd, wr: the lowest level that may
read and write (wr = 4: read-only at every level). -/
structure CrDesc where
  num  : Nat
  n    : Nat
  core : Bool
  rd   : Nat
  wr   : Nat
  flds : List Fld
deriving DecidableEq, Repr

/-- A register of one field of 64 bits. -/
def fullWord : List Fld := [fld 0 64 .rw 0]

/-- An exception set at base b, of level l (R55). -/
def excSet (b l : Nat) : List CrDesc :=
  [⟨b, 1, false, l, l, [fld 12 52 .rw 0]⟩,
   ⟨b + 1, 2, false, l, l, fullWord⟩,
   ⟨b + 3, 1, false, l, l, [fld 0 12 .rw 0]⟩,
   ⟨b + 4, 1, false, l, l, fullWord⟩,
   ⟨b + 5, 1, false, l, l, [fld 0 7 .rw 0]⟩,
   ⟨b + 6, 1, false, l, l, [⟨0, 7, .rw, 0, 1, 64⟩]⟩,
   ⟨b + 7, 1, false, l, l, [fld 0 2 .rw 0]⟩,
   ⟨b + 8, 2, false, l, l, fullWord⟩,
   ⟨b + 0x10, 2, false, l, l, fullWord⟩,
   ⟨b + 0x12, 1, false, l, l, [fld 0 12 .rw 0]⟩,
   ⟨b + 0x13, 1, false, l, l, fullWord⟩,
   ⟨b + 0x14, 1, false, l, l, [fld 0 7 .rw 0]⟩,
   ⟨b + 0x15, 1, false, l, l, [⟨0, 7, .rw, 0, 1, 64⟩]⟩]

/-- STATUS, FCSR, MCSTAT, the modulo descriptors and the return stack (R49, R50, R435, R69, R63). -/
def crGeneral : List CrDesc :=
  [⟨0x000, 1, false, 0, 1, [fld 4 3 .rw 0, fld 3 1 .ro 1, fld 2 1 .ro 0, fld 0 2 .ro 3]⟩,
   ⟨0x001, 1, false, 0, 0, [fld 0 12 .rw 0]⟩,
   ⟨0x070, 1, false, 3, 3, [fld 1 1 .ro 0, fld 0 1 .rw 0]⟩,
   ⟨0x190, 4, false, 0, 0, fullWord⟩,
   ⟨0x194, 4, false, 0, 0, [⟨0, 33, .rw, 0, 0, 2 ^ 32⟩]⟩,
   ⟨0x1C0, 1, false, 1, 1, [⟨4, 5, .rw, 0, 0, 16⟩, fld 1 1 .w1c 0, fld 0 1 .rw 0]⟩,
   ⟨0x1C1, 16, false, 1, 1, fullWord⟩]

/-- The translation registers (R163, R164). -/
def crXlat : List CrDesc :=
  [⟨0x100, 1, false, 1, 1, [fld 12 44 .rw 0, ⟨10, 2, .rw, 0, 0, 2⟩, fld 9 1 .rw 0, fld 3 6 .rw 12, fld 2 1 .rw 0]⟩,
   ⟨0x101, 1, false, 1, 1, [fld 54 10 .rw 0, fld 12 40 .rw 0, fld 8 4 .rw 0, fld 3 5 .rw 0, fld 0 2 .rw 0]⟩,
   ⟨0x102, 1, false, 1, 1, [fld 0 28 .rw 0]⟩,
   ⟨0x103, 1, false, 1, 1, fullWord⟩,
   ⟨0x104, 1, false, 1, 1, [fld 0 16 .rw 0]⟩,
   ⟨0x105, 1, true, 1, 1, [⟨0, 4, .rw, 0, 0, 8⟩]⟩,
   ⟨0x106, 3, false, 1, 1, [fld 12 52 .rw 0, ⟨0, 6, .rw, 12, 12, 30⟩]⟩,
   ⟨0x109, 1, false, 1, 4, [fld 3 61 .ro 0]⟩,
   ⟨0x10A, 1, false, 1, 4, [fld 8 6 .ro 0, fld 0 1 .ro 0]⟩,
   ⟨0x10B, 1, true, 1, 1, [⟨0, 16, .rw, 0xACE1, 1, 65535⟩]⟩,
   ⟨0x10C, 1, true, 1, 4, [fld 0 64 .ro 0]⟩,
   ⟨0x110, 1, false, 2, 2, [fld 52 12 .rw 0, fld 12 40 .rw 0, fld 11 1 .rw 0, fld 5 6 .rw 12, fld 0 1 .rw 0]⟩,
   ⟨0x111, 1, false, 2, 2, [fld 12 40 .rw 0, fld 2 3 .rw 0]⟩,
   ⟨0x112, 1, true, 2, 4, [fld 0 32 .ro 0]⟩,
   ⟨0x180, 1, false, 0, 0, [fld 0 32 .rw 0]⟩,
   ⟨0x400, 1, false, 2, 2, [fld 13 10 .rw 0, fld 12 1 .rw 0, fld 0 12 .rw 0]⟩,
   ⟨0x401, 1, false, 2, 2, [fld 0 6 .rw 0]⟩]

/-- Decode table, counters, takes, slate alarms and enclave registers (R112, R113, R489, R229, R273, R385). -/
def crUnits : List CrDesc :=
  [⟨0x200, 1, true, 1, 2, [fld 0 12 .rw 0]⟩,
   ⟨0x201, 1, false, 1, 2, [fld 12 1 .rw 0, fld 0 12 .rw 0]⟩,
   ⟨0x202, 1, true, 1, 4, [fld 0 64 .ro 0]⟩,
   ⟨0x203, 1, false, 2, 2, [fld 4 6 .rw 0, ⟨0, 4, .rw, 0, 0, 8⟩]⟩,
   ⟨0x204, 1, false, 2, 4, [fld 0 64 .ro 0]⟩,
   ⟨0x205, 1, false, 1, 4, [fld 4 4 .ro 0, fld 0 4 .ro 0]⟩,
   ⟨0x300, 1, false, 1, 1, [⟨17, 2, .rw, 1, 1, 2⟩, fld 16 1 .rw 0, fld 8 8 .rw 0, fld 0 8 .rw 0]⟩,
   ⟨0x301, 1, false, 1, 1, [fld 0 8 .rw 0]⟩,
   ⟨0x302, 6, false, 1, 1, [fld 15 4 .rw 0, fld 0 12 .rw 0]⟩,
   ⟨0x308, 8, false, 1, 1, [fld 0 48 .rw 0]⟩,
   ⟨0x380, 8, false, 0, 4, [fld 0 64 .ro 0]⟩,
   ⟨0x388, 1, false, 0, 4, [fld 0 3 .ro 4]⟩,
   ⟨0x390, 1, false, 1, 1, fullWord⟩,
   ⟨0x391, 1, false, 1, 1, [fld 2 1 .w1c 0, fld 0 2 .rw 0]⟩,
   ⟨0x392, 1, false, 2, 2, fullWord⟩,
   ⟨0x393, 1, false, 2, 2, [fld 2 1 .w1c 0, fld 0 2 .rw 0]⟩,
   ⟨0x394, 1, false, 3, 3, fullWord⟩,
   ⟨0x395, 1, false, 3, 3, [fld 2 1 .w1c 0, fld 0 2 .rw 0]⟩,
   ⟨0x500, 1, false, 0, 4, [fld 12 3 .ro 0, fld 0 12 .ro 0]⟩,
   ⟨0x501, 1, false, 2, 2, [fld 0 2 .rw 0]⟩,
   ⟨0x502, 1, false, 3, 3, [fld 0 2 .rw 0]⟩]

/-- Every control register. -/
def crTable : List CrDesc :=
  crGeneral ++ excSet 0x010 1 ++ excSet 0x030 2 ++ excSet 0x050 3 ++ crXlat ++ crUnits

/-- The control register of a number, if a chapter assigns it (R48). -/
def crAt (num : Nat) : Option CrDesc := crTable.find? fun d => d.num ≤ num && num < d.num + d.n

/-- A control register's reset value; 0 for a number not assigned. -/
def crReset (num : Nat) : Word := match crAt num with
  | some d => fldsReset d.flds
  | none => 0

/-- The event codes of R490; a PMSEL EVENT of any other code is a reserved encoding, but for 0. -/
def pmEventOk (e : Nat) : Bool :=
  [0, 0x001, 0x002, 0x010, 0x011, 0x012, 0x013, 0x014, 0x018, 0x019, 0x01A, 0x01B, 0x01C, 0x01D, 0x020, 0x021, 0x022,
   0x030, 0x031, 0x032, 0x033, 0x034, 0x040, 0x041, 0x042].contains e

end Sys2Proof.Machine
end

