-- ==== Sys2Proof/Machine/Encode.lean ====
section
/-!
DEFINITION. The instruction words of thread commands (R76, R77, R80 to R110, R127 to R131), which xEVAL receives (R53);
the reserved encodings among them (R75); and the reading of the word that REP carries (R66).
-/
namespace Sys2Proof.Machine

/-- Format RI, and the fields that lie as in it. -/
def encRI (op d a imm : Nat) : BitVec 32 := BitVec.ofNat 32 (op * 2 ^ 26 + d * 2 ^ 21 + a * 2 ^ 16 + imm)
/-- Format SH. -/
def encSH (d a kind sh : Nat) : BitVec 32 := encRI 0x0D d a (kind * 2 ^ 14 + sh)
/-- Format RR of the integer group. -/
def encInt (d a b fn : Nat) : BitVec 32 := encRI 0x02 d a (b * 2 ^ 11 + fn)
/-- Format RR of the floating-point group. -/
def encFp (w : Bool) (d a b fn : Nat) : BitVec 32 := encRI 0x03 d a (b * 2 ^ 11 + b2n w * 2 ^ 10 + fn)
/-- Format F4. -/
def encFma (w : Bool) (d a b c nk : Nat) : BitVec 32 :=
  encRI 0x0E d a (b * 2 ^ 11 + c * 2 ^ 6 + nk * 2 ^ 4 + b2n w * 2 ^ 3)
/-- Format BR. -/
def encBr (op a b : Nat) (an : Bool) (disp : Nat) : BitVec 32 := encRI op a b (b2n an * 2 ^ 15 + disp)
/-- Format MD. -/
def encMd (op d a szk : Nat) (ord : Bool) (disp : Nat) : BitVec 32 :=
  encRI op d a (szk * 2 ^ 12 + b2n ord * 2 ^ 11 + disp)
/-- Format MX. -/
def encMx (op d a szk : Nat) (ord : Bool) (am amf : Nat) : BitVec 32 :=
  encRI op d a (szk * 2 ^ 12 + b2n ord * 2 ^ 11 + am * 2 ^ 8 + amf)
/-- Format AT. -/
def encAmo (q : Bool) (d a b opa : Nat) : BitVec 32 := encRI 0x28 d a (b * 2 ^ 11 + opa * 2 ^ 7 + b2n q * 2 ^ 6)
/-- Format SC. -/
def encSys (d a sub imm : Nat) : BitVec 32 := encRI 0x2C d a (sub * 2 ^ 12 + imm)
/-- Format XR. -/
def encXr (op d a b sub : Nat) : BitVec 32 := encRI op d a (b * 2 ^ 11 + sub * 2 ^ 6)
/-- Format CP. -/
def encCp (op func operands : Nat) : BitVec 32 := BitVec.ofNat 32 (op * 2 ^ 26 + func * 2 ^ 20 + operands)
/-- Layout VG of R127. -/
def encVg (op func v g h ew x : Nat) : BitVec 32 :=
  encCp op func (v * 2 ^ 16 + g * 2 ^ 11 + h * 2 ^ 6 + ew * 2 ^ 4 + x)
/-- Layout SA of R127. -/
def encSa (func a v g ty x : Nat) : BitVec 32 :=
  encCp 0x3E func (a * 2 ^ 18 + v * 2 ^ 14 + g * 2 ^ 9 + ty * 2 ^ 7 + x)

/-- The word of a thread instruction; 0 for the other commands. -/
def encode : Instr → BitVec 32
  | .addi _ d a i => encRI 0x04 d a i.toNat
  | .andi _ d a i => encRI 0x05 d a i.toNat
  | .ori _ d a i => encRI 0x06 d a i.toNat
  | .xori _ d a i => encRI 0x07 d a i.toNat
  | .slti _ d a i => encRI 0x08 d a i.toNat
  | .sltui _ d a i => encRI 0x09 d a i.toNat
  | .lui _ d i => encRI 0x0A d 0 i.toNat
  | .shori _ d i => encRI 0x0B d 0 i.toNat
  | .addpc _ d i => encRI 0x0C d 0 i.toNat
  | .slli _ d a sh => encSH d a 0 sh.toNat
  | .srli _ d a sh => encSH d a 1 sh.toNat
  | .srai _ d a sh => encSH d a 2 sh.toNat
  | .rori _ d a sh => encSH d a 3 sh.toNat
  | .add _ d a b => encInt d a b 0x000
  | .sub _ d a b => encInt d a b 0x001
  | .and _ d a b => encInt d a b 0x002
  | .or _ d a b => encInt d a b 0x003
  | .xor _ d a b => encInt d a b 0x004
  | .andn _ d a b => encInt d a b 0x005
  | .orn _ d a b => encInt d a b 0x006
  | .slt _ d a b => encInt d a b 0x007
  | .sltu _ d a b => encInt d a b 0x008
  | .min _ d a b => encInt d a b 0x009
  | .max _ d a b => encInt d a b 0x00A
  | .minu _ d a b => encInt d a b 0x00B
  | .maxu _ d a b => encInt d a b 0x00C
  | .sll _ d a b => encInt d a b 0x010
  | .srl _ d a b => encInt d a b 0x011
  | .sra _ d a b => encInt d a b 0x012
  | .ror _ d a b => encInt d a b 0x013
  | .mul _ d a b => encInt d a b 0x020
  | .mulh _ d a b => encInt d a b 0x021
  | .mulhu _ d a b => encInt d a b 0x022
  | .div _ d a b => encInt d a b 0x024
  | .divu _ d a b => encInt d a b 0x025
  | .rem _ d a b => encInt d a b 0x026
  | .remu _ d a b => encInt d a b 0x027
  | .clz _ d a => encInt d a 0 0x030
  | .ctz _ d a => encInt d a 0 0x031
  | .popc _ d a => encInt d a 0 0x032
  | .bswap _ d a => encInt d a 0 0x033
  | .sextb _ d a => encInt d a 0 0x034
  | .sexth _ d a => encInt d a 0 0x035
  | .sextw _ d a => encInt d a 0 0x036
  | .zextw _ d a => encInt d a 0 0x037
  | .fadd _ w d a b => encFp w d a b 0x000
  | .fsub _ w d a b => encFp w d a b 0x001
  | .fmul _ w d a b => encFp w d a b 0x002
  | .fdiv _ w d a b => encFp w d a b 0x003
  | .fsqrt _ w d a => encFp w d a 0 0x004
  | .fmin _ w d a b => encFp w d a b 0x005
  | .fmax _ w d a b => encFp w d a b 0x006
  | .fneg _ w d a => encFp w d a 0 0x008
  | .fabs _ w d a => encFp w d a 0 0x009
  | .fmov _ w d a => encFp w d a 0 0x00A
  | .feq _ w d a b => encFp w d a b 0x010
  | .flt _ w d a b => encFp w d a b 0x011
  | .fle _ w d a b => encFp w d a b 0x012
  | .fclass _ w d a => encFp w d a 0 0x013
  | .fcvti _ w d a => encFp w d a 0 0x020
  | .fcvtiu _ w d a => encFp w d a 0 0x021
  | .fcvtf _ w d a => encFp w d a 0 0x022
  | .fcvtfu _ w d a => encFp w d a 0 0x023
  | .fcvtx _ w d a => encFp w d a 0 0x024
  | .fmvg _ w d a => encFp w d a 0 0x030
  | .fmvf _ w d a => encFp w d a 0 0x031
  | .fmadd _ w d a b c => encFma w d a b c 0
  | .fmsub _ w d a b c => encFma w d a b c 1
  | .fnmsub _ w d a b c => encFma w d a b c 2
  | .fnmadd _ w d a b c => encFma w d a b c 3
  | .beq _ a b an p => encBr 0x10 a b an p.toNat
  | .bne _ a b an p => encBr 0x11 a b an p.toNat
  | .blt _ a b an p => encBr 0x12 a b an p.toNat
  | .bge _ a b an p => encBr 0x13 a b an p.toNat
  | .bltu _ a b an p => encBr 0x14 a b an p.toNat
  | .bgeu _ a b an p => encBr 0x15 a b an p.toNat
  | .j _ p => BitVec.ofNat 32 (0x18 * 2 ^ 26 + p.toNat)
  | .call _ p => BitVec.ofNat 32 (0x19 * 2 ^ 26 + p.toNat)
  | .jr _ a => encRI 0x1A 0 a 0
  | .callr _ a => encRI 0x1A 0 a 1
  | .ret _ => encRI 0x1A 0 0 2
  | .load _ d a k o p => encMd 0x20 d a k o p.toNat
  | .store _ d a k o p => encMd 0x21 d a k o p.toNat
  | .loadx _ d a k o m f => encMx 0x22 d a k o m f.toNat
  | .storex _ d a k o m f => encMx 0x23 d a k o m f.toNat
  | .ldi _ d a k o p => encMd 0x24 d a k o p.toNat
  | .iold _ d a k p => encMd 0x26 d a k false p.toNat
  | .iost _ d a k p => encMd 0x27 d a k false p.toNat
  | .swap _ q d a b => encAmo q d a b 0
  | .cas _ q d a b => encAmo q d a b 1
  | .fetchAdd _ q d a b => encAmo q d a b 2
  | .fetchAnd _ q d a b => encAmo q d a b 3
  | .fetchOr _ q d a b => encAmo q d a b 4
  | .fetchMax _ q d a b => encAmo q d a b 5
  | .fetchMaxu _ q d a b => encAmo q d a b 6
  | .fenceLl _ => encRI 0x29 0 0 0
  | .fenceLs _ => encRI 0x29 0 0 1
  | .fenceSl _ => encRI 0x29 0 0 2
  | .fenceSs _ => encRI 0x29 0 0 3
  | .fenceAll _ => encRI 0x29 0 0 4
  | .isync _ => encRI 0x29 0 0 5
  | .mfc _ d n => encSys d 0 0 n.toNat
  | .mtc _ a n => encSys 0 a 1 n.toNat
  | .eret _ => encSys 0 0 2 0
  | .wait _ => encSys 0 0 3 0
  | .brk _ c => encSys 0 0 4 c.toNat
  | .sysc _ c => encSys 0 0 5 c.toNat
  | .hvc _ c => encSys 0 0 6 c.toNat
  | .monc _ c => encSys 0 0 7 c.toNat
  | .rdpmc _ d a => encSys d a 8 0
  | .keyset _ a => encSys 0 a 9 0
  | .keyget _ d => encSys d 0 10 0
  | .tlbwRnd _ => encXr 0x2D 0 0 0 0
  | .tlbwSlot _ a => encXr 0x2D 0 a 0 1
  | .tlbrd _ a => encXr 0x2D 0 a 0 2
  | .tlbfind _ d => encXr 0x2D d 0 0 3
  | .tlbiVa _ a b => encXr 0x2D 0 a b 4
  | .tlbiAsid _ b => encXr 0x2D 0 0 b 5
  | .tlbiVmid _ b => encXr 0x2D 0 0 b 6
  | .tlbiAll _ => encXr 0x2D 0 0 0 7
  | .gpmw _ a => encXr 0x2D 0 a 0 8
  | .gpmr _ a => encXr 0x2D 0 a 0 9
  | .gpmi _ => encXr 0x2D 0 0 0 10
  | .ownersync _ => encXr 0x2D 0 0 0 11
  | .cutreq _ d a => encXr 0x2E d a 0 0
  | .cutwait _ d a => encXr 0x2E d a 0 1
  | .cutstat _ d a => encXr 0x2E d a 0 2
  | .rdslate _ d => encXr 0x2E d 0 0 3
  | .rdslateu _ d b => encXr 0x2E d 0 b 4
  | .slatewait _ d a => encXr 0x2E d a 0 5
  | .rssave _ a => encXr 0x2F 0 a 0 0
  | .rsload _ a => encXr 0x2F 0 a 0 1
  | .dtload _ a b => encXr 0x2F 0 a b 2
  | .encrun _ a b => encXr 0x2F 0 a b 3
  | .encdone _ a => encXr 0x2F 0 a 0 4
  | .repN _ nm1 _ => BitVec.ofNat 32 (0x01 * 2 ^ 26 + nm1.toNat)
  | .repG _ g _ => BitVec.ofNat 32 (0x01 * 2 ^ 26 + 2 ^ 25 + g.val * 2 ^ 20)
  | .udi _ sel f1 f2 f3 f4 =>
    BitVec.ofNat 32 (0x3B * 2 ^ 26 + sel.val * 2 ^ 20 + f1.val * 2 ^ 15 + f2.val * 2 ^ 10 + f3.val * 2 ^ 5 + f4.val)
  | .cust _ func ops => encCp 0x3F func.toNat ops.toNat
  | .vbcast _ v g ew => encVg 0x3C 0x00 v g 0 ew 0
  | .vins _ v g x => encVg 0x3C 0x01 v g 0 0 x
  | .vext _ v g x => encVg 0x3C 0x02 v g 0 0 x
  | .vmov _ vd va => encCp 0x3C 0x03 (vd.val * 2 ^ 16 + va.val * 2 ^ 12)
  | .pscan _ g va vb ew pc =>
    encCp 0x3C 0x04 (g.val * 2 ^ 15 + va.val * 2 ^ 11 + vb.val * 2 ^ 7 + ew.val * 2 ^ 5 + pc.val * 2)
  | .compress _ v g h ew => encVg 0x3C 0x05 v g h ew 0
  | .unpack _ v g h ew => encVg 0x3C 0x06 v g h ew 0
  | .vhash _ v g h => encVg 0x3C 0x07 v g h 0 0
  | .vcrc _ v g => encVg 0x3C 0x08 v g 0 0 0
  | .redmin _ v g h ew x => encVg 0x3C 0x09 v g h ew x
  | .redmax _ v g h ew x => encVg 0x3C 0x0A v g h ew x
  | .vcnt _ v g => encVg 0x3C 0x0B v g 0 0 0
  | .sload _ v g post => encVg 0x3D 0x00 v g 0 0 (b2n post * 8)
  | .sscan _ v g h ew pc => encVg 0x3D 0x01 v g h ew pc
  | .sgather _ v g h ew x => encVg 0x3D 0x02 v g h ew x
  | .sdict _ v g h ew x => encVg 0x3D 0x03 v g h ew x
  | .saccadd _ acc g => encVg 0x3D 0x04 acc g 0 0 0
  | .aclr _ acc => encSa 0x00 acc 0 0 0 0
  | .aaddf _ acc v g ty x => encSa 0x01 acc v g ty x.toNat
  | .amacf _ acc v g ty x => encSa 0x02 acc v g ty x.toNat
  | .aaddi _ acc v g ty x => encSa 0x03 acc v g ty x.toNat
  | .acnt _ acc v => encSa 0x04 acc v 0 0 0
  | .ardf _ acc g => encSa 0x05 acc 0 g 0 0
  | .ardi _ acc g hi => encSa 0x06 acc 0 g 0 (b2n hi)
  | .ardw _ acc g x => encSa 0x07 acc 0 g 0 x.toNat
  | .awrw _ acc g x => encSa 0x08 acc 0 g 0 x.toNat
  | _ => 0

/-- The address-mode field AMF has no reserved bit set (R89). -/
def amfOk (am : Fin 8) (amf : BitVec 8) : Bool :=
  match am.val with
  | 0 => amf.toNat % 4 == 0
  | 1 => amf.toNat % 8 == 0
  | 4 => amf.toNat % 2 == 0
  | 6 => amf.toNat % 2 == 0
  | 7 => false
  | _ => true

/-- SZK names a load (R88). -/
def loadSzk (k : Nat) : Bool := k < 10
/-- SZK names a store (R88). -/
def storeSzk (k : Nat) : Bool := k == 0 || k == 2 || k == 4 || (6 ≤ k && k < 10)
/-- A pair register is even (R88, R94). -/
def pairOk (k d : Nat) : Bool := k != 7 || d % 2 == 0
/-- The predicate code and its operands (R129). -/
def pcOk (pc ew vb : Nat) : Bool :=
  pc < 14 && !((pc == 10 || pc == 11) && ew < 2) && !((pc == 12 || pc == 13) && vb % 2 == 1)

/-- Whether a thread instruction's operands make a reserved encoding (R75). -/
def reservedEnc : Instr → Bool
  | .load _ d _ k _ _ => !(loadSzk k && pairOk k d)
  | .store _ d _ k _ _ => !(storeSzk k && pairOk k d)
  | .loadx _ d a k _ m f =>
    !(loadSzk k && pairOk k d && amfOk m f) || (1 ≤ m.val && k.val < 8 && (d == a || (k.val == 7 && d.val + 1 == a.val)))
  | .storex _ d _ k _ m f => !(storeSzk k && pairOk k d && amfOk m f)
  | .ldi _ d a k o _ => !(k.val < 8 && pairOk k d) || (o && a.val != 0)
  | .iold _ _ _ k _ => !(k.val ≤ 6)
  | .iost _ _ _ k _ => !(k.val ≤ 6 && k.val % 2 == 0)
  | .swap _ q d _ b => q && (d.val % 2 == 1 || b.val % 2 == 1)
  | .cas _ q d _ b => q && (d.val % 2 == 1 || b.val % 2 == 1)
  | .fetchAdd _ q d _ b => q && (d.val % 2 == 1 || b.val % 2 == 1)
  | .fetchAnd _ q d _ b => q && (d.val % 2 == 1 || b.val % 2 == 1)
  | .fetchOr _ q d _ b => q && (d.val % 2 == 1 || b.val % 2 == 1)
  | .fetchMax _ q d _ b => q && (d.val % 2 == 1 || b.val % 2 == 1)
  | .fetchMaxu _ q d _ b => q && (d.val % 2 == 1 || b.val % 2 == 1)
  | .mfc _ _ n => (crAt n.toNat).isNone
  | .mtc _ _ n => (crAt n.toNat).isNone
  | .rdslateu _ d b => d == b
  | .repG _ g _ => g.val == 0
  | .pscan _ _ _ vb ew pc => !pcOk pc ew vb
  | .unpack _ _ g _ ew => ew.val < 2 || g.val + 1 > 8 * 2 ^ ew.val
  | .redmin _ _ _ _ ew x => x.val ≥ 4 || (x.val ≥ 2 && ew.val < 2)
  | .redmax _ _ _ _ ew x => x.val ≥ 4 || (x.val ≥ 2 && ew.val < 2)
  | .sscan _ _ _ h ew pc => !pcOk pc ew h
  | .sdict _ _ _ _ ew _ => ew.val < 2
  | .aaddf _ _ _ _ ty x => ty.val ≥ 2 || x.toNat ≥ 64
  | .amacf _ _ v _ ty x => ty.val ≥ 2 || x.toNat ≥ 64 || v.val % 2 == 1
  | .ardw _ _ _ x => x.toNat ≥ 72
  | .awrw _ _ _ x => x.toNat ≥ 72
  | _ => false

/-- Bits lo to lo + n - 1 of an instruction word. -/
def wf (w : BitVec 32) (lo n : Nat) : Nat := w.toNat / 2 ^ lo % 2 ^ n
/-- The register that five bits of a word name. -/
def wr5 (w : BitVec 32) (lo : Nat) : Rn := Fin.ofNat 32 (wf w lo 5)

/-- The INT word of a function code (R81). -/
def decInt (t : Tid) (d a b : Rn) (fn : Nat) : Option Instr :=
  match fn with
  | 0x000 => some (.add t d a b)
  | 0x001 => some (.sub t d a b)
  | 0x002 => some (.and t d a b)
  | 0x003 => some (.or t d a b)
  | 0x004 => some (.xor t d a b)
  | 0x005 => some (.andn t d a b)
  | 0x006 => some (.orn t d a b)
  | 0x007 => some (.slt t d a b)
  | 0x008 => some (.sltu t d a b)
  | 0x009 => some (.min t d a b)
  | 0x00A => some (.max t d a b)
  | 0x00B => some (.minu t d a b)
  | 0x00C => some (.maxu t d a b)
  | 0x010 => some (.sll t d a b)
  | 0x011 => some (.srl t d a b)
  | 0x012 => some (.sra t d a b)
  | 0x013 => some (.ror t d a b)
  | 0x020 => some (.mul t d a b)
  | 0x021 => some (.mulh t d a b)
  | 0x022 => some (.mulhu t d a b)
  | 0x024 => some (.div t d a b)
  | 0x025 => some (.divu t d a b)
  | 0x026 => some (.rem t d a b)
  | 0x027 => some (.remu t d a b)
  | 0x030 => if b = 0 then some (.clz t d a) else none
  | 0x031 => if b = 0 then some (.ctz t d a) else none
  | 0x032 => if b = 0 then some (.popc t d a) else none
  | 0x033 => if b = 0 then some (.bswap t d a) else none
  | 0x034 => if b = 0 then some (.sextb t d a) else none
  | 0x035 => if b = 0 then some (.sexth t d a) else none
  | 0x036 => if b = 0 then some (.sextw t d a) else none
  | 0x037 => if b = 0 then some (.zextw t d a) else none
  | _ => none

/-- The FP word of a function code (R84). -/
def decFp (t : Tid) (w : Bool) (d a b : Rn) (fn : Nat) : Option Instr :=
  match fn with
  | 0x000 => some (.fadd t w d a b)
  | 0x001 => some (.fsub t w d a b)
  | 0x002 => some (.fmul t w d a b)
  | 0x003 => some (.fdiv t w d a b)
  | 0x004 => if b = 0 then some (.fsqrt t w d a) else none
  | 0x005 => some (.fmin t w d a b)
  | 0x006 => some (.fmax t w d a b)
  | 0x008 => if b = 0 then some (.fneg t w d a) else none
  | 0x009 => if b = 0 then some (.fabs t w d a) else none
  | 0x00A => if b = 0 then some (.fmov t w d a) else none
  | 0x010 => some (.feq t w d a b)
  | 0x011 => some (.flt t w d a b)
  | 0x012 => some (.fle t w d a b)
  | 0x013 => if b = 0 then some (.fclass t w d a) else none
  | 0x020 => if b = 0 then some (.fcvti t w d a) else none
  | 0x021 => if b = 0 then some (.fcvtiu t w d a) else none
  | 0x022 => if b = 0 then some (.fcvtf t w d a) else none
  | 0x023 => if b = 0 then some (.fcvtfu t w d a) else none
  | 0x024 => if b = 0 then some (.fcvtx t w d a) else none
  | 0x030 => if b = 0 then some (.fmvg t w d a) else none
  | 0x031 => if b = 0 then some (.fmvf t w d a) else none
  | _ => none

/-- The SHIFTI word of a kind (R80). -/
def decShift (t : Tid) (d a : Rn) (kind : Nat) (sh : BitVec 6) : Instr :=
  match kind with
  | 0 => .slli t d a sh
  | 1 => .srli t d a sh
  | 2 => .srai t d a sh
  | _ => .rori t d a sh

/-- The FMA word of a kind (R86). -/
def decFma (t : Tid) (w : Bool) (d a b c : Rn) (nk : Nat) : Instr :=
  match nk with
  | 0 => .fmadd t w d a b c
  | 1 => .fmsub t w d a b c
  | 2 => .fnmsub t w d a b c
  | _ => .fnmadd t w d a b c

/-- The instruction that the word after REP stands for, where that word may be repeatable (R66, R80 to R91, R122): none for
reserved encodings and for instructions whose REP column is N. -/
def decodeRep (t : Tid) (w : BitVec 32) : Option Instr :=
  let d := wr5 w 21; let a := wr5 w 16; let b := wr5 w 11; let c := wr5 w 6
  let imm := BitVec.ofNat 16 (wf w 0 16)
  let k : Fin 16 := Fin.ofNat 16 (wf w 12 4)
  let o := wf w 11 1 == 1
  let m : Fin 8 := Fin.ofNat 8 (wf w 8 3)
  let f := BitVec.ofNat 8 (wf w 0 8)
  let i := match wf w 26 6 with
    | 0x02 => decInt t d a b (wf w 0 11)
    | 0x03 => decFp t (wf w 10 1 == 1) d a b (wf w 0 10)
    | 0x04 => some (.addi t d a imm)
    | 0x05 => some (.andi t d a imm)
    | 0x06 => some (.ori t d a imm)
    | 0x07 => some (.xori t d a imm)
    | 0x08 => some (.slti t d a imm)
    | 0x09 => some (.sltui t d a imm)
    | 0x0A => if a = 0 then some (.lui t d imm) else none
    | 0x0B => if a = 0 then some (.shori t d imm) else none
    | 0x0D => if wf w 6 8 = 0 then some (decShift t d a (wf w 14 2) (BitVec.ofNat 6 (wf w 0 6))) else none
    | 0x0E => if wf w 0 3 = 0 then some (decFma t (wf w 3 1 == 1) d a b c (wf w 4 2)) else none
    | 0x22 => if m = 0 then none else some (.loadx t d a k o m f)
    | 0x23 => if m = 0 then none else some (.storex t d a k o m f)
    | 0x3B => some (.udi t (Fin.ofNat 64 (wf w 20 6)) (wr5 w 15) (wr5 w 10) (wr5 w 5) (wr5 w 0))
    | _ => none
  match i with
  | some i => if reservedEnc i then none else some i
  | none => none

/-- The general registers that a repeatable instruction names as source, destination or base (R66). -/
def gNames : Instr → List Nat
  | .addi _ d a _ => [d, a]
  | .andi _ d a _ => [d, a]
  | .ori _ d a _ => [d, a]
  | .xori _ d a _ => [d, a]
  | .slti _ d a _ => [d, a]
  | .sltui _ d a _ => [d, a]
  | .lui _ d _ => [d]
  | .shori _ d _ => [d]
  | .slli _ d a _ => [d, a]
  | .srli _ d a _ => [d, a]
  | .srai _ d a _ => [d, a]
  | .rori _ d a _ => [d, a]
  | .add _ d a b => [d, a, b]
  | .sub _ d a b => [d, a, b]
  | .and _ d a b => [d, a, b]
  | .or _ d a b => [d, a, b]
  | .xor _ d a b => [d, a, b]
  | .andn _ d a b => [d, a, b]
  | .orn _ d a b => [d, a, b]
  | .slt _ d a b => [d, a, b]
  | .sltu _ d a b => [d, a, b]
  | .min _ d a b => [d, a, b]
  | .max _ d a b => [d, a, b]
  | .minu _ d a b => [d, a, b]
  | .maxu _ d a b => [d, a, b]
  | .sll _ d a b => [d, a, b]
  | .srl _ d a b => [d, a, b]
  | .sra _ d a b => [d, a, b]
  | .ror _ d a b => [d, a, b]
  | .mul _ d a b => [d, a, b]
  | .mulh _ d a b => [d, a, b]
  | .mulhu _ d a b => [d, a, b]
  | .div _ d a b => [d, a, b]
  | .divu _ d a b => [d, a, b]
  | .rem _ d a b => [d, a, b]
  | .remu _ d a b => [d, a, b]
  | .clz _ d a => [d, a]
  | .ctz _ d a => [d, a]
  | .popc _ d a => [d, a]
  | .bswap _ d a => [d, a]
  | .sextb _ d a => [d, a]
  | .sexth _ d a => [d, a]
  | .sextw _ d a => [d, a]
  | .zextw _ d a => [d, a]
  | .feq _ _ d _ _ => [d]
  | .flt _ _ d _ _ => [d]
  | .fle _ _ d _ _ => [d]
  | .fclass _ _ d _ => [d]
  | .fcvti _ _ d _ => [d]
  | .fcvtiu _ _ d _ => [d]
  | .fcvtf _ _ _ a => [a]
  | .fcvtfu _ _ _ a => [a]
  | .fmvg _ _ d _ => [d]
  | .fmvf _ _ _ a => [a]
  | .loadx _ d a k _ m f => [a.val] ++ xNames d k ++ idxName m f
  | .storex _ d a k _ m f => [a.val] ++ xNames d k ++ idxName m f
  | _ => []
where
  /-- The data registers of an indexed access: f registers for SZK 8 and 9, a pair for SZK 7. -/
  xNames (d : Rn) (k : Fin 16) : List Nat := if k.val ≥ 8 then [] else if k.val = 7 then [d.val, d.val + 1] else [d.val]
  /-- The index register of an address mode (R89). -/
  idxName (m : Fin 8) (f : BitVec 8) : List Nat :=
    if m.val = 0 || m.val = 1 || m.val = 4 || m.val = 6 then [f.toNat / 8] else []

/-! Micro-op words (R118, R119). -/

/-- UOP of a micro-op word. -/
def uOp (w : BitVec 32) : Nat := w.toNat / 2 ^ 26
/-- DST of a micro-op word. -/
def uDst (w : BitVec 32) : Nat := w.toNat / 2 ^ 21 % 32
/-- SA of a micro-op word. -/
def uSa (w : BitVec 32) : Nat := w.toNat / 2 ^ 16 % 32
/-- SB of a micro-op word. -/
def uSb (w : BitVec 32) : Nat := w.toNat / 2 ^ 11 % 32
/-- IMM11 of a micro-op word. -/
def uImm (w : BitVec 32) : Nat := w.toNat % 2 ^ 11
/-- A memory micro-op. -/
def uMem (w : BitVec 32) : Bool := 0x20 ≤ uOp w && uOp w ≤ 0x23
/-- The ST micro-op. -/
def uSt (w : BitVec 32) : Bool := uOp w == 0x22

end Sys2Proof.Machine
end

