-- ==== Sys2Proof/Config.lean ====
section
/-!
DEFINITION. What the FS216's spec leaves open: free values (constants with no body, applied to the counter freeCtr of
State or to the operands they depend on), and the functions that standards outside the spec define.
-/
namespace Sys2Proof

/-- A free doubleword (DESIGN CHOICE, log 3): a value the spec does not state. -/
opaque Config.freeWord : Nat → Word
/-- The free contents of one line (DESIGN CHOICE, log 3). -/
opaque Config.freeLine : Nat → LineData
/-- A free yes or no (DESIGN CHOICE, log 3). -/
opaque Config.freeBool : Nat → Bool
/-- A free natural number (DESIGN CHOICE, log 3). -/
opaque Config.freeNat : Nat → Nat
/-- What is timing within a thread's core (R155): a number by thread and count (DESIGN CHOICE, log 64). -/
opaque Config.timing : Nat → Nat → Nat
/-- The set that a line maps to in a cache of each level (R184), which the spec does not give. -/
opaque Config.cacheSet : Nat → Nat → Nat
/-- The line that a cache replaces (R184), by its number, the line that comes in and a count: the policies are not
architectural. -/
opaque Config.replace : Nat → Nat → Nat → Nat
/-- The fold of a directory tag that its set index takes in (R191). -/
opaque Config.dirFold : Nat → Nat
/-- The L3 slice a line maps to (R184): a fixed hash that the spec does not give. -/
opaque Config.l3Slice : Nat → Nat
/-- The SHA-384 digest of a byte string (R395), as FIPS 180-4 defines it. -/
opaque Config.sha384 : List Byte → BitVec 384
/-- The key derivation of R391: root secret state, label and kind give a key identity. -/
opaque Config.sealedKey : Nat → BitVec 128 → Nat
/-- Whether the signature over the certificate in DBG_CERTk is right under the call sheet's debug key (R409). -/
opaque Config.certOk : List Word → Bool

/-- Whether the device behind a memory port (0 to 15) or general port (16 to 19) performs atomics (R186). -/
opaque Config.devAtomic : Nat → Bool

/-- Which of a C-die's two D-links the fixed hash of R197 binds a line to. -/
opaque Config.dlinkHash : Nat → Bool

/-- What the filter of R278, which is not architectural, gives for a measured offset in ps and the number of the
measurement. -/
opaque Config.slateFilter : Int → Nat → Int
/-- The known delay in ps of the forward path of a D-link minus that of its return path, which comes from the call sheet's
calibration (R278). -/
opaque Config.linkAsym : Nat → Int

/-- The errors that strike the arrays of R413 with time (DESIGN CHOICE, log 12): by the time, the die (12 for the H-die), the
structure, the unit, the line, the way, and whether the error can be corrected. -/
opaque Config.strike : Nat → Option (Nat × Nat × Nat × Nat × Nat × Bool)

end Sys2Proof
end

