-- ==== Sys2Proof/Machine/SMap.lean ====
section
/-!
DEFINITION. Sparse maps from natural numbers as plain data: lists of key and value with keys strictly rising. Every
register file, memory and table of State is one of these; a key that is not listed has the map's default.
-/
namespace Sys2Proof.Machine

/-- A sparse map: keys strictly rising. -/
abbrev SMap (α : Type) := List (Nat × α)

/-- The listed value of a key. -/
def SMap.find? {α : Type} : SMap α → Nat → Option α
  | [], _ => none
  | (k, v) :: m, i => if i = k then some v else SMap.find? m i

/-- The value of a key: the listed one, else the default. -/
def SMap.get {α : Type} (dflt : α) (m : SMap α) (i : Nat) : α := (SMap.find? m i).getD dflt

/-- List a value at a key, keeping the keys rising. -/
def SMap.put {α : Type} : SMap α → Nat → α → SMap α
  | [], i, x => [(i, x)]
  | (k, v) :: m, i, x =>
    if i < k then (i, x) :: (k, v) :: m else if i = k then (i, x) :: m else (k, v) :: SMap.put m i x

/-- Take a key off the list. -/
def SMap.del {α : Type} : SMap α → Nat → SMap α
  | [], _ => []
  | (k, v) :: m, i => if i = k then SMap.del m i else (k, v) :: SMap.del m i

/-- Write a byte in a memory whose unlisted bytes read as z: the canonical form lists no byte equal to z. -/
def SMap.setByte (z : Byte) (m : SMap Byte) (i : Nat) (x : Byte) : SMap Byte :=
  if x = z then SMap.del m i else SMap.put m i x

/-- The keys are strictly rising and none is below lo. -/
def SMap.sortedFrom {α : Type} : Nat → SMap α → Bool
  | _, [] => true
  | lo, (k, _) :: m => decide (lo ≤ k) && SMap.sortedFrom (k + 1) m

/-- The keys are strictly rising. -/
def SMap.sorted {α : Type} (m : SMap α) : Bool := SMap.sortedFrom 0 m

/-- The canonical form of a memory whose unlisted bytes read as z. -/
def SMap.memWf (z : Byte) (m : SMap Byte) : Bool := SMap.sorted m && m.all (fun c => decide (c.2 ≠ z))

/-- Apply a function to every listed value. -/
def SMap.mapv {α β : Type} (f : Nat → α → β) (m : SMap α) : SMap β := m.map fun c => (c.1, f c.1 c.2)

/-- Keep the listed entries that satisfy p. -/
def SMap.keep {α : Type} (p : Nat → α → Bool) (m : SMap α) : SMap α := m.filter fun c => p c.1 c.2

end Sys2Proof.Machine
end

