-- ==== Sys2Proof/Machine/State.lean ====
section
/-!
DEFINITION. The state of an FS216 package as plain data (INVENTORY.md, State), its value after reset, and the reasons a
step can stop.
-/
namespace Sys2Proof.Machine

/-- What a thread is doing (R98, R271, R324, R341, R413, R458, R460). -/
inductive Run where
  | halted
  | running
  | waiting
  | slateWait (dst : Rn) (bound : Word)
  | ioWait (port : Nat) (dst : Rn) (szk : Nat)
  | stopped
  | debugHalt
deriving DecidableEq, Repr

/-- A retired store that is not yet globally visible (R52, R71, R148): its physical address, its bytes, and the key slot
of the entry it went through. -/
structure PendStore where
  pa    : Nat
  data  : List Byte
  kslot : Nat
deriving DecidableEq, Repr

/-- The TLB staging registers (R164), as the hidden save area of R167 holds them. -/
structure Staging where
  sv  : Word
  sp  : Word
  stg : Word
  fva : Word
deriving DecidableEq, Repr

/-- An exact accumulator (R132): FX, the flags PINF, NINF and NAN, and the integer lane. -/
structure SumAcc where
  fx   : BitVec 4224
  pinf : Bool
  ninf : Bool
  nan  : Bool
  int  : BitVec 128
deriving DecidableEq, Repr

/-- The parts of a core that perform instructions (R136). -/
inductive CoreUnit where
  | fe
  | au
  | eu
deriving DecidableEq, Repr

/-- An instruction of the retire log that has not retired (R146): its number, the load-data entries and copy-queue entries
it holds, whether the store pipeline awaits its data from the EU, and whether its outcome is to come through the
branch-outcome queue (R144). -/
structure LogEnt where
  id  : Nat
  ldq : Nat
  cpq : Nat
  sdq : Bool
  boq : Bool
deriving DecidableEq, Repr

/-- The decoupled machinery of a thread (R136 to R157): the g registers homed in the EU (R140), those valid in both units
(R141), the instruction address that last wrote each (R143), the retire log, oldest first, the store-data entries beside
storeQ by the number of the instruction whose data is to come (R144), the next number, whether the instruction at pc has been
routed and waits, the unit it went to, whether a home hint sent it there and whether it was mispredicted (R150), the sift commands that hold a credit (R124), and
the bytes that a load performed in pieces has read (R45). -/
structure Decoupled where
  eu    : BitVec 32
  both  : BitVec 32
  wrote : SMap Word
  log   : List LogEnt
  sdq   : List (Option Nat)
  seq   : Nat
  held  : Bool
  unit  : CoreUnit
  hint  : Bool
  misp  : Bool
  sift  : Nat
  part  : List Byte
deriving DecidableEq, Repr

/-- A miss entry that is held (R153, R154): its line and who holds it: at an L1 the thread of the core, at an L2 the core
position, 4 for the sift unit or 5 for the prefetcher. -/
structure MissEnt where
  line : Nat
  who  : Nat
deriving DecidableEq, Repr

/-- A line that a cache holds, its way, and, in an L2, whether the line's newer data lies there or in an L1 above it (R184,
R185). -/
structure CacheEnt where
  line  : Nat
  way   : Nat
  dirty : Bool
deriving DecidableEq, Repr

/-- One Quinrun thread. Control registers of thread scope are listed by number; an unlisted one holds its reset value. -/
structure Thread where
  run       : Run
  pc        : Word
  slot      : Option Word
  g         : SMap Word
  f         : SMap Word
  cr        : SMap Word
  storeQ    : List PendStore
  armed     : BitVec 4
  pendSlate : SMap Word
  notices   : SMap (List Nat)
  rfmSave   : Staging
  mcNested  : Option Bool
  repLeft   : Option Nat
  encDbg    : Bool
  encSave   : Nat
  encKs     : Nat
  encClass  : Nat
  v         : SMap (BitVec 512)
  acc       : SMap SumAcc
deriving DecidableEq, Repr

/-- A slot of a TLB: the fields of TLBSV, TLBSP and TLBSTG (R158). -/
structure TlbSlot where
  sv  : Word
  sp  : Word
  stg : Word
deriving DecidableEq, Repr

/-- The parity errors counted for a TLB slot (R162). -/
structure SlotErr where
  count : Nat
deriving DecidableEq, Repr

/-- An error that has struck an array and that no access has found yet (R413): the die (12 for the H-die), the structure
(R434), the unit (physical core, physical cluster, slice or port), the physical line (or, for a tag, the row, and for staging SRAM,
the domain), the way (or, for a local store, the byte in the line, and for a sift context, the core in its cluster), and whether it
can be corrected. -/
structure ArrayErr where
  die     : Nat
  struct  : Nat
  unit    : Nat
  line    : Nat
  way     : Nat
  correct : Bool
deriving DecidableEq, Repr

/-- A slot of the guest-physical map: GPMHI and GPMLO (R171). -/
structure GpmSlot where
  hi : Word
  lo : Word
deriving DecidableEq, Repr

/-- A valid decode-table entry: its image's header and its micro-op words (R111, R115). -/
structure DtEntry where
  hdr  : Word
  uops : List (BitVec 32)
deriving DecidableEq, Repr

/-- One logical core: TLB, guest-physical map, decode table, control registers of core scope. -/
structure Core where
  tlb     : SMap TlbSlot
  tlbErr  : SMap SlotErr
  tlbBad  : List Nat
  gpm     : SMap GpmSlot
  dt      : SMap DtEntry
  cr      : SMap Word
  stopped : Bool
deriving DecidableEq, Repr

/-- An owner-cache result (R178): the owner entry of a granule, or the summary of a block, with its page-map word. -/
structure OwnerRes where
  summary : Bool
  index   : Nat
  entry   : BitVec 32
  pmap    : Word
deriving DecidableEq, Repr

/-- Line states within an agent (R188). -/
inductive LineSt where
  | m
  | e
  | f
  | s
  | i
deriving DecidableEq, Repr

/-- STATE of a directory entry (R191). -/
inductive DirSt where
  | free
  | shared
  | owned
deriving DecidableEq, Repr

/-- A request that a home agent holds for a line (R193): a read, a read or upgrade for ownership, a read without caching,
the back-invalidation of a set victim on which another line's request waits (R194), or a write of bytes at an address by an
agent through a key slot (R231), with a number by which an agent's waiting writes keep their order (R353). -/
inductive HomeReq where
  | rdS (a : Agent)
  | rdX (a : Agent)
  | upg (a : Agent)
  | cur (a : Agent)
  | binv (waiter : Nat)
  | wr (agent n pa : Nat) (bytes : List Byte) (ks : Nat)
deriving DecidableEq, Repr

/-- The transaction active on a line at its home: the request, the agents whose answers it waits for, the agents whose
eviction message it waits for, and what the forwarded data carried. -/
structure HomeTxn where
  req   : HomeReq
  snp   : List Agent
  evx   : List Agent
  dirty : Bool
deriving DecidableEq, Repr

/-- The eviction of an agent for a line (R200): whether its message was WBD, and whether that message waits at the home with an
active transaction (R201). -/
structure EvictEnt where
  dirty    : Bool
  consumed : Bool
deriving DecidableEq, Repr

/-- What the package holds for one cacheable line: directory entry (R191) and when it was allocated (R194), the dies' states
(R188), tag (R216), evictions by agent, 16 and up for packages (R200), undo-pending and hold-window marks (R198, R218), GO and
DAT that have arrived (R197), the active transaction and its queue (R193), the requests forwarded to a home in another package
(R205), the line's value where it is newer than its home's memory, its poison (R421) and its key slot (R306). -/
structure LineRec where
  dir    : DirSt
  alloc  : Nat
  fh     : Option Nat
  dp     : List Nat
  rp     : List Nat
  st     : SMap LineSt
  evict  : SMap EvictEnt
  undoP  : List Nat
  hold   : List Nat
  gotGo  : SMap LineSt
  gotDat : SMap Bool
  txn    : Option HomeTxn
  queue  : List HomeReq
  out    : List HomeReq
  data   : Option LineData
  poison : Bool
  pd     : Bool
  parity : Bool
  dom    : Nat
  kslot  : Nat
deriving DecidableEq, Repr

/-- Kinds of messages on their way between an agent and the home (R195). -/
inductive MsgKind where
  | snpS
  | snpX
  | snpCur
  | snpBinv
  | snpLsr
  | snpLsw
  | rspI
  | rspS
  | rspEvx
  | goE
  | goF
  | goS
  | goNc
  | eva
  | dat (dirty : Bool)
  | fwd (dirty : Bool)
  | wbd
  | evc
  | undoAcc
  | swbAcc
deriving DecidableEq, Repr

/-- A message on its way: kind, agent it goes to or comes from, line (or address, for a local-store access), the requester of
a local-store access, the bytes it writes or returns, its poison flag, and whether it belongs to an access without caching
(R195); marked under R213. -/
structure Msg where
  kind   : MsgKind
  agent  : Agent
  line   : Nat
  marked : Bool
  req    : Nat
  bytes  : List Byte
  poison : Bool
  nc     : Bool
deriving DecidableEq, Repr

/-- A write held at home under R220, oldest first. -/
structure Held where
  line   : Nat
  data   : LineData
  poison : Bool
  kslot  : Nat
  dom    : Nat
  mark   : Nat
  id     : Nat
deriving DecidableEq, Repr

/-- An entry of a home write queue (R299, R300): device address of the line, byte mask, data, whether it is on the link,
whether it is an undo block or record, and the domain it is released for. -/
structure WqEnt where
  dev    : Nat
  mask   : BitVec 64
  data   : LineData
  poison : Bool
  keyId  : Nat
  sent   : Bool
  undo   : Bool
  id     : Nat
deriving DecidableEq, Repr

/-- Memory and what stands between it and the caches. dev lists the bytes of the devices by port * 2^52 + device address;
devPoison and devKey list lines by that address / 64; ls lists the written bytes of the local stores. -/
structure Mem where
  dev       : SMap Byte
  devPoison : List Nat
  devKey    : SMap Nat
  ls        : SMap Byte
  lsPoison  : List Nat
  held      : List Held
  wq        : SMap (List WqEnt)
deriving DecidableEq, Repr

/-- An undo entry accepted into the staging SRAM, with its sequence number (R219). -/
structure StagedUndo where
  seq : Nat
  ent : UndoEntry
deriving DecidableEq, Repr

/-- KIND of a reel block (R239). -/
inductive BlockKind where
  | undo
  | cut
  | prepare
  | commit
  | rolled
deriving DecidableEq, Repr

/-- A block of an undo reel (R239): SEQ, take, kind, undo entries with their sequence numbers (R219), slate and member
bitmap of a record, and its reel offset. -/
structure ReelBlock where
  seq     : Nat
  take    : Nat
  kind    : BlockKind
  ents    : List UndoEntry
  nums    : List Nat
  ofs     : Nat
  slate   : Word
  members : BitVec 16
deriving DecidableEq, Repr

/-- The step of the cut in progress (R224, R234): ADVANCE out, SWEEP out, waiting for the members' G_SWEPT, markers out, the
cut record being written; on a member, swept, writing PREPARE, prepared, and writing COMMIT. -/
inductive CutStep where
  | idle
  | advance
  | sweep
  | gWaitSwept
  | marker
  | record
  | gSwept
  | gPrepare
  | gPrepared
  | gCommit
deriving DecidableEq, Repr

/-- A reel anchor (R254): the geometry it records, the SEQ and offset of its tail block, and those of its cut record. -/
structure Anchor where
  base0 : Nat
  gib0  : Nat
  seg1  : Option (Nat × Nat)
  tail  : Nat × Nat
  cut   : Option (Nat × Nat)
deriving DecidableEq, Repr

/-- What the take controller holds for one domain beside its registers: the step of the cut in progress (R224) and what it
waits for, did listing the structures that have swept or purged; purges (R237); blocks and records being written and the persistent ones from the tail up (R239, R240); SEQ of
the next block; whether the open take has accepted an undo entry (R223); the reel anchor (R254); whether segment 1 is in
use (R210); overflow marks (R226); outstanding tickets as thread and take (R101). -/
structure TakeDom where
  step       : CutStep
  acks       : List Nat
  l2Left     : List Nat
  l3Left     : List Nat
  did        : List Nat
  portsLeft  : List (Nat × Nat)
  needSeq    : Nat
  pkgLeft    : List Nat
  purgeL2    : List Nat
  purgeL3    : List Nat
  rollRun    : Bool
  blocksOut  : List ReelBlock
  reel       : List ReelBlock
  seqNext    : Nat
  openUndo   : Bool
  anchor     : Option Anchor
  segIn      : Bool
  overflow   : List (Nat × Bool)
  tickets    : List (Nat × Nat)
deriving DecidableEq, Repr

/-- SWB on its way from a die to the home (R217, R225); sent: it has left over a P-link and waits for its SWB_ACC (R233). -/
structure SwbOut where
  die    : Nat
  dom    : Nat
  line   : Nat
  data   : LineData
  poison : Bool
  kslot  : Nat
  sent   : Bool
deriving DecidableEq, Repr

/-- The package's power condition (R249, R253, R442, R445, R461): no power, booting, running, in DEEP, in OFF, in a wrap, or
parked after one. -/
inductive Power where
  | unpowered
  | boot
  | run
  | deep
  | off
  | wrap
  | park
deriving DecidableEq, Repr

/-- What the package remembers of a wrap (R247 to R253): its cause and slate, the ports whose Global Persistent Flush is
not done, the late ones, whether it completed, the times of the filtered PWRFAIL_N assertions, whether PWRFAIL_N is being
ignored or was found stuck, the resets held until the park (1 RESET_N, 2 WARM_N), THERMTRIP_N, and whether the package
stopped without a wrap (R246). -/
structure WrapSt where
  cause    : Nat
  slate    : Word
  gpfLeft  : List Nat
  late     : Nat
  done     : Bool
  times    : List Nat
  ignored  : Bool
  stuck    : Bool
  held     : List Nat
  thermOut : Bool
  missing  : Bool
deriving DecidableEq, Repr

/-- What the H-die keeps of the slate beside its value and registers (R267 to R285): the fraction of a unit in thousandths;
whether it advances from the crystal, whether the crystal runs, and how far the crystal's period has come in thousandths of
a unit; the units still to slew and the phases since the last slewed one; unc_h at entry to FREE or HOLDOVER, the time of
that entry, and whether the rate of R267 applies; UNC of the source and the remaining offset in ps; the measurements within
one unit in a row; the P-links whose last symbol was valid, with its time; whether TREFCLK is good; the node ID of the ROOT, where a frame has named it; the epoch
in force, and the one kept with the last wrap slate; the dies whose copies have settled; and of the time links the frames
last sent, the last ones received with the slate at their markers, and the sequence numbers; the delay and offset of each die's
copy as last measured. -/
structure SlateSt where
  milli   : Nat
  xtal    : Bool
  xtalRun : Bool
  xtalPos : Nat
  slew    : Int
  phase   : Nat
  entry   : Nat
  since   : Nat
  fast    : Bool
  srcUnc  : Nat
  rest    : Nat
  good    : Nat
  ptOk    : List Nat
  ptSince : SMap Nat
  tref    : Bool
  rootId  : Option Nat
  epoch   : BitVec 32
  wrapEp  : BitVec 32
  settled : List Nat
  tsymOut : SMap Word
  tsymIn  : SMap Word
  tsymAt  : SMap Word
  copies  : SMap (Int × Int)
  ptOut   : SMap PtSym
  ptIn    : SMap PtSym
  ptAt    : SMap Word
  clfSeq  : BitVec 16
  clfOut  : Option ClfFrame
  clfIn   : Option ClfFrame
  clrSeq  : BitVec 16
  clrOut  : Option ClrFrame
  clrIn   : Option (BitVec 16 × Word)
deriving DecidableEq, Repr

/-- Where the enabling of a memory port stands (R292): not enabled or stopped at a step, training, waiting for Memory_Active,
or ready. -/
inductive PortPhase where
  | off
  | training
  | waiting
  | ready
deriving DecidableEq, Repr

/-- Reads at a memory port (R301, R303 to R305): the first line of a burst, its length in lines, requester, class and
urgency. -/
structure PortReq where
  line : Nat
  left : Nat
  rq   : Nat
  cls  : Nat
  urg  : Nat
deriving DecidableEq, Repr

/-- What a memory port holds beside its registers: its phase, the device it found, the reads sent to the device, the pending
queue of the arbiter by requester, the owner of the parked grant and what is left of its burst, the bytes granted per class, and
whether DevLoad reports severe overload (R291 to R305). -/
structure PortSt where
  phase    : PortPhase
  dev      : Option DevInfo
  reads    : List PortReq
  waits    : SMap PortReq
  owner    : Nat
  burst    : Option PortReq
  granted  : SMap Nat
  overload : Bool
deriving DecidableEq, Repr

/-- A core sparing under way on a die (R426): the logical core, the physical core that left, and whether the snoop port has
answered or timed out. -/
structure SpareSt where
  l     : Nat
  old   : Nat
  drain : Bool
deriving DecidableEq, Repr

/-- A packet of a link's replay buffer: its SEQ and how often it has been resent (R320). -/
structure OutPkt where
  seq    : Nat
  resent : Nat
deriving DecidableEq, Repr

/-- What is held for a D-link (0 to 23) or P-link (24 to 27) beside its registers: where its training stands (lane check
done, maps adopted by the C-die), the width and effective maps that the C-die end holds (R314) and the receive codes loaded into it
(R311), the last SEQ committed and
whether packets are dropped until the next one (R319), SEQ of the next packet and the replay buffer (R320), whether a flush is on (R322), and the trained lanes of a P-link. -/
structure LinkSt where
  checked : Bool
  adopted : Bool
  cEnd    : Option (Nat × List Word)
  cDelay  : List Word
  good    : Option Nat
  rewound : Bool
  seqNext : Nat
  out     : List OutPkt
  flush   : Bool
  width   : Nat
deriving DecidableEq, Repr

/-- What the package holds of its coherence group: the P-link states last received from each position (R332), the cold-boot
count each peer presented at its last training, the positions that must present another one, and whether PKG_FEAT has been
computed since the cold reset (R326); and for each C-die the links its traffic is bound to (R316): 1 link 0, 2 link 1, 3
both. -/
structure GroupSt where
  notices : SMap Nat
  counts  : SMap Nat
  barred  : List Nat
  feat    : Bool
  bound   : SMap Nat
deriving DecidableEq, Repr

/-- What the package last sent outside in answer to a request, or posted on a port: the bytes of a read and whether they are
poisoned, Unsupported Request, GO-Err, a master time in ns (R355), a posted write (R341, R363), a value. -/
inductive Answer where
  | data (bytes : List Byte) (poison : Bool)
  | unsupported
  | goErr
  | time (ns : Word)
  | post (port addr : Nat) (bytes : List Byte)
  | value (v : Word)
deriving DecidableEq, Repr

/-- What a PCIe port (0 to 2 general, 3 mirror) holds beside its registers: whether it trains, its trained lanes, the reads
outstanding in order (a thread, or none once timed out, R341), and its link power state (0 L0, 1 L0s, 2 L1; R355). -/
structure GpSt where
  training : Bool
  width    : Nat
  reads    : List (Option Nat)
  aspm     : Nat
deriving DecidableEq, Repr

/-- What the mirror port holds beside its registers: the BARs of its function (R347), the window sizes of the last link-up
(R348), the sets of a commit that waits for a TLP boundary as window, LOCAL, LEN, ATTR (R350), and the vendor, device and
subsystem IDs of the call sheet. -/
structure MirSt where
  bar0   : Word
  bar2   : Word
  bar4   : Word
  logA   : Nat
  logB   : Nat
  commit : List (Nat × Word × Word × Word)
  ids    : Word
deriving DecidableEq, Repr

/-- A descriptor that a function has fetched and not completed (R361 to R366): its submission index, its doublewords, the
engine it has started on, the root port of a SHIP and the QoS class at its start (R363, R380), the bytes done, the checksum so
far, its STATUS and RESULT once it has ended, and whether its record has been sent to its home (R364). -/
structure Job where
  index  : Nat
  dw     : List Word
  engine : Option Nat
  port   : Nat
  cls    : Nat
  pos    : Nat
  acc    : Nat
  ended  : Option (Nat × Nat)
  sent   : Bool
deriving DecidableEq, Repr

/-- What a virtual runner function holds beside its registers: the descriptors fetched and not completed, in ring order, the
ring depth that waits (R368), and how often its completion cue is owed for records that are not visible yet (R370). -/
structure VrfSt where
  jobs : List Job
  next : Option Nat
  cues : Nat
deriving DecidableEq, Repr

/-- What the continuity processor and the enclave engine hold (R390 to R410): the key ledger, whether the sealing secret is
unavailable, each building enclave's measured bytes, the threads that run one instruction for a debugger, and the clusters
of a thermal emergency that are not gated yet. -/
structure SecSt where
  ledger   : SMap (BitVec 128)
  sealOff  : Bool
  meas     : SMap (List Byte)
  stepping : List Nat
  thermal  : List Nat
deriving DecidableEq, Repr

/-- A DEEP or OFF entry under way (R446, R448): the requester, which of the two, the takes that must be cut by domain once
step 3 has begun, and the ports whose Global Persistent Flush is not done once OFF runs it. -/
structure DeepSt where
  t    : Nat
  off  : Bool
  cuts : Option (List (Nat × Nat))
  gpf  : Option (List Nat)
deriving DecidableEq, Repr

/-- What the gaffer holds (R442 to R455): frequency requests by cluster (5d + k), consecutive samples above SUSTAIN_W, the
last samples in W, newest first, samples without a reason to lower the cap, SET_FREQ requests and HELD GATE requests as
thread and cluster, the DEEP or OFF entry, and the time DEEP began. -/
structure GafSt where
  req   : SMap Nat
  sust  : Nat
  hist  : List Nat
  calm  : Nat
  freq  : List (Nat × Nat)
  held  : List (Nat × Nat)
  deep  : Option DeepSt
  since : Nat
deriving DecidableEq, Repr

/-- What a start of the package has still to do (R256 to R263, R453, R459, R461): the board's answer to the last PWRGOOD
rise; the call sheet in force; register images not written yet; dies that wait for their start slot; clusters that have not
started; dies whose reset waits for reclaim; domains that roll back; C of a member's lead; whether the start is a warm one;
and the minimum call-sheet version. -/
structure BootSt where
  input    : Option BootInput
  sheet    : Option SheetCopy
  images   : List (Nat × Word)
  slots    : List Nat
  clusters : List Nat
  resets   : List Nat
  rolls    : List Nat
  leadC    : SMap Word
  warm     : Bool
  minVer   : Nat
deriving DecidableEq, Repr

/-- What the always-on well holds beside its registers (R472 to R484): the dailies as the ferroelectric array has them, the
wear remainders (in 2^-64 units), the wear at the last daily store, the daily history, newest first, the thermal-cycle
detectors (13 times counter 0 or 1 plus die: whether the temperature is past its fall, and the extreme since), where the crystal period stands, the trim
remainder, whether the last update disciplined the calendar, the calendar at its last discipline, whether VAON is in range, the calendar at the
last wake from OFF, and whether WAKE_N came while the package was going to OFF. -/
structure AonSt where
  array   : SMap Word
  wearRem : SMap Nat
  wearDay : SMap Nat
  hist    : SMap (List Nat)
  cycles  : SMap (Bool × Nat)
  calPos  : Nat
  trimAcc : Int
  calDisc : Bool
  discAt  : Nat
  up      : Bool
  woke    : Option Nat
  wakeDue : Bool
deriving DecidableEq, Repr

/-- What the device holds of its low-speed inputs (R505, R511 to R514): whether PWRGOOD is high, the rails out of range, the
times of filtered assertions by input index, the inputs past their stuck limit, and those whose level is asserted. -/
structure PinSt where
  pwrgood : Bool
  rails   : List Rail
  chat    : SMap (List Nat)
  stuck   : List Nat
  low     : List Nat
deriving DecidableEq, Repr

/-- The state of the FS216. dec is by thread; hints holds the home hint table of each core, instruction address and ASID, the
most recently used first (R143); caches holds the lines of each cache (R184): an L1 instruction cache by its physical core 20d + p, an
L1 data cache by 240 + 20d + p, an L2 by 480 + 5d + k, the L3 of a die by 540 + d; miss holds the miss entries: an L1
data cache's and an L1 instruction cache's by the same numbers, an L2's by the same number; victims holds by die the lines
that its L3 has chosen to evict and whose WBD or EVC is still to be sent (R200); wlist holds the write lists (R226), of
the L2s by 0 to 59 and of the L3 slices of die d by 60 + d: line, domain and parity. -/
structure State where
  pending  : List Instr
  threads  : SMap Thread
  cores    : SMap Core
  dec      : SMap Decoupled
  hints    : SMap (List (Word × Nat))
  caches   : SMap (List CacheEnt)
  miss     : SMap (List MissEnt)
  victims  : SMap (List Nat)
  wlist    : SMap (List (Nat × Nat × Bool))
  io       : SMap Word
  lines    : SMap LineRec
  msgs     : List Msg
  mem      : Mem
  views    : SMap Word
  staged   : List StagedUndo
  accepted : Nat
  undoOut  : List (Nat × UndoEntry)
  swbOut   : List SwbOut
  nextId   : Nat
  doms     : SMap TakeDom
  owners   : SMap (List OwnerRes)
  mcPend   : List (Nat × Word)
  latent   : List ArrayErr
  wayErr   : SMap Nat
  reclaims : List Nat
  sparing  : SMap SpareSt
  gated    : List Nat
  power    : Power
  wrap     : WrapSt
  now      : Nat
  gpos     : Nat
  slate    : Word
  sl       : SlateSt
  ports    : SMap PortSt
  links    : SMap LinkSt
  group    : GroupSt
  gp       : SMap GpSt
  mir      : MirSt
  answer   : Option Answer
  vrfs     : SMap VrfSt
  turns    : SMap (Nat × Nat)
  sec      : SecSt
  gaf      : GafSt
  boot     : BootSt
  aon      : AonSt
  pins     : PinSt
  keyIds   : SMap Nat
  freeCtr  : Nat
deriving DecidableEq, Repr

/-- Reasons of a fault. None is raised on any path of this model (NOTES.md, Stops): the spec gives every command an
effect. -/
inductive Fault where
  /-- Raised by no command; kept so that the type has a name. Safe. -/
  | unreachable
deriving DecidableEq, Repr

/-- Reasons of a refusal. -/
inductive Refusal where
  /-- A command whose meaning is not written; raised by a dispatch arm. Safe. -/
  | notModelled (mnemonic : String)
deriving DecidableEq, Repr

/-- An empty accumulator (R123, R131). -/
def SumAcc.zero : SumAcc := ⟨0, false, false, false, 0⟩

/-- A thread after a reset that covers its core (R123, R458, R460): halted, every register at its reset value. -/
def Thread.reset : Thread :=
  { run := .halted, pc := 0, slot := none, g := [], f := [], cr := [], storeQ := [], armed := 0, pendSlate := [],
    notices := [], rfmSave := ⟨0, 0, 0, 0⟩, mcNested := none, repLeft := none, encDbg := false, encSave := 0, encKs := 0, encClass := 0, v := [], acc := [] }

/-- The decoupled machinery after a core reset: every g register homed in the AU, nothing queued (R140). -/
def Decoupled.reset : Decoupled :=
  { eu := 0, both := 0, wrote := [], log := [], sdq := [], seq := 0, held := false, unit := .fe, hint := false, misp := false, sift := 0,
    part := [] }

/-- A core after a reset that covers it (R114, R164, R171). -/
def Core.reset : Core := { tlb := [], tlbErr := [], tlbBad := [], gpm := [], dt := [], cr := [], stopped := false }

/-- A line no agent holds. -/
def LineRec.empty : LineRec :=
  { dir := .free, alloc := 0, fh := Option.none, dp := [], rp := [], st := [], evict := [], undoP := [], hold := [], gotGo := [],
    gotDat := [], txn := Option.none, queue := [], out := [], data := Option.none, poison := false, pd := false, parity := false,
    dom := 0, kslot := 0 }

/-- Memory with nothing written. -/
def Mem.reset : Mem :=
  { dev := [], devPoison := [], devKey := [], ls := [], lsPoison := [], held := [], wq := [] }

/-- No wrap since power came. -/
def WrapSt.reset : WrapSt :=
  { cause := 0, slate := 0, gpfLeft := [], late := 0, done := false, times := [], ignored := false, stuck := false,
    held := [], thermOut := false, missing := false }

/-- A take domain with no cut in progress and an empty reel. -/
def TakeDom.reset : TakeDom :=
  { step := .idle, acks := [], l2Left := [], l3Left := [], did := [], portsLeft := [], needSeq := 0, pkgLeft := [], purgeL2 := [],
    purgeL3 := [], rollRun := false, blocksOut := [], reel := [], seqNext := 0, openUndo := false, anchor := none,
    segIn := false, overflow := [], tickets := [] }

/-- The slate's state before the continuity processor sets it (R269, R283). -/
def SlateSt.reset : SlateSt :=
  { milli := 0, xtal := false, xtalRun := true, xtalPos := 0, slew := 0, phase := 0, entry := 0, since := 0,
    fast := false, srcUnc := 0, rest := 0, good := 0, ptOk := [], ptSince := [], tref := true, rootId := none, epoch := 0, wrapEp := 0,
    settled := [], tsymOut := [], tsymIn := [], tsymAt := [], copies := [], ptOut := [], ptIn := [], ptAt := [], clfSeq := 0, clfOut := none,
    clfIn := none, clrSeq := 0, clrOut := none, clrIn := none }

/-- A memory port that has not been enabled. -/
def PortSt.reset : PortSt :=
  { phase := .off, dev := none, reads := [], waits := [], owner := 0, burst := none, granted := [], overload := false }

/-- A link that has not trained. -/
def LinkSt.reset : LinkSt :=
  { checked := false, adopted := false, cEnd := none, cDelay := [], good := none, rewound := false, seqNext := 0, out := [], flush := false, width := 0 }

/-- No group has formed. -/
def GroupSt.reset : GroupSt := { notices := [], counts := [], barred := [], feat := false, bound := [] }

/-- A PCIe port that has not trained. -/
def GpSt.reset : GpSt := { training := false, width := 0, reads := [], aspm := 0 }

/-- The mirror port's function after a reset. -/
def MirSt.reset : MirSt := { bar0 := 0, bar2 := 0, bar4 := 0, logA := 26, logB := 26, commit := [], ids := 0 }

/-- A function with nothing fetched. -/
def VrfSt.reset : VrfSt := { jobs := [], next := none, cues := 0 }

/-- The secure world's engines with nothing loaded. -/
def SecSt.reset : SecSt := { ledger := [], sealOff := false, meas := [], stepping := [], thermal := [] }

/-- The gaffer with no request. -/
def GafSt.reset : GafSt :=
  { req := [], sust := 0, hist := [], calm := 0, freq := [], held := [], deep := none, since := 0 }

/-- A start that no PWRGOOD rise has begun. -/
def BootSt.reset : BootSt :=
  { input := none, sheet := none, images := [], slots := [], clusters := [], resets := [], rolls := [], leadC := [],
    warm := false, minVer := 0 }

/-- The always-on well of a new part. -/
def AonSt.reset : AonSt :=
  { array := [], wearRem := [], wearDay := [], hist := [], cycles := [], calPos := 0, trimAcc := 0, calDisc := false,
    discAt := 0, up := true, woke := none, wakeDue := false }

/-- Inputs with nothing asserted. -/
def PinSt.reset : PinSt := { pwrgood := false, rails := [], chat := [], stuck := [], low := [] }

/-- The machine right after a cold reset (R14, R458). -/
def State.reset : State :=
  { pending := [], threads := [], cores := [], dec := [], hints := [], caches := [], miss := [], victims := [], wlist := [], io := [], lines := [], msgs := [], mem := Mem.reset, views := [],
    staged := [], accepted := 0, undoOut := [], swbOut := [], nextId := 0, doms := [], owners := [], mcPend := [], latent := [], wayErr := [], reclaims := [], sparing := [], gated := [], power := .boot, wrap := WrapSt.reset, now := 0, gpos := 0, slate := 0, sl := SlateSt.reset, ports := [], links := [], group := GroupSt.reset, gp := [], mir := MirSt.reset, answer := none, vrfs := [], turns := [], sec := SecSt.reset, gaf := GafSt.reset, boot := BootSt.reset, aon := AonSt.reset, pins := PinSt.reset, keyIds := [], freeCtr := 0 }

end Sys2Proof.Machine
end

