-- ==== Sys2Proof/Machine/Ops.lean ====
section
/-!
DEFINITION. The named operations over registers: I/O registers and their fields, threads and cores, general registers,
control registers, free values, machine-check banks.
-/
namespace Sys2Proof.Machine

/-- The outcome of a command. -/
abbrev Res := Host.Outcome State Fault Refusal

/-- The register at an I/O address, as stored (R12). -/
def State.rdw (s : State) (a : Nat) : Word := SMap.get (ioReset a) s.io a

/-- Store the register at an I/O address. -/
def State.wrw (s : State) (a : Nat) (v : Word) : State := { s with io := SMap.put s.io a v }

/-- A field of a register. -/
def State.rd (s : State) (f : FRef) : Nat := fget (s.rdw f.addr) f.lo f.w

/-- Store a field of a register. -/
def State.wr (s : State) (f : FRef) (v : Nat) : State := s.wrw f.addr (fset (s.rdw f.addr) f.lo f.w v)

/-- Store a field and nothing where the condition fails. -/
def State.wrIf (s : State) (c : Bool) (f : FRef) (v : Nat) : State := if c then s.wr f v else s

/-- Add to a counter field that wraps. -/
def State.inc (s : State) (f : FRef) (n : Nat) : State := s.wr f (s.rd f + n)

/-- Add to a counter field that saturates. -/
def State.incSat (s : State) (f : FRef) (n : Nat) : State := s.wr f (Nat.min (s.rd f + n) (2 ^ f.w - 1))

/-- A one-bit field as a Bool. -/
def State.flag (s : State) (f : FRef) : Bool := s.rd f == 1

/-- The C-die of a thread (R454). -/
def dieOf (t : Tid) : Nat := t.val / 36
/-- The logical core of a thread on its die (R454). -/
def coreOf (t : Tid) : Nat := t.val % 36 / 2
/-- The number of a thread's core among all cores: 18d + l. -/
def coreKey (t : Tid) : Nat := t.val / 2
/-- The thread within its core. -/
def thOf (t : Tid) : Nat := t.val % 2
/-- The index of thread th of logical core l of die d (R454). -/
def tidOf (d l th : Nat) : Nat := 36 * d + 2 * l + th

/-- The GTID of a thread (R18, R30): P is GPOS, G is FAB_ID.G. -/
def State.gtid (s : State) (t : Nat) : Nat :=
  2 ^ 14 * s.rd F.FAB_ID_G + 2 ^ 10 * s.gpos + t / 36 * 2 ^ 6 + t % 36 / 8 * 8 + t % 36 % 8 / 2 * 2 + t % 2

/-- The thread of a GTID by its fields D, K, C and T; none where they name nothing (R19). -/
def tidOfGtid (g : Nat) : Option Nat :=
  let d := g / 64 % 16; let k := g / 8 % 8; let c := g / 2 % 4; let th := g % 2
  if d < 12 && 4 * k + c < 18 && k < 5 then some (tidOf d (4 * k + c) th) else none

/-- A thread by number. -/
def State.thrN (s : State) (t : Nat) : Thread := SMap.get Thread.reset s.threads t
/-- A thread. -/
def State.thr (s : State) (t : Tid) : Thread := s.thrN t.val
/-- Store a thread by number. -/
def State.setThrN (s : State) (t : Nat) (x : Thread) : State := { s with threads := SMap.put s.threads t x }
/-- Store a thread. -/
def State.setThr (s : State) (t : Tid) (x : Thread) : State := s.setThrN t.val x
/-- A core by its number 18d + l. -/
def State.core (s : State) (c : Nat) : Core := SMap.get Core.reset s.cores c
/-- Store a core. -/
def State.setCore (s : State) (c : Nat) (x : Core) : State := { s with cores := SMap.put s.cores c x }
/-- The record of a line. -/
def State.line (s : State) (l : Nat) : LineRec := SMap.get LineRec.empty s.lines l
/-- Store the record of a line. -/
def State.setLine (s : State) (l : Nat) (r : LineRec) : State := { s with lines := SMap.put s.lines l r }
/-- What the take controller holds for a domain. -/
def State.dom (s : State) (d : Nat) : TakeDom := SMap.get TakeDom.reset s.doms d
/-- Store what the take controller holds for a domain. -/
def State.setDom (s : State) (d : Nat) (x : TakeDom) : State := { s with doms := SMap.put s.doms d x }
/-- The take view of an agent in a domain (R211). -/
def State.view (s : State) (a d : Nat) : Word := SMap.get 0 s.views (a * 8 + d)
/-- Store a take view. -/
def State.setView (s : State) (a d : Nat) (v : Word) : State := { s with views := SMap.put s.views (a * 8 + d) v }

/-- A general register of a thread; g0 reads zero (R47). -/
def Thread.gr (x : Thread) (r : Nat) : Word := if r = 0 then 0 else SMap.get 0 x.g r
/-- Write a general register; a write to g0 is discarded (R47). -/
def Thread.setGr (x : Thread) (r : Nat) (v : Word) : Thread := if r = 0 then x else { x with g := SMap.put x.g r v }
/-- A floating-point register (R47). -/
def Thread.fr (x : Thread) (r : Nat) : Word := SMap.get 0 x.f r
/-- Write a floating-point register. -/
def Thread.setFr (x : Thread) (r : Nat) (v : Word) : Thread := { x with f := SMap.put x.f r v }
/-- A control register of thread scope, as stored. -/
def Thread.c (x : Thread) (n : Nat) : Word := SMap.get (crReset n) x.cr n
/-- Store a control register of thread scope. -/
def Thread.setC (x : Thread) (n : Nat) (v : Word) : Thread := { x with cr := SMap.put x.cr n v }
/-- A control register of core scope, as stored. -/
def Core.c (x : Core) (n : Nat) : Word := SMap.get (crReset n) x.cr n
/-- Store a control register of core scope. -/
def Core.setC (x : Core) (n : Nat) (v : Word) : Core := { x with cr := SMap.put x.cr n v }

/-- The current level of a thread: STATUS.PL (R49). -/
def Thread.pl (x : Thread) : Nat := fget (x.c 0) 0 2
/-- Whether a thread is in enclave mode: STATUS.ENC (R49). -/
def Thread.enc (x : Thread) : Bool := bit (x.c 0) 2
/-- STATUS with SECURE following PL and ENC (R49). -/
def statusFix (w : Word) : Word := setBit w 3 (fget w 0 2 == 3 || bit w 2)
/-- The base of the exception set of level x (R55). -/
def setBase (x : Nat) : Nat := 0x10 + (x - 1) * 0x20

/-- A general register of a thread of the state. -/
def State.g (s : State) (t : Tid) (r : Rn) : Word := (s.thr t).gr r.val
/-- Write a general register of a thread of the state. -/
def State.setG (s : State) (t : Tid) (r : Rn) (v : Word) : State := s.setThr t ((s.thr t).setGr r.val v)
/-- A floating-point register of a thread of the state. -/
def State.f (s : State) (t : Tid) (r : Rn) : Word := (s.thr t).fr r.val
/-- Write a floating-point register of a thread of the state. -/
def State.setF (s : State) (t : Tid) (r : Rn) (v : Word) : State := s.setThr t ((s.thr t).setFr r.val v)

/-! The decoupled machinery of a thread. -/

/-- The decoupled machinery of a thread. -/
def State.decN (s : State) (t : Nat) : Decoupled := SMap.get Decoupled.reset s.dec t
/-- The decoupled machinery of a thread. -/
def State.decOf (s : State) (t : Tid) : Decoupled := s.decN t.val
/-- Store the decoupled machinery of a thread. -/
def State.setDec (s : State) (t : Tid) (x : Decoupled) : State := { s with dec := SMap.put s.dec t.val x }

/-- Every instruction before has completed and no later one has an effect: the units and the queues between them are empty
(R146). -/
def State.discard (s : State) (t : Tid) : State :=
  let x := s.decOf t
  s.setDec t { x with log := [], sdq := x.sdq.map fun _ => none, held := false, part := [] }

/-- A logical core is reset: the homes, queues and hints of its threads, and the L1 caches of its physical core (R140, R143,
R458). -/
def State.coreForget (s : State) (d l : Nat) : State :=
  let p := 20 * d + s.rd (F.CORE_MAPl_PHYS d l)
  { s with
    dec := SMap.del (SMap.del s.dec (tidOf d l 0)) (tidOf d l 1), hints := SMap.del s.hints (18 * d + l),
    caches := SMap.del (SMap.del s.caches p) (240 + p), miss := SMap.del (SMap.del s.miss p) (240 + p) }

/-- The next free value's number, used up (DESIGN CHOICE, log 3). -/
def State.tick (s : State) : State := { s with freeCtr := s.freeCtr + 1 }

/-- Whether a C-die's PKG_DIEd.STATE is RUNNING (R325). -/
def State.dieRunning (s : State) (d : Nat) : Bool := s.rd (F.PKG_DIEd_STATE d) == 0

/-- The physical core of a logical core (R27, R436). -/
def State.phys (s : State) (d l : Nat) : Nat := s.rd (F.CORE_MAPl_PHYS d l)
/-- Whether a logical core is populated (R27, R436). -/
def State.populated (s : State) (d l : Nat) : Bool := s.flag (F.CORE_MAPl_POP d l)

/-- The cluster of a thread among all: 5d + physical cluster. -/
def State.clusterOf (s : State) (t : Nat) : Nat := t / 36 * 5 + s.phys (t / 36) (t % 36 / 2) / 4

/-- Severities of R433. -/
inductive Sev where
  | corrected
  | deferred
  | recoverable
  | fatal
deriving DecidableEq, Repr

/-- The code of a severity in MCb_STATUS.SEV. -/
def Sev.code : Sev → Nat
  | .corrected => 0
  | .deferred => 1
  | .recoverable => 2
  | .fatal => 3

/-- An error for a machine-check bank (R415, R433). -/
structure ErrRec where
  sev    : Sev
  struct : Nat
  type   : Nat
  cause  : Nat
  addr   : Option Nat
  pkg    : Bool
  tid    : Option Nat
  inc    : Nat
  row    : Nat
  way    : Nat
deriving DecidableEq, Repr

/-- An error with no address, thread or place. -/
def ErrRec.plain (sev : Sev) (struct type : Nat) : ErrRec :=
  { sev := sev, struct := struct, type := type, cause := 0, addr := none, pkg := false, tid := none, inc := 0, row := 0,
    way := 0 }

/-- MCb_STATUS of a bank filled by an error, with the CECOUNT given and OVER as given. -/
def ErrRec.status (e : ErrRec) (ce : Nat) (ov : Bool) : Word :=
  BitVec.ofNat 64 (2 ^ 63 + 2 ^ 62 * b2n ov + 2 ^ 60 * e.sev.code + 2 ^ 59 * b2n e.addr.isSome + 2 ^ 58 * b2n e.pkg
    + 2 ^ 32 * (ce % 65536) + 2 ^ 16 * (e.struct % 256) + e.type % 256 * 2 ^ 8 + e.cause % 256)

/-- Fill a bank with an error (R415). -/
def State.fillBank (s : State) (b : Nat) (e : ErrRec) (ce : Nat) (ov : Bool) : State :=
  let s := s.wrw (A.MCb_STATUS b) (e.status ce ov)
  let s := s.wr (F.MCb_ADDR_ADDR b) (e.addr.getD 0)
  let misc := 2 ^ 48 * (e.row % 65536) + 2 ^ 40 * (e.way % 256) + 2 ^ 24 * (e.inc % 16)
    + (match e.tid with | some t => 2 ^ 23 + s.gtid t | none => 0)
  let s := s.wrw (A.MCb_MISC b) (BitVec.ofNat 64 misc)
  s.wrw (A.MCb_SLATE b) s.slate

/-- A bank takes a new error (R415), and the dailies count it if corrected (R483). The signals that follow are the callers'. -/
def State.logErr (s : State) (b : Nat) (e : ErrRec) : State :=
  let ce0 := s.rd (F.MCb_STATUS_CECOUNT b)
  let ce := if e.sev = .corrected then Nat.min (ce0 + 1) 65535 else ce0
  let s := if e.sev = .corrected then s.incSat (F.DLY_CEs_COUNT (e.struct - 1)) 1 else s
  if s.flag (F.MCb_STATUS_VAL b) then
    if e.sev = .corrected then (s.wr (F.MCb_STATUS_CECOUNT b) ce).wr (F.MCb_STATUS_OVER b) 1
    else if s.rd (F.MCb_STATUS_SEV b) < e.sev.code then s.fillBank b e ce true
    else s.wr (F.MCb_STATUS_OVER b) 1
  else s.fillBank b e ce false

/-- Whether a thread can take an asynchronous machine check (R418): populated, not halted, its die RUNNING and its core
issuing. -/
def State.mcAble (s : State) (t : Nat) : Bool :=
  s.dieRunning (t / 36) && s.populated (t / 36) (t % 36 / 2) && !(s.core (t / 2)).stopped && (s.thrN t).run != .halted

/-- The thread of a GTID of MC_ROUTE, if it can take an asynchronous machine check (R418). -/
def State.mcNamed (s : State) (g : Nat) : Option Nat :=
  match tidOfGtid (g % 1024) with
  | some t => if s.mcAble t then some t else none
  | none => none

/-- Thread 0 of the lowest-numbered populated logical core of the lowest-numbered RUNNING die (R418). -/
def State.mcFallback (s : State) : Option Nat :=
  match (List.range 12).find? s.dieRunning with
  | some d => match (List.range 18).find? (s.populated d) with
    | some l => if s.mcAble (tidOf d l 0) then some (tidOf d l 0) else none
    | none => none
  | none => none

/-- Where an asynchronous machine check goes (R418), and whether that is the rerouting of its last resort. -/
def State.mcRoute (s : State) : Option (Nat × Bool) :=
  match s.mcNamed (s.rd F.MC_ROUTE_PRIMARY) with
  | some t => some (t, false)
  | none => match s.mcNamed (s.rd F.MC_ROUTE_SECONDARY) with
    | some t => some (t, false)
    | none => s.mcFallback.map fun t => (t, true)

/-- An asynchronous machine check waits for its thread (R418): PENDOVER where that thread's handler is active,
MC_GSTAT.PENDING where no thread can take it. -/
def State.mcQueue (s : State) (code : Nat) (v : Word) : State :=
  let s := if s.mcPend.contains (code, v) then s else { s with mcPend := s.mcPend ++ [(code, v)] }
  match s.mcRoute with
  | some (t, _) =>
    let x := s.thrN t
    if bit (x.c 0x070) 0 then s.setThrN t (x.setC 0x070 (setBit (x.c 0x070) 1 true)) else s
  | none => s.wr F.MC_GSTAT_PENDING 1

/-- Log a recoverable error that no retiring instruction carries, and queue its machine check (R418): code 0x90 with the
bank number. -/
def State.logAsync (s : State) (b : Nat) (e : ErrRec) : State :=
  (s.logErr b { e with sev := .recoverable, cause := 0x90 }).mcQueue 0x90 (BitVec.ofNat 64 b)

/-- Log such an error whose TYPE the spec does not state: a free code (DESIGN CHOICE, log 3). -/
def State.logAsyncFree (s : State) (b struct : Nat) : State :=
  s.tick.logAsync b (ErrRec.plain .recoverable struct (1 + Config.freeNat s.freeCtr % 13))

/-! Links. -/

/-- A link by number: D-links 0 to 23, P-links 24 to 27. -/
def State.lk (s : State) (l : Nat) : LinkSt := SMap.get LinkSt.reset s.links l
/-- Store a link. -/
def State.setLk (s : State) (l : Nat) (x : LinkSt) : State := { s with links := SMap.put s.links l x }

/-- A packet goes out on a link and into its replay buffer, unless that is full (R318, R320). -/
def State.linkPush (s : State) (l : Nat) : State :=
  let x := s.lk l
  if 1024 ≤ x.out.length then s
  else s.setLk l { x with out := x.out ++ [⟨x.seqNext, 0⟩], seqNext := (x.seqNext + 1) % 4096 }

/-- The D-link that carries a line of a C-die (R197, R316). -/
def State.dlinkOf (s : State) (d line : Nat) : Nat :=
  match SMap.get 0 s.group.bound d with
  | 1 => 2 * d
  | 2 => 2 * d + 1
  | _ => 2 * d + b2n (Config.dlinkHash line)

/-- The P-link on which a message to a package leaves (R331). -/
def State.plinkTo (s : State) (p : Nat) : Nat :=
  let x := s.gpos ^^^ p
  if x % 2 = 1 then 0 else if x / 2 % 2 = 1 then 1 else if x / 4 % 2 = 1 then 2 else 3

/-- The link that carries a message about a line to an agent. -/
def State.linkOf (s : State) (a : Agent) (line : Nat) : Option Nat := match a with
  | .die d => some (s.dlinkOf d.val line)
  | .pkg p => some (24 + s.plinkTo p.val)
  | .hub => none

/-- A message's packet goes out, unless its link is flushed (R322). -/
def State.packetOut (s : State) (a : Agent) (line : Nat) : State := match s.linkOf a line with
  | some l => if (s.lk l).flush then s else s.linkPush l
  | none => s

/-- A lane of a link is counted in the dailies (R482); the counters saturate (R479). -/
def State.laneCount (s : State) (j : Nat) : State := s.incSat ⟨A.DLY_LANEq (j / 4), 16 * (j % 4), 16⟩ 1

/-- Lanes lo to hi - 1 of a link are counted. -/
def State.lanesCount (s : State) (base lo hi : Nat) : State :=
  (List.range (hi - lo)).foldl (fun s i => s.laneCount (base + lo + i)) s

end Sys2Proof.Machine
end

