-- ==== Sys2Proof/Machine/Mem.lean ====
section
/-!
DEFINITION. Physical memory: the region table (R174), the address decode (R187, R192, R295, R298, R335, R344), the home
write queues (R299 to R302), held writes (R220), the devices, the local stores, and the coherent value of a line.
-/
namespace Sys2Proof.Machine

/-- A region of the physical region table, or the local store judged as one (R173, R174). -/
structure Region where
  index  : Nat
  base   : Nat
  last   : Nat
  mtype  : Nat
  domain : Nat
  iset   : Nat
  mono   : Bool
  vmid   : Nat
  reel   : Bool
  isLs   : Bool
deriving DecidableEq, Repr

/-- MTYPE codes of R174. -/
def mtVolatile : Nat := 0
def mtPersistent : Nat := 1
def mtDevice : Nat := 2
def mtFabric : Nat := 3

/-- Region n as its registers stand (R174). -/
def State.region (s : State) (n : Nat) : Region :=
  { index := n, base := 2 ^ 21 * s.rd (F.PRT_BASEn_BASE n), last := 2 ^ 21 * s.rd (F.PRT_LIMITn_LIMIT n) + 2 ^ 21 - 1,
    mtype := s.rd (F.PRT_ATTRn_MTYPE n), domain := s.rd (F.PRT_ATTRn_DOMAIN n), iset := s.rd (F.PRT_ATTRn_ISET n),
    mono := s.flag (F.PRT_ATTRn_MONO n), vmid := s.rd (F.PRT_MONOn_VMID n),
    reel := s.flag (F.PRT_ATTRn_REEL n) && s.rd (F.PRT_ATTRn_MTYPE n) == mtPersistent, isLs := false }

/-- Whether region n is valid. -/
def State.regionV (s : State) (n : Nat) : Bool := s.flag (F.PRT_ATTRn_V n)

/-- The valid regions. -/
def State.regions (s : State) : List Region :=
  (List.range 64).filterMap fun n => if s.regionV n then some (s.region n) else none

/-- The first byte of the package's local stores (R187). -/
def State.lsBase (s : State) : Nat := 0xFF0000000000 + 2 ^ 48 * s.gpos
/-- The bytes of one local store. -/
def lsSize : Nat := 0x400000

/-- The C-die and offset of a local-store address (R187). -/
def State.lsOf (s : State) (pa : Nat) : Option (Nat × Nat) :=
  if s.lsBase ≤ pa && pa < 12 * lsSize + s.lsBase then
    some ((pa - s.lsBase) / lsSize, (pa - s.lsBase) % lsSize)
  else none

/-- The valid region that holds a physical address (R174). -/
def State.regionOf (s : State) (pa : Nat) : Option Region :=
  s.regions.find? fun r => r.base ≤ pa && pa ≤ r.last

/-- Whether an address is a line's home in this package (R192): bits [51:48] name it and [47:45] are zero. -/
def State.homedHere (s : State) (pa : Nat) : Bool := pa / 2 ^ 48 % 16 == s.gpos && pa / 2 ^ 45 % 8 == 0
/-- The package bits [51:48] name (R192). -/
def homeP (pa : Nat) : Nat := pa / 2 ^ 48 % 16

/-- The take domain whose persistent memory holds an address; none for a reel region, which names no domain (R174, R207). -/
def State.domOf (s : State) (pa : Nat) : Option Nat :=
  match s.regionOf pa with
  | some r => if r.mtype == mtPersistent && !r.reel then some r.domain else none
  | none => none

/-- Where an access goes (R187, R192, R298, R335, R344). -/
inductive Route where
  | local (d ofs : Nat)
  | port (n dev : Nat)
  | pkg (p : Nat)
  | gport (r dev : Nat)
  | undec (bank : Nat)
  | none
deriving DecidableEq, Repr

/-- log2 of the granule of an interleave set (R308). -/
def granLg (g : Nat) : Nat := if g = 0 then 8 else if g = 1 then 12 else 21

/-- The hash of R295 over address bits 12 to 40 that form no part of sel. -/
def isHash (pa lg ways : Nat) : Nat :=
  (List.range 29).foldl (fun h i =>
    let j := i + 12
    if j < lg || lg + ways ≤ j then h ^^^ (pa / 2 ^ j % 2 * 2 ^ (i % 4)) else h) 0

/-- The port and device offset an interleave set decodes an address to, given its fields (R295). -/
def isDecode (base size ways gran order devoff : Nat) (port : Nat → Nat) (pa : Nat) : Nat × Nat :=
  let lg := granLg gran
  let w := 2 ^ ways
  let off := pa - base
  if order = 2 then
    let part := size / w
    (port (off / part), devoff + off % part)
  else
    let sel := off / 2 ^ lg % w
    let way := if order = 1 then sel ^^^ (isHash pa lg ways % w) else sel
    (port way, devoff + (off / 2 ^ (lg + ways)) * 2 ^ lg + off % 2 ^ lg)

/-- The port of way k of set i (R308). -/
def State.isPort (s : State) (i k : Nat) : Nat := (s.rdw (A.IS_PORTSs i)).toNat / 2 ^ (4 * k) % 16
/-- The physical base of set i. -/
def State.isBase (s : State) (i : Nat) : Nat := 2 ^ 21 * s.rd (F.IS_BASEs_BASE i)
/-- The size of set i. -/
def State.isSize (s : State) (i : Nat) : Nat := 2 ^ 21 * s.rd (F.IS_SIZEs_SIZE i)
/-- The device base of port n. -/
def State.devBase (s : State) (n : Nat) : Nat := 2 ^ 28 * s.rd (F.MPn_DEVBASE_BASE n)
/-- Whether port n takes requests: its link is up and CXL.mem enabled (R292, R307). -/
def State.portReady (s : State) (n : Nat) : Bool := s.flag (F.MPn_STAT_READY n) && s.flag (F.MPn_STAT_UP n)

/-- The route through interleave set i (R295, R298, R307). -/
def State.viaSet (s : State) (i pa : Nat) : Route :=
  if s.flag (F.IS_CTLs_V i) && s.isBase i ≤ pa && pa < s.isBase i + s.isSize i then
    let p := isDecode (s.isBase i) (s.isSize i) (s.rd (F.IS_CTLs_WAYS i)) (s.rd (F.IS_CTLs_GRAN i))
      (s.rd (F.IS_CTLs_ORDER i)) (2 ^ 21 * s.rd (F.IS_CTLs_DEVOFF i)) (s.isPort i) pa
    if s.portReady p.1 then .port p.1 (s.devBase p.1 + p.2) else .undec (312 + p.1)
  else .undec 353

/-- The valid device window that holds a whole region (R344, rule 1). -/
def State.gdwOf (s : State) (r : Region) : Option Nat :=
  (List.range 8).find? fun w => s.flag (F.GDW_TGTw_V w) && 2 ^ 21 * s.rd (F.GDW_BASEw_BASE w) ≤ r.base
    && r.last < 2 ^ 21 * s.rd (F.GDW_BASEw_BASE w) + 2 ^ 21 * s.rd (F.GDW_SIZEw_SIZE w)

/-- Whether general port r has an UP link (R345). -/
def State.gpUp (s : State) (r : Nat) : Bool := s.flag (F.GP_STATr_UP r)

/-- Whether a package is a current member of the group (R332). -/
def State.member (s : State) (p : Nat) : Bool := s.rd F.GRP_STAT_MEMBER / 2 ^ p % 2 == 1

/-- Where an access to a physical address goes. -/
def State.route (s : State) (pa : Nat) : Route :=
  match s.lsOf pa with
  | some (d, o) => .local d o
  | .none => match s.regionOf pa with
    | .none => .none
    | some r =>
      if r.mtype == mtFabric then
        let w := r.iset
        let b := 2 ^ 21 * s.rd (F.FW_BASEw_BASE w)
        if s.flag F.FAB_ID_ASSIGNED && s.flag (F.FW_TGTw_V w) && b ≤ pa && pa < b + 2 ^ 21 * s.rd (F.FW_SIZEw_SIZE w) then
          let p := s.rd (F.FW_TGTw_PORT w)
          if s.gpUp p then .gport p (s.rd (F.FW_DEVBASEw_BASE w) + (pa - b)) else .undec (337 + p)
        else .undec 353
      else if r.mtype == mtDevice then
        match s.gdwOf r with
        | some w =>
          let p := s.rd (F.GDW_TGTw_PORT w)
          if s.gpUp p then
            .gport p (s.rd (F.GDW_DEVBASEw_BASE w) + (pa - 2 ^ 21 * s.rd (F.GDW_BASEw_BASE w)))
          else .undec (337 + p)
        | .none =>
          if homeP pa != s.gpos && pa / 2 ^ 45 % 8 == 0 then
            if s.member (homeP pa) then .pkg (homeP pa) else .undec 353
          else s.viaSet r.iset pa
      else if s.homedHere pa then s.viaSet r.iset pa
      else if s.member (homeP pa) then .pkg (homeP pa) else .undec 353

/-- Whether an access is cached and tracked by the directory (R186). -/
def State.cacheable (s : State) (pa : Nat) : Bool :=
  match s.lsOf pa with
  | some _ => false
  | none => match s.regionOf pa with
    | some r => r.mtype == mtVolatile || r.mtype == mtPersistent
    | none => false

/-- Count an undecodable access and log it (R298). -/
def State.undecodable (s : State) (bank pa : Nat) : State :=
  (s.inc F.IS_UNDEC_COUNT 1).logAsync bank { ErrRec.plain .recoverable 17 10 with addr := some pa }

/-! Device memory. -/

/-- The byte that a device byte nothing has written reads as (DESIGN CHOICE, log 2). -/
def devFill : Byte := 0
/-- The number of a device byte: port and device address. -/
def devNo (port dev : Nat) : Nat := 2 ^ 52 * port + dev

/-- The byte of a device. -/
def Mem.devByte (m : Mem) (a : Nat) : Byte := SMap.get devFill m.dev a

/-- n bytes of a device from number a up. -/
def Mem.devBytes (m : Mem) : Nat → Nat → List Byte
  | 0, _ => []
  | n + 1, a => m.devByte a :: Mem.devBytes m n (a + 1)

/-- Store bytes in a device from number a up. -/
def Mem.devPut (m : Mem) : Nat → List Byte → Mem
  | _, [] => m
  | a, b :: bs => Mem.devPut { m with dev := SMap.setByte devFill m.dev a b } (a + 1) bs

/-- The line of a device that starts at number a. -/
def Mem.devLine (m : Mem) (a : Nat) : LineData := BitVec.ofNat 512 (ofBytes (m.devBytes 64 a))

/-- Whether a device line holds poison. -/
def Mem.devPois (m : Mem) (a : Nat) : Bool := m.devPoison.contains (a / 64)

/-- Mark or clear the poison of a device line. -/
def Mem.setDevPois (m : Mem) (a : Nat) (p : Bool) : Mem :=
  let rest := m.devPoison.filter fun x => x != a / 64
  { m with devPoison := if p then a / 64 :: rest else rest }

/-- The bytes of data in the mask, written to a device line. -/
def Mem.devWrite (m : Mem) (a : Nat) (mask : BitVec 64) (d : LineData) : Mem :=
  (List.range 64).foldl (fun m i => if mask.getLsbD i then m.devPut (a + i) [lineByte d i] else m) m

/-- A write completes at a device: data, poison and the key it is encrypted under (R306, R307). A partial write leaves the
line's poison as it is (R421). -/
def Mem.devComplete (m : Mem) (a : Nat) (e : WqEnt) : Mem :=
  let m := m.devWrite a e.mask e.data
  let full := e.mask == BitVec.allOnes 64
  let m := if full then m.setDevPois a e.poison else if e.poison then m.setDevPois a true else m
  { m with devKey := if e.keyId = 0 then SMap.del m.devKey (a / 64) else SMap.put m.devKey (a / 64) e.keyId }

/-! Home write queues (R299 to R302). -/

/-- The write queue of a port, oldest first. -/
def State.wq (s : State) (n : Nat) : List WqEnt := SMap.get [] s.mem.wq n

/-- The number of ordinary and of undo entries of a queue (R299). -/
def wqCount (q : List WqEnt) (undo : Bool) : Nat := (q.filter fun e => e.undo == undo).length

/-- The entries of a queue for a kind of write (R299). -/
def wqCap (undo : Bool) : Nat := if undo then 64 else 448

/-- The entries of the queue that are taken; the writes beyond them wait in their home-agent entries (R299). -/
def wqOcc (q : List WqEnt) : Nat := Nat.min (wqCount q false) (wqCap false) + Nat.min (wqCount q true) (wqCap true)

/-- Store the write queue of a port, with MPn_WQ following it. -/
def State.setWq (s : State) (n : Nat) (q : List WqEnt) : State :=
  let s := { s with mem := { s.mem with wq := SMap.put s.mem.wq n q } }
  let s := s.wr (F.MPn_WQ_OCC n) (wqOcc q)
  if s.rd (F.MPn_WQ_PEAK n) < wqOcc q then s.wr (F.MPn_WQ_PEAK n) (wqOcc q) else s

/-- A write put into a queue: merged into or replacing an earlier unsent write of its line, else appended (R300). -/
def wqInsert (q : List WqEnt) (e : WqEnt) : List WqEnt :=
  if e.undo then q ++ [e]
  else if q.any fun x => x.dev == e.dev && !x.sent && !x.undo then
    q.map fun x => if x.dev == e.dev && !x.sent && !x.undo then
      (if e.mask == BitVec.allOnes 64 then { e with id := x.id }
       else { x with data := lineMerge x.data e.data e.mask, mask := x.mask ||| e.mask,
                     poison := x.poison || e.poison, keyId := e.keyId })
      else x
  else q ++ [e]

/-- The key identity that a key slot holds (R306, R389); slot 0 is plaintext. An empty slot holds the identity 1. -/
def State.keyOf (s : State) (slot : Nat) : Nat :=
  if slot = 0 then 0 else SMap.get 1 s.keyIds slot

/-- Whether accesses through a key slot work: slot 0, or a slot that holds a key (R392). -/
def State.keyOk (s : State) (slot : Nat) : Bool := slot == 0 || s.flag (F.KS_ATTRs_V slot)

/-- A write enters a port's write queue (R299, R300): whether an earlier write of its line has been sent by then is free
(DESIGN CHOICE, log 3); through an empty key slot it is discarded and logged (R392). -/
def State.portPut (s : State) (n dev : Nat) (mask : BitVec 64) (d : LineData) (poison undo : Bool) (ks : Nat) : State :=
  if !s.keyOk ks then s.logAsync (312 + n) (ErrRec.plain .recoverable 17 8) else
  let clash := !undo && (s.wq n).any fun x => x.dev == dev && !x.sent && !x.undo
  let s := if clash && Config.freeBool s.freeCtr then
      s.setWq n ((s.wq n).map fun x => if x.dev == dev then { x with sent := true } else x) else s
  let s := if clash then s.tick else s
  let s1 := s.setWq n (wqInsert (s.wq n)
    { dev := dev, mask := mask, data := d, poison := poison, keyId := s.keyOf ks, sent := false, undo := undo,
      id := s.nextId })
  { s1 with nextId := s.nextId + 1 }

/-- The value of a device line as its port gives it: the queue's writes over the device (R301), its poison, and the key
it is encrypted under. -/
def State.portLine (s : State) (n dev : Nat) : LineData × Bool × Nat :=
  let a := devNo n dev
  (s.wq n).foldl (fun x e => if e.dev == dev then
      (lineMerge x.1 e.data e.mask, if e.mask == BitVec.allOnes 64 then e.poison else x.2.1 || e.poison, e.keyId)
    else x) (s.mem.devLine a, s.mem.devPois a, SMap.get 0 s.mem.devKey (a / 64))

/-! The value of a line at its home, and the coherent value. -/

/-- What a read of a line returns: data, poison, and whether a free value was used (DESIGN CHOICE, log 3). -/
structure LineVal where
  data   : LineData
  poison : Bool
  free   : Bool
deriving DecidableEq, Repr

/-- The newest held write of a line (R202, R220). -/
def State.heldOf (s : State) (line : Nat) : Option Held := s.mem.held.reverse.find? fun h => h.line == line

/-- The line at its home as memory and held writes give it, through a key slot (R202, R301, R306). Contents read through
another key than they were written under are undefined: a free value. -/
def State.homeLine (s : State) (line ks : Nat) : LineVal :=
  match s.heldOf line with
  | some h => { data := h.data, poison := h.poison, free := false }
  | none => match s.route (line * 64) with
    | .port n dev =>
      let v := s.portLine n dev
      if !s.keyOk ks then { data := 0, poison := true, free := false }
      else if v.2.2 = s.keyOf ks then { data := v.1, poison := v.2.1, free := false }
      else { data := Config.freeLine s.freeCtr, poison := v.2.1, free := true }
    | .undec _ => { data := 0, poison := true, free := false }
    | .none => { data := 0, poison := true, free := false }
    | _ => { data := Config.freeLine s.freeCtr, poison := false, free := true }

/-- Whether some agent of the package holds the line. -/
def LineRec.held (r : LineRec) : Bool := r.dp != [] || r.st.any fun c => c.2 != .i

/-- The coherent value of a cacheable line: the newer data that caches or messages hold, else the home's (R71, R188). A
cached line reached through another key slot has undefined contents (R306). -/
def State.coherent (s : State) (line ks : Nat) : LineVal :=
  let r := s.line line
  match r.data with
  | some d =>
    if s.keyOf r.kslot = s.keyOf ks then { data := d, poison := r.poison, free := false }
    else { data := Config.freeLine s.freeCtr, poison := r.poison, free := true }
  | none => match List.find? (fun m => m.line == line) s.swbOut.reverse with
    | some m => { data := m.data, poison := m.poison, free := false }
    | none =>
      let v := s.homeLine line ks
      { v with poison := v.poison || r.poison }

end Sys2Proof.Machine
end

