-- ==== Sys2Proof/Machine/Caches.lean ====
section
/-!
DEFINITION. The caches of the C-dies (R184, R185): which lines each holds and in which way, the ways that a partition class may
allocate (R403, R404, R422), what a line that comes in displaces, and the write lists (R226). What a line's copies hold is in
State.lines; an entry here whose die no longer holds the line is of no effect.
-/
namespace Sys2Proof.Machine

/-- The L1 instruction cache of physical core p of die d, by its number in State.caches. -/
def l1iNo (d p : Nat) : Nat := 20 * d + p
/-- The L1 data cache of physical core p of die d. -/
def l1dNo (d p : Nat) : Nat := 240 + 20 * d + p
/-- The L2 of cluster 5d + k. -/
def l2No (clu : Nat) : Nat := 480 + clu
/-- The L3 of die d. -/
def l3No (d : Nat) : Nat := 540 + d
/-- The L3 slice that a line maps to. -/
def sliceOf (line : Nat) : Nat := Config.l3Slice line % 16

/-- The C-die of a cache. -/
def cacheDie (k : Nat) : Nat :=
  if k < 240 then k / 20 else if k < 480 then (k - 240) / 20 else if k < 540 then (k - 480) / 5 else k - 540

/-- The sets of a cache (R184): 64 KiB in 4 ways, 64 KiB in 8 ways, 4 MiB in 16 ways, and 2 MiB a slice in 16 ways. -/
def cacheSets (k : Nat) : Nat := if k < 240 then 256 else if k < 480 then 128 else if k < 540 then 4096 else 2048

/-- Whether two lines lie in one set of a cache, for an L3 in one of its slices. -/
def sameSet (k a b : Nat) : Bool :=
  Config.cacheSet k a % cacheSets k == Config.cacheSet k b % cacheSets k && (k < 540 || sliceOf a == sliceOf b)

/-- The state a die holds a line in (R188). -/
def LineRec.stOf (r : LineRec) (d : Nat) : LineSt := SMap.get .i r.st d

/-- Whether a die holds a valid copy of a line. -/
def State.dieHas (s : State) (d line : Nat) : Bool := (s.line line).stOf d != .i

/-- The lines of a cache, the one that came in last first. -/
def State.cache (s : State) (k : Nat) : List CacheEnt := SMap.get [] s.caches k

/-- Store the lines of a cache. -/
def State.setCache (s : State) (k : Nat) (l : List CacheEnt) : State := { s with caches := SMap.put s.caches k l }

/-- Whether a cache holds a line. -/
def State.inCache (s : State) (k line : Nat) : Bool :=
  ((s.cache k).any fun e => e.line == line) && s.dieHas (cacheDie k) line

/-- A cache drops a line. -/
def State.uncache (s : State) (line k : Nat) : State :=
  if (s.cache k).any fun e => e.line == line then s.setCache k ((s.cache k).filter fun e => e.line != line) else s

/-- The disabled ways of the L3 slice of a die that a line maps to (R422). -/
def State.l3Off (s : State) (d line : Nat) : Nat :=
  (List.range 16).foldl (fun m k =>
    let x := s.rd (F.WAYDIS_L3s_MASK d k)
    if x != 0 && sliceOf line == k then x else m) 0

/-- The ways of a line's set that a class may allocate in a cache (R404): those of PART_MASKc that have not disabled themselves
(R422). -/
def State.classWays (s : State) (k cls line : Nat) : List Nat :=
  let d := cacheDie k
  if k < 240 then List.range 4
  else if k < 480 then List.range 8
  else
    let m := if k < 540 then s.rd (F.PART_MASKc_L2 d cls) else s.rd (F.PART_MASKc_L3 d cls)
    let x := if k < 540 then s.rd (F.WAYDIS_L2k_MASK d ((k - 480) % 5)) else s.l3Off d line
    (List.range 16).filter fun w => m.testBit w && !x.testBit w

/-- The way that a line may take in a cache with nothing displaced. -/
def State.freeWay (s : State) (k cls line : Nat) : Option Nat :=
  let l := s.cache k
  let ws := s.classWays k cls line
  match ws.find? fun w => !l.any fun e => e.way == w with
  | some w => some w
  | none => ws.find? fun w => !l.any fun e => e.way == w && sameSet k e.line line

/-- A line comes into a cache: the state after, and the line that it displaces, as a free number decides (the replacement is not
architectural). A line that is there already, and one for which no way is left, changes nothing. -/
def State.allocate (s : State) (k cls line : Nat) : State × Option CacheEnt :=
  let l := s.cache k
  if l.any fun e => e.line == line then (s, none)
  else match s.freeWay k cls line with
    | some w => (s.setCache k (⟨line, w, false⟩ :: l), none)
    | none =>
      let set := l.filter fun e => sameSet k e.line line && (s.classWays k cls line).contains e.way
      match set[Config.replace k line s.freeCtr % set.length]? with
      | some v => ((s.setCache k (⟨line, v.way, false⟩ :: l.erase v)).tick, some v)
      | none => (s, none)

/-- The L1 caches of a cluster. -/
def clusterL1s (clu : Nat) : List Nat :=
  (List.range 4).flatMap fun i => [l1iNo (clu / 5) (clu % 5 * 4 + i), l1dNo (clu / 5) (clu % 5 * 4 + i)]

/-- The caches of a die but its L3. -/
def dieL12s (d : Nat) : List Nat := (List.range 5).flatMap fun k => l2No (5 * d + k) :: clusterL1s (5 * d + k)

/-- Every cache of a die drops a line. -/
def State.forget (s : State) (d line : Nat) : State :=
  let s := (dieL12s d).foldl (fun s k => s.uncache line k) s
  let s := s.uncache line (l3No d)
  match SMap.find? s.victims d with
  | some l => { s with victims := SMap.put s.victims d (l.filter fun x => x != line) }
  | none => s

/-- The cluster of a die whose L2, or an L1 above it, holds a line's newer data. -/
def State.l2Dirty (s : State) (d line : Nat) : Option Nat :=
  ((List.range 5).map fun k => 5 * d + k).find? fun c =>
    s.dieHas d line && (s.cache (l2No c)).any fun e => e.line == line && e.dirty

/-- Whether an L2 holds a line's newer data. -/
def State.l2Holds (s : State) (clu line : Nat) : Bool := s.l2Dirty (clu / 5) line == some clu

/-- A line's newer data lies in the L3 of a die. -/
def State.l2Clean (s : State) (d line : Nat) : State :=
  (List.range 5).foldl (fun s k =>
    let c := l2No (5 * d + k)
    if (s.cache c).any fun e => e.line == line && e.dirty then
      s.setCache c ((s.cache c).map fun e => if e.line == line then { e with dirty := false } else e)
    else s) s

/-! Write lists (R226). -/

/-- The write list of an L2 (0 to 59), or those of the L3 slices of a die (60 + d). -/
def State.wlOf (s : State) (u : Nat) : List (Nat × Nat × Bool) := SMap.get [] s.wlist u

/-- The structure whose list takes a line: an L2, or a slice as 60 + 16d + its number. -/
def listUnit (u line : Nat) : Nat := if u < 60 then u else 60 + 16 * (u - 60) + sliceOf line

/-- Whether the list of a line's structure has no room. -/
def State.listFull (s : State) (u line : Nat) : Bool :=
  4096 ≤ (s.wlOf u).length && (u < 60 || 4096 ≤ ((s.wlOf u).filter fun e => sliceOf e.1 == sliceOf line).length)

/-- A line takes PD = 1 in a structure: its write list takes an entry, or, where it is full, the domain and parity are marked
overflowed and TDn_OVF counts (R226). -/
def State.listWrite (s : State) (u line dom : Nat) (par : Bool) : State :=
  let l := s.wlOf u
  if l.contains (line, dom, par) then s
  else if s.listFull u line then
    let x := s.dom dom
    let key := (listUnit u line, par)
    (s.setDom dom { x with overflow := if x.overflow.contains key then x.overflow else x.overflow ++ [key] }).inc
      (F.TDn_OVF_COUNT dom) 1
  else { s with wlist := SMap.put s.wlist u (l ++ [(line, dom, par)]) }

/-- A structure's entries of a take leave its write list, and its overflow mark clears, once it has swept (R226). -/
def State.listFree (s : State) (u : Slice) (dom : Nat) (par : Bool) : State :=
  let key := match u with | .l2 c => c.val | .l3 d _ => 60 + d.val
  let mine (line : Nat) : Bool := match u with | .l2 _ => true | .l3 _ k => sliceOf line == k.val
  let no := match u with | .l2 c => c.val | .l3 d k => 60 + 16 * d.val + k.val
  let left := (s.wlOf key).filter fun e => !(mine e.1 && e.2.1 == dom && e.2.2 == par)
  let x := s.dom dom
  { s with wlist := if left == [] then SMap.del s.wlist key else SMap.put s.wlist key left }.setDom dom
    { x with overflow := x.overflow.filter fun o => o != (no, par) }

/-! Lines that come in. -/

/-- An L2 evicts a line (R185): its cores' L1s drop it, and dirty data moves into the L3, where a line of an uncut take is
listed. -/
def State.l2Evict (s : State) (clu : Nat) (v : CacheEnt) : State :=
  let s := (clusterL1s clu).foldl (fun s k => s.uncache v.line k) s
  let r := s.line v.line
  if v.dirty && r.pd && s.dieHas (clu / 5) v.line then
    s.listWrite (60 + clu / 5) v.line r.dom r.parity
  else s

/-- The L3 of a die chooses a line to evict (R185, R200): the die's other caches drop it, and its WBD or EVC is to be sent. -/
def State.l3Choose (s : State) (d line : Nat) : State :=
  let s := (dieL12s d).foldl (fun s k => s.uncache line k) s
  if s.dieHas d line then { s with victims := SMap.put s.victims d (SMap.get [] s.victims d ++ [line]) } else s

/-- A line comes into the L3 of a die. -/
def State.l3Fill (s : State) (d cls line : Nat) : State :=
  let s := match SMap.find? s.victims d with
    | some l => if l.contains line then { s with victims := SMap.put s.victims d (l.filter fun x => x != line) } else s
    | none => s
  let a := s.allocate (l3No d) cls line
  match a.2 with
  | some v => a.1.l3Choose d v.line
  | none => a.1

/-- A line comes into an L2 and its die's L3 (R184). -/
def State.l2Fill (s : State) (clu cls line : Nat) : State :=
  let a := (s.l3Fill (clu / 5) cls line).allocate (l2No clu) cls line
  match a.2 with
  | some v => a.1.l2Evict clu v
  | none => a.1

/-- A line comes into an L1 cache of a cluster, its L2 and its die's L3. -/
def State.l1Fill (s : State) (clu k cls line : Nat) : State := ((s.l2Fill clu cls line).allocate k cls line).1

/-- An L2 takes newer data of a line, which the other L2s of its die drop. -/
def State.l2Dirtied (s : State) (clu line : Nat) : State :=
  let s := if (s.cache (l2No clu)).any fun e => e.line == line then s else s.l2Fill clu 0 line
  let s := (List.range 5).foldl (fun s k =>
    if 5 * (clu / 5) + k = clu then s
    else (l2No (5 * (clu / 5) + k) :: clusterL1s (5 * (clu / 5) + k)).foldl (fun s j => s.uncache line j) s) s
  s.setCache (l2No clu) ((s.cache (l2No clu)).map fun e => if e.line == line then { e with dirty := true } else e)

/-- The entries of a die's eviction buffer in use or spoken for (R200). -/
def State.evictCount (s : State) (d : Nat) : Nat :=
  (s.lines.filter fun c => (SMap.find? c.2.evict d).isSome).length + (SMap.get [] s.victims d).length

/-- Whether the L3 of a die can take a line now: it holds it, has a way free, or can evict one (R200). -/
def State.l3Room (s : State) (d cls line : Nat) : Bool :=
  s.inCache (l3No d) line || (s.freeWay (l3No d) cls line).isSome || s.evictCount d < 64

/-- A way of an L2, or of one slice of an L3, that has disabled itself drops its lines as evictions (R422). -/
def State.wayEmpty (s : State) (k slice way : Nat) : State :=
  let out := (s.cache k).filter fun e => e.way == way && (k < 540 || sliceOf e.line == slice)
  out.foldl (fun s e =>
    let s := s.uncache e.line k
    if k < 540 then s.l2Evict (k - 480) e else s.l3Choose (cacheDie k) e.line) s

end Sys2Proof.Machine
end

