-- ==== Sys2Proof/Machine/TakeOps.lean ====
section
/-!
DEFINITION. The take controller's operations: held writes (R220), undo entries and reel blocks (R219, R239, R240), take
views (R211 to R213), cut triggers and steps (R223 to R225), spoiling (R236) and tickets (R227).
-/
namespace Sys2Proof.Machine

/-- A domain exists (R207). -/
def State.domEn (s : State) (d : Nat) : Bool := s.flag (F.TDn_CFG_EN d)
/-- The open take of a domain (R208). -/
def State.openTake (s : State) (d : Nat) : Nat := s.rd (F.TDn_TAKE_OPEN d)
/-- The last cut take of a domain (R208). -/
def State.cutTake (s : State) (d : Nat) : Nat := s.rd (F.TDn_CUT_LAST d)
/-- TDn_STAT.SPOILED (R236). -/
def State.spoiled (s : State) (d : Nat) : Bool := s.flag (F.TDn_STAT_SPOILED d)
/-- TDn_STAT.ROLLING (R237). -/
def State.rolling (s : State) (d : Nat) : Bool := s.flag (F.TDn_STAT_ROLLING d)

/-! Held writes. -/

/-- Store the held writes, with TK_HELD.COUNT following them. -/
def State.setHeld (s : State) (h : List Held) : State :=
  { s with mem := { s.mem with held := h } }.wr F.TK_HELD_COUNT h.length

/-- A line-sized write leaves for memory: into the port's queue, or counted where it is undecodable (R298). -/
def State.toMemory (s : State) (line : Nat) (mask : BitVec 64) (d : LineData) (poison undo : Bool) (ks : Nat) : State :=
  match s.route (line * 64) with
  | .port n dev => s.portPut n dev mask d poison undo ks
  | .undec b => s.undecodable b (line * 64)
  | _ => s

/-- Every undo entry that is accepted and not yet persistent, with its number (R219). -/
def State.unpersisted (s : State) : List Nat :=
  s.staged.map (·.seq) ++ (List.range 8).flatMap fun d => (s.dom d).blocksOut.flatMap (·.nums)

/-- PERSISTED as R219 defines it. -/
def State.persisted (s : State) : Nat := s.unpersisted.foldl Nat.min s.accepted

/-- Release the held writes that PERSISTED covers to their ports (R220), oldest first. -/
def State.releaseHeld (s : State) : State :=
  let p := s.persisted
  let s := s.wr F.TK_UNDO_PERSISTED p
  s.mem.held.foldl (fun s h => if h.mark ≤ p then
      let s := s.setHeld (s.mem.held.filter fun x => x.id != h.id)
      s.toMemory h.line (BitVec.allOnes 64) h.data h.poison false h.kslot
    else s) s

/-- A write arrives at home to be held until PERSISTED reaches ACCEPTED as it stands now (R220); it supersedes the held data of
its line (R202). -/
def State.hold (s : State) (line : Nat) (d : LineData) (poison : Bool) (ks dom : Nat) : State :=
  let id := match s.heldOf line with | some h => h.id | none => s.nextId
  let rest := s.mem.held.filter fun h => h.line != line
  let s := s.setHeld (rest ++ [{
    line := line, data := d, poison := poison, kslot := ks, dom := dom,
    mark := s.accepted, id := id }])
  { s with nextId := s.nextId + 1 }.releaseHeld

/-- A write of a whole line to memory: held while it belongs to an uncut take (R220), else sent to its port. -/
def State.writeLine (s : State) (line : Nat) (d : LineData) (poison pd : Bool) (ks : Nat) : State :=
  if pd then s.hold line d poison ks ((s.domOf (line * 64)).getD 0)
  else s.toMemory line (BitVec.allOnes 64) d poison false ks

/-! The reel. -/

/-- The size of segment 0 (R209). -/
def State.seg0Size (s : State) (d : Nat) : Nat := 2 ^ 30 * s.rd (F.TDn_SEG0_GIB d)
/-- The size of segment 1 (R209). -/
def State.seg1Size (s : State) (d : Nat) : Nat := 2 ^ 30 * s.rd (F.TDn_SEG1_GIB d)
/-- The size of the reel in use (R209, R210). -/
def State.reelSize (s : State) (d : Nat) : Nat := s.seg0Size d + (if (s.dom d).segIn then s.seg1Size d else 0)
/-- The physical address of a reel offset. -/
def State.reelAddr (s : State) (d ofs : Nat) : Nat :=
  if ofs < s.seg0Size d then 2 ^ 30 * s.rd (F.TDn_SEG0_BASE d) + ofs
  else 2 ^ 30 * s.rd (F.TDn_SEG1_BASE d) + (ofs - s.seg0Size d)

/-- Free reel space (R221, R240). -/
def State.reelFree (s : State) (d : Nat) : Nat :=
  let n := s.reelSize d; let h := s.rd (F.TDn_HEAD_OFFSET d); let t := s.rd (F.TDn_TAIL_OFFSET d)
  if h ≥ t then n - (h - t) else t - h

/-- Move TDn_HEAD past a block, linking segment 1 in at the end of segment 0 (R210, R240). -/
def State.headStep (s : State) (d : Nat) : State :=
  let h := s.rd (F.TDn_HEAD_OFFSET d) + 4096
  let s := if h == s.seg0Size d && !(s.dom d).segIn && s.flag (F.TDn_SEG1_LINK d) then
      s.setDom d { s.dom d with segIn := true } else s
  s.wr (F.TDn_HEAD_OFFSET d) (if h ≥ s.reelSize d then 0 else h)

/-- CRC-32C of a byte string from a running value, reflected, without inversion (R135). -/
def crcByte (c : BitVec 32) (b : Byte) : BitVec 32 :=
  (List.range 8).foldl (fun c _ => if c.getLsbD 0 then (c >>> 1) ^^^ 0x82F63B78#32 else c >>> 1) (c ^^^ b.setWidth 32)

/-- crc of R135 over bytes in ascending order. -/
def crc32c (c : BitVec 32) (bs : List Byte) : BitVec 32 := bs.foldl crcByte c

/-- CHECK of R239: initial value and final inversion of the standard. -/
def crcCheck (bs : List Byte) : BitVec 32 := ~~~ (crc32c 0xFFFFFFFF#32 bs)

/-- An undo entry's 80 bytes (R239). -/
def undoBytes (e : UndoEntry) : List Byte :=
  let body := bytesOf 64 e.data.toNat
    ++ bytesOf 8 (e.line % 2 ^ 46 + 2 ^ 46 * e.dom.val + 2 ^ 49 * (e.kslot % 1024) + 2 ^ 59 * b2n e.poison)
    ++ bytesOf 4 e.take
  body ++ bytesOf 4 (crcCheck body).toNat

/-- KIND of R239. -/
def BlockKind.code : BlockKind → Nat
  | .undo => 1
  | .cut => 2
  | .prepare => 3
  | .commit => 4
  | .rolled => 5

/-- A block's 4,096 bytes (R239). -/
def ReelBlock.bytes (b : ReelBlock) (d : Nat) : List Byte :=
  let hdr := bytesOf 8 b.take
    ++ bytesOf 8 (b.kind.code + d * 2 ^ 8 + 2 ^ 26 * b.ents.length + 2 ^ 32 * (b.seq % 2 ^ 32))
  if b.kind = .undo then
    let body := hdr ++ b.ents.flatMap undoBytes
    body ++ List.replicate (4096 - body.length) 0
  else
    let rec32 := hdr ++ bytesOf 8 b.slate.toNat ++ bytesOf 2 b.members.toNat ++ List.replicate 6 0
    let body := rec32 ++ bytesOf 4 (crcCheck rec32).toNat
    body ++ List.replicate (4096 - body.length) 0

/-- The packages of a group-spanning domain as a bitmap by P; 0 for a domain that does not span (R239). -/
def State.members (s : State) (d : Nat) : BitVec 16 :=
  if s.flag (F.TDn_CFG_SPAN d) then BitVec.ofNat 16 (s.rd F.GRP_STAT_MEMBER) ||| BitVec.ofNat 16 (2 ^ s.gpos) else 0

/-- A persistent block's bytes reach the devices, line by line, through the reel's key slot (R239). -/
def State.reelStore (s : State) (d : Nat) (b : ReelBlock) : State :=
  let bs := b.bytes d
  (List.range 64).foldl (fun s i =>
    match s.route (s.reelAddr d b.ofs + 64 * i) with
    | .port n dev =>
      let e : WqEnt := ⟨dev, BitVec.allOnes 64, BitVec.ofNat 512 (ofBytes ((bs.drop (64 * i)).take 64)), false,
        s.keyOf (s.rd (F.TDn_CFG_RKSLOT d)), true, true, 0⟩
      { s with mem := s.mem.devComplete (devNo n dev) e }
    | _ => s) s

/-! Views and cuts. -/

/-- The agents whose ADV_ACK a cut waits for (R212): no fenced, held or powered-down C-die. -/
def State.viewAgents (s : State) : List Nat :=
  (List.range 52).filter fun a => a ≥ 12 || s.dieRunning a

/-- The agent performs the ADVANCE of every domain whose ADVANCE it has not yet answered (R213). -/
def State.promote (s : State) (a : Nat) : State :=
  (List.range 8).foldl (fun s d =>
    if (s.dom d).acks.contains a then s.setView a d (BitVec.ofNat 64 (s.openTake d)) else s) s

/-- Every view of a domain set to a take. -/
def State.setViews (s : State) (d take : Nat) : State :=
  (List.range 52).foldl (fun s a => s.setView a d (BitVec.ofNat 64 take)) s

/-- The other packages that take part in a spanning domain (R233). -/
def State.others (s : State) : List Nat := (List.range 16).filter fun p => s.member p && p != s.gpos

/-- Whether this package leads a spanning domain (R233). -/
def State.leads (s : State) (d : Nat) : Bool := s.flag (F.TDn_CFG_SPAN d) && s.rd (F.TDn_CFG_LEAD d) == s.gpos
/-- Whether this package is another member of a spanning domain. -/
def State.follows (s : State) (d : Nat) : Bool := s.flag (F.TDn_CFG_SPAN d) && s.rd (F.TDn_CFG_LEAD d) != s.gpos

/-- Step 1 of R224: the next take opens and ADVANCE goes out; the lead of a spanning domain sends G_ADVANCE (R234). -/
def State.cutStart (s : State) (d : Nat) : State :=
  let s := (s.wr (F.TDn_TAKE_OPEN d) (s.openTake d + 1)).wr (F.TDn_STAT_CUTTING d) 1
  let s := s.wr (F.TDn_STAT_PENDING d) 0
  s.setDom d { s.dom d with
    step := .advance, acks := s.viewAgents, openUndo := false,
    pkgLeft := if s.leads d then s.others else [] }

/-- Whether the package works: it boots, runs or is in DEEP, and no wrap has discarded its work (R39). -/
def State.works (s : State) : Bool := s.power == .boot || s.power == .run || s.power == .deep

/-- A trigger of R223. On a member of a spanning domain it is forwarded to the lead over a P-link (R234). -/
def State.cutTrigger (s : State) (d : Nat) : State :=
  if !s.domEn d || s.spoiled d || s.rolling d || !s.works then s
  else if s.follows d then s.packetOut (.pkg (Fin.ofNat 16 (s.rd (F.TDn_CFG_LEAD d)))) 0
  else if s.flag (F.TDn_STAT_CUTTING d) then s.wr (F.TDn_STAT_PENDING d) 1
  else s.cutStart d

/-- Return the cut-request credits of the tickets of a domain that a condition picks (R101). -/
def State.returnCredits (s : State) (d : Nat) (p : Nat → Bool) : State :=
  let x := s.dom d
  let out := x.tickets.filter fun k => p k.2
  let s := s.setDom d { x with tickets := x.tickets.filter fun k => !p k.2 }
  out.foldl (fun s k =>
    let th := s.thrN k.1
    s.setThrN k.1 (th.setC 0x388 (BitVec.ofNat 64 (Nat.min 4 ((th.c 0x388).toNat + 1))))) s

/-- A remote cut that waits moves on (R352): CUT when its take is cut, SPOILED when its take is spoiled. -/
def State.rcFresh (s : State) (d : Nat) : State :=
  if s.rd (F.MIR_RCn_STATE d) ≠ 1 then s
  else
    let take := s.rd (F.MIR_RCTn_TAKE d)
    if take ≤ s.cutTake d then s.wr (F.MIR_RCn_STATE d) 2
    else if s.spoiled d && s.rd (F.TDn_SPOIL_FIRST d) ≤ take then s.wr (F.MIR_RCn_STATE d) 3
    else s

/-- Spoil a domain (R236). -/
def State.spoil (s : State) (d : Nat) : State :=
  if !s.domEn d then s
  else
    let s := if s.spoiled d then s else s.wr (F.TDn_SPOIL_FIRST d) (s.cutTake d + 1)
    let s := (s.wr (F.TDn_STAT_SPOILED d) 1).wr (F.TDn_STAT_PENDING d) 0
    let s := s.wr (F.TDn_STAT_CUTTING d) 0
    let s := s.setDom d { s.dom d with
      step := .idle, acks := [], l2Left := [], l3Left := [], did := [], portsLeft := [],
      pkgLeft := [] }
    let s := s.setViews d (s.openTake d)
    (s.returnCredits d fun _ => true).rcFresh d

/-- Status of a ticket (R101, R227): 0 CUT, 1 SPOILED, 2 PENDING, 3 BAD_TICKET. Takes are compared in their low 61 bits. -/
def State.ticketStatus (s : State) (tk : Word) : Nat :=
  let d := fget tk 0 3; let k := fget tk 3 61
  let low (n : Nat) : Nat := n % 2 ^ 61
  let sp := s.rd (F.TDn_SPOIL_FIRST d)
  if !s.domEn d || k > low (s.openTake d) then 3
  else if sp != 0 && k ≥ low sp && (k < low (s.rd (F.TDn_RESUME_TAKE d)) || s.spoiled d) then 1
  else if k ≤ low (s.cutTake d) then 0
  else 2

/-- Whether the reel holds back undo entries of the open take (R221). -/
def State.reelShort (s : State) (d : Nat) : Bool := s.reelFree d * 8 ≤ s.reelSize d

/-- The reel-level trigger of R221. -/
def State.reelTrigger (s : State) (d : Nat) : State :=
  if s.reelFree d * 4 < s.reelSize d then s.cutTrigger d else s

/-- A block is put on its way to the reel at TDn_HEAD (R219, R240); free space below a quarter starts a cut (R221). -/
def State.writeBlock (s : State) (d take : Nat) (kind : BlockKind) (ents : List StagedUndo) : State :=
  let x := s.dom d
  let b : ReelBlock := {
    seq := x.seqNext, take := take, kind := kind, ents := ents.map (·.ent),
    nums := ents.map (·.seq), ofs := s.rd (F.TDn_HEAD_OFFSET d), slate := s.slate, members := s.members d }
  (s.setDom d { x with seqNext := (x.seqNext + 1) % 2 ^ 32, blocksOut := x.blocksOut ++ [b] }).headStep d |>.reelTrigger d

/-- Whether a staged entry is of a take of a domain. -/
def StagedUndo.of (u : StagedUndo) (d take : Nat) : Bool := u.ent.dom.val == d && u.ent.take == take

/-- Send one block with up to 51 staged entries of a take (R219). -/
def State.flushOne (s : State) (d take : Nat) : State :=
  let mine := s.staged.filter fun u => u.of d take
  let out := mine.take 51
  let s := { s with staged := s.staged.filter fun u => !(out.any fun o => o.seq == u.seq) }
  s.writeBlock d take .undo out

/-- Send every full block, and with part = true every partly filled one too, of every domain and take (R219). -/
def State.flush (s : State) (part : Bool) : State :=
  s.staged.foldl (fun s u =>
    let n := (s.staged.filter fun v => v.of u.ent.dom.val u.ent.take).length
    if n ≥ 51 || (part && n > 0) then s.flushOne u.ent.dom.val u.ent.take else s) s

/-- The take controller accepts an undo entry into its staging SRAM (R219). -/
def State.acceptUndo (s : State) (e : UndoEntry) : State :=
  let s := { s with staged := s.staged ++ [StagedUndo.mk s.accepted e], accepted := s.accepted + 1 }
  let s := s.wr F.TK_UNDO_ACCEPTED s.accepted
  let d := e.dom.val
  let s := if e.take == s.openTake d then s.setDom d { s.dom d with openUndo := true } else s
  s.flush false

/-- The memory ports that hold a domain's regions (R224, step 4). -/
def State.domPorts (s : State) (d : Nat) : List Nat :=
  let sets := (s.regions.filter fun r => r.mtype == mtPersistent && !r.reel && r.domain == d).map (·.iset)
  (List.range 16).filter fun n => sets.any fun i =>
    (List.range (2 ^ s.rd (F.IS_CTLs_WAYS i))).any fun k => s.isPort i k == n

/-- Step 3 of R224: SWEEP goes to every L2 and L3 slice of the dies that are RUNNING. -/
def State.cutSweep (s : State) (d : Nat) : State :=
  let dies := (List.range 12).filter s.dieRunning
  s.setDom d { s.dom d with
    step := .sweep, did := [],
    l2Left := dies.flatMap fun x => (List.range 5).map fun k => 5 * x + k,
    l3Left := dies.flatMap fun x => (List.range 16).map fun k => 16 * x + k }

/-- Step 4 of R224: partly filled blocks are written, and a marker goes to every port of the domain's regions; the step waits
until every entry that is accepted by now lies in a persistent block (R219). -/
def State.cutMarker (s : State) (d : Nat) : State :=
  let s := s.flush true
  s.setDom d { s.dom d with
    step := .marker, portsLeft := (s.domPorts d).map fun n => (n, s.nextId), needSeq := s.accepted }

/-- Whether step 4 has finished (R224). -/
def State.markerDone (s : State) (d : Nat) : Bool :=
  (s.dom d).portsLeft == [] && (s.dom d).needSeq ≤ s.persisted

/-- After step 4: the cut record is written (step 5); a member of a spanning domain writes its PREPARE record, and the
lead asks for phase 2 (R234). -/
def State.cutRecord (s : State) (d : Nat) : State :=
  if (s.dom d).step = .marker && s.markerDone d && (s.dom d).pkgLeft == [] then
    let take := s.openTake d - 1
    if s.follows d then
      (s.setDom d { s.dom d with step := .gPrepare }).writeBlock d take .prepare []
    else (s.setDom d { s.dom d with step := .record }).writeBlock d take .cut []
  else s

/-- How far a block lies behind the next one of its reel, by SEQ, which wraps (R239, R254). -/
def ReelBlock.age (b : ReelBlock) (next : Nat) : Nat := (next + 2 ^ 32 - b.seq % 2 ^ 32) % 2 ^ 32

/-- A block put into its place among the blocks of a reel, oldest first. -/
def reelInsert (next : Nat) (b : ReelBlock) : List ReelBlock → List ReelBlock
  | [] => [b]
  | c :: l => if c.age next < b.age next then b :: c :: l else c :: reelInsert next b l

/-- The oldest block that a reel needs, as far as it is written or being written. -/
def TakeDom.oldest (x : TakeDom) : Option ReelBlock :=
  (x.blocksOut.foldl (fun l b => reelInsert x.seqNext b l) x.reel).head?

/-- The reel's blocks from the tail, once a cut frees what it no longer needs (R240). -/
def freeBlocks (cut newest : Nat) : List ReelBlock → List ReelBlock
  | [] => []
  | b :: bs =>
    if b.seq = newest then b :: bs
    else if b.take ≤ cut || b.kind != .undo then freeBlocks cut newest bs
    else b :: bs

/-- The anchor as step 6 and R259 rewrite it (R254). -/
def State.rewriteAnchor (s : State) (d : Nat) (cut : Option (Nat × Nat)) : State :=
  let x := s.dom d
  let tail := match x.oldest with
    | some b => (b.seq, b.ofs)
    | none => (x.seqNext, s.rd (F.TDn_HEAD_OFFSET d))
  let a : Anchor := ⟨s.rd (F.TDn_SEG0_BASE d), s.rd (F.TDn_SEG0_GIB d),
    if s.flag (F.TDn_SEG1_LINK d) then some (s.rd (F.TDn_SEG1_BASE d), s.rd (F.TDn_SEG1_GIB d)) else none, tail, cut⟩
  s.setDom d { x with anchor := some a }

/-- Step 6 of R224 for take N, whose record is block rb. -/
def State.cutFinish (s : State) (d take : Nat) (rb : ReelBlock) : State :=
  let s := (s.wr (F.TDn_CUT_LAST d) take).wr (F.TDn_CUTSLATE_SLATE d) rb.slate.toNat
  let x := s.dom d
  let reel := freeBlocks take rb.seq x.reel
  let s := s.setDom d { x with step := .idle, reel := reel }
  let s := s.wr (F.TDn_TAIL_OFFSET d) (match (s.dom d).oldest with
    | some b => b.ofs
    | none => s.rd (F.TDn_HEAD_OFFSET d))
  let s := (s.wr (F.TDn_STAT_CUTTING d) 0).rewriteAnchor d (some (rb.seq, rb.ofs))
  let s := (s.returnCredits d fun k => k ≤ take).rcFresh d
  if s.flag (F.TDn_STAT_PENDING d) then s.cutStart d else s

end Sys2Proof.Machine
end

