-- ==== Sys2Proof/Machine/Home.lean ====
section
/-!
DEFINITION. A line at its home: the directory (R191, R194), the messages on their way (R195 to R197, R213), requests and
transactions (R193, R201, R205), and writes performed at home (R231).
-/
namespace Sys2Proof.Machine

/-! Records of a line. -/

/-- Store a die's state of a line. -/
def LineRec.setSt (r : LineRec) (d : Nat) (x : LineSt) : LineRec :=
  { r with st := if x = .i then SMap.del r.st d else SMap.put r.st d x }
/-- Add a die to the presence bits. -/
def LineRec.addDp (r : LineRec) (d : Nat) : LineRec := { r with dp := if r.dp.contains d then r.dp else r.dp ++ [d] }
/-- The die that holds the line in M, if one does. -/
def LineRec.dirtyDie (r : LineRec) : Option Nat := (List.find? (fun c => c.2 == LineSt.m) r.st).map (·.1)

/-- The line with every copy gone, its data at home (R231). -/
def LineRec.drop (r : LineRec) : LineRec :=
  { r with dir := .free, fh := none, dp := [], rp := [], st := [], data := none, poison := false, pd := false }

/-- The C-die of an agent. -/
def agentDie : Agent → Option Nat
  | .die d => some d.val
  | _ => none

/-- The number of an agent among a line's evictions: C-dies 0 to 11, packages from 16. -/
def agentNo : Agent → Nat
  | .die d => d.val
  | .pkg p => 16 + p.val
  | .hub => 32

/-- The agent of such a number. -/
def agentOf (k : Nat) : Agent := if k < 16 then .die (Fin.ofNat 12 k) else .pkg (Fin.ofNat 16 (k - 16))

/-- Whether an agent's directory presence is set (R191). -/
def LineRec.present (r : LineRec) : Agent → Bool
  | .die d => r.dp.contains d.val
  | .pkg p => r.rp.contains p.val
  | .hub => false

/-- Set an agent's presence. -/
def LineRec.addAgent (r : LineRec) : Agent → LineRec
  | .die d => r.addDp d.val
  | .pkg p => { r with rp := if r.rp.contains p.val then r.rp else r.rp ++ [p.val] }
  | .hub => r

/-- Clear an agent's presence and FH; the entry is freed when no bit is left (R193). -/
def LineRec.dropAgent (r : LineRec) (a : Agent) : LineRec :=
  let r := match a with
    | .die d => { r with dp := r.dp.filter fun x => x != d.val, fh := if r.fh == some d.val then none else r.fh }
    | .pkg p => { r with rp := r.rp.filter fun x => x != p.val }
    | .hub => r
  if r.dp == [] && r.rp == [] then { r with dir := .free, fh := none } else r

/-- The agents a directory entry names (R191). -/
def LineRec.holders (r : LineRec) : List Agent :=
  r.dp.map (fun d => Agent.die (Fin.ofNat 12 d)) ++ r.rp.map fun p => Agent.pkg (Fin.ofNat 16 p)

/-! Messages. -/

/-- The view agent by which an agent's messages travel: a C-die, or the P-link to a package (R211). -/
def State.viewNo (s : State) : Agent → Nat
  | .die d => d.val
  | .pkg p => 48 + s.plinkTo p.val
  | .hub => 52

/-- Whether the agent's ADVANCE is due, so that a message to it is marked (R213, R233). -/
def State.marks (s : State) (a : Agent) : Bool := (List.range 8).any fun k => (s.dom k).acks.contains (s.viewNo a)

/-- Put a message on its way. One to a package reaches its P-link at once, which performs an ADVANCE that is due first (R213). -/
def State.post (s : State) (m : Msg) : State :=
  let s := match m.agent with
    | .pkg _ => if m.marked then s.promote (s.viewNo m.agent) else s
    | _ => s
  { s.packetOut m.agent m.line with msgs := s.msgs ++ [m] }

/-- Put a message about a line on its way. -/
def State.send (s : State) (k : MsgKind) (a : Agent) (line : Nat) : State :=
  s.post { kind := k, agent := a, line := line, marked := s.marks a, req := 0, bytes := [], poison := false, nc := false }

/-- Whether a kind travels on the snoop or response channel from the home to an agent, where R197 keeps its order. -/
def MsgKind.ordered : MsgKind → Bool
  | .snpS => true
  | .snpX => true
  | .snpCur => true
  | .snpBinv => true
  | .goE => true
  | .goF => true
  | .goS => true
  | .eva => true
  | _ => false

/-- Whether a kind is a snoop. -/
def MsgKind.snoops : MsgKind → Bool
  | .snpS => true
  | .snpX => true
  | .snpCur => true
  | .snpBinv => true
  | .snpLsr => true
  | .snpLsw => true
  | _ => false

/-- Whether a kind grants a line or carries its data to a requester. -/
def MsgKind.moves : MsgKind → Bool
  | .goE => true
  | .goF => true
  | .goS => true
  | .dat _ => true
  | _ => false

/-- Whether a message is on its way and may arrive: none of its channel and line stands before it (R197), and, for a snoop, it is
among the first 128 of its agent, which is what the snoop queue takes (R196). -/
def State.hasMsg (s : State) (k : MsgKind) (a : Agent) (line : Nat) : Bool :=
  let mine := s.msgs.filter fun m => m.agent == a && m.line == line && !m.nc
  (if k.ordered then match mine.filter fun m => m.kind.ordered with
      | m :: _ => m.kind == k
      | [] => false
    else mine.any fun m => m.kind == k)
  && (!k.snoops || ((s.msgs.filter fun m => m.agent == a && m.kind.snoops).take 128).any fun m => m.kind == k && m.line == line)

/-- Take the oldest such message off; a marked one promotes its receiver first (R213). -/
def State.recv (s : State) (k : MsgKind) (a : Agent) (line : Nat) : State :=
  let is (m : Msg) : Bool := m.kind == k && m.agent == a && m.line == line && !m.nc
  match List.find? is s.msgs with
  | some m =>
    let s := { s with msgs := s.msgs.eraseP is }
    if m.marked then s.promote (s.viewNo a) else s
  | none => s

/-- Send a snoop to each of several agents. -/
def State.sendAll (s : State) (k : MsgKind) (as : List Agent) (line : Nat) : State :=
  as.foldl (fun s a => s.send k a line) s

/-- Whether a C-die has a D-link that is up and not flushed: its only way to the H-die (R24). -/
def State.linked (s : State) (d : Nat) : Bool :=
  (s.rd (F.DL_STAT_STATE (2 * d)) == 2 && !(s.lk (2 * d)).flush)
    || (s.rd (F.DL_STAT_STATE (2 * d + 1)) == 2 && !(s.lk (2 * d + 1)).flush)

/-- Whether an agent's message is accepted: not from a die that the H-die does not listen to (R431). -/
def State.hears (s : State) : Agent → Bool
  | .die d => s.dieRunning d.val
  | .pkg p => s.member p.val
  | .hub => true

/-- Whether an agent's message can arrive at all. -/
def State.reaches (s : State) : Agent → Bool
  | .die d => s.linked d.val
  | .pkg p => s.member p.val
  | .hub => true

/-- A message that comes from a fenced die is dropped and counted (R203, R431). -/
def State.stale (s : State) : Agent → State
  | .die d => if s.rd (F.PKG_DIEd_STATE d.val) == 3 then s.inc (F.STALE_SPEAKERd_DIE d.val) 1 else s
  | _ => s

/-! The directory's sets (R191, R194). -/

/-- The set of a line. -/
def dirSet (line : Nat) : Nat :=
  line % 2 ^ 20 ^^^ (Config.dirFold (line / 2 ^ 20 % 2 ^ 19 + 2 ^ 19 * (line / 2 ^ 42 % 16)) % 2 ^ 20)

/-- The valid entries of a line's set but its own. -/
def State.dirPeers (s : State) (line : Nat) : List (Nat × LineRec) :=
  s.lines.filter fun c => c.2.dir != .free && c.1 != line && dirSet c.1 == dirSet line

/-- Whether a line needs a victim to get an entry: it has none, and the 16 ways of its set are taken. -/
def State.dirFull (s : State) (line : Nat) : Bool :=
  (s.line line).dir == .free && 16 ≤ s.lines.length && 16 ≤ (s.dirPeers line).length

/-- The order in which R194 chooses among entries. -/
def LineRec.victimRank (r : LineRec) : Nat := if r.dir = .owned then 2 else if r.fh.isSome then 1 else 0

/-- The victim of R194 among the entries of a line's set that ok allows: by rank, then the one allocated first. -/
def State.dirPick (s : State) (line : Nat) (ok : Nat → LineRec → Bool) : Option Nat :=
  (((s.dirPeers line).filter fun c => ok c.1 c.2).foldl (fun (m : Option (Nat × LineRec)) c => match m with
    | none => some c
    | some b =>
      if c.2.victimRank < b.2.victimRank || (c.2.victimRank == b.2.victimRank && c.2.alloc < b.2.alloc) then some c else some b)
    none).map (·.1)

/-! The data of a line at home. -/

/-- Record a line's value where it has no home in this package, so that its copies agree (DESIGN CHOICE, log 6). -/
def State.fillRemote (s : State) (line ks : Nat) : State :=
  let r := s.line line
  if s.homedHere (line * 64) || r.data.isSome then s
  else
    let v := s.homeLine line ks
    let s := s.setLine line { r with data := some v.data, poison := r.poison || v.poison, kslot := ks }
    if v.free then s.tick else s

/-- The data a remote package returns for a line it owns: a free value (DESIGN CHOICE, log 6). -/
def State.recallPkg (s : State) (line : Nat) : State :=
  let r := s.line line
  if r.rp != [] && r.dir = .owned then (s.setLine line { r with data := some (Config.freeLine s.freeCtr) }).tick
  else s

/-- A dirty line goes to its home and its copies become clean (R193, R202, R220); a home in another package has it then, and the
copies here keep the value. -/
def State.cleanLine (s : State) (line : Nat) : State :=
  let r := s.line line
  match r.data with
  | some d =>
    let s := r.st.foldl (fun s c => s.l2Clean c.1 line) s
    if s.homedHere (line * 64) then
      (s.writeLine line d r.poison r.pd r.kslot).setLine line { r with data := none, pd := false }
    else s.setLine line { r with pd := false }
  | none => s

/-- The view of a writing agent in a domain (R211); an engine of the H-die that is no view agent writes in the open take
(DESIGN CHOICE, log 65). -/
def State.takeOf (s : State) (agent dom : Nat) : Nat := if agent < 52 then (s.view agent dom).toNat else s.openTake dom

/-- Whether the take controller can accept an undo entry of a take (R219, R221): its 16 MiB staging SRAM, 4,096 blocks of 51
entries, has room, and the reel does not hold entries of the open take back. -/
def State.undoRoom (s : State) (dom take : Nat) : Bool :=
  s.unpersisted.length < 4096 * 51 && !(s.reelShort dom && take == s.openTake dom)

/-- A package's write-back or dirty answer for a line of a domain that does not span the group (R232): undo is captured at home
under the view of its P-link, the line takes its tag, and FOREIGN is set. -/
def State.foreign (s : State) (a : Agent) (line dom : Nat) (v : LineData) : State :=
  let r := s.line line
  let old := s.homeLine line r.kslot
  let take := s.takeOf (s.viewNo a) dom
  let s := (s.wr (F.TDn_STAT_FOREIGN dom) 1).acceptUndo ⟨line, Fin.ofNat 8 dom, r.kslot, old.poison, take, old.data⟩
  s.setLine line { s.line line with data := some v, pd := true, parity := take % 2 == 1, dom := dom }

/-- The dirty data of a package's answer or write-back reach the home (R195, R216, R232). -/
def State.pkgData (s : State) (a : Agent) (line : Nat) (data : Option LineData) (tag : Option Bool) : State :=
  let v := data.getD (Config.freeLine s.freeCtr)
  let s := if data.isNone then s.tick else s
  match s.domOf (line * 64) with
  | some k =>
    if s.flag (F.TDn_CFG_SPAN k) then
      s.setLine line { s.line line with data := some v, pd := tag.isSome, parity := tag.getD false, dom := k }
    else s.foreign a line k v
  | none => s.setLine line { s.line line with data := some v }

/-- Every cached copy of a line is dropped, its directory entry with them. -/
def State.dropLine (s : State) (line : Nat) : State :=
  ((s.line line).st.foldl (fun s c => s.forget c.1 line) s).setLine line (s.line line).drop

/-! Writes performed at home (R231). -/

/-- The view agent of a requester at home: a runner function's requests carry its number above that of their engine (R211,
R373). -/
def viewAgent (agent : Nat) : Nat := agent % 64

/-- A write of bytes within one line homed here by an agent other than a cluster L2 (R231), joining the agent's view; a domain
that is rolling back discards it (R237). A write of the whole line replaces poison, another leaves it (R421). The answer
promotes an agent whose ADVANCE is due (R213). -/
def State.homeWriteNow (s : State) (agent pa : Nat) (bs : List Byte) (ks : Nat) : State :=
  let line := pa / 64
  let agent := viewAgent agent
  match s.domOf pa with
  | some k =>
    if s.rolling k then s.inc (F.TDn_DISC_COUNT k) 1
    else
      let s := s.recallPkg line
      let v := s.coherent line ks
      let s := if v.free then s.tick else s
      let s := (s.acceptUndo ⟨line, Fin.ofNat 8 k, ks, v.poison, s.takeOf agent k, v.data⟩).dropLine line
      (s.hold line (lineSet v.data (pa % 64) bs) (v.poison && bs.length != 64) ks k).promote agent
  | none =>
    let s := s.recallPkg line
    let v := s.coherent line ks
    let s := (if v.free then s.tick else s).dropLine line
    (s.writeLine line (lineSet v.data (pa % 64) bs) (v.poison && bs.length != 64) false ks).promote agent

/-- Whether a grant or data of a line is on its way to a C-die. -/
def State.moving (s : State) (line : Nat) : Bool :=
  s.msgs.any fun m => m.line == line && m.kind.moves && !m.nc && agentDie m.agent != none

/-- Whether a line is at rest: no transaction is active on it, no grant or data of it is on its way, and no holder keeps a snoop
waiting (R193, R197, R198, R218). -/
def State.atRest (s : State) (line : Nat) : Bool :=
  let r := s.line line
  r.txn.isNone && r.gotGo == [] && r.gotDat == [] && r.out == [] && r.hold == [] && r.undoP == []
    && !s.moving line

/-- The number of a write of an agent that waits at a home. -/
def HomeReq.wrNo (agent : Nat) : HomeReq → Option Nat
  | .wr b n _ _ _ => if b = agent then some n else none
  | _ => none

/-- The numbers of the writes of an agent that wait at their homes. -/
def State.wrWaits (s : State) (agent : Nat) : List Nat :=
  s.lines.flatMap fun c => c.2.queue.filterMap (HomeReq.wrNo agent)

/-- Whether a write at home can be performed now: the line's SNP_X would be answered at once (R231), its undo entry accepted, and
no earlier write of its agent waits (R353). -/
def State.wrClear (s : State) (agent n pa : Nat) : Bool :=
  s.atRest (pa / 64) && (s.wrWaits agent).all (fun m => n ≤ m) && match s.domOf pa with
    | some k => s.rolling k || s.undoRoom k (s.takeOf (viewAgent agent) k)
    | none => true

/-! Requests and transactions. -/

/-- The agent that made a request. -/
def HomeReq.by : HomeReq → Option Agent
  | .rdS a => some a
  | .rdX a => some a
  | .upg a => some a
  | .cur a => some a
  | _ => none

/-- Grant a line: DAT with the line's poison, unless the copy is already there, and the GO (R193, R195). -/
def State.grant (s : State) (go : MsgKind) (a : Agent) (line : Nat) (dat : Option Bool) : State :=
  let s := match dat with
    | some dirty => s.post {
        kind := .dat dirty, agent := a, line := line, marked := s.marks a, req := 0, bytes := [],
        poison := (s.coherent line (s.line line).kslot).poison, nc := false }
    | none => s
  s.send go a line

/-- The completion of an access without caching (R195): DAT with its data for a read, and GO_NC. -/
def State.grantNc (s : State) (a : Agent) (line : Nat) (dat : Option (List Byte × Bool)) : State :=
  let s := match dat with
    | some v => s.post {
        kind := .dat false, agent := a, line := line, marked := s.marks a, req := 0, bytes := v.1, poison := v.2, nc := true }
    | none => s
  s.post { kind := .goNc, agent := a, line := line, marked := s.marks a, req := 0, bytes := [], poison := false, nc := true }

/-- Start a transaction that waits for the given agents' answers. -/
def State.await (s : State) (line : Nat) (req : HomeReq) (k : MsgKind) (as : List Agent) : State :=
  let r := s.line line
  (s.setLine line { r with txn := some ⟨req, as, [], false⟩ }).sendAll k as line

/-- A directory entry is given to a line that has none (R194); the later ones have higher numbers. -/
def State.dirAlloc (s : State) (line : Nat) : State :=
  let r := s.line line
  if r.dir = .free then { s.setLine line { r with alloc := s.nextId } with nextId := s.nextId + 1 } else s

/-- The value of a line as a read without caching takes it. -/
def State.curData (s : State) (line : Nat) : List Byte × Bool :=
  let v := s.coherent line (s.line line).kslot
  (lineGet v.data 0 64, v.poison)

/-- The home serves a request for a line that has no active transaction (R193). -/
def State.homeGo (s : State) (line : Nat) (req : HomeReq) : State :=
  let s := match req with
    | .rdS _ => s.dirAlloc line
    | .rdX _ => s.dirAlloc line
    | .upg _ => s.dirAlloc line
    | _ => s
  let r := s.line line
  let own (a : Agent) (r : LineRec) : LineRec :=
    { (r.addAgent a) with dir := .owned, fh := none, txn := none }
  let readX (a : Agent) : State :=
    let others := r.holders.filter fun h => h != a
    if others.isEmpty then (s.setLine line (own a r)).grant .goE a line (some false)
    else s.await line req .snpX others
  match req with
  | .rdS a =>
    match r.dir with
    | .free => (s.setLine line (own a r)).grant .goE a line (some false)
    | .shared =>
      match a, r.fh with
      | .die d, none =>
        (s.setLine line { (r.addAgent a) with fh := some d.val, txn := none }).grant .goF a line (some false)
      | .die _, some f => s.await line req .snpS [.die (Fin.ofNat 12 f)]
      | _, none => (s.setLine line { (r.addAgent a) with txn := none }).grant .goS a line (some false)
      | _, some f => s.await line req .snpCur [.die (Fin.ofNat 12 f)]
    | .owned => s.await line req .snpS (r.holders.filter fun h => h != a)
  | .rdX a => readX a
  | .upg a =>
    if r.dir = .shared && r.present a then
      let others := r.holders.filter fun h => h != a
      if others.isEmpty then (s.setLine line (own a r)).grant .goE a line none
      else s.await line req .snpX others
    else readX a
  | .cur a =>
    match r.dir, r.holders with
    | .owned, o :: _ => s.await line req .snpCur [o]
    | _, _ => (s.setLine line { r with txn := none }).grantNc a line (some (s.curData line))
  | .binv _ => s
  | .wr agent _ pa bs ks => s.homeWriteNow agent pa bs ks

/-- The victim of a request that needs one: the one the request names, if it may be one, else that of R194. -/
def State.dirVictim (s : State) (line : Nat) (vict : Option Nat) : Option Nat :=
  let ok (v : Nat) : Bool := v != line && (s.line v).dir != .free && (s.line v).txn.isNone
  match vict with
  | some v => if (s.line line).dir = .free && ok v then some v else none
  | none => if s.dirFull line then s.dirPick line (fun v _ => ok v) else none

/-- Whether a request takes a directory entry. -/
def HomeReq.takes : HomeReq → Bool
  | .rdS _ => true
  | .rdX _ => true
  | .upg _ => true
  | _ => false

/-- A request starts (R193, R194): behind the back-invalidation of the set victim where the set is full. -/
def State.homeStart (s : State) (line : Nat) (req : HomeReq) (vict : Option Nat) : State :=
  match (if req.takes then s.dirVictim line vict else none) with
  | some v =>
    let s := s.inc F.DIR_BINV_COUNT 1
    let s := s.setLine line { s.line line with txn := some ⟨req, [], [], false⟩ }
    s.await v (.binv line) .snpBinv (s.line v).holders
  | none => s.homeGo line req

/-- The requests that wait for a line are served in their order until one has to wait (R193). -/
def State.homeNext : Nat → State → Nat → State
  | 0, s, _ => s
  | fuel + 1, s, line =>
    let r := s.line line
    match r.txn, r.queue with
    | none, q :: qs =>
      if (match q with | .wr agent n pa _ _ => s.wrClear agent n pa | _ => true) then
        State.homeNext fuel ((s.setLine line { r with queue := qs }).homeStart line q none) line
      else s
    | _, _ => s

/-- The lines at which a write waits first and can be performed. -/
def State.wrReady (s : State) : List Nat :=
  s.lines.filterMap fun c => match c.2.queue with
    | .wr agent n pa _ _ :: _ => if s.wrClear agent n pa then some c.1 else none
    | _ => none

/-- Writes that wait at their homes for an earlier one of their agent go on. -/
def State.wrRun : Nat → State → State
  | 0, s => s
  | fuel + 1, s => match s.wrReady with
    | line :: _ => State.wrRun fuel (State.homeNext (s.line line).queue.length s line)
    | [] => s

/-- The requests that wait for a line go on as far as they can. -/
def State.homeRun (s : State) (line : Nat) : State :=
  let q := (s.line line).queue
  if q == [] then s
  else
    let n := (s.lines.map fun c => c.2.queue.length).sum
    State.wrRun n (State.homeNext q.length s line)

/-- The evictions kept with a finished transaction are consumed: EVA is sent (R201). -/
def State.consumeKept (s : State) (line : Nat) : State :=
  let r := s.line line
  let kept := r.evict.filter fun c => c.2.consumed
  let s := s.setLine line { r with
    evict := SMap.mapv (fun _ e => { e with consumed := false }) (SMap.keep (fun k e => k < 16 || !e.consumed) r.evict) }
  kept.foldl (fun s c => s.send .eva (agentOf c.1) line) s

/-- The end of a transaction whose requester is lost (R203): dirty data that was forwarded is home, and the entry names only the
dies that still have a copy. -/
def State.orphan (s : State) (line : Nat) (dirty : Bool) : State :=
  let s := if dirty && (s.line line).dirtyDie.isNone then s.cleanLine line else s
  let r := s.line line
  let gone := r.dp.filter fun d => r.stOf d == .i
  let r := gone.foldl (fun r d => r.dropAgent (.die (Fin.ofNat 12 d))) r
  s.setLine line { r with
    dir := if r.dir = .owned && r.rp == [] && r.st.all fun c => c.2 == .s || c.2 == .f then .shared else r.dir }

/-- A transaction whose last answer has come ends (R193, R194, R201): kept evictions are its answers' data. -/
def State.homeFinish (s : State) (line : Nat) : State :=
  let r := s.line line
  match r.txn with
  | none => s
  | some t =>
    if t.snp != [] || t.evx != [] then s
    else
      let gone := r.evict.filter fun c => c.2.consumed
      let wb := gone.any fun c => c.2.dirty
      let r1 : LineRec := gone.foldl (fun r c => r.dropAgent (agentOf c.1)) { r with txn := none }
      let s := s.setLine line r1
      let s := if wb then s.cleanLine line else s
      let s := match t.req with
        | .rdS a =>
          let s := if t.dirty then s.cleanLine line else s
          let r := (s.line line).addAgent a
          let s := s.setLine line { r with
            dir := .shared,
            fh := match a with | .die d => some d.val | _ => if r1.dir = DirSt.shared then r1.fh else none }
          s.grant (match a with | .die _ => .goF | _ => .goS) a line (some false)
        | .rdX a =>
          let r := s.line line
          let s := s.setLine line { ({ r with dp := [], rp := [] } : LineRec).addAgent a with dir := .owned, fh := none }
          s.grant .goE a line (some (t.dirty && !wb))
        | .upg a =>
          let r := s.line line
          let held := r.present a && r1.dir = DirSt.shared
          let s := s.setLine line { ({ r with dp := [], rp := [] } : LineRec).addAgent a with dir := .owned, fh := none }
          s.grant .goE a line (if held then none else some (t.dirty && !wb))
        | .cur a => if a = Agent.hub then s.orphan line t.dirty else s.grantNc a line (some (s.curData line))
        | .binv w =>
          let s := s.cleanLine line
          let s := s.setLine line { (s.line line) with dir := .free, fh := none, dp := [], rp := [] }
          match (s.line w).txn with
          | some x => s.homeGo w x.req
          | none => s
        | .wr _ _ _ _ _ => s
      (s.consumeKept line).homeRun line

/-- The requests of an agent that its credits are in use for (R33, R196). -/
def State.inUse (s : State) (mine : Agent → Bool) : Nat :=
  let of (q : HomeReq) : Bool := match q.by with | some a => mine a | none => false
  (s.lines.map fun c => ((c.2.txn.toList.map (·.req) ++ c.2.queue ++ c.2.out).filter of).length).sum
    + (s.msgs.filter fun m => agentDie m.agent != none && mine m.agent && (m.kind == .goE || m.kind == .goF || m.kind == .goS)).length

/-- Whether an agent holds a credit for another request (R33): 256 for each cluster of a die, 2,048 for each P-link. -/
def State.hasCredit (s : State) : Agent → Bool
  | .die d => s.inUse (fun b => b == .die d) < 5 * 256
  | .pkg p => s.inUse (fun b => match b with | .pkg q => s.plinkTo q.val == s.plinkTo p.val | _ => false) < 2048
  | .hub => true

/-- A request for a line homed in another package is forwarded to that home over a P-link (R205). -/
def State.forward (s : State) (line : Nat) (req : HomeReq) : State :=
  let r := s.line line
  (s.setLine line { r with out := r.out ++ [req] }).packetOut (.pkg (Fin.ofNat 16 (homeP (line * 64)))) line

/-- A request arrives at its home (R193, R194): it waits behind an active transaction, or behind the back-invalidation of the
set victim where the set is full. -/
def State.homeReq (s : State) (a : Agent) (line : Nat) (req : HomeReq) (vict : Option Nat) : State :=
  if !s.hears a then s.stale a
  else if !s.reaches a || !s.hasCredit a then s
  else if !s.homedHere (line * 64) then (if agentDie a != none then s.forward line req else s)
  else
    let r := s.line line
    if r.txn.isSome || r.queue != [] then s.setLine line { r with queue := r.queue ++ [req] }
    else s.homeStart line req vict

/-- An answer of a holder to a snoop reaches the home (R193, R201). -/
def State.homeAnswer (s : State) (a : Agent) (line : Nat) (dirty evx : Bool) : State :=
  let r := s.line line
  match r.txn with
  | some t =>
    if t.snp.contains a then
      let kept := (SMap.find? r.evict (agentNo a)).elim false (·.consumed)
      let t := { t with
        snp := t.snp.filter fun x => x != a,
        evx := if evx && !kept then t.evx ++ [a] else t.evx,
        dirty := t.dirty || dirty }
      (s.setLine line { r with txn := some t }).homeFinish line
    else s
  | none => s

end Sys2Proof.Machine
end

