-- ==== Sys2Proof/Machine/Lines.lean ====
section
/-!
DEFINITION. Accesses to lines as whole transactions: shared and exclusive acquisition (R189, R190, R193), reads and
uncached accesses (R186, R187), the visibility of a store with its undo capture (R214, R217), and writes performed at home
(R231).
-/
namespace Sys2Proof.Machine

/-- Whether nothing of a line is on its way that a whole transaction of die d would have to wait for (R193, R197, R198, R200,
R218). -/
def State.quiet (s : State) (line d : Nat) : Bool :=
  let r := s.line line
  r.txn.isNone && r.queue == [] && r.gotGo == [] && r.gotDat == [] && r.out == [] && (SMap.find? r.evict d).isNone
    && (r.hold.all fun x => x == d) && (r.undoP.all fun x => x == d)
    && !s.moving line

/-- Whether a directory entry for a line is to be had at once (R194). -/
def State.dirRoom (s : State) (line : Nat) : Bool :=
  !s.dirFull line || (s.dirPick line fun v _ => s.atRest v).isSome

/-- Whether a request of die d for a line can be served at once. -/
def State.canAsk (s : State) (line d : Nat) : Bool := s.linked d && s.quiet line d && s.dirRoom line

/-- Whether a die may read a line now. -/
def State.canHave (s : State) (line d : Nat) : Bool := s.dieHas d line || s.canAsk line d

/-- Whether a die may write a line now: it owns it, or its request can be served at once (R193, R200). -/
def State.canOwn (s : State) (line d : Nat) : Bool :=
  let r := s.line line
  r.stOf d == .m || r.stOf d == .e || s.canAsk line d

/-- The back-invalidation of a set victim at rest, as a whole (R194). -/
def State.dirEvict (s : State) (v : Nat) : State :=
  let s := ((s.inc F.DIR_BINV_COUNT 1).recallPkg v).cleanLine v
  let s := (s.line v).st.foldl (fun s c => s.forget c.1 v) s
  s.setLine v { (s.line v).drop with poison := (s.line v).poison }

/-- A directory entry is given to a line, after the back-invalidation of a victim where its set is full (R194). -/
def State.dirMake (s : State) (line : Nat) : State :=
  let s := if s.dirFull line then match s.dirPick line (fun v _ => s.atRest v) with
      | some v => s.dirEvict v
      | none => s
    else s
  s.dirAlloc line

/-- A die's request for a line goes to its home: over a P-link where that is another package (R205). -/
def State.askHome (s : State) (line d ks : Nat) : State :=
  let s := (s.dirMake line).forget d line
  let s := if s.homedHere (line * 64) then s else s.packetOut (.pkg (Fin.ofNat 16 (homeP (line * 64)))) line
  (s.recallPkg line).fillRemote line ks

/-- The whole transaction of a read miss of a die (R189, R190, R193); a home in another package grants E or S, as a free value
decides, and never F (DESIGN CHOICE, log 6). Nothing moves where the request would have to wait. -/
def State.acqShared (s : State) (line d ks : Nat) : State :=
  if (s.line line).stOf d != .i || !s.canAsk line d then s
  else
    let s := s.askHome line d ks
    let here := s.homedHere (line * 64)
    let sole := here || Config.freeBool s.freeCtr
    let s := if here then s else s.tick
    let r := s.line line
    match r.dir with
    | .free =>
      let r := { r with dir := if sole then .owned else .shared, dp := [d], fh := none, kslot := ks }
      s.setLine line (r.setSt d (if sole then .e else .s))
    | .shared =>
      let r := match r.fh with | some f => r.setSt f .s | none => r
      let r := (r.addDp d).setSt d (if here then .f else .s)
      s.setLine line { r with fh := if here then some d else none }
    | .owned =>
      let s := s.cleanLine line
      let r := s.line line
      let r := r.dp.foldl (fun r o => r.setSt o .s) r
      let r := (r.addDp d).setSt d (if here then .f else .s)
      s.setLine line { r with dir := .shared, fh := if here then some d else none }

/-- The whole transaction of a write of a die: it ends the sole holder, in M (R190, R193). -/
def State.acqOwn (s : State) (line d ks : Nat) : State :=
  let r := s.line line
  if r.stOf d = .m then s
  else if r.stOf d = .e then s.setLine line (r.setSt d .m)
  else if !s.canAsk line d then s
  else
    let had := r.st
    let held := r.held
    let s := s.askHome line d ks
    let s := had.foldl (fun s c => if c.1 = d then s else s.forget c.1 line) s
    let r := s.line line
    s.setLine line { r with
      dir := .owned, fh := none, dp := [d], rp := [], st := [(d, .m)], kslot := if held then r.kslot else ks }

/-- A die's hold window ends with its access (R198), and what waited for it goes on. -/
def State.holdEnd (s : State) (d line : Nat) : State :=
  let r := s.line line
  if r.hold.contains d then (s.setLine line { r with hold := r.hold.filter fun x => x != d }).homeRun line else s

/-- Whether a cacheable line's home is no member of the group, so that accesses to it are undecodable (R192). -/
def State.homeless (s : State) (pa : Nat) : Bool := !s.homedHere pa && !s.member (homeP pa)

/-- Whether the local store of a die can be reached from a die, or from the H-die: not while its die is not RUNNING (R187), and
from elsewhere only over D-links (R24). -/
def State.lsReach (s : State) (d : Nat) (from_ : Option Nat) : Bool := s.dieRunning d || from_ == some d

/-- Bytes of a local store: written ones as written, others free or poisoned (R187, R420). -/
def State.lsRead (s : State) (d ofs n : Nat) (from_ : Option Nat) : List Byte × Bool × State :=
  if s.lsReach d from_ then
    let cells := (List.range n).map fun i => (i, SMap.find? s.mem.ls (lsSize * d + ofs + i))
    let bs := cells.map fun c => c.2.getD (lineByte (Config.freeLine s.freeCtr) (c.1 % 64))
    let un := cells.any fun c => c.2.isNone
    let bad := (List.range n).any fun i => s.mem.lsPoison.contains (lsSize * d + ofs + i)
    (bs, bad || (un && Config.freeBool s.freeCtr), if un then s.tick else s)
  else (List.replicate n 0, true, s)

/-- Write bytes of a local store; each byte's poison goes (R421). -/
def State.lsWrite (s : State) (d ofs : Nat) (bs : List Byte) (from_ : Option Nat) : State :=
  if s.lsReach d from_ then
    let m := (List.range bs.length).foldl (fun (m : Mem) i => { m with
      ls := SMap.put m.ls (lsSize * d + ofs + i) (bs.getD i 0),
      lsPoison := m.lsPoison.filter fun x => x != lsSize * d + ofs + i }) s.mem
    { s with mem := m }
  else s

/-- A read that is performed at a port, another package or nowhere, of bytes within one line (R186, R298, R307). What a general
port or another package answers, and whether it is poisoned (R334), comes from outside: free values (DESIGN CHOICE, log 3). -/
def State.ncRead (s : State) (pa n ks : Nat) : List Byte × Bool × State :=
  let free (p : Bool) : List Byte × Bool × State := (lineGet (Config.freeLine s.freeCtr) (pa % 64) n, p, s.tick)
  match s.route pa with
  | .local d ofs => s.lsRead d ofs n none
  | .port p dev =>
    let v := s.portLine p (dev / 64 * 64)
    if !s.keyOk ks then (List.replicate n 0, true, s)
    else if v.2.2 = s.keyOf ks then (lineGet v.1 (pa % 64) n, v.2.1, if v.2.1 then s.inc (F.MPn_ERR_POISON_RD p) 1 else s)
    else free false
  | .pkg p =>
    let v := free (Config.freeBool s.freeCtr)
    (v.1, v.2.1, v.2.2.packetOut (.pkg (Fin.ofNat 16 p)) (pa / 64))
  | .gport _ _ => free (Config.freeBool s.freeCtr)
  | .undec b => (List.replicate n 0, true, s.undecodable b pa)
  | .none => (List.replicate n 0, true, s.undecodable 353 pa)

/-- A write that is performed at a port, another package or nowhere, of bytes within one line (R186, R298, R334). -/
def State.ncWrite (s : State) (pa : Nat) (bs : List Byte) (ks : Nat) : State :=
  match s.route pa with
  | .local d ofs => s.lsWrite d ofs bs none
  | .port p dev =>
    s.portPut p (dev / 64 * 64) (lineMask (pa % 64) bs.length) (lineSet 0 (pa % 64) bs) false false ks
  | .pkg p => s.packetOut (.pkg (Fin.ofNat 16 p)) (pa / 64)
  | .gport r dev => { s with answer := some (.post r dev bs) }
  | .undec b => s.undecodable b pa
  | .none => s.undecodable 353 pa

/-- A data read of bytes within one line by a thread's die (R71, R186, R213): the bytes, whether they are poisoned, and
the state after. A read that another agent serves is marked while the die's ADVANCE is due, so it promotes the die first. -/
def State.readIn (s : State) (d pa n ks : Nat) : List Byte × Bool × State :=
  match s.lsOf pa with
  | some (x, ofs) => (if x = d then s else s.promote d).lsRead x ofs n (some d)
  | none =>
    if s.cacheable pa && !s.homeless pa then
      let line := pa / 64
      let s := if s.dieHas d line then s else ((s.acqShared line d ks).promote d).l3Fill d 0 line
      let s := s.holdEnd d line
      let roll := match s.domOf pa with | some k => s.rolling k | none => false
      let v := s.coherent line ks
      (lineGet v.data (pa % 64) n, v.poison || roll, if v.free then s.tick else s)
    else (s.promote d).ncRead pa n ks

/-- A data read of bytes from pa up, line by line. -/
def State.readBytes (s : State) (d : Nat) : Nat → Nat → Nat → Nat → List Byte × Bool × State
  | 0, _, _, _ => ([], false, s)
  | fuel + 1, pa, n, ks =>
    if n = 0 then ([], false, s)
    else
      let k := Nat.min n (64 - pa % 64)
      let v := s.readIn d pa k ks
      let w := State.readBytes v.2.2 d fuel (pa + k) (n - k) ks
      (v.1 ++ w.1, v.2.1 || w.2.1, w.2.2)

/-- The undo entry for a line as it now stands (R217, R239). -/
def State.undoOf (s : State) (line dom take : Nat) : UndoEntry :=
  let r := s.line line
  let v := s.coherent line r.kslot
  { line := line, dom := Fin.ofNat 8 dom, kslot := r.kslot, poison := v.poison, take := take, data := v.data }

/-- The undo capture of R217 for a store of take T by die d to a line of domain dom it owns. An
entry for a line homed elsewhere travels to its home (R233). -/
def State.captureL2 (s : State) (line d dom take : Nat) : State :=
  let r := s.line line
  let par := take % 2 == 1
  if r.pd && r.parity == par then s
  else
    let s := if r.pd then
        let v := s.coherent line r.kslot
        { s with swbOut := s.swbOut ++ [SwbOut.mk d dom line v.data v.poison r.kslot false] }
      else s
    let s := { s with undoOut := s.undoOut ++ [(d, s.undoOf line dom take)] }
    (s.setLine line { r with pd := true, parity := par, dom := dom, undoP := r.undoP ++ [d] })

/-- A line's value takes bytes at an address of it. -/
def State.putBytes (s : State) (pa : Nat) (bs : List Byte) (ks : Nat) : State :=
  let line := pa / 64
  let r := s.line line
  let v := s.coherent line ks
  let s := s.setLine line { r with data := some (lineSet v.data (pa % 64) bs), poison := v.poison }
  if v.free then s.tick else s

/-- A store of a thread becomes globally visible (R71, R148, R186, R214): bytes within one line. clu is the cluster whose
L2 takes it. A grant or the completion of an access elsewhere promotes the die first (R213); a domain that is rolling back
discards the write (R237). -/
def State.storeIn (s : State) (d clu pa : Nat) (bs : List Byte) (ks : Nat) : State :=
  match s.lsOf pa with
  | some (x, ofs) => (if x = d then s else s.promote d).lsWrite x ofs bs (some d)
  | none =>
    if s.cacheable pa && !s.homeless pa then
      let line := pa / 64
      let own := (s.line line).stOf d == .m || (s.line line).stOf d == .e
      let s := s.acqOwn line d ks
      let s := (if own then s else s.promote d).holdEnd d line
      match s.domOf pa with
      | some k =>
        if s.rolling k then s.inc (F.TDn_DISC_COUNT k) 1
        else
          let take := (s.view d k).toNat
          (((s.captureL2 line d k take).putBytes pa bs ks).l2Dirtied clu line).listWrite clu line k (take % 2 == 1)
      | none => (s.putBytes pa bs ks).l2Dirtied clu line
    else (s.promote d).ncWrite pa bs ks

/-- A write performed at home by an agent other than a cluster L2 (R231): bytes within one line, of the agent's write n. It waits
at the home while the line is not at rest, its undo entry has no room, or an earlier write of the agent waits (R353). -/
def State.homeWrite (s : State) (agent n pa : Nat) (bs : List Byte) (ks : Nat) : State :=
  match s.lsOf pa with
  | some (x, ofs) => s.lsWrite x ofs bs none
  | none =>
    if s.cacheable pa && s.homedHere pa then
      let r := s.line (pa / 64)
      if r.queue == [] && s.wrClear agent n pa then s.homeWriteNow agent pa bs ks
      else s.setLine (pa / 64) { r with queue := r.queue ++ [.wr agent n pa bs ks] }
    else s.ncWrite pa bs ks

/-- A line's value under the writes that wait at its home. -/
def State.homeVal (s : State) (line ks : Nat) : LineVal :=
  (s.line line).queue.foldl (fun v q => match q with
    | .wr _ _ pa bs _ => { v with data := lineSet v.data (pa % 64) bs }
    | _ => v) (s.coherent line ks)

/-- A read performed at home without caching (SNP_CUR, R193): bytes within one line; a domain that is rolling back
answers poison (R237). The answer to an agent whose ADVANCE is due promotes it (R213). -/
def State.homeRead (s : State) (agent pa n ks : Nat) : List Byte × Bool × State :=
  let s := s.promote (viewAgent agent)
  match s.lsOf pa with
  | some (x, ofs) => s.lsRead x ofs n none
  | none =>
    if s.cacheable pa && s.homedHere pa then
      let roll := match s.domOf pa with | some k => s.rolling k | none => false
      let v := s.homeVal (pa / 64) ks
      (lineGet v.data (pa % 64) n, v.poison || roll, if v.free then s.tick else s)
    else s.ncRead pa n ks

/-- The bytes of an agent's write n at home from pa up, line by line. -/
def State.homePieces (s : State) (agent n : Nat) : Nat → Nat → List Byte → Nat → State
  | 0, _, _, _ => s
  | fuel + 1, pa, bs, ks =>
    if bs.isEmpty then s
    else
      let k := 64 - pa % 64
      State.homePieces (s.homeWrite agent n pa (bs.take k) ks) agent n fuel (pa + (bs.take k).length) (bs.drop k) ks

/-- A write of an agent at home: bytes from pa up. -/
def State.homeWrites (s : State) (agent fuel pa : Nat) (bs : List Byte) (ks : Nat) : State :=
  let s := s.homePieces agent s.nextId fuel pa bs ks
  if s.wrWaits agent == [] then s else { s with nextId := s.nextId + 1 }

/-- Bytes read at home from pa up, line by line. -/
def State.homeReads (s : State) (agent : Nat) : Nat → Nat → Nat → Nat → List Byte × Bool × State
  | 0, _, _, _ => ([], false, s)
  | fuel + 1, pa, n, ks =>
    if n = 0 then ([], false, s)
    else
      let k := Nat.min n (64 - pa % 64)
      let v := s.homeRead agent pa k ks
      let w := State.homeReads v.2.2 agent fuel (pa + k) (n - k) ks
      (v.1 ++ w.1, v.2.1 || w.2.1, w.2.2)

/-- The view agent number of an engine of the H-die that is none (DESIGN CHOICE, log 65). -/
def hubAgent : Nat := 52

end Sys2Proof.Machine
end

