-- ==== Sys2Proof/Machine/Coherence.lean ====
section
/-!
DEFINITION. The Kraly coherence messages as commands (R190, R193 to R201, R244): what the home does on a request, what a
C-die does on a snoop, and what each answer, grant and eviction does. A command for a message that no one has sent, or
that must wait, changes nothing (DESIGN CHOICE, log 5).
-/
namespace Sys2Proof.Machine

/-! What a die waits for. -/

/-- Whether a thread of a die waits for a line (R153, R154): else the request is the L2 prefetcher's. -/
def State.demand (s : State) (d line : Nat) : Bool :=
  s.miss.any fun c => cacheDie c.1 == d && c.2.any fun e => e.line == line && (c.1 < 480 || e.who < 5)

/-- The miss entries of a die for a line are freed. -/
def State.missFree (s : State) (d line : Nat) : State :=
  if s.miss.any fun c => cacheDie c.1 == d && c.2.any fun e => e.line == line then
    { s with
      miss := SMap.keep (fun _ l => l != []) (SMap.mapv (fun k l =>
        if cacheDie k == d then l.filter (fun e => e.line != line) else l) s.miss) }
  else s

/-- Whether an L2 has a miss entry for a requester (R154): 32 guaranteed to each core (who 0 to 3) and to the sift unit (4), 96
shared by these and the prefetcher (5), which holds at most 64. -/
def l2MissRoom (l : List MissEnt) (who : Nat) : Bool :=
  let n (w : Nat) : Nat := (l.filter fun e => e.who == w).length
  let shared := n 5 + ((List.range 5).map fun w => n w - 32).sum
  if who = 5 then n 5 < 64 && shared < 96 else n who < 32 || shared < 96

/-- A miss entry is taken at a cache. -/
def State.missTake (s : State) (k line who : Nat) : State :=
  { s with miss := SMap.put s.miss k (SMap.get [] s.miss k ++ [⟨line, who⟩]) }

/-- The L2 whose prefetcher makes a request of a die that no thread of it waits for: a free one (DESIGN CHOICE, log 66). -/
def State.prefetcher (s : State) (d : Nat) : Nat := l2No (5 * d + Config.freeNat s.freeCtr % 5)

/-- A die's request for a line goes out: a prefetch takes a miss entry of its L2, without which it is not made (R154). One for a
line in the die's eviction buffer waits for EVA (R200). -/
def State.dieAsks (s : State) (d : DieNo) (line : Nat) (req : HomeReq) (vict : Option Nat) : State :=
  if !s.cacheable (line * 64) || (SMap.find? (s.line line).evict d.val).isSome then s
  else if s.demand d.val line then s.homeReq (.die d) line req vict
  else
    let k := s.prefetcher d.val
    if l2MissRoom (SMap.get [] s.miss k) 5 then
      (if s.hears (.die d) then s.tick.missTake k line 5 else s).homeReq (.die d) line req vict
    else s

/-- A request of a package. -/
def State.pkgAsks (s : State) (a : Agent) (line : Nat) (req : HomeReq) (vict : Option Nat) : State :=
  if a = .hub || !s.cacheable (line * 64) then s else s.homeReq a line req vict

/-- RD_S (R193). -/
def execRdS (a : Agent) (line : LineNo) (vict : Option LineNo) (s : State) : Res :=
  .next (match a with
    | .die d => if (s.line line).stOf d.val = .i then s.dieAsks d line (.rdS a) vict else s
    | _ => s.pkgAsks a line (.rdS a) vict)

/-- RD_X (R193). -/
def execRdX (a : Agent) (line : LineNo) (vict : Option LineNo) (s : State) : Res :=
  .next (match a with
    | .die d => if (s.line line).stOf d.val = .i then s.dieAsks d line (.rdX a) vict else s
    | _ => s.pkgAsks a line (.rdX a) vict)

/-- UPG (R190, R193). -/
def execUpg (a : Agent) (line : LineNo) (vict : Option LineNo) (s : State) : Res :=
  .next (match a with
    | .die d =>
      let x := (s.line line).stOf d.val
      if x = .m || x = .e then s else s.dieAsks d line (.upg a) vict
    | _ => s.pkgAsks a line (.upg a) vict)

/-- Whether an access of a package lands in a local store, which other packages cannot reach (R187). -/
def State.pkgLs (s : State) (a : Agent) (pa : Nat) : Bool := agentDie a == none && (s.lsOf pa).isSome

/-- RD_NC (R195): the current value is read without caching; a line a die owns is read by SNP_CUR (R193). -/
def execRdNc (a : Agent) (pa size : Nat) (s : State) : Res :=
  .next (if !s.hears a then s.stale a
    else if !s.reaches a then s
    else if s.pkgLs a pa then (s.undecodable 353 pa).grantNc a (pa / 64) (some (List.replicate size 0, true))
    else if s.cacheable pa && s.homedHere pa then s.homeReq a (pa / 64) (.cur a) none
    else
      let v := s.homeRead (s.viewNo a) pa size 0
      v.2.2.grantNc a (pa / 64) (some (v.1, v.2.1)))

/-- WR_NC (R195, R231): the write is performed and captured at home under the writing agent's view. -/
def execWrNc (a : Agent) (view : ViewAgent) (pa : Nat) (data : List Byte) (s : State) : Res :=
  .next (if !s.hears a then s.stale a
    else if !s.reaches a then s
    else if s.pkgLs a pa then (s.undecodable 353 pa).grantNc a (pa / 64) none
    else (s.homeWrites view.val (data.length + 1) pa data 0).grantNc a (pa / 64) none)

/-- LSR (R187): the H-die passes a local-store read to the store's die, or answers poison for one that is not RUNNING. -/
def execLsr (d : DieNo) (pa size : Nat) (s : State) : Res :=
  .next (if !s.hears (.die d) then s.stale (.die d)
    else if !s.linked d.val then s
    else match s.lsOf pa with
      | some (x, _) =>
        if s.dieRunning x then
          let a := Agent.die (Fin.ofNat 12 x)
          s.post {
            kind := .snpLsr, agent := a, line := pa, marked := s.marks a, req := d.val, bytes := List.replicate size 0,
            poison := false, nc := true }
        else s.grantNc (.die d) (pa / 64) (some (List.replicate size 0, true))
      | none => s)

/-- LSW (R187). A write to the store of a die that is not RUNNING is discarded. -/
def execLsw (d : DieNo) (pa : Nat) (data : List Byte) (s : State) : Res :=
  .next (if !s.hears (.die d) then s.stale (.die d)
    else if !s.linked d.val then s
    else match s.lsOf pa with
      | some (x, _) =>
        if s.dieRunning x then
          let a := Agent.die (Fin.ofNat 12 x)
          s.post {
            kind := .snpLsw, agent := a, line := pa, marked := s.marks a, req := d.val, bytes := data, poison := false, nc := true }
        else s.grantNc (.die d) (pa / 64) none
      | none => s)

/-- A snoop must wait in the die's queue: for the hold window, for UNDO_ACC, or between GO and DAT (R198, R201, R218). -/
def LineRec.snoopWaits (r : LineRec) (d : Nat) : Bool :=
  r.hold.contains d || r.undoP.contains d || ((SMap.find? r.gotGo d).isSome && (SMap.find? r.gotDat d).isNone)

/-- A die's copy of a line after a snoop, and the die's caches without it where it is gone. -/
def State.snooped (s : State) (d line : Nat) (x : LineSt) : State :=
  let s := if x = .i then s.forget d line else s
  s.setLine line ((s.line line).setSt d x)

/-- A snoop of a line homed in another package, which this package's entry sends to a die it names (R205): the die's copy and the
entry follow, and the package's one answer leaves when no named die is left to answer. The home takes the line's data with
it. -/
def State.snoopFar (s : State) (d : DieNo) (line : Nat) (after : LineSt → LineSt) : State :=
  let r := s.line line
  if !r.dp.contains d.val || r.snoopWaits d.val || !s.dieRunning d.val || !s.linked d.val then s
  else
    let x := after (r.stOf d.val)
    let s := s.snooped d.val line x
    let r := s.line line
    let r := if x = .i then r.dropAgent (.die d) else { r with dir := .shared }
    let s := s.setLine line (if r.dir = .free then { r with data := none, poison := false, pd := false } else { r with pd := false })
    if x = .i && r.dir != .free then s else s.packetOut (.pkg (Fin.ofNat 16 (homeP (line * 64)))) line

/-- A die handles a snoop (R190, R200): its answer by its state, and the state after. -/
def State.snoop (s : State) (k : MsgKind) (d : DieNo) (line : Nat) (after : LineSt → LineSt)
    (answer : LineSt → MsgKind) : State :=
  let r := s.line line
  if !s.homedHere (line * 64) then s.snoopFar d line after
  else if !s.hasMsg k (.die d) line || r.snoopWaits d.val || !s.dieRunning d.val || !s.linked d.val then s
  else
    let s := s.recv k (.die d) line
    let r := s.line line
    if (SMap.find? r.evict d.val).isSome then s.send .rspEvx (.die d) line
    else
      let x := r.stOf d.val
      (s.snooped d.val line (after x)).send (answer x) (.die d) line

/-- SNP_S (R190). -/
def execSnpS (d : DieNo) (line : LineNo) (s : State) : Res :=
  .next (s.snoop .snpS d line (fun x => if x = .i then .i else .s)
    fun x => match x with | .m => .fwd true | .e => .fwd false | .f => .fwd false | .s => .rspS | .i => .rspI)

/-- SNP_X (R190). -/
def execSnpX (d : DieNo) (line : LineNo) (s : State) : Res :=
  .next (s.snoop .snpX d line (fun _ => .i)
    fun x => match x with | .m => .fwd true | .e => .fwd false | .f => .fwd false | .s => .rspI | .i => .rspI)

/-- SNP_CUR (R190). -/
def execSnpCur (d : DieNo) (line : LineNo) (s : State) : Res :=
  .next (s.snoop .snpCur d line (fun x => x)
    fun x => match x with | .m => .fwd true | .e => .fwd false | .f => .fwd false | .s => .rspS | .i => .rspI)

/-- SNP_BINV (R190). -/
def execSnpBinv (d : DieNo) (line : LineNo) (s : State) : Res :=
  .next (s.snoop .snpBinv d line (fun _ => .i) fun x => if x = .m then .wbd else .rspI)

/-- The oldest local-store access on its way to a die at an address. -/
def State.lsMsg (s : State) (k : MsgKind) (d : DieNo) (pa : Nat) (p : List Byte → Bool) : Option Msg :=
  List.find? (fun m => m.kind == k && m.agent == Agent.die d && m.line == pa && p m.bytes) s.msgs

/-- SNP_LSR (R195): the store's die performs the read and the requester's completion goes out. -/
def execSnpLsr (d : DieNo) (pa size : Nat) (s : State) : Res :=
  .next (match s.lsMsg .snpLsr d pa fun b => b.length == size, s.lsOf pa with
    | some m, some (x, ofs) =>
      let s := { s with msgs := s.msgs.erase m }
      let v := (if m.marked then s.promote d.val else s).lsRead x ofs size none
      v.2.2.grantNc (.die (Fin.ofNat 12 m.req)) (pa / 64) (some (v.1, v.2.1))
    | _, _ => s)

/-- SNP_LSW (R195): the store's die performs the write. -/
def execSnpLsw (d : DieNo) (pa : Nat) (data : List Byte) (s : State) : Res :=
  .next (match s.lsMsg .snpLsw d pa fun b => b == data, s.lsOf pa with
    | some m, some (x, ofs) =>
      let s := { s with msgs := s.msgs.erase m }
      ((if m.marked then s.promote d.val else s).lsWrite x ofs data none).grantNc (.die (Fin.ofNat 12 m.req)) (pa / 64) none
    | _, _ => s)

/-- Whether an answer of the kind is due: sent by the die, or awaited from a package. -/
def State.due (s : State) (k : MsgKind) (a : Agent) (line : Nat) : Bool := s.reaches a && match a with
  | .die _ => s.hasMsg k a line
  | _ => true

/-- RSP_I (R195): the holder's copy is gone. -/
def execRspI (a : Agent) (line : LineNo) (s : State) : Res :=
  .next (if s.due .rspI a line && s.hears a then (s.recv .rspI a line).homeAnswer a line false false else s.stale a)

/-- RSP_S (R195). -/
def execRspS (a : Agent) (line : LineNo) (s : State) : Res :=
  .next (if s.due .rspS a line && s.hears a then (s.recv .rspS a line).homeAnswer a line false false else s.stale a)

/-- RSP_EVX (R201): the home waits for the eviction message unless it has it. -/
def execRspEvx (a : Agent) (line : LineNo) (s : State) : Res :=
  .next (if s.due .rspEvx a line && s.hears a then (s.recv .rspEvx a line).homeAnswer a line false true else s.stale a)

/-- Whether a home transaction waits for an agent's answer. -/
def LineRec.awaits (r : LineRec) (a : Agent) : Bool := match r.txn with
  | some t => t.snp.contains a
  | none => false

/-- FWD (R193, R195): the holder's data; a package's are the operand's, with their take tag. -/
def execFwd (a : Agent) (line : LineNo) (dirty : Bool) (far : FarData) (s : State) : Res :=
  .next (if s.due (.fwd dirty) a line && s.hears a then
      let s := s.recv (.fwd dirty) a line
      let s := if agentDie a == none && dirty && (s.line line).awaits a then s.pkgData a line far.data far.tag else s
      s.homeAnswer a line dirty false
    else s.stale a)

/-- A dirty line of a cutting take that reaches a die while its caches are swept is written back as they would (R217, R225). -/
def State.landed (s : State) (d line : Nat) : State :=
  let r := s.line line
  if r.pd && r.parity != (s.openTake r.dom % 2 == 1) && r.stOf d = .m then
    let v := s.coherent line r.kslot
    let s := { s with swbOut := s.swbOut ++ [SwbOut.mk d r.dom line v.data v.poison r.kslot false] }
    s.setLine line { r.setSt d .e with pd := false, data := if s.homedHere (line * 64) then none else r.data }
  else if r.pd && r.stOf d = .m then s.listWrite (60 + d) line r.dom r.parity
  else s

/-- A miss of a die completes when it holds GO and DAT (R197): the line comes into its L3, and the hold window of a demand miss
begins (R198). -/
def State.missDone (s : State) (d line : Nat) : State :=
  let r := s.line line
  match SMap.find? r.gotGo d, SMap.find? r.gotDat d with
  | some g, some dirty =>
    let x := if g = .e && dirty then .m else g
    let want := s.demand d line
    let s := (s.forget d line).setLine line { (r.setSt d x) with
      gotGo := SMap.del r.gotGo d, gotDat := SMap.del r.gotDat d,
      hold := if !want || r.hold.contains d then r.hold else r.hold ++ [d] }
    let s := (s.l3Fill d 0 line).landed d line
    (if want then s else s.missFree d line).homeRun line
  | _, _ => s

/-- The request of a die that a home in another package has answered is off the list, and the entry follows the grant (R205). -/
def LineRec.granted (r : LineRec) (d : DieNo) (st : LineSt) : LineRec :=
  match r.out.find? fun q => q.by == some (.die d) with
  | some q => { (r.addDp d.val) with out := r.out.erase q, dir := if st = .e then .owned else .shared, fh := none }
  | none => r

/-- Whether a message to a die may be there: on its way from this package's home, or due from another package's (R205). -/
def State.comes (s : State) (k : MsgKind) (d : DieNo) (line : Nat) : Bool :=
  s.dieRunning d.val && s.linked d.val && (if s.homedHere (line * 64) then s.hasMsg k (.die d) line
    else k != .goF && (s.line line).out.any fun q => q.by == some (.die d))

/-- A GO arrives (R190, R195): a held S or F copy needs no DAT. -/
def State.go (s : State) (k : MsgKind) (st : LineSt) (d : DieNo) (line : Nat) : State :=
  if !s.comes k d line then s
  else
    let s := if s.homedHere (line * 64) then s.recv k (.die d) line else s.fillRemote line 0
    let r := if s.homedHere (line * 64) then s.line line else (s.line line).granted d st
    let x := r.stOf d.val
    if st = .e && (x = .s || x = .f) then
      let want := s.demand d.val line
      s.setLine line { (r.setSt d.val .m) with
        hold := if !want || r.hold.contains d.val then r.hold else r.hold ++ [d.val] }
    else (s.setLine line { r with gotGo := SMap.put r.gotGo d.val st }).missDone d.val line

/-- GO_E (R190, R195). -/
def execGoE (d : DieNo) (line : LineNo) (s : State) : Res := .next (s.go .goE .e d line)
/-- GO_F (R189, R195). -/
def execGoF (d : DieNo) (line : LineNo) (s : State) : Res := .next (s.go .goF .f d line)
/-- GO_S (R189, R195). -/
def execGoS (d : DieNo) (line : LineNo) (s : State) : Res := .next (s.go .goS .s d line)

/-- A message of an access without caching reaches its die; a marked one promotes it first (R213). -/
def State.ncRecv (s : State) (m : Msg) : State :=
  let s := { s with msgs := s.msgs.erase m }
  if m.marked then s.promote (s.viewNo m.agent) else s

/-- GO_NC (R195): completion of an uncached access. -/
def execGoNc (d : DieNo) (s : State) : Res :=
  .next (match List.find? (fun m => m.kind == MsgKind.goNc && m.agent == Agent.die d) s.msgs with
    | some m => if s.dieRunning d.val && s.linked d.val then s.ncRecv m else s
    | none => s)

/-- DAT (R195, R197): of a miss, or the data of an access without caching. -/
def execDat (d : DieNo) (line : LineNo) (dirty : Bool) (s : State) : Res :=
  .next (if !s.comes (.dat dirty) d line then
      match List.find? (fun m => m.nc && m.kind == MsgKind.dat dirty && m.agent == Agent.die d && m.line == line) s.msgs with
      | some m => if s.dieRunning d.val && s.linked d.val then s.ncRecv m else s
      | none => s
    else
      let s := if s.homedHere (line * 64) then s.recv (.dat dirty) (.die d) line else s
      let r := s.line line
      (s.setLine line { r with gotDat := SMap.put r.gotDat d.val dirty }).missDone d.val line)

/-- EVA (R200): the eviction-buffer entry is freed. -/
def execEva (d : DieNo) (line : LineNo) (s : State) : Res :=
  .next (if (s.hasMsg .eva (.die d) line || !s.homedHere (line * 64)) && s.linked d.val then
      let s := s.recv .eva (.die d) line
      let r := s.line line
      s.setLine line { r with evict := SMap.del r.evict d.val }
    else s)

/-- The L3 of a die evicts a line (R185, R200): the die's caches drop it, the line moves to the eviction buffer and its WBD or EVC
is sent. -/
def State.l3Evict (s : State) (d : Nat) (line : Nat) (dirty : Bool) : State :=
  let s := s.forget d line
  let r := s.line line
  s.setLine line { (r.setSt d .i) with evict := SMap.put r.evict d ⟨dirty, false⟩ }

/-- A write-back or eviction notice is received at home (R193, R201, R202): kept with an active transaction, else
consumed. A line homed in another package leaves with the message (R205). -/
def State.homeEvict (s : State) (a : Agent) (line : Nat) (dirty : Bool) : State :=
  let r := s.line line
  if !s.homedHere (line * 64) then
    let r := r.dropAgent a
    (s.setLine line (if r.dir = .free then { r with data := none, poison := false, pd := false } else r)).packetOut
      (.pkg (Fin.ofNat 16 (homeP (line * 64)))) line
  else match r.txn with
  | some t =>
    let t := { t with evx := t.evx.filter fun x => x != a }
    (s.setLine line { r with evict := SMap.put r.evict (agentNo a) ⟨dirty, true⟩, txn := some t }).homeFinish line
  | none =>
    let s := if dirty then s.cleanLine line else s
    let s := s.setLine line ((s.line line).dropAgent a)
    s.send .eva a line

/-- A write-back of a domain that is rolling back is discarded at home and counted (R237). -/
def State.rollDrop (s : State) (line : Nat) : State :=
  match s.domOf (line * 64) with
  | some k =>
    if s.rolling k && s.homedHere (line * 64) then
      (s.setLine line { s.line line with data := none, poison := false, pd := false }).inc (F.TDn_DISC_COUNT k) 1
    else s
  | none => s

/-- Whether a die may give up a line: not while it is undo-pending (R218), and only where the eviction buffer has an entry, which
a line chosen before has (R200). -/
def State.mayEvict (s : State) (d line : Nat) : Bool :=
  !(s.line line).undoP.contains d && s.linked d && (s.evictCount d < 64 || (SMap.get [] s.victims d).contains line)

/-- WBD (R200, R202): a die's dirty victim leaves through the eviction buffer, or it answers SNP_BINV; from another
package it carries its data and take tag, and for a domain that does not span its undo is captured at home (R232). -/
def execWbd (a : Agent) (line : LineNo) (far : FarData) (s : State) : Res :=
  .next (if !s.hears a then s.stale a
    else match agentDie a with
      | some d =>
        let r := s.line line
        if s.due .wbd a line then ((s.recv .wbd a line).rollDrop line).homeAnswer a line true false
        else if r.stOf d = .m && s.mayEvict d line then ((s.l3Evict d line true).rollDrop line).homeEvict a line true
        else s
      | none =>
        if (s.line line).present a then
          if (s.line line).awaits a && (match (s.line line).txn with | some ⟨.binv _, _, _, _⟩ => true | _ => false) then
            ((s.pkgData a line far.data far.tag).rollDrop line).homeAnswer a line true false
          else ((s.pkgData a line far.data far.tag).rollDrop line).homeEvict a line true
        else s)

/-- EVC (R200). -/
def execEvc (a : Agent) (line : LineNo) (s : State) : Res :=
  .next (if !s.hears a then s.stale a
    else match agentDie a with
      | some d =>
        let x := (s.line line).stOf d
        if (x = .e || x = .f || x = .s) && s.mayEvict d line then (s.l3Evict d line false).homeEvict a line false
        else s
      | none => if (s.line line).present a then s.homeEvict a line false else s)

/-- The hold window ends (R198). -/
def execHoldWindowEnd (d : DieNo) (line : LineNo) (s : State) : Res :=
  .next (s.holdEnd d.val line)

end Sys2Proof.Machine
end

