-- ==== Sys2Proof/Machine/Takes.lean ====
section
/-!
DEFINITION. The take controller's commands (R207 to R244): undo and SWB messages, the steps of a cut, group cuts, reel
blocks and records, online rollback, and the writes of TDn_CFG, TDn_SEG1 and TDn_CMD.
-/
namespace Sys2Proof.Machine

/-- Whether a line lies in a domain that spans the group and is homed here, so that another package's UNDO and SWB for it come
here (R233). -/
def State.spansHere (s : State) (dom line : Nat) : Bool := s.flag (F.TDn_CFG_SPAN dom) && s.homedHere (line * 64)

/-- UNDO (R217, R219, R221, R233): the home's controller accepts an entry a die has sent, or another package, unless it has no room
or the line's SWB has not arrived. An entry for a line homed elsewhere leaves over a P-link. -/
def execUndo (a : Agent) (e : UndoEntry) (s : State) : Res :=
  .next (if !s.hears a then s.stale a
    else match a with
      | .die d =>
        if !s.linked d.val || !s.undoOut.contains (d.val, e) || (s.swbOut.any fun m => m.line == e.line && !m.sent) then s
        else if !s.homedHere (e.line * 64) then
          ({ s with undoOut := s.undoOut.erase (d.val, e) }).packetOut (.pkg (Fin.ofNat 16 (homeP (e.line * 64)))) e.line
        else if !s.undoRoom e.dom.val e.take then s
        else (({ s with undoOut := s.undoOut.erase (d.val, e) }).acceptUndo e).send .undoAcc a e.line
      | _ =>
        if s.spansHere e.dom.val e.line && s.undoRoom e.dom.val e.take then (s.acceptUndo e).send .undoAcc a e.line else s)

/-- UNDO_ACC (R218): the line stops being undo-pending, and what waited for it goes on. -/
def execUndoAcc (d : DieNo) (line : LineNo) (s : State) : Res :=
  .next (if s.linked d.val && (s.hasMsg .undoAcc (.die d) line || !s.homedHere (line * 64)) then
      let s := s.recv .undoAcc (.die d) line
      let r := s.line line
      (s.setLine line { r with undoP := r.undoP.erase d.val }).homeRun line
    else s)

/-- A line of the cutting take arrives at its home and is held (R220, R225), or discarded and counted while its domain rolls back
(R237). -/
def State.takeSwb (s : State) (line : Nat) (v : LineData) (poison : Bool) (ks dom : Nat) : State :=
  if s.rolling dom then s.inc (F.TDn_DISC_COUNT dom) 1 else s.hold line v poison ks dom

/-- SWB (R225, R233): the home receives a line of the cutting take and holds it. One for a line homed elsewhere leaves over a
P-link. -/
def execSwb (a : Agent) (dom : Dom) (m : SwbData) (s : State) : Res :=
  let line := m.line
  .next (if !s.hears a then s.stale a
    else match a with
      | .die d => match List.find? (fun m => m.die == d.val && m.dom == dom.val && m.line == line && !m.sent) s.swbOut with
        | some m =>
          if !s.linked d.val then s
          else if s.homedHere (line * 64) then
            (({ s with swbOut := s.swbOut.erase m }).takeSwb line m.data m.poison m.kslot m.dom).send .swbAcc a line
          else
            ({ s with swbOut := s.swbOut.map fun x => if x == m then { x with sent := true } else x }).packetOut
              (.pkg (Fin.ofNat 16 (homeP (line * 64)))) line
        | none => s
      | _ =>
        if s.spansHere dom.val line then
          let v := m.data.getD (Config.freeLine s.freeCtr)
          let s := if m.data.isNone then s.tick else s
          (s.takeSwb line v false (s.line line).kslot dom.val).send .swbAcc a line
        else s)

/-- SWB_ACC (R244): the sender learns that its SWB was accepted. -/
def execSwbAcc (d : DieNo) (line : LineNo) (s : State) : Res :=
  .next (if !s.linked d.val then s
    else if s.homedHere (line * 64) then s.recv .swbAcc (.die d) line
    else { s with swbOut := s.swbOut.eraseP fun m => m.die == d.val && m.line == line && m.sent })

/-- ADVANCE (R212): an agent moves its view to the open take. -/
def execAdvance (a : ViewAgent) (dom : Dom) (s : State) : Res :=
  .next (if (s.dom dom.val).acks.contains a.val then
      s.setView a.val dom.val (BitVec.ofNat 64 (s.openTake dom.val))
    else s)

/-- Whether a write of an agent to a domain is not accepted at its home yet (R212). -/
def State.writing (s : State) (agent dom : Nat) : Bool :=
  s.lines.any fun c => s.domOf (c.1 * 64) == some dom && c.2.queue.any fun q => match q with
    | .wr b _ _ _ _ => b == agent
    | _ => false

/-- ADV_ACK (R212, R224): an agent other than a C-die answers once its writes are accepted; the last answer starts the sweep of a
cut. -/
def execAdvAck (a : ViewAgent) (dom : Dom) (s : State) : Res :=
  let x := s.dom dom.val
  .next (if x.acks.contains a.val && (s.view a.val dom.val).toNat == s.openTake dom.val && !s.writing a.val dom.val then
      let s := s.setDom dom.val { x with acks := x.acks.filter fun y => y != a.val }
      if (s.dom dom.val).acks == [] && x.step = .advance then s.cutSweep dom.val else s
    else s)

/-- The C-die of a cache structure. -/
def sliceDie : Slice → Nat
  | .l2 c => c.val / 5
  | .l3 d _ => d.val
/-- A number for a cache structure: L2s 0 to 59, L3 slices from 60. -/
def sliceNo : Slice → Nat
  | .l2 c => c.val
  | .l3 d k => 60 + 16 * d.val + k.val

/-- Whether a line's copy on a die belongs to a structure: the L2 that holds it dirty, or its L3 slice (R184, R225). -/
def State.inSlice (s : State) (line : Nat) : Slice → Bool
  | .l2 c => s.l2Holds c.val line
  | .l3 d k => s.dieHas d.val line && sliceOf line == k.val

/-- A structure writes back one line of the cutting take: SWB goes out and a clean copy stays (R225). -/
def State.sweepLine (s : State) (d dom line : Nat) : State :=
  let r := s.line line
  let v := s.coherent line r.kslot
  let s := { s with swbOut := s.swbOut ++ [SwbOut.mk d dom line v.data v.poison r.kslot false] }
  let r := if r.stOf d = .m then r.setSt d .e else r
  (s.l2Clean d line).setLine line { r with pd := false, data := if s.homedHere (line * 64) then none else r.data }

/-- Whether a line is dirty with a take of a domain. -/
def LineRec.dirtyIn (r : LineRec) (dom : Nat) (par : Bool) : Bool := r.pd && r.dom == dom && r.parity == par

/-- SWEEP (R225, R226): an L2 writes back every line of the cutting take; an L3 slice does so once the five L2s of its die
have answered. A line that is undo-pending (R218), or on its way between dies, keeps a structure at its sweep. -/
def execSweep (u : Slice) (dom : Dom) (s : State) : Res :=
  let x := s.dom dom.val
  let d := sliceDie u
  let par := s.openTake dom.val % 2 == 0
  let mine := s.lines.filter fun c => c.2.dirtyIn dom.val par && c.2.stOf d != .i && s.inSlice c.1 u
  let waits := (mine.any fun c => c.2.undoP.contains d) || match u with
    | .l2 _ => false
    | .l3 _ _ => s.lines.any fun c => c.2.dirtyIn dom.val par && c.2.data.isSome && c.2.st.all fun e => e.2 == .i
  let asked := match u with
    | .l2 c => x.l2Left.contains c.val
    | .l3 e k => x.l3Left.contains (16 * e.val + k.val) && !(x.l2Left.any fun c => c / 5 == d)
  .next (if x.step = .sweep && asked && !x.did.contains (sliceNo u) && !waits then
      let s := mine.foldl (fun s c => s.sweepLine d dom.val c.1) s
      let x := s.dom dom.val
      (s.setDom dom.val { x with did := x.did ++ [sliceNo u] }).listFree u dom.val par
    else s)

/-- Once every structure has answered SWEPT: markers go out; a member answers G_SWEPT; the lead waits for its members
(R224, R234). -/
def State.sweepEnd (s : State) (d : Nat) : State :=
  let x := s.dom d
  if x.step = .sweep && x.l2Left == [] && x.l3Left == [] then
    if s.follows d then s.setDom d { x with step := .gSwept }
    else if x.pkgLeft == [] then
      let s := s.cutMarker d
      let s := if s.leads d then s.setDom d { s.dom d with pkgLeft := s.others } else s
      s.cutRecord d
    else s.setDom d { x with step := .gWaitSwept }
  else s

/-- SWEPT (R224): the controller collects the answer of a structure whose SWBs have arrived (DEDUCED, log 7). -/
def execSwept (u : Slice) (dom : Dom) (s : State) : Res :=
  let x := s.dom dom.val
  .next (if x.step = .sweep && x.did.contains (sliceNo u)
      && !(s.swbOut.any fun m => m.die == sliceDie u && m.dom == dom.val) then
      (s.setDom dom.val { x with
        did := x.did.filter fun y => y != sliceNo u,
        l2Left := match u with | .l2 c => x.l2Left.filter fun y => y != c.val | .l3 _ _ => x.l2Left,
        l3Left := match u with
          | .l2 _ => x.l3Left
          | .l3 e k => x.l3Left.filter fun y => y != 16 * e.val + k.val }).sweepEnd dom.val
    else s)

/-- A die drops a line without writing it back (R237). -/
def State.purgeLine (s : State) (d line : Nat) : State :=
  let r := s.line line
  let dirty := r.stOf d = .m || r.pd
  let r := (r.setSt d .i).dropAgent (.die (Fin.ofNat 12 d))
  (s.forget d line).setLine line { r with
    undoP := r.undoP.filter fun x => x != d, data := if dirty then none else r.data, pd := false, poison := false }

/-- PURGE (R237): a structure drops every line of the domain. -/
def execPurge (u : Slice) (dom : Dom) (s : State) : Res :=
  let x := s.dom dom.val
  let d := sliceDie u
  let asked := match u with
    | .l2 c => x.purgeL2.contains c.val
    | .l3 e k => x.purgeL3.contains (16 * e.val + k.val)
  .next (if s.rolling dom.val && asked && !x.did.contains (sliceNo u) then
      let mine := s.lines.filter fun c => s.domOf (c.1 * 64) == some dom.val && s.inSlice c.1 u
      let s := mine.foldl (fun s c => s.purgeLine d c.1) s
      let x := s.dom dom.val
      s.setDom dom.val { x with did := x.did ++ [sliceNo u] }
    else s)

/-- Steps 3 and 4 of R237 once every structure has purged: held writes of the domain are discarded and its staged blocks
go to the reel. -/
def State.purgeEnd (s : State) (d : Nat) : State :=
  let x := s.dom d
  if s.rolling d && x.purgeL2 == [] && x.purgeL3 == [] && !x.rollRun then
    let s := s.setHeld (s.mem.held.filter fun h => h.dom != d)
    let s := { s with undoOut := s.undoOut.filter fun m => m.2.dom.val != d }
    let s := (s.staged.filter fun u => u.ent.dom.val == d).foldl (fun s u =>
      if s.staged.any fun v => v.seq == u.seq then s.flushOne d u.ent.take else s) s
    s.setDom d { s.dom d with rollRun := true }
  else s

/-- PURGED (R237): the controller collects the answer. -/
def execPurged (u : Slice) (dom : Dom) (s : State) : Res :=
  let x := s.dom dom.val
  .next (if s.rolling dom.val && x.did.contains (sliceNo u) then
      (s.setDom dom.val { x with
        did := x.did.filter fun y => y != sliceNo u,
        purgeL2 := match u with | .l2 c => x.purgeL2.filter fun y => y != c.val | .l3 _ _ => x.purgeL2,
        purgeL3 := match u with
          | .l2 _ => x.purgeL3
          | .l3 e k => x.purgeL3.filter fun y => y != 16 * e.val + k.val }).purgeEnd dom.val
    else s)

/-- G_ADVANCE (R234): a member runs the advance and sweep for the take that the lead closes. -/
def execGAdvance (dom : Dom) (take : Word) (s : State) : Res :=
  .next (if s.domEn dom.val && s.follows dom.val && (s.dom dom.val).step = .idle && !s.spoiled dom.val
      && !s.rolling dom.val && s.openTake dom.val == take.toNat then s.cutStart dom.val else s)

/-- G_SWEPT (R234): the lead collects phase-1 answers; after the last, phase 2 begins. -/
def execGSwept (p : Fin 16) (dom : Dom) (s : State) : Res :=
  let x := s.dom dom.val
  .next (if s.leads dom.val && x.pkgLeft.contains p.val
      && (x.step = .advance || x.step = .sweep || x.step = .gWaitSwept) then
      let s := s.setDom dom.val { x with pkgLeft := x.pkgLeft.filter fun y => y != p.val }
      if (s.dom dom.val).pkgLeft == [] && x.step = .gWaitSwept then
        let s := s.cutMarker dom.val
        (s.setDom dom.val { s.dom dom.val with pkgLeft := s.others }).cutRecord dom.val
      else s
    else s)

/-- G_PREPARE (R234): a member runs step 4 and then writes its PREPARE record. -/
def execGPrepare (dom : Dom) (take : Word) (s : State) : Res :=
  .next (if s.follows dom.val && (s.dom dom.val).step = .gSwept && s.openTake dom.val == take.toNat + 1 then
      (s.cutMarker dom.val).cutRecord dom.val
    else s)

/-- G_PREPARED (R234): the lead collects phase-2 answers and writes the cut record. -/
def execGPrepared (p : Fin 16) (dom : Dom) (s : State) : Res :=
  let x := s.dom dom.val
  .next (if s.leads dom.val && x.pkgLeft.contains p.val && x.step = .marker then
      (s.setDom dom.val { x with pkgLeft := x.pkgLeft.filter fun y => y != p.val }).cutRecord dom.val
    else s)

/-- G_COMMIT (R234): a member writes a COMMIT record; the cut finishes when that is persistent. -/
def execGCommit (dom : Dom) (take : Word) (s : State) : Res :=
  let d := dom.val
  .next (if s.follows d && (s.dom d).step = .gPrepared && s.openTake d == take.toNat + 1 then
      (s.setDom d { s.dom d with step := .gCommit }).writeBlock d take.toNat .commit []
    else s)

/-- The lead of a spanning domain tells every other package something (R233 to R238). -/
def State.tell (s : State) (d : Nat) : State :=
  if s.leads d then s.others.foldl (fun s p => s.packetOut (.pkg (Fin.ofNat 16 p)) 0) s else s

/-- GROUP_CUT_TIMEOUT (R235): a member has not answered a phase within 1 ms, so the lead spoils the domain, on every package. -/
def execGroupCutTimeout (p : Fin 16) (dom : Dom) (s : State) : Res :=
  .next (if s.leads dom.val && (s.dom dom.val).pkgLeft.contains p.val then (s.spoil dom.val).tell dom.val else s)

/-- CUT_PERIOD_EXPIRY (R223): the timer triggers a cut where the open take has accepted an undo entry. -/
def execCutPeriodExpiry (dom : Dom) (s : State) : Res :=
  .next (if s.rd (F.TDn_CFG_PERIOD dom.val) != 0 && (s.dom dom.val).openUndo then s.cutTrigger dom.val else s)

/-- Whether a block being written may persist next: undo blocks in any order, a record only when no block of lower SEQ is
being written (R255). -/
def TakeDom.mayPersist (x : TakeDom) (b : ReelBlock) : Bool :=
  b.kind == .undo || x.blocksOut.head? == some b

/-- A block that was being written becomes persistent (R219, R239): its bytes lie in the reel, PERSISTED follows, held
writes go, and writes that waited for room at their homes go on. -/
def State.persistBlock (s : State) (d : Nat) (b : ReelBlock) : State :=
  let x := s.dom d
  let s := s.reelStore d b
  let ins := x.reel.filter (fun c => c.ofs != b.ofs)
  let s := s.setDom d { x with blocksOut := x.blocksOut.erase b, reel := reelInsert x.seqNext b ins }
  let s := s.releaseHeld
  let s := s.lines.foldl (fun s c => if c.2.queue == [] then s else s.homeRun c.1) s
  (List.range 8).foldl (fun s k => s.cutRecord k) s

/-- REEL_BLOCK_PERSIST (R219, R234): an undo block or record write completes; a persistent PREPARE record lets a member
answer, and a persistent COMMIT record ends its cut. -/
def execReelBlockPersist (dom : Dom) (seq : BitVec 32) (s : State) : Res :=
  let d := dom.val
  let x := s.dom d
  .next (match List.find? (fun b => b.seq == seq.toNat) x.blocksOut with
    | some b =>
      if x.mayPersist b && b.kind != .cut then
        let s := s.persistBlock d b
        if b.kind = .prepare && (s.dom d).step = .gPrepare then s.setDom d { s.dom d with step := .gPrepared }
        else if b.kind = .commit && (s.dom d).step = .gCommit then (s.cutFinish d b.take b).incSat F.DLY_CUTS_COUNT 1
        else s
      else s
    | none => s)

/-- REEL_BLOCK_ERROR (R236): a reel block write completes with an error and the domain is spoiled. -/
def execReelBlockError (dom : Dom) (seq : BitVec 32) (s : State) : Res :=
  .next (if (s.dom dom.val).blocksOut.any fun b => b.seq == seq.toNat then s.spoil dom.val else s)

/-- Whether a port has completed what a marker waits for (R302): queue entries and held writes older than the marker. -/
def State.markerMet (s : State) (port id dom : Nat) : Bool :=
  !((s.wq port).any fun e => e.id < id)
  && !(s.mem.held.any fun h => h.id < id && h.dom == dom && (match s.route (h.line * 64) with
    | .port n _ => n == port
    | _ => false))

/-- PERSISTENCE_MARKER_DONE (R224, R302): a port has completed what came before its marker. -/
def execPersistenceMarkerDone (port : Fin 16) (dom : Dom) (s : State) : Res :=
  let x := s.dom dom.val
  .next (match List.find? (fun m => m.1 == port.val) x.portsLeft with
    | some m =>
      if x.step = .marker && s.markerMet port.val m.2 dom.val then
        (s.setDom dom.val { x with portsLeft := x.portsLeft.filter fun y => y.1 != port.val }).cutRecord dom.val
      else s
    | none => s)

/-- CUT_RECORD_PERSIST (R224): the record write completes and the take is cut; the record of a cut that has been abandoned since
(R236) is persistent all the same (DESIGN CHOICE, log 67). -/
def execCutRecordPersist (dom : Dom) (s : State) : Res :=
  let d := dom.val
  let x := s.dom d
  .next (match x.blocksOut with
    | b :: _ =>
      if b.kind = .cut then
        let s := s.persistBlock d b
        if x.step = .record then ((s.cutFinish d b.take b).incSat F.DLY_CUTS_COUNT 1).tell d else s
      else s
    | [] => s)

/-- TD_CMD_CUT (R223). -/
def execTdCmdCut (dom : Dom) (s : State) : Res := .next (s.cutTrigger dom.val)

/-- The start of an online rollback (R237): ROLLING, and PURGE to every structure of the dies that are RUNNING. The lead of a
spanning domain passes the command on and waits for every member (R238). -/
def State.rollStart (s : State) (d : Nat) : State :=
  if s.spoiled d && !s.rolling d then
    let s := s.wr (F.TDn_STAT_ROLLING d) 1
    let dies := (List.range 12).filter s.dieRunning
    (s.setDom d { s.dom d with
      did := [], rollRun := false, pkgLeft := if s.leads d then s.others else [],
      purgeL2 := dies.flatMap fun x => (List.range 5).map fun k => 5 * x + k,
      purgeL3 := dies.flatMap fun x => (List.range 16).map fun k => 16 * x + k }).tell d |>.purgeEnd d
  else s

/-- TD_CMD_ROLLBACK (R237, R238): on a member the command does nothing of its own (DEDUCED, log 67). -/
def execTdCmdRollback (dom : Dom) (s : State) : Res := .next (if s.follows dom.val then s else s.rollStart dom.val)

/-- The writes of a line that a port's queue holds complete, in their order. -/
def State.wqLine (s : State) (n dev : Nat) : State :=
  let q := s.wq n
  if q.any fun e => e.dev == dev then
    let s := { s with mem := (q.filter fun (e : WqEnt) => e.dev == dev).foldl (fun m e => m.devComplete (devNo n dev) e) s.mem }
    s.setWq n (q.filter fun e => e.dev != dev)
  else s

/-- Rollback applies one undo entry as a whole-line write, or poison where its key is missing, after the line's earlier writes
(R257, R258). -/
def State.applyUndo (s : State) (e : UndoEntry) : State :=
  let lost := e.kslot != 0 && (SMap.find? s.keyIds e.kslot).isNone
  match s.route (e.line * 64) with
  | .port n dev =>
    let s := s.wqLine n dev
    let w : WqEnt := ⟨dev, BitVec.allOnes 64, e.data, e.poison || lost, s.keyOf e.kslot, true, false, 0⟩
    { s with mem := s.mem.devComplete (devNo n dev) w }
  | _ => s

/-- Rollback applies the entries of blocks, newest block first and within a block from the last entry down (R257). -/
def State.applyBlocks (s : State) (bs : List ReelBlock) : State :=
  bs.reverse.foldl (fun s b => b.ents.reverse.foldl (fun s e => s.applyUndo e) s) s

/-- A ROLLED record is written for a take (R237, R259), and the take is open. -/
def State.openRolled (s : State) (d take : Nat) : State :=
  let b : ReelBlock := ⟨(s.dom d).seqNext, take, .rolled, [], [], s.rd (F.TDn_HEAD_OFFSET d), s.slate, s.members d⟩
  let x := s.dom d
  let s := (s.reelStore d b).setDom d { x with reel := x.reel ++ [b], seqNext := (x.seqNext + 1) % 2 ^ 32 }
  let s := (s.headStep d).wr (F.TDn_TAKE_OPEN d) take
  s.setDom d { s.dom d with openUndo := false }

/-- ONLINE_ROLLBACK_DONE (R237, steps 4 to 7): entries of the spoiled takes are applied from the reel, the next take
opens and ADVANCE goes out for it. That of a member reaches the lead (R238). -/
def execOnlineRollbackDone (e : RollEnd) (s : State) : Res :=
  let d := e.dom.val
  let x := s.dom d
  .next (match e.p with
    | some q => if s.rolling d && s.leads d then s.setDom d { x with pkgLeft := x.pkgLeft.filter fun y => y != q.val } else s
    | none =>
      if s.rolling d && x.rollRun && x.blocksOut == [] && x.pkgLeft == [] && !(s.swbOut.any fun m => m.dom == d) then
        let s := s.applyBlocks (x.reel.filter fun b => b.kind == .undo && s.rd (F.TDn_SPOIL_FIRST d) ≤ b.take)
        let next := s.openTake d + 1
        let s := (s.openRolled d next).wr (F.TDn_RESUME_TAKE d) next
        let s := (s.wr (F.TDn_STAT_SPOILED d) 0).wr (F.TDn_STAT_ROLLING d) 0
        s.setDom d { s.dom d with rollRun := false, did := [], acks := s.viewAgents }
      else s)

/-- Whether every byte from a to b lies in valid regions that a reel may use (R209). -/
def State.reelCover (s : State) : Nat → Nat → Nat → Bool
  | 0, _, _ => false
  | fuel + 1, a, b =>
    if b ≤ a then true
    else match s.regionOf a with
      | some r =>
        r.mtype == mtPersistent && s.homedHere a && (r.reel || s.domEn r.domain)
        && s.flag (F.IS_CTLs_V r.iset)
        && (List.range (2 ^ s.rd (F.IS_CTLs_WAYS r.iset))).all (fun k => s.flag (F.MPn_CAP_PERSIST (s.isPort r.iset k)))
        && State.reelCover s fuel (r.last + 1) b
      | none => false

/-- The segments of a domain's reel as base and size in bytes. -/
def State.segments (s : State) (d : Nat) (two : Bool) : List (Nat × Nat) :=
  (2 ^ 30 * s.rd (F.TDn_SEG0_BASE d), s.seg0Size d)
    :: if two then [(2 ^ 30 * s.rd (F.TDn_SEG1_BASE d), s.seg1Size d)] else []

/-- The validation of R209, with the reasons of R243 in their order 3, 1, 2, 4; 0 when it passes. -/
def State.reelReason (s : State) (d : Nat) (two : Bool) : Nat :=
  let segs := s.segments d two
  let gib := s.rd (F.TDn_SEG0_GIB d) + if two then s.rd (F.TDn_SEG1_GIB d) else 0
  let others := ((List.range 8).filter fun k => k != d && s.domEn k).flatMap fun k => s.segments k (s.flag (F.TDn_SEG1_LINK k))
  if gib = 0 || 1024 < gib || (segs.any fun g => g.2 == 0) then 3
  else if !(segs.all fun g => s.reelCover 65 g.1 (g.1 + g.2)) then 1
  else if (segs.any fun g => others.any fun h => g.1 < h.1 + h.2 && h.1 < g.1 + g.2) then 2
  else if s.flag (F.TDn_CFG_SPAN d) && s.rd (F.TDn_CFG_LEAD d) != s.gpos && !s.member (s.rd (F.TDn_CFG_LEAD d)) then 4
  else 0

/-- A domain comes to exist (R208, R210, R254): with no matching anchor, a fresh one, take 1 and an empty reel.
TDn_SPOIL, TDn_RESUME and the other bits of TDn_STAT keep what they hold, of which no rule speaks (DESIGN CHOICE, log 73). -/
def State.domStart (s : State) (d : Nat) : State :=
  let s := s.wr (F.TDn_CFG_EN d) 1
  let x := s.dom d
  let link := s.flag (F.TDn_SEG1_LINK d)
  let kept := match x.anchor with
    | some a => a.base0 == s.rd (F.TDn_SEG0_BASE d) && a.gib0 == s.rd (F.TDn_SEG0_GIB d)
    | none => false
  if kept then s.setDom d { x with segIn := link || match x.anchor with | some a => a.seg1.isSome | none => false }
  else
    let q := Config.freeNat s.freeCtr % 2 ^ 32
    let s := s.tick.setDom d { TakeDom.reset with
      seqNext := q, segIn := link,
      anchor := some ⟨s.rd (F.TDn_SEG0_BASE d), s.rd (F.TDn_SEG0_GIB d),
        if link then some (s.rd (F.TDn_SEG1_BASE d), s.rd (F.TDn_SEG1_GIB d)) else none, (q, 0), none⟩ }
    let s := ((s.wr (F.TDn_TAKE_OPEN d) 1).wr (F.TDn_CUT_LAST d) 0).wr (F.TDn_CUTSLATE_SLATE d) 0
    let s := (s.wr (F.TDn_HEAD_OFFSET d) 0).wr (F.TDn_TAIL_OFFSET d) 0
    s.setViews d 1

/-- A write of TDn_CFG (R208, R209, R243): EN is validated on its way from 0 to 1, and cleared only while no valid region
names the domain. The other fields of a write whose EN is refused are stored (DESIGN CHOICE, log 74). -/
def State.writeTdCfg (s : State) (d : Nat) (val mask : Word) : State :=
  let old := s.rdw (A.TDn_CFG d)
  let new := fldsWrite D.TDn_CFG.flds old val mask (s.flag F.TK_LOCK_LOCK)
  let s := s.wrw (A.TDn_CFG d) (setBit new 0 (bit old 0))
  if bit new 0 && !bit old 0 then
    let why := s.reelReason d (s.flag (F.TDn_SEG1_LINK d))
    if why = 0 then s.domStart d
    else (s.wr (F.TDn_STAT_CFGERR d) 1).wr (F.TDn_STAT_CFGREASON d) why
  else if bit old 0 && !bit new 0 then
    if s.regions.any fun r => r.mtype == mtPersistent && !r.reel && r.domain == d then s
    else (s.wr (F.TDn_CFG_EN d) 0).setDom d { s.dom d with anchor := none }
  else s

/-- TD_CFG_EN (R208): a write of TDn_CFG. -/
def execTdCfgEn (dom : Dom) (val : Word) (s : State) : Res := .next (s.writeTdCfg dom.val val (BitVec.allOnes 64))

/-- A write of TDn_SEG1 (R209, R210, R243). The other fields of a write whose LINK is refused are stored (DESIGN CHOICE, log 74). -/
def State.writeTdSeg1 (s : State) (d : Nat) (val mask : Word) : State :=
  let old := s.rdw (A.TDn_SEG1 d)
  let new := fldsWrite D.TDn_SEG1.flds old val mask false
  if bit old 11 then
    if bit new 11 || s.domEn d then s else s.wr (F.TDn_SEG1_LINK d) 0
  else
    let s1 := s.wrw (A.TDn_SEG1 d) (setBit new 11 false)
    if bit new 11 then
      let why := s1.reelReason d true
      if why = 0 then s1.wr (F.TDn_SEG1_LINK d) 1
      else (s1.wr (F.TDn_STAT_CFGERR d) 1).wr (F.TDn_STAT_CFGREASON d) why
    else s1

/-- TD_SEG1_LINK (R210): a write of TDn_SEG1. -/
def execTdSeg1Link (dom : Dom) (val : Word) (s : State) : Res := .next (s.writeTdSeg1 dom.val val (BitVec.allOnes 64))

/-- CUT_TRIGGER_FORWARD (R234): a member's trigger reaches the lead. -/
def execCutTriggerForward (p : Fin 16) (dom : Dom) (s : State) : Res :=
  .next (if s.leads dom.val && s.member p.val then s.cutTrigger dom.val else s)

/-- ROLLBACK_FORWARD (R238): the lead's ROLLBACK reaches a member. -/
def execRollbackForward (dom : Dom) (s : State) : Res := .next (if s.follows dom.val then s.rollStart dom.val else s)

/-- DOMAIN_SPOIL_FORWARD (R235): the lead's instruction to spoil reaches a member. -/
def execDomainSpoilForward (dom : Dom) (s : State) : Res := .next (if s.follows dom.val then s.spoil dom.val else s)

end Sys2Proof.Machine
end

