-- ==== Sys2Proof/Machine/WrapOps.lean ====
section
/-!
DEFINITION. The start and end of a wrap (R247 to R252), the dailies' event log (R485) and fatal errors of package scope
(R412, R413, R433).
-/
namespace Sys2Proof.Machine

/-- The live dailies are written into the ferroelectric array (R477, R478). -/
def State.dlyStore (s : State) : State :=
  { s with aon := { s.aon with array := SMap.keep (fun a _ => 0xFE0006001000 ≤ a && a < 0xFE0006005000) s.io } }

/-- An event entry is written into the log ring (R485), with every live value (R478). -/
def State.logEvent (s : State) (code data : Nat) : State :=
  let e := s.rd F.DLY_LOGWR_NEXT
  let s := s.wrw (A.DLY_LOGSLe e) s.slate
  let s := (s.wr (F.DLY_LOGe_DATA e) data).wr (F.DLY_LOGe_CODE e) code
  (s.wr F.DLY_LOGWR_NEXT ((e + 1) % 256)).dlyStore

/-- Whether a device byte lies in its device's persistent partition (R293, R309). -/
def State.inPersistent (s : State) (a : Nat) : Bool :=
  let n := a / 2 ^ 52
  let x := a % 2 ^ 52 - s.devBase n
  let lo := 2 ^ 30 * s.rd (F.MPn_PPART_PBASE_GIB n)
  s.flag (F.MPn_CAP_PERSIST n) && lo ≤ x && x < lo + 2 ^ 30 * s.rd (F.MPn_PPART_PSIZE_GIB n)

/-- Volatile memory is lost (R250): only persistent partitions keep their bytes. -/
def State.loseVolatile (s : State) : State :=
  { s with mem := { s.mem with
      dev := SMap.keep (fun a _ => s.inPersistent a) s.mem.dev,
      devPoison := s.mem.devPoison.filter fun l => s.inPersistent (l * 64),
      devKey := SMap.keep (fun l _ => s.inPersistent (l * 64)) s.mem.devKey,
      ls := [], lsPoison := [] } }

/-- Whether entry e of a queue, with the entries before it, is on its link: it is known to have been sent, or it may have been,
which a free value decides (DESIGN CHOICE, log 3): it holds a queue entry, and no earlier write of its line stands there
(R299, R300). -/
def wqSent (before : List WqEnt) (e : WqEnt) (free : Bool) : Bool :=
  e.sent || (free && wqCount before e.undo < wqCap e.undo && !before.any fun x => x.dev == e.dev)

/-- A write of a port that was on its link completes or is lost, as a free value decides, and one that was not sent is discarded
(R39, R250); a reset waits for those on a link (R457). -/
def State.wqEnd (s : State) (wait : Bool) (n : Nat) : State :=
  let q := s.wq n
  let s := q.zipIdx.foldl (fun s x =>
    let ok := wqSent (q.take x.2) x.1 (Config.freeBool s.freeCtr) && (wait || Config.freeBool (s.freeCtr + 1))
    let s := s.tick.tick
    if ok then { s with mem := s.mem.devComplete (devNo n x.1.dev) x.1 } else s) s
  s.setWq n []

/-- The blocks of a domain's reel that were being written persist or are lost, as a free value decides; a record that waited for
a block before it had not been sent, and is discarded (R250, R255). -/
def State.blocksEnd (s : State) (d : Nat) : State :=
  let was := s.dom d
  let s := was.blocksOut.foldl (fun s b =>
    let ok := Config.freeBool s.freeCtr
    let s := s.tick
    let x := s.dom d
    if ok && was.mayPersist b then
      (s.reelStore d b).setDom d { x with blocksOut := x.blocksOut.erase b, reel := reelInsert x.seqNext b x.reel }
    else s) s
  let x := s.dom d
  s.setDom d { x with
    step := .idle, acks := [], l2Left := [], l3Left := [], did := [], portsLeft := [], needSeq := 0, pkgLeft := [],
    purgeL2 := [], purgeL3 := [], rollRun := false, blocksOut := [], overflow := [], tickets := [] }

/-- Everything in flight is discarded (R250, step 3 of R249; also the resets that lose it). -/
def State.discardAll (s : State) (wait : Bool) : State :=
  let s := (List.range 8).foldl (fun s d => s.blocksEnd d) s
  let s := (List.range 16).foldl (fun s n => s.wqEnd wait n) s
  let s := s.setHeld []
  { s with
    threads := [], cores := [], dec := [], hints := [], caches := [], victims := [], wlist := [], miss := [], lines := [], msgs := [], staged := [], undoOut := [], swbOut := [], owners := [],
    mcPend := [], latent := [], wayErr := [], reclaims := [], sparing := [], vrfs := [], turns := [], gp := [],
    mir := { s.mir with commit := [] }, sec := { s.sec with stepping := [], thermal := [] },
    gaf := { s.gaf with freq := [], held := [], deep := none } }

/-- The inbound writes of an agent that no home has accepted are dropped: the state after, and how many there were. -/
def State.wrDrop (s : State) (agent : Nat) : State × Nat :=
  (s.lines.foldl (fun s c =>
      if c.2.queue.any fun q => (q.wrNo agent).isSome then
        s.setLine c.1 { c.2 with queue := c.2.queue.filter fun q => (q.wrNo agent).isNone } else s) s,
    (s.wrWaits agent).dedup.length)

/-- The view agent of a general root port, or of the mirror port as 3 (R211). -/
def portAgent (r : Nat) : Nat := 44 + r

/-- What a mirror-port link-down does to the peer's work (R39, R354): its writes that no home has accepted are dropped and counted,
and remote cuts that wait report LINKDOWN. -/
def State.mirLost (s : State) : State :=
  let w := s.wrDrop (portAgent 3)
  let s := if w.2 = 0 then s else w.1.inc F.MW_DROP_COUNT w.2
  (List.range 8).foldl (fun s d => if s.rd (F.MIR_RCn_STATE d) = 1 then s.wr (F.MIR_RCn_STATE d) 5 else s) s

/-- The third assertion of PWRFAIL_N within 1 s is a real failure (R253, R485). -/
def State.chatter (s : State) : State :=
  ((s.wr F.WRAP_STAT_CHATTER 1).wrw A.PIN_CHAT (setBit (s.rdw A.PIN_CHAT) 1 true)).logEvent 3 0

/-- Step 5 and 6 of R249: the dailies record the wrap, with the epoch in force (R269), and the package parks; resets held
during the wrap are left for the park to act on. -/
def State.wrapFinish (s : State) : State :=
  let s := s.incSat F.DLY_WRAPS_COUNT 1
  let s := s.wrw A.DLY_WRAPSLATE s.wrap.slate
  let s := ((s.wr F.DLY_WRAPINFO_CAUSE s.wrap.cause).wr F.DLY_WRAPINFO_GPF_LATE s.wrap.late).dlyStore
  let s := if s.wrap.cause = 1 && s.wrap.ignored then s.chatter else s
  let s := (List.range 16).foldl (fun s n => (s.wr (F.MPn_STAT_UP n) 0).wr (F.MPn_STAT_READY n) 0) s
  { s with
    power := .park, sl := { s.sl with wrapEp := s.sl.epoch },
    wrap := { s.wrap with done := true, thermOut := s.wrap.thermOut || s.wrap.cause == 3 } }

/-- A wrap starts (R248, R249): issue stops, inbound ports go down, everything in flight is discarded, and Global
Persistent Flush runs on the ports whose link is up. During a wrap a further cause is only logged; in OFF, PWRFAIL_N is
only counted (R252). -/
def State.wrapStart (s : State) (cause : Nat) : State :=
  match s.power with
  | .wrap => s.logEvent 1 cause
  | .park => s.logEvent 1 cause
  | .off => if cause = 1 then s.incSat F.DLY_EVENTS_PFOFF 1 else s
  | .unpowered => s
  | _ =>
    let up := (List.range 16).filter fun n => s.flag (F.MPn_STAT_UP n)
    let s := { s with power := .wrap, wrap := { s.wrap with
      cause := cause, slate := s.slate, gpfLeft := up, late := 0, done := false } }
    let s := (List.range 4).foldl (fun s r => s.wr (F.GP_STATr_UP r) 0) s
    let s := if s.flag F.MIR_STAT_UP then s.mirLost.wr F.MIR_STAT_UP 0 else s
    let s := (s.discardAll false).loseVolatile
    if up == [] then s.wrapFinish else s

/-- A fatal error of package scope (R412, R433): its bank takes it, MC_FATALLOG takes the bank unless a wrap already runs,
and the package wraps with cause 2. -/
def State.fatal (s : State) (b : Nat) (e : ErrRec) : State :=
  let s := s.logErr b { e with sev := .fatal, pkg := true }
  let first := !(s.power = .wrap || s.power = .park)
  let s := if first then
      let s := s.wrw (A.MC_FATALLOG 0) (s.rdw (A.MCb_STATUS b))
      let s := s.wrw (A.MC_FATALLOG 1) (s.rdw (A.MCb_ADDR b))
      let s := s.wrw (A.MC_FATALLOG 2) (s.rdw (A.MCb_MISC b))
      let s := s.wrw (A.MC_FATALLOG 3) (s.rdw (A.MCb_SLATE b))
      s.wr F.MC_FATALIDX_BANK b
    else s
  s.wrapStart 2

/-- The bank of a thread's core (R414). -/
def State.coreBank (s : State) (t : Nat) : Nat := 20 * (t / 36) + s.phys (t / 36) (t % 36 / 2)

/-- A handler cannot proceed (R413): fatal, in the bank of the thread's core, STRUCT 13 and TYPE 13. -/
def State.cannotProceed (s : State) (t : Nat) : State :=
  s.fatal (s.coreBank t) { ErrRec.plain .fatal 13 13 with tid := some t }

end Sys2Proof.Machine
end

