-- ==== Sys2Proof/Machine/Signal.lean ====
section
/-!
DEFINITION. Signals: the slate as a thread reads it (R270, R285), raising a cue vector (R376 to R379), the cues pending at a
thread (R54, R274, R377, R378, R492), and corrected and deferred errors (R415, R419, R423).
-/
namespace Sys2Proof.Machine

/-! The slate. -/

/-- SLATE_STAT.STATE (R283). -/
def State.slateState (s : State) : Nat := s.rd F.SLATE_STAT_STATE
/-- The slate a thread of the package reads (R270): 0 while UNSET. -/
def State.slateRead (s : State) : Word := if s.slateState = 0 then 0 else s.slate
/-- U of R285 from unc_h in ps. -/
def uncUnits (ps : Nat) : Nat := (ps + 40 + 124) / 125 + 1
/-- The uncertainty a thread reads (R270): all ones while UNSET. -/
def State.uncRead (s : State) : Word :=
  if s.slateState = 0 then BitVec.allOnes 64 else BitVec.ofNat 64 (uncUnits (s.rd F.SLATE_UNC_PS))
/-- slate - U, as R271 computes it. -/
def State.slateSafe (s : State) : Nat := s.slateRead.toNat - s.uncRead.toNat
/-- SLATEWAIT's condition (R271). -/
def State.slatePast (s : State) (bound : Word) : Bool := s.slateState != 0 && bound.toNat < s.slateSafe

/-! Wake events (R446, R447). -/

/-- The response slot of a thread (R455, R466): RESULT, REASON and BUSY; TAG is as the request left it. -/
def State.respond (s : State) (t result reason : Nat) (busy : Bool) : State :=
  ((s.wr (F.GAF_RSPt_RESULT t) result).wr (F.GAF_RSPt_REASON t) reason).wr (F.GAF_RSPt_BUSY t) (b2n busy)

/-- A cluster stands on the wake oscillator (R440, R450). -/
def State.wakeClock (s : State) (d k : Nat) : State :=
  (s.wrw (A.CLU_CLKk d k) 0).wr (F.CLU_CLKk_MHZ d k) 400

/-- DEEP ends (R447, R449, R450): the dies start again in their slots, every cluster on the wake clock, and the slate copies
settle. -/
def State.deepExit (s : State) : State :=
  let dies := (List.range 12).filter s.dieRunning
  let clus := dies.flatMap fun d => (List.range 5).map fun k => 5 * d + k
  let s := clus.foldl (fun s c => s.wakeClock (c / 5) (c % 5)) s
  let s := s.inc F.GAF_DEEP_US ((s.now - s.gaf.since) / 8000)
  let s := match s.gaf.deep with | some x => s.respond x.t 1 0 false | none => s
  { s with
    power := .run, gaf := { s.gaf with deep := none }, sl := { s.sl with settled := [] },
    boot := { s.boot with slots := dies, clusters := clus } }

/-- A wake event (R446, R447, R515): it ends DEEP, and aborts an entry whose flush has not ended. -/
def State.wake (s : State) : State :=
  if s.power = .deep then s.deepExit
  else if s.power = .run then
    match s.gaf.deep with
    | some x =>
      if x.gpf.isSome then s
      else
        let s := if x.off then s else s.inc F.GAF_DEEPCNT_ABORTS 1
        { s.respond x.t 5 0 false with gaf := { s.gaf with deep := none } }
    | none => s
  else s

/-! Raising cue vectors. -/

/-- A dropped raise (R376). -/
def State.cueDrop (s : State) : State := s.inc F.CUE_STAT_DROP 1

/-- The thread of a target GTID, bits [21:10] ignored, where a cue can be pended at it (R375, R376). -/
def State.cueTarget (s : State) (g : Nat) : Option Nat :=
  match tidOfGtid (g % 1024) with
  | some t => if s.dieRunning (t / 36) && s.populated (t / 36) (t % 36 / 2) then some t else none
  | none => none

/-- Send a notice to a thread at a level (R378): it merges with one that is set, whose first table stays first. -/
def State.notice (s : State) (t lvl pti : Nat) : State :=
  let x := s.thrN t
  let l := SMap.get [] x.notices lvl
  s.wake.setThrN t { x with notices := SMap.put x.notices lvl (if l.contains pti then l else l ++ [pti]) }

/-- The physical address of a posting table (R379). -/
def State.ptAddr (s : State) (i : Nat) : Nat := s.rd (F.CUE_PTBASEi_BASE i) * 64

/-- OR bits into one byte of memory at its home (R378). -/
def State.homeOr (s : State) (pa : Nat) (b : Byte) : State :=
  let v := s.homeReads hubAgent 2 pa 1 0
  v.2.2.homeWrites hubAgent 2 pa [v.1.getD 0 0 ||| b] 0

/-- A raise of a virtual vector (R378). -/
def State.cueVirtual (s : State) (target : Nat) : State :=
  let pti := target / 2 ^ 13 % 1024
  let vv := target % 2 ^ 13
  if !s.flag (F.CUE_PTBASEi_V pti) then s.cueDrop
  else
    let base := s.ptAddr pti
    let s := s.homeOr (base + vv / 8) (BitVec.ofNat 8 (2 ^ (vv % 8)))
    let s := s.homeOr (base + 1032 + vv / 64 / 8) (BitVec.ofNat 8 (2 ^ (vv / 64 % 8)))
    let r := s.homeReads hubAgent 2 (base + 1024) 8 0
    let s := r.2.2
    let ctl : Word := BitVec.ofNat 64 (ofBytes r.1)
    if bit ctl 23 && !bit ctl 24 then
      let s := s.homeOr (base + 1027) 1
      match s.cueTarget (fget ctl 0 22) with
      | some t => s.notice t (if bit ctl 22 then 2 else 1) pti
      | none => s.cueDrop
    else s

/-- A vector is raised (R376, R377). -/
def State.cueRaise (s : State) (v : Nat) : State :=
  if !s.flag (F.CUEV_V v) then s.cueDrop
  else if s.flag (F.CUEV_VIRT v) then s.cueVirtual (s.rd (F.CUEV_TARGET v))
  else
    let tg := s.rd (F.CUEV_TARGET v)
    if tg ≥ 2 ^ 22 then s.cueDrop
    else match s.cueTarget tg with
      | some _ => (if s.flag (F.CUEV_MASK v) then s else s.wake).wr (F.CUEV_PEND v) 1
      | none => s.cueDrop

/-! Cues pending at a thread. -/

/-- What a pending cue is: a physical vector, a slate alarm, a counter overflow, or a notice; with what xEVAL receives. -/
structure Cue where
  code : Nat
  val  : Word
deriving DecidableEq, Repr

/-- The vectors whose registers are listed, ascending: only these can be valid. -/
def State.listedVecs (s : State) : List Nat :=
  s.io.filterMap fun c =>
    if A.CUEV 0 ≤ c.1 && c.1 < A.CUEV 8192 && (c.1 - A.CUEV 0) % 8 == 0 then some ((c.1 - A.CUEV 0) / 8) else none

/-- The lowest physical vector pending at a thread and level (R377). -/
def State.vecAt (s : State) (t lvl : Nat) : Option Nat :=
  s.listedVecs.find? fun v =>
    s.flag (F.CUEV_V v) && !s.flag (F.CUEV_VIRT v) && s.flag (F.CUEV_PEND v) && !s.flag (F.CUEV_MASK v)
      && s.rd (F.CUEV_LEVEL v) == lvl && s.cueTarget (s.rd (F.CUEV_TARGET v)) == some t

/-- SLCTL of a level (R273). -/
def slctlNo (lvl : Nat) : Nat := 0x38F + 2 * lvl
/-- SLCMP of a level (R273). -/
def slcmpNo (lvl : Nat) : Nat := 0x38E + 2 * lvl

/-- The first cue pending at a thread at a level, in the order of R54. -/
def State.cueAt (s : State) (t lvl : Nat) : Option Cue :=
  match s.vecAt t lvl with
  | some v => some { code := 0, val := BitVec.ofNat 64 v }
  | none =>
    let x := s.thrN t
    if bit (x.c (slctlNo lvl)) 2 then some { code := 1, val := SMap.get 0 x.pendSlate lvl }
    else
      let ov := fget (x.c 0x301) 0 8 &&& fget (x.c 0x300) 8 8
      if fget (x.c 0x300) 17 2 = lvl && ov ≠ 0 then some { code := 2, val := BitVec.ofNat 64 ov }
      else match SMap.find? x.notices lvl with
        | some p => some { code := 3, val := BitVec.ofNat 64 (p.headD 0) }
        | none => none

/-- A cue or an asynchronous machine check that ends WAIT is pending for a thread (R98, R418). -/
def State.cuePending (s : State) (t : Nat) : Bool :=
  (s.cueAt t 3).isSome || (s.cueAt t 2).isSome || (s.cueAt t 1).isSome

/-- Whether a thread can take a cue directed at a level now (R54). -/
def Thread.cueOk (x : Thread) (lvl : Nat) : Bool :=
  !bit (x.c (setBase lvl + 7)) 0 && (x.pl < lvl || (x.pl == lvl && bit (x.c 0) 4))

/-- The cue a thread takes at this boundary: the highest level first (R54). -/
def State.cueNow (s : State) (t : Nat) : Option (Nat × Cue) :=
  [3, 2, 1].findSome? fun lvl => if (s.thrN t).cueOk lvl then (s.cueAt t lvl).map fun c => (lvl, c) else none

/-- Taking a cue withdraws a physical vector or a notice; an alarm and an overflow stay (R274, R377, R378, R492). -/
def State.cueTaken (s : State) (t lvl : Nat) (c : Cue) : State :=
  if c.code = 0 then s.wr (F.CUEV_PEND c.val.toNat) 0
  else if c.code = 3 then
    let x := s.thrN t
    s.setThrN t { x with notices := SMap.del x.notices lvl }
  else s

/-! Corrected and deferred errors. -/

/-- The number of the correctable-error table for a bank: a C-die, or 12 for the H-die (R423, R436). -/
def ceTable (b : Nat) : Nat := if b < 240 then b / 20 else if b < 300 then (b - 240) / 5 else if b < 312 then b - 300 else 12

/-- CE_INFO of entry j of a table (R436). -/
def ceInfo (d j : Nat) : Nat := if d < 12 then A.CE_INFOj d j else 0xFE0004008008 + j * 16
/-- CE_ADDR of entry j of a table (R436). -/
def ceAddr (d j : Nat) : Nat := if d < 12 then A.CE_ADDRj d j else 0xFE0004008000 + j * 16
/-- CE_LOST of a table (R436). -/
def ceLost (d : Nat) : Nat := if d < 12 then A.CE_LOST d else 0xFE0004008100

/-- A corrected error enters the correctable-error table of its die (R423). -/
def State.ceRecord (s : State) (d struct addr : Nat) : State :=
  let info (j : Nat) : Word := s.rdw (ceInfo d j)
  let fill (s : State) (j : Nat) : State :=
    (s.wrw (ceInfo d j) (BitVec.ofNat 64 (2 ^ 16 + struct % 256 * 2 ^ 8 + 1))).wrw (ceAddr d j) (BitVec.ofNat 64 (addr % 2 ^ 52))
  match (List.range 16).find? fun j => bit (info j) 0 && s.rdw (ceAddr d j) == BitVec.ofNat 64 (addr % 2 ^ 52) with
  | some j => s.wrw (ceInfo d j) (fset (info j) 16 16 (Nat.min (fget (info j) 16 16 + 1) 65535))
  | none => match (List.range 16).find? fun j => !bit (info j) 0 with
    | some j => fill s j
    | none => match (List.range 16).find? fun j => fget (info j) 16 16 == 1 with
      | some j => fill s j
      | none => s.wrw (ceLost d) (fset (s.rdw (ceLost d)) 0 32 (fget (s.rdw (ceLost d)) 0 32 + 1))

/-- A corrected error: its bank's CECOUNT, the table of its die, and the cue of R419. -/
def State.logCe (s : State) (b : Nat) (e : ErrRec) : State :=
  let c0 := s.rd (F.MCb_STATUS_CECOUNT b)
  let s := s.logErr b { e with sev := .corrected }
  let c := s.rd (F.MCb_STATUS_CECOUNT b)
  let s := s.ceRecord (ceTable b) e.struct (e.addr.getD (e.row * 2 ^ 8 + e.way))
  if s.flag F.MC_CTL_CEEN && c0 < c && c % s.rd F.MC_CTL_CETHRESH == 0 then s.cueRaise (s.rd F.MC_CTL_CEVEC) else s

/-- A deferred error: its bank, and the cue of R419. -/
def State.logDeferred (s : State) (b : Nat) (e : ErrRec) : State :=
  let s := s.logErr b { e with sev := .deferred }
  if s.flag F.MC_CTL_DEFEN then s.cueRaise (s.rd F.MC_CTL_DEFVEC) else s

end Sys2Proof.Machine
end

