-- ==== Sys2Proof/Machine/Xlat.lean ====
section
/-!
DEFINITION. Translation (R42 to R45, R158 to R170), the guest-physical map (R171, R172), the insert checker (R173 to
R180) with the owner walk (R178, R386, R387), and the enclave table (R393).
-/
namespace Sys2Proof.Machine

/-- What an access does (R169, R170). -/
inductive Use where
  | fetch
  | ldi
  | load
  | store
  | atomic
  | stUop
  | iold
  | iost
deriving DecidableEq, Repr

/-- The TYPE of the space an access reaches (R158). -/
def Use.space : Use → Nat
  | .fetch => 0
  | .ldi => 0
  | .iold => 2
  | .iost => 2
  | _ => 1
/-- Whether an access needs R (R169). -/
def Use.reads : Use → Bool
  | .store => false
  | .iost => false
  | _ => true
/-- Whether an access writes (R169, R170). -/
def Use.writes : Use → Bool
  | .store => true
  | .atomic => true
  | .stUop => true
  | .iost => true
  | _ => false

/-! Fields of a TLB slot (R164). -/

def TlbSlot.vpn (x : TlbSlot) : Nat := 4096 * fget x.sv 12 44
def TlbSlot.type (x : TlbSlot) : Nat := fget x.sv 10 2
def TlbSlot.global (x : TlbSlot) : Bool := bit x.sv 9
def TlbSlot.size (x : TlbSlot) : Nat := fget x.sv 3 6
def TlbSlot.encl (x : TlbSlot) : Bool := bit x.sv 2
def TlbSlot.kslot (x : TlbSlot) : Nat := fget x.sp 54 10
def TlbSlot.ppn (x : TlbSlot) : Nat := 4096 * fget x.sp 12 40
def TlbSlot.key (x : TlbSlot) : Nat := fget x.sp 8 4
def TlbSlot.d (x : TlbSlot) : Bool := bit x.sp 7
def TlbSlot.a (x : TlbSlot) : Bool := bit x.sp 6
def TlbSlot.u (x : TlbSlot) : Bool := bit x.sp 5
def TlbSlot.w (x : TlbSlot) : Bool := bit x.sp 4
def TlbSlot.r (x : TlbSlot) : Bool := bit x.sp 3
def TlbSlot.mon (x : TlbSlot) : Bool := bit x.sp 1
def TlbSlot.v (x : TlbSlot) : Bool := bit x.sp 0
def TlbSlot.vmid (x : TlbSlot) : Nat := fget x.stg 16 12
def TlbSlot.asid (x : TlbSlot) : Nat := fget x.stg 0 16
/-- The slot without its valid bit. -/
def TlbSlot.off (x : TlbSlot) : TlbSlot := { x with sp := setBit x.sp 0 false }
/-- A virtual address agrees with VPN in bits [55:SIZE]. -/
def TlbSlot.covers (x : TlbSlot) (va : Word) : Bool := va.toNat % 2 ^ 56 / 2 ^ x.size == x.vpn / 2 ^ x.size
/-- Two ranges of an address space intersect. -/
def meets (a n b m : Nat) : Bool := a < b + m && b < a + n

/-- An empty TLB slot (DESIGN CHOICE, log 4). -/
def TlbSlot.zero : TlbSlot := ⟨0, 0, 0⟩
/-- A TLB slot of a core. -/
def Core.slot (c : Core) (i : Nat) : TlbSlot := SMap.get TlbSlot.zero c.tlb i

/-- VMCTL.VMID of a thread (R164). -/
def Thread.vmctlVmid (x : Thread) : Nat := fget (x.c 0x400) 0 12
/-- VMCTL.GV of a thread. -/
def Thread.gv (x : Thread) : Bool := bit (x.c 0x400) 12
/-- The effective VMID of a thread (R159). -/
def Thread.vmid (x : Thread) : Nat := if x.pl ≥ 2 then 0 else x.vmctlVmid
/-- The enclave ID of a thread in enclave mode (R385). -/
def Thread.encId (x : Thread) : Nat := fget (x.c 0x500) 0 12

/-- A TLB entry matches an access (R159). -/
def TlbSlot.hits (e : TlbSlot) (x : Thread) (space : Nat) (va : Word) : Bool :=
  e.v && e.type == space && e.vmid == x.vmid && (e.global || e.asid == fget (x.c 0x104) 0 16)
    && (!e.encl || (x.enc && e.asid % 4096 == x.encId)) && e.covers va

/-- The matching slot of a thread's core (R159, R160). -/
def State.tlbMatch (s : State) (t : Tid) (space : Nat) (va : Word) : Option (Nat × TlbSlot) :=
  List.find? (fun c => c.2.hits (s.thr t) space va) (s.core (coreKey t)).tlb

/-- An address is canonical (R44). -/
def canonical (va : Word) : Bool := sextN 56 va == va

/-- The outcome of a translation: a physical address with its key slot, or a cause with the slot that matched (R165). -/
inductive Xl where
  | ok (pa ks : Nat)
  | fail (code : Nat) (slot : Option Nat)
deriving DecidableEq, Repr

/-- The checks of R169 and R170 on a matching entry: 0 where all pass. -/
def permCode (e : TlbSlot) (x : Thread) (u : Use) : Nat :=
  let key := e.key
  let mask := x.c 0x180
  if (!e.u && x.pl == 0) || (e.mon && x.pl < 3) || (u.reads && !e.r) || (u.writes && !e.w) then 0x23
  else if u.space == 1 && bit mask key then 0x26
  else if u.space == 1 && u.writes && bit mask (16 + key) then 0x27
  else if !e.a then 0x24
  else if u.writes && !e.d then 0x25
  else 0

/-- Translate an access of a thread (R165, R169, R170). -/
def State.xlate (s : State) (t : Tid) (u : Use) (va : Word) : Xl :=
  match s.tlbMatch t u.space va with
  | none => .fail (0x20 + u.space) none
  | some (i, e) =>
    let c := permCode e (s.thr t) u
    if c = 0 then .ok (e.ppn / 2 ^ e.size * 2 ^ e.size + va.toNat % 2 ^ e.size) e.kslot else .fail c (some i)

/-- TLB slots whose parity is bad are invalidated at a lookup and logged as corrected errors; the fourth error of a slot
within the window disables it (R162). Whether the window has passed is a free value (DESIGN CHOICE, log 3). -/
def State.tlbScrub (s : State) (t : Tid) : State :=
  let k := coreKey t
  let one (s : State) (i : Nat) : State :=
    let c := s.core k
    let restart := Config.freeBool s.freeCtr
    let n := (if restart then 0 else (SMap.get ⟨0⟩ c.tlbErr i).count) + 1
    let c := { c with
      tlb := SMap.put c.tlb i (c.slot i).off, tlbErr := SMap.put c.tlbErr i ⟨n⟩, tlbBad := c.tlbBad.filter fun j => j != i }
    let c := if n ≥ 4 then c.setC 0x10C (setBit (c.c 0x10C) i true) else c
    ((s.setCore k c).tick).logCe (s.coreBank t) { ErrRec.plain .corrected 3 1 with way := i, tid := some t.val }
  (s.core k).tlbBad.foldl one s

/-! Invalidation (R99, R160, R397). -/

/-- Invalidate the slots that a condition picks. -/
def Core.tlbDrop (c : Core) (p : Nat → TlbSlot → Bool) : Core :=
  { c with tlb := SMap.mapv (fun i e => if p i e then e.off else e) c.tlb }

/-- Two entries overlap: some access could match both (R160). -/
def TlbSlot.overlaps (a b : TlbSlot) : Bool :=
  a.v && b.v && a.type == b.type && a.vmid == b.vmid && (a.global || b.global || a.asid == b.asid)
    && (!(a.encl && b.encl) || a.asid % 4096 == b.asid % 4096)
    && meets a.vpn (2 ^ a.size) b.vpn (2 ^ b.size)

/-- Write a TLB slot, invalidating what it overlaps (R160). -/
def Core.tlbPut (c : Core) (i : Nat) (e : TlbSlot) : Core :=
  let c := c.tlbDrop fun j x => j != i && x.overlaps e
  { c with tlb := SMap.put c.tlb i e }

/-! The guest-physical map (R171, R172). -/

def GpmSlot.vmid (x : GpmSlot) : Nat := fget x.hi 52 12
def GpmSlot.gpn (x : GpmSlot) : Nat := 4096 * fget x.hi 12 40
def GpmSlot.sp (x : GpmSlot) : Nat := fget x.hi 11 1
def GpmSlot.size (x : GpmSlot) : Nat := fget x.hi 5 6
def GpmSlot.v (x : GpmSlot) : Bool := bit x.hi 0
def GpmSlot.hpn (x : GpmSlot) : Nat := 4096 * fget x.lo 12 40
/-- An empty map slot (DESIGN CHOICE, log 4). -/
def GpmSlot.zero : GpmSlot := ⟨0, 0⟩

/-- The map slot that covers a guest-physical address (R172). -/
def Core.gpmFind (c : Core) (vmid sp gt : Nat) : Option (Nat × GpmSlot) :=
  List.find? (fun m => m.2.v && m.2.vmid == vmid && m.2.sp == sp && gt / 2 ^ m.2.size == m.2.gpn / 2 ^ m.2.size) c.gpm

/-- GPMW into a slot (R171): ignored for a bad SIZE or non-zero bits below it. -/
def Core.gpmPut (c : Core) (i : Nat) (e : GpmSlot) : Core :=
  let top := if e.sp = 1 then 48 else 52
  if e.size < 12 || top < e.size || e.gpn % 2 ^ e.size != 0 || e.hpn % 2 ^ e.size != 0 then c
  else
    let m := SMap.mapv (fun j x => if j != i && x.v && x.vmid == e.vmid && x.sp == e.sp
      && meets x.gpn (2 ^ x.size) e.gpn (2 ^ e.size) then { x with hi := setBit x.hi 0 false } else x) c.gpm
    { c with gpm := SMap.put m i e }

/-! The owner walk (R177, R178, R386, R387). -/

/-- A coherent read of a physical table by the hardware of a die: none where it lands outside every valid VOLATILE or
PERSISTENT region or meets poison (R178). -/
def State.tableRead (s : State) (d pa n : Nat) : Option Nat × State :=
  if s.cacheable pa then
    let v := s.readBytes d 2 pa n 0
    (if v.2.1 then none else some (ofBytes v.1), v.2.2)
  else (none, s)

/-- TYPE of an owner entry (R386). -/
def ownType (e : BitVec 32) : Nat := e.toNat / 2 ^ 30
/-- VMID of an owner entry. -/
def ownVmid (e : BitVec 32) : Nat := e.toNat / 2 ^ 18 % 2 ^ 12
/-- ENCID of an owner entry. -/
def ownEnc (e : BitVec 32) : Nat := e.toNat / 2 ^ 6 % 2 ^ 12

/-- An owner entry that fails every check (R386); summary: it is a summary entry. -/
def ownBad (e : BitVec 32) (summary : Bool) : Bool :=
  e.toNat / 2 % 4 != 0 || (!summary && e.getLsbD 0)
    || (ownType e != 1 && e.getLsbD 5) || (ownType e != 2 && ownEnc e != 0)
    || ((ownType e == 0 || ownType e == 3) && (ownVmid e != 0 || e.getLsbD 4 || e.getLsbD 3))

/-- The entry that is being inserted, as the owner check sees it. -/
structure OwnReq where
  va    : Nat
  pa    : Nat
  size  : Nat
  encl  : Bool
  asid  : Nat
  vmid  : Nat
  w     : Bool
  instr : Bool
  mon   : Bool
  lvl   : Nat
deriving DecidableEq, Repr

/-- What the owner check says of one entry: 0 accepted, else the REASON of R180. pm is the page-map doubleword of an
ENCLAVE granule, none where it lies outside the map; gran the granule's number. -/
def ownJudge (q : OwnReq) (e : BitVec 32) (summary : Bool) (gran : Nat) (pm : Option Word) : Nat :=
  let flags := if e.getLsbD 4 && q.w then 9 else if e.getLsbD 3 && q.instr then 10 else 0
  if ownBad e summary then 8
  else match ownType e with
    | 0 => if q.lvl = 3 then 0 else 8
    | 1 => if !q.encl && (q.vmid == ownVmid e || e.getLsbD 5 || q.lvl ≥ 2) then flags else 8
    | 2 =>
      let mapOk := match pm with
        | some m => bit m 63 && fget m 42 21 == 0 && fget m 0 42 == (q.va + (2 ^ 14 * gran - 2 ^ 14 * (q.pa / 2 ^ 14))) / 2 ^ 14 % 2 ^ 42
        | none => false
      if q.encl && q.asid % 4096 == ownEnc e && q.vmid == ownVmid e && q.size ≤ 14 && mapOk
          && q.va / 2 ^ q.size % 2 ^ (14 - q.size) == q.pa / 2 ^ q.size % 2 ^ (14 - q.size) then flags else 8
    | _ => if q.lvl = 3 && q.mon then 0 else 8

/-- A result in the owner cache of a cluster (R178). -/
def State.ownCached (s : State) (clu : Nat) (summary : Bool) (i : Nat) : Option OwnerRes :=
  List.find? (fun o => o.summary == summary && o.index == i) (SMap.get [] s.owners clu)

/-- A result enters the owner cache of a cluster, most recent first (R178). -/
def State.ownStore (s : State) (clu : Nat) (o : OwnerRes) : State :=
  let rest := (SMap.get [] s.owners clu).filter fun x => !(x.summary == o.summary && x.index == o.index)
  { s with owners := SMap.put s.owners clu ((o :: rest).take 256) }

/-- What the walk gives: a verdict (0 accepted, else a REASON), or a failing physical address. -/
inductive Walk where
  | verdict (r : Nat)
  | error (pa : Nat)
deriving DecidableEq, Repr

/-- The summary entry of a 2 MiB block (R177, R178, R386): none where the read fails. -/
def State.ownSummary (s : State) (d clu blk : Nat) : Option (BitVec 32) × Nat × State :=
  let pa := 2 ^ 14 * s.rd F.POT_SUMBASE_BASE + blk * 4
  if s.rd F.POT_SPAN_TOP ≤ blk then (some 1#32, pa, s)
  else match s.ownCached clu true blk with
    | some o => (some o.entry, pa, s.ownStore clu o)
    | none =>
      let v := s.tableRead d pa 4
      match v.1 with
      | some n =>
        let e := BitVec.ofNat 32 n
        let s := v.2
        (some e, pa, if e.getLsbD 0 then s.ownStore clu { summary := true, index := blk, entry := e, pmap := 0 } else s)
      | none => (none, pa, v.2)

/-- Whether a granule lies in the page map (R387). -/
def State.inErmap (s : State) (gran : Nat) : Bool := s.rd F.ERMAP_LO_ADDR ≤ gran && gran < s.rd F.ERMAP_HI_ADDR

/-- The verdict on a granule whose entry is e; that of an ENCLAVE granule reads its page-map word (R387), and the result enters the
owner cache (R178). -/
def State.ownResult (s : State) (d clu : Nat) (q : OwnReq) (gran : Nat) (e : BitVec 32) : Walk × State :=
  if ownType e == 2 && s.inErmap gran then
    let mpa := 2 ^ 14 * s.rd F.ERMAP_BASE_ADDR + (gran - s.rd F.ERMAP_LO_ADDR) * 8
    let m := s.tableRead d mpa 8
    match m.1 with
    | none => (.error mpa, m.2)
    | some p =>
      let o : OwnerRes := { summary := false, index := gran, entry := e, pmap := BitVec.ofNat 64 p }
      (.verdict (ownJudge q e false gran (some o.pmap)), m.2.ownStore clu o)
  else (.verdict (ownJudge q e false gran none), s.ownStore clu { summary := false, index := gran, entry := e, pmap := 0 })

/-- The verdict on one granule (R176, R178, R387): by a result that the owner cache keeps (R182), else by a uniform summary of its
block, else by its entry. -/
def State.ownGranule (s : State) (d clu : Nat) (q : OwnReq) (gran : Nat) : Walk × State :=
  if s.rd F.POT_SPAN_TOP ≤ gran / 128 then (.verdict (ownJudge q 0#32 false gran none), s)
  else
    match s.ownCached clu false gran with
    | some o => (.verdict (ownJudge q o.entry false gran (if s.inErmap gran then some o.pmap else none)), s.ownStore clu o)
    | none =>
      let v := s.ownSummary d clu (gran / 128)
      match v.1 with
      | none => (.error v.2.1, v.2.2)
      | some e =>
        if e.getLsbD 0 then
          let e := e &&& 0xFFFFFFFE#32
          if ownType e == 2 && q.size ≤ 14 then v.2.2.ownResult d clu q gran e
          else (.verdict (ownJudge q e true gran none), v.2.2)
        else
          let s := v.2.2
          let pa := 2 ^ 14 * s.rd F.POT_BASE_BASE + gran * 4
          let v := s.tableRead d pa 4
          match v.1 with
          | none => (.error pa, v.2)
          | some n => v.2.ownResult d clu q gran (BitVec.ofNat 32 n)

/-- The verdicts on a list of granules: the first that is not accepted decides. -/
def State.ownGranules (s : State) (d clu : Nat) (q : OwnReq) : List Nat → Walk × State
  | [] => (.verdict 0, s)
  | g :: gs =>
    let v := s.ownGranule d clu q g
    match v.1 with
    | .verdict 0 => State.ownGranules v.2 d clu q gs
    | w => (w, v.2)

/-- The verdicts on the summaries that a page larger than 2 MiB covers (R177): OWNER_MIXED where one is not uniform, else the first
that is not accepted; was is that of the blocks before. -/
def State.ownBlocks (s : State) (d clu : Nat) (q : OwnReq) (was : Nat) : List Nat → Walk × State
  | [] => (.verdict was, s)
  | b :: bs =>
    let v := s.ownSummary d clu b
    match v.1 with
    | none => (.error v.2.1, v.2.2)
    | some e =>
      if !e.getLsbD 0 then (.verdict 11, v.2.2)
      else
        let r := ownJudge q (e &&& 0xFFFFFFFE#32) true (b * 128) none
        State.ownBlocks v.2.2 d clu q (if was = 0 then r else was) bs

/-- The owner check of a page in a region (R176, R177). -/
def State.ownCheck (s : State) (d clu : Nat) (q : OwnReq) (r : Region) : Walk × State :=
  if r.mono then (.verdict (ownJudge q (BitVec.ofNat 32 (2 ^ 30 + 2 ^ 18 * r.vmid)) false 0 none), s)
  else if q.size > 30 then (.verdict 12, s)
  else if q.size > 21 then
    s.ownBlocks d clu q 0 ((List.range (2 ^ (q.size - 21))).map fun i => q.pa / 2 ^ 21 + i)
  else
    let grans := (List.range (if q.size ≤ 14 then 1 else 2 ^ (q.size - 14))).map fun i => q.pa / 2 ^ 14 + i
    if q.size ≤ 14 || grans.any fun g => (s.ownCached clu false g).isSome then s.ownGranules d clu q grans
    else
      let v := s.ownSummary d clu (q.pa / 2 ^ 21)
      match v.1 with
      | none => (.error v.2.1, v.2.2)
      | some e =>
        if e.getLsbD 0 then (.verdict (ownJudge q (e &&& 0xFFFFFFFE#32) true (q.pa / 2 ^ 14) none), v.2.2)
        else v.2.2.ownGranules d clu q grans

/-! The enclave table (R393, R396). -/

/-- The physical address of an enclave's entry (R393). -/
def State.encAddr (s : State) (id : Nat) : Nat := 2 ^ 19 * s.rd F.ENCT_BASE_BASE + id * 128

/-- A doubleword of an enclave's entry, read coherently through the cluster L2 of a die: none where ENCLAVE_TABLE_ERROR
arises (R396). -/
def State.encDw (s : State) (d id k : Nat) : Option Word × State :=
  if !s.flag F.ENCT_BASE_V then (none, s)
  else
    let v := s.tableRead d (s.encAddr id + 8 * k) 8
    (v.1.map (BitVec.ofNat 64), v.2)

/-! The insert checker (R173). -/

/-- The outcome of a TLBW. -/
inductive Ins where
  | ok (slot : Nat) (e : TlbSlot) (lfsr : Nat)
  | refuse (reason region rsrc : Nat)
  | gpmMiss (gt : Nat)
  | walkError (pa : Nat)
  | tableError (pa : Nat)
deriving DecidableEq, Repr

/-- One step of TLBLFSR (R161). -/
def lfsrStep (x : Nat) : Nat :=
  let b := (x / 2 ^ 15 + x / 2 ^ 13 + x / 2 ^ 12 + x / 2 ^ 10) % 2
  x * 2 % 2 ^ 16 + b

/-- Whether a slot is disabled (R162). -/
def Core.slotDis (c : Core) (i : Nat) : Bool := bit (c.c 0x10C) i

/-- The random choice of R161: the slot and the LFSR. -/
def lfsrPick (ok : Nat → Bool) : Nat → Nat → Nat × Nat
  | 0, x => (0, x)
  | fuel + 1, x =>
    let y := lfsrStep x
    if ok (y % 64) then (y % 64, y) else lfsrPick ok fuel y

/-- The slot that TLBW.RND writes, with TLBLFSR after it; none for NO_SLOT (R161). -/
def Core.rndSlot (c : Core) : Option (Nat × Nat) :=
  let n := fget (c.c 0x105) 0 4
  let ok (i : Nat) : Bool := n ≤ i && !c.slotDis i
  let x := fget (c.c 0x10B) 0 16
  match (List.range 64).find? fun i => ok i && !(c.slot i).v with
  | some i => some (i, x)
  | none => if (List.range 64).any ok then some (lfsrPick ok 65536 x) else none

/-- The entry a TLBW judges (R172): the staged entry, or the composed one with the map slot it went through. -/
inductive Staged where
  | entry (e : TlbSlot)
  | miss (gt : Nat)
  | refused

/-- The staged entry of a thread with the VMID that TLBW uses (R164). -/
def Thread.staged (x : Thread) : TlbSlot :=
  let stg := x.c 0x102
  { sv := x.c 0x100, sp := x.c 0x101, stg := if x.pl ≥ 2 then stg else fset stg 16 12 x.vmctlVmid }

/-- Composition with the guest-physical map (R172). TLBFVA is taken as an address of the 2^56-byte space (R42). -/
def State.compose (s : State) (t : Tid) : Staged :=
  let x := s.thr t
  let e := x.staged
  if !(x.pl == 1 && x.gv) then .entry e
  else
    let va := e.vpn
    let gsz := 2 ^ e.size
    let fva := (x.c 0x103).toNat % 2 ^ 56
    let off := if va ≤ fva && fva < va + gsz then fva - va else 0
    let gt := e.ppn + off
    match (s.core (coreKey t)).gpmFind x.vmctlVmid (b2n (e.type == 2)) gt with
    | none => .miss gt
    | some (_, m) =>
      let sz := Nat.min gsz (2 ^ m.size)
      if (e.r && !bit m.lo 2) || (e.w && !bit m.lo 3) || (e.type == 0 && !bit m.lo 4) then .refused
      else
        let down (n : Nat) : Nat := n / sz * sz
        let sv := fset (fset e.sv 12 44 (down (va + off) / 4096)) 3 6 (Nat.log2 sz)
        let ks := if e.type == 2 then 0 else fget (x.c 0x400) 13 10
        let sp := fset (fset e.sp 12 40 (down (m.hpn + (gt - m.gpn)) / 4096)) 54 10 ks
        .entry { sv := sv, sp := sp, stg := e.stg }

/-- BAD_ENTRY (R173, check 1): st is the staged entry, e the one to be written. -/
def badEntry (st e : TlbSlot) (lvl : Nat) : Bool :=
  e.type == 3 || e.size < 12 || (if e.type == 2 then 48 else 52) < e.size
    || st.vpn % 2 ^ st.size != 0 || st.ppn % 2 ^ st.size != 0
    || (e.type == 2 && (e.ppn ≥ 2 ^ 48 || e.kslot != 0))
    || (e.type == 0 && e.w) || (e.mon && lvl < 3)
    || (e.encl && (e.type == 2 || !e.u || e.asid ≥ 4096))

/-- The region that holds a whole page (R173, check 4); the local store counts as VOLATILE with MONO = 0. -/
def State.pageRegion (s : State) (pa n : Nat) : Option Region :=
  if s.lsBase ≤ pa && pa + n ≤ 12 * lsSize + s.lsBase then
    some { index := 0, base := s.lsBase, last := 12 * lsSize + s.lsBase - 1, mtype := mtVolatile, domain := 0, iset := 0,
           mono := false, vmid := 0, reel := false, isLs := true }
  else s.regions.find? fun r => r.base ≤ pa && pa + n ≤ r.last + 1

/-- The insert checker of R173 on an entry for a slot. -/
def State.insCheck (s : State) (t : Tid) (e : TlbSlot) (composed : Bool) (slot lfsr : Nat) : Ins × State :=
  let lvl := (s.thr t).pl
  let n := 2 ^ e.size
  if e.type == 2 then
    if meets e.ppn n 0xFE0008000000 0x1000000 && !(lvl == 3 && e.mon) then (.refuse 4 0 0, s) else (.ok slot e lfsr, s)
  else match s.pageRegion e.ppn n with
    | none => (.refuse 5 0 (if meets e.ppn n s.lsBase (12 * lsSize) then 2 else 0), s)
    | some r =>
      let rs := if r.isLs then 2 else 1
      let no (reason : Nat) : Ins := .refuse reason r.index rs
      let far := r.mtype == mtDevice || r.mtype == mtFabric
      if e.type == 0 && far then (no 6, s)
      else if e.type == 1 && e.w && r.mtype == mtPersistent && (r.reel || !s.domEn r.domain) then (no 7, s)
      else
        let d := dieOf t
        let q : OwnReq := {
          va := e.vpn, pa := e.ppn, size := e.size, encl := e.encl, asid := e.asid, vmid := e.vmid, w := e.w,
          instr := e.type == 0, mon := e.mon, lvl := lvl }
        let v := s.ownCheck d (s.clusterOf t) q r
        match v.1 with
        | .error pa => (.walkError pa, v.2)
        | .verdict (k + 1) => (no (k + 1), v.2)
        | .verdict 0 =>
          if e.encl then
            let w := v.2.encDw d (e.asid % 4096) 0
            match w.1 with
            | none => (.tableError (v.2.encAddr (e.asid % 4096)), w.2)
            | some dw =>
              let e := { e with sp := fset e.sp 54 10 (fget dw 8 10) }
              if far && e.kslot != 0 then (no 6, w.2) else (.ok slot e lfsr, w.2)
          else if !composed && v.2.flag (F.KS_ATTRs_ENC e.kslot) then (no 13, v.2)
          else if far && e.kslot != 0 then (no 6, v.2)
          else (.ok slot e lfsr, v.2)

/-- TLBW of a thread (R160, R161, R173), into a slot or a random one. -/
def State.tlbw (s : State) (t : Tid) (slot : Option Nat) : Ins × State :=
  let x := s.thr t
  match s.compose t with
  | .miss gt => (.gpmMiss gt, s)
  | .refused => (.refuse 14 0 0, s)
  | .entry e =>
    let c := s.core (coreKey t)
    if badEntry x.staged e x.pl then (.refuse 1 0 0, s)
    else
      let composed := x.pl == 1 && x.gv
      match slot with
      | some i => if c.slotDis i then (.refuse 2 0 0, s) else s.insCheck t e composed i (fget (c.c 0x10B) 0 16)
      | none => match c.rndSlot with
        | none => (.refuse 3 0 0, s)
        | some (i, lf) => s.insCheck t e composed i lf

/-- The refusal word of R180. -/
def refusalWord (reason region rsrc : Nat) : Word := BitVec.ofNat 64 (reason + region * 2 ^ 8 + 2 ^ 14 * rsrc)

end Sys2Proof.Machine
end

