-- ==== Sys2Proof/Machine/Except.lean ====
section
/-!
DEFINITION. Taking an exception, a cue or a machine check (R53 to R57, R166 to R168, R416 to R418), the forced exit from
enclave mode (R397 to R401), the return from an exception (R58, R61, R67), and the thread counters (R489 to R494, R402).
-/
namespace Sys2Proof.Machine

/-! Thread counters. -/

/-- Whether a thread's counters count now (R402). -/
def State.pmCounting (s : State) (x : Thread) : Bool :=
  let dbg := s.rd F.DBG_AUTH_SLEVEL == 1 || s.rd F.DBG_AUTH_SLEVEL == 2
  if x.enc then x.encDbg && dbg else if x.pl = 3 then dbg else true

/-- PMCc after n occurrences of what it counts (R491). -/
def Thread.pmAdd (x : Thread) (c n : Nat) : Thread :=
  let v := (x.c (0x308 + c)).toNat + n
  let x := x.setC (0x308 + c) (BitVec.ofNat 64 (v % 2 ^ 48))
  if v ≥ 2 ^ 48 then x.setC 0x301 (setBit (x.c 0x301) c true) else x

/-- Whether PMCc, enabled, counts an event at a level (R489). -/
def Thread.pmSel (x : Thread) (c ev pl : Nat) : Bool :=
  bit (x.c 0x300) c && (if c = 1 then ev == 2 else
    fget (x.c (0x300 + c)) 0 12 == ev && bit (x.c (0x300 + c)) (15 + pl))

/-- A thread counts n occurrences of an event at a level (R489, R490). -/
def Thread.pmCount (x : Thread) (ev pl n : Nat) : Thread :=
  (List.range 7).foldl (fun x i => if x.pmSel (i + 1) ev pl then x.pmAdd (i + 1) n else x) x

/-- A thread of the state counts an event at its present level, unless its counters are frozen. -/
def State.pmEvent (s : State) (t : Tid) (ev : Nat) : State :=
  let x := s.thr t
  if s.pmCounting x then s.setThr t (x.pmCount ev x.pl 1) else s

/-! The save area and the slot states of enclaves. -/

/-- Put doublewords of a save area, by number, at their places (R400). -/
def State.saveWords (s : State) (t : Tid) (pa ks : Nat) (ws : List (Nat × Word)) : State :=
  ws.foldl (fun s w => s.storeIn (dieOf t) (s.clusterOf t.val) (pa + 8 * w.1) (bytesOf 8 w.2.toNat) ks) s

/-- A doubleword of a save area. -/
def State.saveWord (s : State) (t : Tid) (pa ks k : Nat) : Word :=
  BitVec.ofNat 64 (ofBytes (s.readIn (dieOf t) (pa + 8 * k) 8 ks).1)

/-- The first line of a save area that cannot be accessed: outside a valid region, or poisoned (R399, R401). -/
def State.saveFault (s : State) (t : Tid) (pa ks : Nat) : Option Nat :=
  ((List.range 16).map fun i => pa + 64 * i).find? fun a =>
    !s.cacheable a || (s.readIn (dieOf t) a 8 ks).2.1

/-- Set the state of an entry slot in the enclave table (R393): doubleword 3, two bits a slot. -/
def State.slotSet (s : State) (t : Tid) (id slot v : Nat) : State :=
  let w := s.encDw (dieOf t) id 3
  match w.1 with
  | some dw => w.2.storeIn (dieOf t) (w.2.clusterOf t.val) (w.2.encAddr id + 24)
      (bytesOf 8 (fset dw (2 * slot) 2 v).toNat) 0
  | none => w.2

/-- The doublewords of the enclave part of a save area (R399, R400). -/
def Thread.encWords (x : Thread) (epc etgt : Word) (bd : Bool) (rep : Option Nat) : List (Nat × Word) :=
  ((List.range 31).map fun i => (i, x.gr (i + 1)))
    ++ ((List.range 32).map fun i => (31 + i, x.fr i))
    ++ [(63, x.c 1), (64, epc), (65, etgt),
        (66, BitVec.ofNat 64 (b2n bd + b2n rep.isSome * 2 + rep.getD 0 * 4))]
    ++ ((List.range 8).map fun i => (67 + i, x.c (0x190 + i)))
    ++ ((List.range 17).map fun i => (75 + i, x.c (0x1C0 + i)))
    ++ [(110, x.c 0x180)]

/-- The L1 caches of a thread's core hold nothing, their newer data lying in the L2, and its home hint table is empty (R397). -/
def State.coreFlush (s : State) (t : Tid) : State :=
  let d := dieOf t
  let p := s.phys d (coreOf t)
  { s with
    caches := SMap.del (SMap.del s.caches (l1iNo d p)) (l1dNo d p), hints := SMap.del s.hints (coreKey t) }

/-- The boundary actions of R397 on a thread's core and context; keep is the enclave whose E = 1 entries ENCRUN keeps. -/
def State.encBoundary (s : State) (t : Tid) (keep : Option Nat) : State :=
  let c := s.core (coreKey t)
  let wired := fget (c.c 0x105) 0 4
  let c := c.tlbDrop fun i e =>
    !(e.encl && keep == some (e.asid % 4096)) && (wired ≤ i || e.encl)
  let s := (s.setCore (coreKey t) c).coreFlush t
  let x := s.thr t
  s.setThr t { x with v := [], acc := [] }

/-- The host return stack and KEYMASK come back from the save area (R398, R399). -/
def State.hostBack (s : State) (t : Tid) (pa ks : Nat) : State :=
  let x := s.thr t
  let x := (List.range 17).foldl (fun (x : Thread) i => x.setC (0x1C0 + i) (s.saveWord t pa ks (92 + i))) x
  s.setThr t (x.setC 0x180 (s.saveWord t pa ks 111))

/-- Leave enclave mode: ENC := 0, ENCSTAT reads 0. -/
def State.encOff (s : State) (t : Tid) : State :=
  let x := s.thr t
  let x := x.setC 0 (statusFix (setBit (x.c 0) 2 false))
  s.setThr t { x.setC 0x500 0 with encDbg := false, encSave := 0, encKs := 0, encClass := 0 }

/-- The registers of step 3 of R399: g1, g2 as given, every other one cleared. -/
def Thread.encClear (x : Thread) (g1 g2 : Word) : Thread :=
  let x : Thread := { x with g := SMap.put (SMap.put [] 1 g1) 2 g2, f := [] }
  let x := x.setC 1 0
  (List.range 8).foldl (fun (x : Thread) i => x.setC (0x190 + i) 0) x

/-- Steps 1 to 3 of the forced exit (R399): the state after, the host return point, and whether a save-area write failed. -/
def State.forcedExit (s : State) (t : Tid) (epc etgt : Word) (bd : Bool) (rep : Option Nat) : State × Word × Bool :=
  let x := s.thr t
  let id := x.encId
  let slot := fget (x.c 0x500) 12 3
  let pa := x.encSave
  let ks := x.encKs
  let bad := (s.saveFault t pa ks).isSome
  let s := if bad then s.slotSet t id slot 3
    else (s.saveWords t pa ks (x.encWords epc etgt bd rep)).slotSet t id slot 2
  let hrp := s.saveWord t pa ks 109
  let token : Word := BitVec.ofNat 64 (id + 2 ^ 12 * slot + 2 ^ 15)
  let s := s.setThr t ((s.thr t).encClear (if bad then 0 else token) (if bad then 0 else hrp))
  let s := ((s.hostBack t pa ks).encBoundary t none).encOff t
  let x := s.thr t
  (s.setThr t { x with pc := hrp, slot := none, repLeft := none }, hrp, bad)

/-! Entry. -/

/-- An exception, cue or machine check that is being taken (R53 to R57): its cause, what xEVAL receives, whether it is a
cue, where it resumes, the address after the delay slot where xEPC is one, the iterations left where it struck inside
REP #n, and the TLB slot that matched. -/
structure Exc where
  code : Nat
  val  : Word
  int  : Bool
  epc  : Word
  bd   : Option Word
  rep  : Option Nat
  slot : Option Nat
deriving DecidableEq, Repr

/-- The level a synchronous cause is routed to (R53, R117, R165, R401, R416). -/
def routedLvl (code : Nat) : Nat :=
  if code ≥ 0x80 then 3
  else match code with
    | 0x10 => 2
    | 0x11 => 3
    | 0x29 => 3
    | 0x44 => 3
    | 0x50 => 2
    | 0x51 => 2
    | 0x5C => 2
    | 0x5D => 2
    | _ => 1

/-- Whether a cause is a TLB miss. -/
def isMiss (code : Nat) : Bool := code == 0x20 || code == 0x21 || code == 0x22
/-- Whether a cause loads the staging registers when it is taken at S (R166). -/
def isXlatCause (code : Nat) : Bool := 0x20 ≤ code && code ≤ 0x27

/-- The space of a translation cause's access stands in the exception's slot of TLBSV; R166 needs the TYPE. -/
def Thread.stage (x : Thread) (va : Word) (space : Nat) (enc : Bool) (encId : Nat) (slot : Option Nat) : Thread :=
  let sv : Word := BitVec.ofNat 64 (4096 * (va.toNat % 2 ^ 56 / 4096) + 2 ^ 10 * space + 12 * 2 ^ 3 + b2n enc * 4)
  let asid := if enc then encId else fget (x.c 0x104) 0 16
  let x := x.setC 0x103 va
  let x := x.setC 0x100 sv
  let x := x.setC 0x102 (BitVec.ofNat 64 (2 ^ 16 * x.vmid + asid))
  let x := x.setC 0x101 0
  match slot with
  | some i => x.setC 0x10A (fset (x.c 0x10A) 8 6 i)
  | none => x

/-- The offset of an entry at a level (R56). -/
def entryOffset (lvl code : Nat) (int nested : Bool) : Nat :=
  if nested then (if lvl = 1 && !int && isMiss code then 0x400 else 0x100)
  else if !int && ((lvl = 1 && isMiss code) || (lvl = 2 && code = 0x50)) then 0x300
  else if int then 0x200
  else if lvl = 3 && code ≥ 0x80 then 0x500
  else 0

/-- Entry through one set of a level (R55 to R57, R166, R167). ETGT without BD, and EREP without REP, are values that the spec
does not state: free values (DESIGN CHOICE, log 3), but for an entry after a forced exit, where both are 0. space is the TYPE of a
translation cause's access; encx: from enclave mode, with its ID. -/
def State.enterSet (s : State) (t : Tid) (lvl : Nat) (nested : Bool) (e : Exc) (space : Nat) (encx : Option Nat) : State :=
  let x := s.thr t
  let b := setBase lvl
  let o := if nested then 0xF else 0
  let off := entryOffset lvl e.code e.int nested
  let x := x.setC (b + 7) (setBit (x.c (b + 7)) (b2n nested) true)
  let rfm := bit (x.c 0x10A) 0
  let x := if lvl = 1 && nested && rfm then
      { x with rfmSave := ⟨x.c 0x100, x.c 0x101, x.c 0x102, x.c 0x103⟩ } else x
  let x := if lvl = 1 && off = 0x300 then x.setC 0x10A (setBit (x.c 0x10A) 0 true) else x
  let x := if lvl = 1 && isXlatCause e.code && !e.int then x.stage e.val space encx.isSome (encx.getD 0) e.slot else x
  let x := if off = 0x500 then { x.setC 0x070 (setBit (x.c 0x070) 0 true) with mcNested := some false } else x
  let st := x.c 0
  let x := x.setC (b + 5 + o) (BitVec.ofNat 64 (fget st 0 7))
  let x := x.setC 0 (statusFix (setBit (setBit (fset st 0 2 lvl) 2 false) 4 false))
  let etgt := match e.bd with
    | some a => a
    | none => if encx.isSome then 0 else Config.freeWord s.freeCtr
  let erep := match e.rep with
    | some n => n
    | none => if encx.isSome then 0 else 1 + Config.freeNat s.freeCtr % 64
  let cause := e.code % 256 + b2n e.int * 2 ^ 8 + b2n e.bd.isSome * 2 ^ 9 + 2 ^ 10 * b2n e.rep.isSome
    + 2 ^ 11 * b2n encx.isSome
  let x := x.setC (b + 1 + o) e.epc
  let x := x.setC (b + 2 + o) etgt
  let x := x.setC (b + 3 + o) (BitVec.ofNat 64 cause)
  let x := x.setC (b + 4 + o) e.val
  let x := x.setC (b + 6 + o) (BitVec.ofNat 64 erep)
  let x := { x with
    pc := x.c b + BitVec.ofNat 64 off, slot := none, repLeft := none, run := .running }
  (s.setThr t x).tick

/-- Entry at a level, or the levels above it (R56): EXCEPTION_OVERFLOW where both sets are in use; above M the handler cannot
proceed. An EXCEPTION_OVERFLOW that replaces BRK, SYSC, HVC or MONC keeps the xEPC of the cause it replaces, the address plus 4
(R57 does not say which holds; DESIGN CHOICE, log 72). -/
def State.enterAt (s : State) (t : Tid) (e : Exc) (space : Nat) (encx : Option Nat) : Nat → Nat → State
  | 0, _ => s.cannotProceed t.val
  | fuel + 1, lvl =>
    let ctl := (s.thr t).c (setBase lvl + 7)
    if !bit ctl 0 then s.enterSet t lvl false e space encx
    else if !bit ctl 1 then s.enterSet t lvl true e space encx
    else if lvl ≥ 3 then s.cannotProceed t.val
    else State.enterAt s t { e with code := 0x12, val := BitVec.ofNat 64 e.code, int := false, slot := none } space encx fuel (lvl + 1)

/-- Take an exception or cue at the level given (R54 to R57, R399, R401, R417). -/
def State.take (s : State) (t : Tid) (e : Exc) (space lvl : Nat) : State :=
  let x := s.thr t
  let s := s.discard t
  let s := if isMiss e.code && !e.int then s.pmEvent t 0x34 else s
  if !e.int && 0x80 ≤ e.code && e.code ≤ 0x82 && bit (x.c 0x070) 0 then s.cannotProceed t.val
  else if x.enc then
    let r := s.forcedExit t e.epc (e.bd.getD 0) e.bd.isSome e.rep
    let v := if e.int then e.val else if isXlatCause e.code then BitVec.ofNat 64 (4096 * (e.val.toNat / 4096)) else 0
    if r.2.2 then
      r.1.enterAt t { code := 0x44, val := 0, int := false, epc := r.2.1, bd := none, rep := none, slot := none } 0 (some x.encId) 4 3
    else r.1.enterAt t { e with val := v, epc := r.2.1, bd := none, rep := none } space (some x.encId) 4 lvl
  else s.enterAt t e space none 4 lvl

/-- Take a synchronous exception: at the higher of its routed level and the current level (R54). -/
def State.takeSync (s : State) (t : Tid) (e : Exc) (space : Nat) : State :=
  s.take t e space (Nat.max (routedLvl e.code) (s.thr t).pl)

/-! Cues and asynchronous machine checks at an instruction boundary. -/

/-- Whether a thread's core can issue (R324, R413, R443): package running, die RUNNING
with its slate copy settled (R268), core not stopped, cluster started and not gated (R447, R453, R455). -/
def State.coreOn (s : State) (t : Tid) : Bool :=
  s.power == .run && s.dieRunning (dieOf t) && s.sl.settled.contains (dieOf t) && !(s.core (coreKey t)).stopped
    && !s.gated.contains (s.clusterOf t.val) && !s.boot.clusters.contains (s.clusterOf t.val)

/-- The cluster of a thread that goes on leaves SLEEP (R445). -/
def State.unsleep (s : State) (t : Tid) : State :=
  let c := s.clusterOf t.val
  s.wrIf (s.flag (F.CLU_CLKk_SLEEP (c / 5) (c % 5))) (F.CLU_CLKk_SLEEP (c / 5) (c % 5)) 0

/-- The other thread of a thread's core. -/
def sibling (t : Tid) : Tid := Fin.ofNat 432 (if t.val % 2 = 0 then t.val + 1 else t.val - 1)

/-- Whether a thread's core is out of IDLE, or may leave it: where both threads wait, only with empty queues (R98, R152). -/
def State.idleOut (s : State) (t : Tid) : Bool :=
  (s.thr t).run != .waiting || (s.thr (sibling t)).run != .waiting
    || ((s.thr t).storeQ == [] && (s.thr (sibling t)).storeQ == [])

/-- Whether a thread stands at an instruction boundary where a cue or asynchronous machine check may be taken (R54, R67,
R102): issuing or waiting, and not inside REP #n. -/
def State.atBoundary (s : State) (t : Tid) : Bool :=
  let x := s.thr t
  (match x.run with | .running => true | .waiting => true | .slateWait _ _ => true | _ => false)
    && x.repLeft.isNone && s.coreOn t && s.idleOut t

/-- Whether a thread's machine-check state lets an asynchronous machine check in (R418). -/
def Thread.mcOpen (x : Thread) : Bool := !bit (x.c (setBase 3 + 7)) 0 && !bit (x.c 0x070) 0

/-- Whether an asynchronous machine check is due that a thread can take (R54, R418). -/
def State.mcDue (s : State) (t : Tid) : Bool :=
  !s.mcPend.isEmpty && (match s.mcRoute with | some (u, _) => u == t.val | none => false) && (s.thr t).mcOpen

/-- Whether a thread takes a cue or an asynchronous machine check before its next instruction (R54). -/
def State.interrupted (s : State) (t : Tid) : Bool :=
  s.atBoundary t && (s.mcDue t || (s.cueNow t.val).isSome)

/-- CUE_TAKE (R54). A cue that the H-die delivers promotes the die (R213). Nothing happens where no cue can be taken, or an
asynchronous machine check comes first. -/
def execCueTake (t : Tid) (s : State) : Res :=
  if s.atBoundary t && !s.mcDue t then
    match s.cueNow t.val with
    | some (lvl, c) =>
      let x := s.thr t
      let s := if c.code = 0 || c.code = 3 then s.promote (dieOf t) else s
      .next (((s.unsleep t).cueTaken t.val lvl c).take t { code := c.code, val := c.val, int := true, epc := x.pc, bd := x.slot, rep := none, slot := none } 0 lvl)
    | none => .next s
  else .next s

/-- The lowest-numbered bank that waits to be signalled (R418). -/
def State.mcLowest (s : State) : Option Nat :=
  (List.range 354).find? fun b =>
    s.flag (F.MCb_STATUS_VAL b) && s.rd (F.MCb_STATUS_SEV b) == 2 && !s.flag (F.MCb_STATUS_SIGNALLED b)

/-- The first pending asynchronous machine check is taken by the thread it is routed to (R418). -/
def State.mcTake (s : State) (t : Tid) (rerouted : Bool) : State :=
  match s.mcPend with
  | [] => s
  | (code, v0) :: rest =>
    let x := s.thr t
    let v := if code == 0x90 && bit (x.c 0x070) 1 then BitVec.ofNat 64 (s.mcLowest.getD v0.toNat) else v0
    let s := ({ s with mcPend := rest }.unsleep t).promote (dieOf t)
    let s := if code == 0x90 && s.flag (F.MCb_STATUS_VAL v.toNat) then s.wr (F.MCb_STATUS_SIGNALLED v.toNat) 1 else s
    let s := s.wr F.MC_GSTAT_PENDING 0
    let s := s.wrIf rerouted F.MC_GSTAT_REROUTED 1
    let s := s.setThr t ((s.thr t).setC 0x070 (setBit ((s.thr t).c 0x070) 1 false))
    s.take t { code := code, val := v, int := false, epc := x.pc, bd := x.slot, rep := none, slot := none } 0 3

/-- MC_ASYNC_TAKE (R418). Nothing happens where none can be taken. -/
def execMcAsyncTake (s : State) : Res :=
  match s.mcPend, s.mcRoute with
  | _ :: _, some (t, r) =>
    let u : Tid := Fin.ofNat 432 t
    if s.atBoundary u && (s.thr u).mcOpen then .next (s.mcTake u r) else .next s
  | _, _ => .next s

/-! The return from an exception. -/

/-- The offset of the set ERET uses at a level: 0xF for the nested set (R58). -/
def Thread.eretSet (x : Thread) : Nat := if bit (x.c (setBase x.pl + 7)) 1 then 0xF else 0

/-- Step 1 of R58: ERET is an illegal instruction. -/
def Thread.eretIllegal (x : Thread) : Bool :=
  let b := setBase x.pl
  let cause := x.c (b + 3 + x.eretSet)
  x.pl != 0 && (!bit (x.c (b + 7)) 0 || (bit cause 9 && bit cause 10))

/-- Step 2 of R58: ERET is privileged. -/
def Thread.eretPriv (x : Thread) : Bool := x.pl == 0 || x.pl < fget (x.c (setBase x.pl + 5 + x.eretSet)) 0 2

/-- Steps 3 to 5 of R58, with R61, R67, R167, R384, R416. -/
def Thread.eret (x : Thread) : Thread :=
  let lvl := x.pl
  let b := setBase lvl
  let o := x.eretSet
  let nested := o != 0
  let rfm := bit (x.c 0x10A) 0
  let cause := x.c (b + 3 + o)
  let epc := x.c (b + 1 + o)
  let etgt := x.c (b + 2 + o)
  let erep := fget (x.c (b + 6 + o)) 0 7
  let ps := x.c (b + 5 + o)
  let x := x.setC (b + 7) (setBit (x.c (b + 7)) (b2n nested) false)
  let x := if lvl = 1 && nested && rfm then
      (((x.setC 0x100 x.rfmSave.sv).setC 0x101 x.rfmSave.sp).setC 0x102 x.rfmSave.stg).setC 0x103 x.rfmSave.fva else x
  let x := if lvl = 1 && !nested then x.setC 0x10A (setBit (x.c 0x10A) 0 false) else x
  let x := if lvl = 3 && !nested && x.mcNested == some false then
      { x.setC 0x070 (setBit (x.c 0x070) 0 false) with mcNested := none } else x
  let x := x.setC 0 (statusFix (fset (fset (x.c 0) 4 3 (fget ps 4 3)) 0 2 (fget ps 0 2)))
  { x with
    pc := epc, slot := if bit cause 9 then some etgt else none, repLeft := if bit cause 10 then some erep else none }

end Sys2Proof.Machine
end

