-- ==== Sys2Proof/Machine/Decouple.lean ====
section
/-!
DEFINITION. The decoupled core (R136 to R157): which unit performs an instruction, the homes and copies of g registers, the
hint table, the credits of the queues and the retire log, and the core events. Nothing here changes a result (R155). How far
the EU has come, and how many core cycles pass, is timing: free numbers (DESIGN CHOICE, log 64).
-/
namespace Sys2Proof.Machine

/-! What each unit performs. -/

/-- The units that can perform an instruction (R137): none for those of the front end (R138, R139). -/
def unitsOf : Instr → List CoreUnit
  | .mulh .. => [.eu]
  | .mulhu .. => [.eu]
  | .div .. => [.eu]
  | .divu .. => [.eu]
  | .rem .. => [.eu]
  | .remu .. => [.eu]
  | .j .. => []
  | .call .. => []
  | .ret .. => []
  | .repN .. => []
  | .repG .. => []
  | i =>
    let op := wf (encode i) 26 6
    if op = 0x02 || (0x04 ≤ op && op ≤ 0x0D) || (0x10 ≤ op && op ≤ 0x15) || op = 0x1A then [.au, .eu]
    else if op = 0x03 || op = 0x0E then [.eu]
    else [.au]

/-- The g registers that a word's D field names as a destination, d and d + 1 for a pair. -/
def pairOf (pair : Bool) (d : Rn) : List Nat := if pair then [d.val, d.val + 1] else [d.val]

/-- The index register of an address mode (R89). -/
def idxOf (m : Fin 8) (f : BitVec 8) : List Nat :=
  if m.val = 0 || m.val = 1 || m.val = 4 || m.val = 6 then [f.toNat / 8] else []

/-- The g registers that an instruction reads in the unit that performs it (R138, R141); a store's data register is read
through the store-data queue (R144). -/
def gReads : Instr → List Nat
  | .shori _ d _ => [d]
  | .fcvtf _ _ _ a => [a]
  | .fcvtfu _ _ _ a => [a]
  | .fmvf _ _ _ a => [a]
  | .beq _ a b _ _ => [a, b]
  | .bne _ a b _ _ => [a, b]
  | .blt _ a b _ _ => [a, b]
  | .bge _ a b _ _ => [a, b]
  | .bltu _ a b _ _ => [a, b]
  | .bgeu _ a b _ _ => [a, b]
  | .jr _ a => [a]
  | .callr _ a => [a]
  | .load _ _ a _ _ _ => [a]
  | .store _ _ a _ _ _ => [a]
  | .ldi _ _ a _ pc _ => if pc then [] else [a.val]
  | .iold _ _ a _ _ => [a]
  | .iost _ d a _ _ => [d, a]
  | .loadx _ _ a _ _ m f => a.val :: idxOf m f
  | .storex _ _ a _ _ m f => a.val :: idxOf m f
  | .swap _ q _ a b => a.val :: pairOf q b
  | .cas _ q d a b => a.val :: (pairOf q d ++ pairOf q b)
  | .fetchAdd _ q _ a b => a.val :: pairOf q b
  | .fetchAnd _ q _ a b => a.val :: pairOf q b
  | .fetchOr _ q _ a b => a.val :: pairOf q b
  | .fetchMax _ q _ a b => a.val :: pairOf q b
  | .fetchMaxu _ q _ a b => a.val :: pairOf q b
  | .mtc _ a _ => [a]
  | .rdpmc _ _ a => [a]
  | .keyset _ a => [a]
  | .tlbwSlot _ a => [a]
  | .tlbrd _ a => [a]
  | .tlbiVa _ a b => [a, b]
  | .tlbiAsid _ b => [b]
  | .tlbiVmid _ b => [b]
  | .gpmw _ a => [a]
  | .gpmr _ a => [a]
  | .cutreq _ _ a => [a]
  | .cutwait _ _ a => [a]
  | .cutstat _ _ a => [a]
  | .slatewait _ _ a => [a]
  | .rssave _ a => [a]
  | .rsload _ a => [a]
  | .dtload _ a b => [a, b]
  | .encrun _ a b => [a, b]
  | .encdone _ a => [a]
  | .vbcast _ _ g _ => [g]
  | .vins _ _ g _ => [g]
  | .compress _ _ g _ _ => [g]
  | .vhash _ _ g _ => [g]
  | .vcrc _ _ g => [g]
  | .redmin _ _ _ h _ _ => [h]
  | .redmax _ _ _ h _ _ => [h]
  | .sload _ _ g _ => [g]
  | .sscan _ _ g h _ _ => [g.val, h.val, h.val + 1]
  | .sgather _ _ g h _ _ => [g, h]
  | .sdict _ _ g _ _ _ => [g]
  | .saccadd _ _ g => [g]
  | .aaddf _ _ _ g _ _ => [g]
  | .amacf _ _ _ g _ _ => [g]
  | .aaddi _ _ _ g _ _ => [g]
  | .awrw _ _ g _ => [g]
  | i =>
    let w := encode i
    let op := wf w 26 6
    if op = 0x02 then (if wf w 0 11 < 0x030 then [(wr5 w 16).val, (wr5 w 11).val] else [(wr5 w 16).val])
    else if (0x04 ≤ op && op ≤ 0x09) || op = 0x0D then [(wr5 w 16).val] else []

/-- The g registers that an instruction writes (R140), loads apart. -/
def gWrites : Instr → List Nat
  | .feq _ _ d _ _ => [d]
  | .flt _ _ d _ _ => [d]
  | .fle _ _ d _ _ => [d]
  | .fclass _ _ d _ => [d]
  | .fcvti _ _ d _ => [d]
  | .fcvtiu _ _ d _ => [d]
  | .fmvg _ _ d _ => [d]
  | .loadx _ _ a _ _ m _ => if m.val = 0 then [] else [a.val]
  | .storex _ _ a _ _ m _ => if m.val = 0 then [] else [a.val]
  | .swap _ q d _ _ => pairOf q d
  | .cas _ q d _ _ => pairOf q d
  | .fetchAdd _ q d _ _ => pairOf q d
  | .fetchAnd _ q d _ _ => pairOf q d
  | .fetchOr _ q d _ _ => pairOf q d
  | .fetchMax _ q d _ _ => pairOf q d
  | .fetchMaxu _ q d _ _ => pairOf q d
  | .mfc _ d _ => [d]
  | .rdpmc _ d _ => [d]
  | .keyget _ d => [d]
  | .tlbfind _ d => [d]
  | .cutreq _ d _ => [d]
  | .cutwait _ d _ => [d]
  | .cutstat _ d _ => [d]
  | .rdslate _ d => [d]
  | .rdslateu _ d b => [d, b]
  | .slatewait _ d _ => [d]
  | .vext _ _ g _ => [g]
  | .pscan _ g _ _ _ _ => [g]
  | .vcrc _ _ g => [g]
  | .vcnt _ _ g => [g]
  | .redmin _ _ g _ _ x => if x.val ≥ 2 then [] else [g.val]
  | .redmax _ _ g _ _ x => if x.val ≥ 2 then [] else [g.val]
  | .sload _ _ g post => if post then [g.val] else []
  | .sgather _ _ _ h _ _ => [h]
  | .sdict _ _ _ h _ _ => [h]
  | .ardi _ _ g _ => [g]
  | .ardw _ _ g _ => [g]
  | i =>
    let w := encode i
    let op := wf w 26 6
    if op = 0x02 || (0x04 ≤ op && op ≤ 0x0D) then [(wr5 w 21).val] else []

/-- The g registers that a load fills (R140): none for an f destination. IOLD counts as a load, an atomic as an instruction
of the AU (DEDUCED, log 64). -/
def loadDest : Instr → List Nat
  | .load _ d _ k _ _ => if k.val ≥ 8 then [] else pairOf (k.val == 7) d
  | .loadx _ d _ k _ _ _ => if k.val ≥ 8 then [] else pairOf (k.val == 7) d
  | .ldi _ d _ k _ _ => pairOf (k.val == 7) d
  | .iold _ d _ _ _ => [d]
  | _ => []

/-- A load whose data goes to an f register (R144). -/
def loadsF : Instr → Bool
  | .load _ _ _ k _ _ => k.val ≥ 8
  | .loadx _ _ _ k _ _ _ => k.val ≥ 8
  | _ => false

/-- The data registers of a store (R144): none for one that is no store, f registers as 32. -/
def storeData : Instr → List Nat
  | .store _ d _ k _ _ => if k.val ≥ 8 then [32] else pairOf (k.val == 7) d
  | .storex _ d _ k _ _ _ => if k.val ≥ 8 then [32] else pairOf (k.val == 7) d
  | _ => []

/-- Whether an instruction is performed only as the oldest unretired one of its thread (R148): IOLD, IOST, AMO, SYNC, SYS,
XLAT, TAKE, CTX and the sift commands. -/
def serial (i : Instr) : Bool :=
  let op := wf (encode i) 26 6
  op = 0x26 || op = 0x27 || op = 0x28 || op = 0x29 || (0x2C ≤ op && op ≤ 0x2F) || (0x3C ≤ op && op ≤ 0x3E)

/-- Whether a unit resolves an instruction as a branch (R138, R150). -/
def branches (i : Instr) : Bool :=
  let op := wf (encode i) 26 6
  (0x10 ≤ op && op ≤ 0x15) || match i with | .jr .. => true | .callr .. => true | _ => false

/-! Threads and shares (R151, R152). -/

/-- A thread is active unless it is in WAIT (R151). -/
def State.active (s : State) (t : Tid) : Bool := (s.thr t).run != .waiting

/-- Whether the other thread of a core has its half: it is active, or it holds entries that have not drained (R151). -/
def State.halved (s : State) (t : Tid) : Bool :=
  let u := sibling t
  s.active u || (s.decOf u).log != [] || (s.thr u).storeQ != []

/-- Whether a thread of a core may take n more entries of a resource of which it holds own and the other thread holds other
(R144, R151): half of it where the other thread has its half, else all. -/
def mayTake (halved : Bool) (whole half own other n : Nat) : Bool :=
  decide (own + n ≤ (if halved then half else whole)) && decide (own + other + n ≤ whole)

/-- The entries of each kind that a retire log holds. -/
def ldqUse (l : List LogEnt) : Nat := (l.map (·.ldq)).sum
def cpqUse (l : List LogEnt) : Nat := (l.map (·.cpq)).sum
def boqUse (l : List LogEnt) : Nat := (l.filter (·.boq)).length

/-- The oldest instructions of a log retire until p holds of what is left. -/
def logUntil (p : List LogEnt → Bool) : List LogEnt → List LogEnt
  | [] => []
  | e :: l => if p (e :: l) then e :: l else logUntil p l

/-! Core events (R156, R157, R489, R490). -/

/-- A thread of the state counts n occurrences of an event, unless its counters are frozen or off. -/
def State.count (s : State) (t : Tid) (ev n : Nat) : State :=
  let x := s.thr t
  if fget (x.c 0x300) 0 8 = 0 || n = 0 || !s.pmCounting x then s
  else
    let x := x.pmCount ev x.pl n
    s.setThr t (if ev = 1 && bit (x.c 0x300) 0 then x.pmAdd 0 n else x)

/-- A thread of the state counts several events. -/
def State.counts (s : State) (t : Tid) (l : List (Nat × Nat)) : State :=
  if fget ((s.thr t).c 0x300) 0 8 = 0 then s else l.foldl (fun s e => s.count t e.1 e.2) s

/-! Homes (R140 to R143). -/

/-- Whether a g register is homed in the EU (R140); g0 is in both. -/
def Decoupled.inEu (x : Decoupled) (r : Nat) : Bool := r ≠ 0 && x.eu.getLsbD r

/-- Whether a g register's value is in a unit (R141). -/
def Decoupled.has (x : Decoupled) (u : CoreUnit) (r : Nat) : Bool :=
  r = 0 || x.both.getLsbD r || x.eu.getLsbD r == (u == .eu)

/-- The key of an instruction in the home hint table: its address and the ASID (R143). -/
def Thread.hintKey (x : Thread) (va : Word) : Word × Nat := (va, if x.enc then 2 ^ 16 + x.encId else fget (x.c 0x104) 0 16)

/-- The home hint table of a thread's core. -/
def State.hintsOf (s : State) (t : Tid) : List (Word × Nat) := SMap.get [] s.hints (coreKey t)

/-- Instructions receive a hint, or their hint is used: they go to the front of the table, which keeps 256 entries (R143). -/
def State.giveHints (s : State) (t : Tid) (ks : List (Word × Nat)) : State :=
  { s with
    hints := if ks = [] then s.hints
      else SMap.put s.hints (coreKey t) ((ks ++ (s.hintsOf t).filter fun k => !ks.contains k).take 256) }

/-- The unit that an instruction goes to (R138): rules 1 to 4; JR and CALLR go to the unit that holds their source. -/
def Decoupled.route (x : Decoupled) (hint : Bool) (i : Instr) : CoreUnit :=
  match unitsOf i with
  | [] => .fe
  | [u] => u
  | _ =>
    if (match i with | .jr .. => false | .callr .. => false | _ => hint) then .au
    else if (gReads i).all fun r => !x.inEu r then .au else .eu

/-- The micro-ops' sources and destinations among F1 to F4 of an entry (R118). -/
def udiSels (e : DtEntry) (fs : List Rn) (f : BitVec 32 → List Nat) : List Nat :=
  (e.uops.take (fget e.hdr 2 4 + 1)).flatMap fun w =>
    ((f w).filter fun k => 1 ≤ k && k ≤ 4).map fun k => (fs.getD (k - 1) 0).val

/-- The g registers an instruction reads and writes, with those that an entry of the decode table names. -/
def State.gUse (s : State) (t : Tid) (i : Instr) : List Nat × List Nat :=
  match i with
  | .udi _ sel f1 f2 f3 f4 => match SMap.find? (s.core (coreKey t)).dt sel.val with
    | some e =>
      let fs := [f1, f2, f3, f4]
      (udiSels e fs fun w => [uSa w, uSb w], udiSels e fs fun w => [uDst w])
    | none => ([], [])
  | i => (gReads i, gWrites i)

/-- A g register's home is set by the instruction at va that writes it (R140). -/
def Decoupled.homeAt (x : Decoupled) (va : Word) (eu : Bool) (r : Nat) : Decoupled :=
  if r = 0 || 32 ≤ r then x
  else { x with
    eu := if eu then x.eu ||| BitVec.ofNat 32 (2 ^ r) else x.eu &&& ~~~ BitVec.ofNat 32 (2 ^ r),
    both := x.both &&& ~~~ BitVec.ofNat 32 (2 ^ r), wrote := SMap.put x.wrote r va }

/-- Whether an instruction is a command of the sift unit (R124): OP 0x3C to 0x3E. -/
def isSift (i : Instr) : Bool :=
  let op := wf (encode i) 26 6
  0x3C ≤ op && op ≤ 0x3E

/-- Whether a sift command writes g or f (R125). -/
def siftBack : Instr → Bool
  | .ardf .. => true
  | .redmin .. => true
  | .redmax .. => true
  | i => !(gWrites i).isEmpty

/-- An instruction of address va has had its effect: a load without hint homes its destination in the EU, every other writer in the
unit that performs it (R140); a sift command holds a credit until it has completed, one that writes g or f until then only (R124,
R125). -/
def State.homed (s : State) (t : Tid) (va : Word) (i : Instr) : State :=
  let x := s.decOf t
  let y := (s.gUse t i).2.foldl (fun y r => y.homeAt va (x.unit == .eu) r) x
  let y := (loadDest i).foldl (fun y r => y.homeAt va (!x.hint) r) y
  s.setDec t { y with
    held := false, part := [],
    sift := if !isSift i then x.sift else if siftBack i then 0 else x.sift + 1 }

/-! Routing one instruction. -/

/-- What routing an instruction of a thread leaves: its own machinery and that of the core's other thread, the hints given or used,
the core events that count, and the cycles they take. -/
structure Steer where
  own : Decoupled
  sib : Decoupled
  give : List (Word × Nat)
  ev : List (Nat × Nat)
  cyc : Nat

/-- The next free number of a thread's timing (DESIGN CHOICE, log 64). -/
def Steer.time (z : Steer) (t : Tid) : Nat := Config.timing t.val z.own.seq
/-- That number is used up. -/
def Steer.spend (z : Steer) : Steer := { z with own := { z.own with seq := z.own.seq + 1 } }
/-- The AU waits n cycles, which count as one event and as cycles of codes ev and cy. -/
def Steer.waits (z : Steer) (ev cy n : Nat) : Steer := { z with ev := z.ev ++ [(ev, 1), (cy, n)], cyc := z.cyc + n }

/-- Room is made for n more entries of a kind in the thread's share (R144, R146, R151): where there is none, the oldest
instructions of the thread, and then of the other one, complete, and the cycles count as code ev, where it has one. -/
def Steer.room (z : Steer) (t : Tid) (halved : Bool) (ev whole half n : Nat) (use : List LogEnt → Nat) : Steer :=
  let ok (l m : List LogEnt) : Bool := mayTake halved whole half (use l) (use m) n
  if n = 0 || ok z.own.log z.sib.log then z
  else
    let l := logUntil (fun l => ok l z.sib.log) z.own.log
    let m := logUntil (fun m => ok l m) z.sib.log
    let k := 1 + z.time t
    { z with
      own := { z.own with log := l, seq := z.own.seq + 1 }, sib := { z.sib with log := m },
      ev := if ev = 0 then z.ev else z.ev ++ [(ev, k)], cyc := z.cyc + k }

/-- The EU goes on: some of the oldest instructions have completed, and some sift commands (R124). -/
def Steer.pass (z : Steer) (t : Tid) : Steer :=
  let n := z.time t
  ({ z with own := { z.own with log := z.own.log.drop n, sift := z.own.sift - n } }).spend

/-- The copies that an instruction needs in the unit that performs it (R141): one that the EU has not made yet is a loss of
decoupling of the copy kind, and its writer receives a hint (R142, R143). -/
def Steer.copies (z : Steer) (t : Tid) (u : CoreUnit) (rs : List Nat) (key : Word → Word × Nat) : Steer :=
  let z := { z with own := { z.own with both := rs.foldl (fun b r => b ||| BitVec.ofNat 32 (2 ^ r)) z.own.both } }
  if u = .au && rs != [] && z.own.log != [] && z.time t % 2 == 1 then
    let w := z.waits 0x010 0x011 (1 + z.time t)
    { w with
      own := { w.own with log := [], seq := w.own.seq + 1 },
      give := w.give ++ rs.filterMap fun r => (SMap.find? z.own.wrote r).map key }
  else z.spend

/-- An instruction of R148 waits until both units have done all before it: a drain event. -/
def Steer.drains (z : Steer) (t : Tid) (i : Instr) : Steer :=
  if serial i && z.own.log != [] then
    let w := z.waits 0x013 0x014 (1 + z.time t)
    { w with own := { w.own with log := [], seq := w.own.seq + 1 } }
  else z

/-- The front end routes an instruction of address va, and the units work on it (R136 to R150): the log and the queues have
room, or the unit has waited for it; what it reads is copied; an instruction of R148 drains both units; and a branch may have been
mispredicted. -/
def State.plan (s : State) (t : Tid) (va : Word) (i : Instr) : Steer :=
  let x := s.thr t
  let h := s.halved t
  let hint := (s.hintsOf t).contains (x.hintKey va)
  let z : Steer := ⟨s.decOf t, s.decOf (sibling t), if hint then [x.hintKey va] else [], [], 0⟩
  let z := z.pass t
  let u := z.own.route hint i
  let need := (s.gUse t i).1.filter fun r => u != .fe && !z.own.has u r
  let ld := (if u = .eu then need.length else 0) + (if loadsF i || (!hint && loadDest i ≠ []) then 1 else 0)
  let cp := if u = .au then need.length else 0
  let bo := branches i && u == .eu
  let z := z.room t h 0 256 128 1 List.length
  let z := z.room t h 0x018 192 96 ld ldqUse
  let z := z.room t h 0x01B 64 32 cp cpqUse
  let z := z.room t h 0x01C 64 32 (b2n bo) boqUse
  let z := (z.copies t u need x.hintKey).drains t i
  let n := z.time t
  let misp := branches i && n % 2 == 1
  let cyc := z.cyc + 1 + n
  let sd := (storeData i).any fun r => r = 32 || z.own.inEu r
  let log := if serial i then [] else
    (if misp && u = .eu then [] else z.own.log) ++ [⟨z.own.seq, ld, cp, sd, bo && !misp⟩]
  { z with
    own := { z.own with log := log, seq := z.own.seq + 1, unit := u, hint := hint, misp := misp },
    ev := z.ev ++ [(0x001, cyc), (0x01D, ldqUse z.own.log * cyc)] }

/-- A plan is carried out. -/
def State.carry (s : State) (t : Tid) (z : Steer) : State :=
  (((s.setDec (sibling t) z.sib).setDec t z.own).giveHints t z.give).counts t z.ev

/-- The instruction at va is routed, once however often it then has to wait. -/
def State.steered (s : State) (t : Tid) (va : Word) (i : Instr) : State :=
  if (s.decOf t).held then s else s.carry t (s.plan t va i)

/-- The instruction at pc waits: nothing of it is routed again. -/
def State.holds (s : State) (t : Tid) : State := s.setDec t { s.decOf t with held := true }

/-- A branch retires: a misprediction counts for the unit that resolved it (R157). -/
def State.branched (s : State) (t : Tid) : State :=
  let x := s.decOf t
  s.counts t (if x.misp then [(if x.unit = .eu then 0x021 else 0x020, 1)] else [])

/-- Where the front end needs the count of REP gN that the EU homes, it is copied; where the EU has not made the copy yet, a loss
of decoupling of the count kind counts (R139, R141, R142). -/
def State.steerCount (s : State) (t : Tid) (g : Rn) : State :=
  let x := s.decOf t
  if x.has .au g.val then s
  else
    let z : Steer := ⟨{ x with both := x.both ||| BitVec.ofNat 32 (2 ^ g.val) }, s.decOf (sibling t), [], [], 0⟩
    let z := z.room t (s.halved t) 0x01B 64 32 1 cpqUse
    let w := if z.own.log != [] && z.time t % 2 == 1 then z.waits 0x010 0x011 (1 + z.time t) else z
    s.carry t { w with
      own := { w.own with log := if w.cyc = z.cyc then z.own.log else [], seq := z.own.seq + 1 },
      ev := w.ev ++ [(0x001, w.cyc)] }

/-! The store queues (R144, R145, R149). -/

/-- Whether a thread holds credits for n more entries of the store-address queue, one for each store that is not visible yet; the
store-data queue, which takes no more entries than it, then has room as well. -/
def State.saqRoom (s : State) (t : Tid) (n : Nat) : Bool :=
  mayTake (s.halved t) 96 48 (s.thr t).storeQ.length (s.thr (sibling t)).storeQ.length n

/-- A thread waits for a reason that counts n cycles as code ev, and as one event of code ev0 where it has one. -/
def State.idles (s : State) (t : Tid) (ev0 ev : Nat) : State :=
  let x := s.decOf t
  let n := 1 + Config.timing t.val x.seq
  (s.setDec t { x with seq := x.seq + 1 }).counts t ((if ev0 = 0 then [] else [(ev0, 1)]) ++ [(ev, n), (0x001, n)])

/-- A store of the running instruction takes its store-data entry where its data comes from the EU. -/
def State.sdqPush (s : State) (t : Tid) : State :=
  let x := s.decOf t
  let e := match x.log.getLast? with
    | some e => if e.sdq then some e.id else none
    | none => none
  s.setDec t { x with sdq := x.sdq ++ [e] }

/-- The oldest store is written into the cache and its entries are freed. -/
def State.sdqPop (s : State) (t : Tid) : State := s.setDec t { s.decOf t with sdq := (s.decOf t).sdq.drop 1 }

/-- A load that overlaps store number n of its thread (R149): where that store's data is still to come from the EU, a
loss-of-decoupling event of the store-data kind counts and the EU comes to the store. -/
def State.storeDataWait (s : State) (t : Tid) (n : Nat) : State :=
  let x := s.decOf t
  match x.sdq.getD n none with
  | none => s
  | some id =>
    if x.log.any fun e => e.id == id then
      ((s.setDec t { x with log := logUntil (fun l => !l.any fun e => e.id == id) x.log }).counts t [(0x012, 1)]).idles t 0x010 0x011
    else s

/-- An instruction waits until stores are written: a drain event, counted once (R148, R149). -/
def State.drainEvent (s : State) (t : Tid) : State := if (s.decOf t).held then s else s.idles t 0x013 0x014

/-! The sift queue (R124). -/

/-- Whether an instruction has to wait for a credit of the sift unit: a thread holds 8. -/
def State.creditless (s : State) (t : Tid) (i : Instr) : Bool := isSift i && (s.decOf t).sift ≥ 8

/-- While it waits, commands complete. -/
def State.siftWait (s : State) (t : Tid) : State :=
  let x := s.decOf t
  s.setDec t { x with sift := x.sift - Config.timing t.val x.seq, seq := x.seq + 1 }

/-! Cache misses (R153, R154). -/

/-- The partition class of a thread (R404). -/
def Thread.class (x : Thread) : Nat :=
  if x.enc then x.encClass else if x.pl = 3 then fget (x.c 0x502) 0 2 else fget (x.c 0x501) 0 2

/-- The L1 data cache of a thread. -/
def State.l1dOf (s : State) (t : Tid) : Nat := l1dNo (dieOf t) (s.phys (dieOf t) (coreOf t))
/-- The L1 instruction cache of a thread. -/
def State.l1iOf (s : State) (t : Tid) : Nat := l1iNo (dieOf t) (s.phys (dieOf t) (coreOf t))

/-- Whether the caches hold what a physical address names: not a local store, and no access without caching (R186, R187). -/
def State.cached (s : State) (pa : Nat) : Bool := (s.lsOf pa).isNone && s.cacheable pa && !s.homeless pa

/-- Whether an L1 cache has a miss entry for a thread (R152): 8 in an instruction cache; 48 in a data cache, at most 40 of a thread
while both are active. -/
def State.l1MissRoom (s : State) (t : Tid) (k : Nat) : Bool :=
  let l := SMap.get [] s.miss k
  if k < 240 then l.length < 8
  else l.length < 48 && (!s.active (sibling t) || (l.filter fun e => e.who == thOf t).length < 40)

/-- Whether a miss entry of a cache is for a line, which further accesses to it join (R153). -/
def State.missing (s : State) (k line : Nat) : Bool := (SMap.get [] s.miss k).any fun e => e.line == line

/-- Whether a die can be given a line now: to own it, or to read it. -/
def State.mayHave (s : State) (line d cls : Nat) (own : Bool) : Bool :=
  (if own then s.canOwn line d else s.canHave line d) && s.l3Room d cls line

/-- A die is given a line; a grant of its home promotes the die first where its ADVANCE is due (R213). -/
def State.given (s : State) (line d ks : Nat) (own : Bool) : State :=
  if own then
    if (s.line line).stOf d == .m || (s.line line).stOf d == .e then s.acqOwn line d ks else (s.acqOwn line d ks).promote d
  else if s.dieHas d line then s else (s.acqShared line d ks).promote d

/-- A cache's miss entry for a line is freed. -/
def State.missDrop (s : State) (k line : Nat) : State :=
  if s.missing k line then
    let l := (SMap.get [] s.miss k).filter fun e => e.line != line
    { s with miss := if l = [] then SMap.del s.miss k else SMap.put s.miss k l }
  else s

/-- Whether a line's access needs its cluster's L2 to ask the home: it is not there, or has to be owned (R154). -/
def State.l2Needs (s : State) (t : Tid) (line : Nat) (own : Bool) : Bool :=
  let st := (s.line line).stOf (dieOf t)
  !s.inCache (l2No (s.clusterOf t.val)) line || (own && st != .m && st != .e)

/-- Whether an L2 miss entry is there for a line, or can be taken (R154). -/
def State.l2May (s : State) (t : Tid) (who line : Nat) : Bool :=
  let k := l2No (s.clusterOf t.val)
  s.missing k line || l2MissRoom (SMap.get [] s.miss k) who

/-- The number by which a cluster's L2 knows a thread's core (R154). -/
def State.whoOf (s : State) (t : Tid) : Nat := s.phys (dieOf t) (coreOf t) % 4

/-- An access of a thread to a line in an L1 cache (R153, R154): a hit changes nothing; a miss takes its entries, or joins one, and
the line comes in; none where it has to wait. -/
def State.serve (s : State) (t : Tid) (k line ks : Nat) (own : Bool) : Option State :=
  let d := dieOf t
  let need := s.l2Needs t line own
  if s.inCache k line && !need then some s
  else
    let clu := s.clusterOf t.val
    let cls := (s.thr t).class
    if (s.missing k line || s.l1MissRoom t k) && (!need || s.l2May t (s.whoOf t) line) && s.mayHave line d cls own then
      let s := if s.missing k line then s else s.counts t [(if k < 240 then 0x031 else 0x030, 1)]
      some ((((s.given line d ks own).missDrop k line).missDrop (l2No clu) line).l1Fill clu k cls line)
    else none

/-- The miss of a thread's access waits in its L1 entry: it takes an L2 entry, or waits for one (R154). -/
def State.l2Waits (s : State) (t : Tid) (who line : Nat) (own : Bool) : State :=
  let k := l2No (s.clusterOf t.val)
  if !s.l2Needs t line own || s.missing k line then s
  else if s.l2May t who line then s.missTake k line who
  else s.idles t 0 0x033

/-- What an access of a thread that has to wait for a line leaves: its miss entries, or the cycles that it waits for one. -/
def State.serveWait (s : State) (t : Tid) (k line : Nat) (own : Bool) : State :=
  if s.missing k line then s.l2Waits t (s.whoOf t) line own
  else if s.l1MissRoom t k then
    ((s.missTake k line (thOf t)).counts t [(if k < 240 then 0x031 else 0x030, 1)]).l2Waits t (s.whoOf t) line own
  else s.idles t 0 0x032

/-- A read of the sift unit for a thread through the cluster's L2 (R125, R154, R404); none where it has to wait. -/
def State.serveL2 (s : State) (t : Tid) (line ks : Nat) : Option State :=
  let clu := s.clusterOf t.val
  let cls := (s.thr t).class
  if s.inCache (l2No clu) line then some s
  else if s.l2May t 4 line && s.mayHave line (dieOf t) cls false then
    some (((s.given line (dieOf t) ks false).missDrop (l2No clu) line).l2Fill clu cls line)
  else none

/-- What a fetch gives: the line of pc is in the instruction cache, or needs none. -/
def State.fetchHit (s : State) (t : Tid) (pa : Nat) : Bool := !s.cached pa || s.inCache (s.l1iOf t) (pa / 64)

end Sys2Proof.Machine
end

