-- ==== Sys2Proof/Machine/RegWrite.lean ====
section
/-!
DEFINITION. The write of a register by its access codes (R12, R13, R15, R16, R523), without what some registers do beside.
-/
namespace Sys2Proof.Machine

/-- The lock bit of a register family's RWL fields is set (R13). -/
def State.regLocked (s : State) (r : RegDesc) (i : Nat) : Bool :=
  r.lockA != 0 && bit (s.rdw (r.lockA + i * r.lockS)) r.lockB

/-- Every byte of a register is written. -/
def fullMask : Word := BitVec.allOnes 64

/-- Store a write of v, of the bits in mask, at an address by the access codes of its fields. -/
def State.regPut (s : State) (a : Nat) (v mask : Word) : State :=
  match regAt regTable a with
  | some (r, i, _) => s.wrw a (fldsWrite r.flds (s.rdw a) v mask (s.regLocked r i))
  | none => s

end Sys2Proof.Machine
end

