-- ==== Sys2Proof/Machine/Fence.lean ====
section
/-!
DEFINITION. Containment: reclaiming a lost agent's lines (R203), fencing a C-die (R431, R432), errors found in arrays
(R413, R422), core sparing (R425 to R430), and the clearing of machine-check banks.
-/
namespace Sys2Proof.Machine

/-! Reclaim. -/

/-- Whether a home request comes from an agent. -/
def HomeReq.from? (q : HomeReq) (a : Agent) : Bool := q.by == some a

/-- An owned line of a lost agent (R203): a VOLATILE one is poisoned at home and counted, a PERSISTENT one spoils its
domain. -/
def State.reclaimOwned (s : State) (line : Nat) : State :=
  let r := s.line line
  let s := s.setLine line { r with data := none, poison := false, pd := false }
  match s.domOf (line * 64) with
  | some d => s.spoil d
  | none =>
    if s.homedHere (line * 64) then
      (s.toMemory line (BitVec.allOnes 64) (s.homeLine line r.kslot).data true false r.kslot).inc F.DIR_POISONED_COUNT 1
    else s

/-- One line is reclaimed from an agent (R203): its requests are discarded, its copies go, and an answer awaited from it is
taken as RSP_I. A write-back or eviction that the home has received is consumed with the transaction it waits for. -/
def State.reclaimLine (s : State) (a : Agent) (line : Nat) : State :=
  let r := s.line line
  let drop (r : LineRec) : LineRec := match agentDie a with
    | some d => { (r.setSt d .i) with
        evict := SMap.keep (fun k e => k != d || e.consumed) r.evict, undoP := r.undoP.filter fun x => x != d,
        hold := r.hold.filter fun x => x != d, gotGo := SMap.del r.gotGo d, gotDat := SMap.del r.gotDat d }
    | none => r
  let kept := (SMap.find? r.evict (agentNo a)).elim false (·.consumed)
  let owned := r.dir = .owned && r.present a && r.holders.length ≤ 1 && !kept
  let r1 : LineRec := { drop r with out := r.out.filter fun q => !q.from? a, queue := r.queue.filter fun q => !q.from? a }
  let r1 := { r1 with txn := r1.txn.map fun (t : HomeTxn) => if t.req.from? a then { t with req := .cur .hub } else t }
  let s := match a with | .die d => s.forget d.val line | _ => s
  let s := s.setLine line (if kept then r1 else r1.dropAgent a)
  let s := if owned then s.reclaimOwned line else s
  let r := s.line line
  match r.txn with
  | some t =>
    if t.snp.contains a || t.evx.contains a then
      (s.setLine line { r with txn := some { t with
        snp := t.snp.filter fun x => x != a, evx := t.evx.filter fun x => x != a } }).homeFinish line
    else s.homeFinish line
  | none => s.homeRun line

/-- Every line that names a lost agent is reclaimed (R203), and its messages are dropped. -/
def State.reclaim (s : State) (a : Agent) (remote : Bool) (n : Nat) : State :=
  let s := { s with msgs := s.msgs.filter fun m => m.agent != a }
  let s := match agentDie a with
    | some d => { s with undoOut := s.undoOut.filter fun u => u.1 != d, swbOut := s.swbOut.filter fun m => m.die != d }
    | none => s
  let s := s.lines.foldl (fun s c => s.reclaimLine a c.1) s
  let s := { s with msgs := s.msgs.filter fun m => m.agent != a }
  (s.wr F.DIR_RECLAIM_REMOTE (b2n remote)).wr F.DIR_RECLAIM_AGENT n

/-! Cuts no longer wait for a die. -/

/-- A domain's cut or rollback stops waiting for the structures of die d (R212, R224, R237). -/
def State.unwait (s : State) (d k : Nat) : State :=
  let x := s.dom k
  let s := s.setDom k { x with
    acks := x.acks.filter fun y => y != d,
    l2Left := x.l2Left.filter fun y => y / 5 != d, l3Left := x.l3Left.filter fun y => y / 16 != d,
    purgeL2 := x.purgeL2.filter fun y => y / 5 != d, purgeL3 := x.purgeL3.filter fun y => y / 16 != d,
    did := x.did.filter fun y => (if y < 60 then y / 5 else (y - 60) / 16) != d }
  let s := if x.step = .advance && (s.dom k).acks == [] then s.cutSweep k else s
  (s.sweepEnd k).purgeEnd k

/-! Fencing. -/

/-- The vectors and notices pending at threads of die d are withdrawn and counted (R431, step 4). -/
def State.withdrawCues (s : State) (d : Nat) : State :=
  let mine (t : Option Nat) : Bool := match t with | some t => t / 36 == d | none => false
  let s := s.listedVecs.foldl (fun s v =>
    if s.flag (F.CUEV_PEND v) && !s.flag (F.CUEV_VIRT v) && mine (tidOfGtid (s.rd (F.CUEV_TARGET v) % 1024)) then
      (s.wr (F.CUEV_PEND v) 0).cueDrop else s) s
  (List.range 36).foldl (fun s i =>
    let t := 36 * d + i
    let x := s.thrN t
    if x.notices == [] then s
    else x.notices.foldl (fun s _ => s.cueDrop) (s.setThrN t { x with notices := [] })) s

/-- Store PKG_DIEd.STATE, with PKG_CAPS.RUNNING following it (R327). -/
def State.setDie (s : State) (d st : Nat) : State :=
  let s := s.wr (F.PKG_DIEd_STATE d) st
  let m := s.rd F.PKG_CAPS_RUNNING
  let rest := if m / 2 ^ d % 2 = 1 then m - 2 ^ d else m
  s.wr F.PKG_CAPS_RUNNING (if st = 0 then rest + 2 ^ d else rest)

/-- Both D-links of a die go DOWN where they were in training or UP (R315). -/
def State.dlinksDown (s : State) (d : Nat) : State :=
  [2 * d, 2 * d + 1].foldl (fun s j =>
    if s.rd (F.DL_STAT_STATE j) = 1 || s.rd (F.DL_STAT_STATE j) = 2 then s.wr (F.DL_STAT_STATE j) 0 else s) s

/-- The record that the H-die keeps of a die's fatal error (R432). -/
def State.dieRecord (s : State) (d : Nat) (r : BankRec) : State :=
  let s := (s.wrw (A.MC_DIEFATALd d 0) r.status).wrw (A.MC_DIEFATALd d 1) r.addr
  let s := (s.wrw (A.MC_DIEFATALd d 2) r.misc).wrw (A.MC_DIEFATALd d 3) r.slate
  (s.wr (F.MC_DIEBANKd_BANK d) r.bank).wr (F.MC_DIEBANKd_V d) 1

/-- The record the H-die fills itself (R432). -/
def State.timeoutRecord (s : State) (d : Nat) : BankRec :=
  { status := BitVec.ofNat 64 (2 ^ 63 + 3 * 2 ^ 60 + 15 * 2 ^ 16 + 5 * 2 ^ 8 + 0x92), addr := 0, misc := 0, slate := s.slate,
    bank := 341 + d }

/-- MC_GSTAT.PENDING is set where an asynchronous machine check waits that no thread can take (R418). -/
def State.mcPoll (s : State) : State :=
  if !s.mcPend.isEmpty && s.mcRoute.isNone then s.wr F.MC_GSTAT_PENDING 1 else s

/-- A C-die is fenced (R431, steps 1 to 4); reclaim stays marked until its end is reported. -/
def State.fence (s : State) (d : Nat) : State :=
  if !s.dieRunning d then s
  else
    let s := (s.setDie d 3).dlinksDown d
    let s := { s with
      sl := { s.sl with settled := s.sl.settled.filter fun x => x != d }, sparing := SMap.del s.sparing d }
    let s := (s.wr F.DIR_RECLAIM_BUSY 1).wr (F.CORE_SPARE_BUSY d) 0
    let s := s.reclaim (.die (Fin.ofNat 12 d)) false d
    let s := (List.range 8).foldl (fun s k => s.unwait d k) s
    let s := (s.withdrawCues d).mcPoll
    { s with reclaims := s.reclaims ++ [d] }

/-- DIE_FENCE (R431): a write of DIE_RSTd.FENCE, from M. -/
def execDieFence (d : DieNo) (lvl : Lvl) (s : State) : Res := .next (if lvl.val = 3 then s.fence d.val else s)

/-- FATAL_DIE_REPORT (R412, R431, R432): with the bank's contents, where they arrive. -/
def execFatalDieReport (d : DieNo) (bank : Option BankRec) (s : State) : Res :=
  .next (if s.dieRunning d.val then (s.dieRecord d.val (bank.getD (s.timeoutRecord d.val))).fence d.val else s.stale (.die d))

/-- Every core of a die stops issuing (R324). -/
def State.stopDie (s : State) (d : Nat) : State :=
  ((List.range 18).foldl (fun s l => s.setCore (18 * d + l) { s.core (18 * d + l) with stopped := true }) s).mcPoll

/-- HEARTBEAT_TIMEOUT (R324): at the H-die, the die is fenced; at the die, it stops issue. -/
def execHeartbeatTimeout (d : DieNo) (atHub : Bool) (s : State) : Res :=
  .next (if atHub then
      if s.dieRunning d.val then (s.dieRecord d.val (s.timeoutRecord d.val)).fence d.val else s
    else s.stopDie d.val)

/-- FENCE_RECLAIM_DONE (R431, step 5): MC_DIE_FENCED goes to the route thread. -/
def execFenceReclaimDone (d : DieNo) (s : State) : Res :=
  .next (if s.reclaims.contains d.val then
      let s := { s with reclaims := s.reclaims.filter fun x => x != d.val }
      let s := s.wrIf (s.reclaims == []) F.DIR_RECLAIM_BUSY 0
      s.mcQueue 0x92 (BitVec.ofNat 64 d.val)
    else s)

/-! Errors found in arrays (R413). -/

/-- The bank of a structure's unit (R414). -/
def arrayBank (e : ArrayErr) : Nat :=
  if e.struct = 5 || e.struct = 6 || e.struct = 7 || e.struct = 11 then 240 + 5 * e.die + e.unit
  else if e.struct = 8 || e.struct = 9 || e.struct = 10 || e.struct = 14 then 300 + e.die
  else if e.struct = 16 then 328 else if e.struct = 17 then 312 + e.unit else if e.struct = 19 then 329
  else 20 * e.die + e.unit

/-- The WAYDIS register of an L2 or L3 way (R436). -/
def waydisAddr (e : ArrayErr) : Nat := if e.struct ≤ 7 then A.WAYDIS_L2k e.die e.unit else A.WAYDIS_L3s e.die e.unit

/-- The cache that an array error of an L2 or an L3 strikes. -/
def errCache (e : ArrayErr) : Nat := if e.struct ≤ 7 then l2No (5 * e.die + e.unit) else l3No e.die

/-- A way disables itself and drops its lines as evictions (R422), unless it is the last enabled one in the mask of a partition
class. -/
def State.wayDisable (s : State) (e : ArrayErr) : State :=
  let a := waydisAddr e
  let dis := fget (s.rdw a) 0 16
  let masks := (List.range 4).map fun c => if e.struct ≤ 7 then s.rd (F.PART_MASKc_L2 e.die c) else s.rd (F.PART_MASKc_L3 e.die c)
  if masks.any fun m => m.testBit e.way && (List.range 16).all fun w =>
      !(m.testBit w && !dis.testBit w) || w == e.way then
    s.wrw a (setBit (s.rdw a) 16 true)
  else (s.wrw a (setBit (s.rdw a) e.way true)).wayEmpty (errCache e) e.unit e.way

/-- An error of a way is counted (R422): 8 corrected ones, or one uncorrectable, within 2^30 mesh cycles disable it. Whether
that time has passed since the first is free (DESIGN CHOICE, log 3). -/
def State.wayCount (s : State) (e : ArrayErr) : State :=
  if e.struct < 6 || 9 < e.struct then s
  else
    let k := ((e.die * 16 + e.struct) * 64 + e.unit) * 16 + e.way
    let n := if Config.freeBool s.freeCtr then 0 else SMap.get 0 s.wayErr k
    let s := s.tick
    if !e.correct || 8 ≤ n + 1 then ({ s with wayErr := SMap.del s.wayErr k }).wayDisable e
    else { s with wayErr := SMap.put s.wayErr k (n + 1) }

/-- The error record of an array error: its physical address, or its row for a tag (R423, R436). -/
def ArrayErr.report (e : ArrayErr) (sev : Sev) : ErrRec :=
  let r := { ErrRec.plain sev e.struct (if e.correct then 1 else 2) with way := e.way }
  if e.struct = 7 || e.struct = 9 then { r with row := e.line } else { r with addr := some (e.line * 64) }

/-- Data are poisoned where they stand (R413, R420, R421): a byte of a local store, or a line that the die holds. -/
def State.poisonLine (s : State) (e : ArrayErr) : State :=
  if e.struct = 10 then match s.lsOf (e.line * 64) with
    | some (d, o) => { s with mem := { s.mem with lsPoison := (lsSize * d + o + e.way % 64) :: s.mem.lsPoison } }
    | none => s
  else if (s.line e.line).stOf e.die = .i then s
  else
    let r := s.line e.line
    s.setLine e.line { r with poison := true, data := some (r.data.getD (s.homeLine e.line r.kslot).data) }

/-- The logical core that a physical core of a die serves. -/
def State.logicalOf (s : State) (d p : Nat) : Option Nat :=
  (List.range 18).find? fun l => s.phys d l == p && s.populated d l

/-- The entry that a corrected error of an array strikes is invalidated, to be fetched again (R413); a TLB slot is when a lookup
finds it (R162). -/
def State.dropEntry (s : State) (e : ArrayErr) : State :=
  let core (f : Core → Core) : State := match s.logicalOf e.die e.unit with
    | some l => s.setCore (18 * e.die + l) (f (s.core (18 * e.die + l)))
    | none => s
  match e.struct with
  | 1 => s.uncache e.line (l1iNo e.die e.unit)
  | 2 => s.uncache e.line (l1dNo e.die e.unit)
  | 3 => core fun c => { c with tlbBad := if c.tlbBad.contains (e.way % 64) then c.tlbBad else c.tlbBad ++ [e.way % 64] }
  | 4 => core fun c => { c with gpm := SMap.del c.gpm e.way }
  | 5 => { s with owners := SMap.put s.owners (5 * e.die + e.unit) ((SMap.get [] s.owners (5 * e.die + e.unit)).eraseIdx e.way) }
  | _ => s

/-- The physical core whose state an array error strikes (R413). -/
def ArrayErr.core (e : ArrayErr) : Nat := if e.struct = 11 then 4 * e.unit + e.way % 4 else e.unit

/-- A physical core stops issuing on both threads (R413). -/
def State.stopCore (s : State) (d p : Nat) : State :=
  match s.logicalOf d p with
  | some l => (s.setCore (18 * d + l) { s.core (18 * d + l) with stopped := true }).mcPoll
  | none => s

/-- A fatal error of die scope (R412, R432): its bank takes it, and the die is fenced with that record. -/
def State.dieFatal (s : State) (b : Nat) (e : ArrayErr) : State :=
  let s := s.logErr b (e.report .fatal)
  (s.dieRecord e.die ⟨s.rdw (A.MCb_STATUS b), s.rdw (A.MCb_ADDR b), s.rdw (A.MCb_MISC b), s.rdw (A.MCb_SLATE b), b⟩).fence e.die

/-- An array error is found (R413, R415, R422). -/
def State.arrayErr (s : State) (e : ArrayErr) : State :=
  let b := arrayBank e
  let dirty := (s.line e.line).stOf e.die == .m
  if e.correct then (s.logCe b (e.report .corrected)).wayCount e
  else match e.struct with
    | 1 => (s.logCe b (e.report .corrected)).dropEntry e
    | 2 => if dirty then (s.logDeferred b (e.report .deferred)).poisonLine e else (s.logCe b (e.report .corrected)).dropEntry e
    | 3 => s.dropEntry e
    | 4 => (s.logCe b (e.report .corrected)).dropEntry e
    | 5 => (s.logCe b (e.report .corrected)).dropEntry e
    | 6 => ((s.logDeferred b (e.report .deferred)).poisonLine e).wayCount e
    | 8 => ((s.logDeferred b (e.report .deferred)).poisonLine e).wayCount e
    | 10 => (s.logDeferred b (e.report .deferred)).poisonLine e
    | 7 => s.dieFatal b e
    | 9 => s.dieFatal b e
    | 14 => s.dieFatal b e
    | 16 => s.fatal b (e.report .fatal)
    | 17 => s.fatal b (e.report .fatal)
    | 19 => (s.logAsync b (e.report .recoverable)).spoil (e.line % 8)
    | _ => (s.stopCore e.die e.core).logAsync b (e.report .recoverable)

/-- The errors that have struck the arrays of die d or of the H-die are found, at the latest by the die's next instruction
(DESIGN CHOICE, log 12). -/
def State.scrub (s : State) (d : Nat) : State :=
  let mine := s.latent.filter fun e => e.die == d || e.die == 12
  if mine == [] then s
  else mine.foldl (fun s e => s.arrayErr e) { s with latent := s.latent.filter fun e => !(e.die == d || e.die == 12) }

/-- FATAL_ERROR (R248, R412): a package-scope fatal error is found in a unit. -/
def execFatalError (bank : Fin 354) (struct type : BitVec 8) (addr : BitVec 52) (s : State) : Res :=
  .next (s.fatal bank.val { ErrRec.plain .fatal struct.toNat type.toNat with addr := some addr.toNat })

/-- WATCHDOG_EXPIRY (R41): a credited queue of a unit has completed nothing for 1 ms. -/
def execWatchdogExpiry (bank : Fin 354) (s : State) : Res := .next (s.fatal bank.val (ErrRec.plain .fatal 25 7))

/-! Core sparing (R425 to R430). -/

/-- A write of CORE_SPARE.GO for a logical core (R426). -/
def State.coreSpare (s : State) (d l : Nat) : State :=
  if s.flag (F.CORE_SPARE_BUSY d) || !s.dieRunning d then s
  else
    let s := (s.wr (F.CORE_SPARE_LOGICAL d) l).wr (F.CORE_SPARE_L1LOST d) 0
    if !s.populated d l then s.wr (F.CORE_SPARE_RESULT d) 3
    else
      let p := s.phys d l
      let s := (s.wr (F.CORE_SPARE_BUSY d) 1).wr (F.CORE_SPARE_RESULT d) 0
      let s := s.wr (F.CORE_MAPl_INC d l) ((s.rd (F.CORE_MAPl_INC d l) + 1) % 16)
      let dead := s.rd (F.CORE_PHYS_DEAD d)
      let s := s.wr (F.CORE_PHYS_DEAD d) (if dead.testBit p then dead else dead + 2 ^ p)
      let s := [0, 1].foldl (fun s th => s.setThrN (tidOf d l th) { s.thrN (tidOf d l th) with storeQ := [] }) s
      let s := (s.setCore (18 * d + l) { s.core (18 * d + l) with stopped := true }).mcPoll
      { s with sparing := SMap.put s.sparing d ⟨l, p, false⟩ }

/-- CORE_SPARE_GO (R426, step 1): from M. -/
def execCoreSpareGo (d : DieNo) (l : Fin 18) (lvl : Lvl) (s : State) : Res :=
  .next (if lvl.val = 3 then s.coreSpare d.val l.val else s)

/-- SPARE_L1_ANSWER (R426, step 2): the dirty lines of the L1 move into the L2 unchanged; the die holds them as before. -/
def execSpareL1Answer (d : DieNo) (s : State) : Res :=
  .next (match SMap.find? s.sparing d.val with
    | some x => if x.drain then s else { s with sparing := SMap.put s.sparing d.val { x with drain := true } }
    | none => s)

/-- Whether a die owns a line that among its L1 data caches core p's alone holds. -/
def State.l1Owns (s : State) (d p line : Nat) : Bool :=
  ((s.line line).stOf d == .m || (s.line line).stOf d == .e)
    && (List.range 20).all fun q => q == p || !s.inCache (l1dNo d q) line

/-- SPARE_L1_TIMEOUT (R426, step 2) of the logical core that is spared: each line that its old L1 held exclusive is reclaimed. -/
def execSpareL1Timeout (d : DieNo) (l : Fin 18) (s : State) : Res :=
  .next (match SMap.find? s.sparing d.val with
    | some x =>
      if x.drain || x.l != l.val then s
      else
        let s := s.wr (F.CORE_SPARE_L1LOST d.val) 1
        let s := { s with sparing := SMap.put s.sparing d.val { x with drain := true } }
        (s.cache (l1dNo d.val x.old)).foldl (fun s e =>
          if s.l1Owns d.val x.old e.line then s.reclaimLine (.die d) e.line else s) s
    | none => s)

/-- The number of populated logical cores of a die follows the map (R27). -/
def State.countCores (s : State) (d : Nat) : State :=
  s.wr (F.PKG_DIEd_CORES d) ((List.range 18).filter fun l => s.populated d l).length

end Sys2Proof.Machine
end

