-- ==== Sys2Proof/Machine/Issue.lean ====
section
/-!
DEFINITION. Issuing one instruction of a thread: whether the thread issues (R98, R268, R271, R324, R413, R445, R460), the
fetch and decode checks in their order (R54, R66, R78, R79), the delay slot (R59 to R61), retirement, and the store queue
(R71, R148, R149).
-/
namespace Sys2Proof.Machine

/-- What an instruction raises: cause, xEVAL, the TLB slot that matched, the TYPE of the access, and what is added to its
address for xEPC. -/
structure Trap where
  code : Nat
  val  : Word
  slot : Option Nat
  space : Nat
  adv  : Nat
deriving DecidableEq, Repr

/-- A trap with nothing but its cause and xEVAL. -/
def Trap.mk1 (code : Nat) (v : Word) : Trap := ⟨code, v, none, 0, 0⟩

/-- What an instruction does beyond its operands (R59, R79, R102). -/
inductive Out where
  /-- It completes; the next instruction follows. -/
  | done (s : State)
  /-- A transfer: the delay slot follows, then the target. -/
  | branch (s : State) (target : Word)
  /-- A branch with suffix .A that is not taken: the slot is skipped. -/
  | skip (s : State)
  /-- It completes and has set pc itself. -/
  | go (s : State)
  /-- It raises a cause; s holds what it has had effect on. -/
  | trap (s : State) (x : Trap)
  /-- It waits, with no effect but that of s. -/
  | hold (s : State)

/-! Whether a thread issues. -/

/-- A thread in WAIT goes on when a cue or a machine check is pending for it (R98, R418). -/
def State.wakes (s : State) (t : Tid) : Bool :=
  s.cuePending t.val || (!s.mcPend.isEmpty && (match s.mcRoute with | some (u, _) => u == t.val | none => false))

/-- Whether a thread issues an instruction now: not where a cue or a machine check is taken first (R54). -/
def State.canIssue (s : State) (t : Tid) : Bool :=
  s.coreOn t && s.idleOut t && !s.interrupted t && (match (s.thr t).run with
    | .running => true
    | .waiting => s.wakes t
    | _ => false)

/-! Fetch. -/

/-- Whether an instruction fetch consumes poison (R417, R421). -/
def State.fetchPoison (s : State) (pa ks : Nat) : Bool :=
  match s.lsOf pa with
  | some (d, o) => s.mem.lsPoison.any fun b => b / 4 == (lsSize * d + o) / 4
  | none => s.cacheable pa && (s.coherent (pa / 64) ks).poison

/-- The cause that the fetch of an instruction raises (R54, group 2; MC_FETCH_POISON), with the physical address of
poison. -/
def State.fetchTrap (s : State) (t : Tid) : Option (Trap × Option Nat) :=
  let pc := (s.thr t).pc
  if pc.toNat % 4 ≠ 0 then some (.mk1 0x07 pc, none)
  else if !canonical pc then some (.mk1 0x0E pc, none)
  else match s.xlate t .fetch pc with
    | .fail c i => some (⟨c, pc, i, 0, 0⟩, none)
    | .ok pa ks => if s.fetchPoison pa ks then some (.mk1 0x81 pc, some pa) else none

/-- The line of pc comes into the instruction cache (R136, R153); none where the fetch has to wait. -/
def State.fetched (s : State) (t : Tid) : Option State :=
  match s.xlate t .fetch (s.thr t).pc with
  | .ok pa ks => if s.fetchHit t pa then some s else s.serve t (s.l1iOf t) (pa / 64) ks false
  | .fail _ _ => some s

/-- A fetch waits for its line. -/
def State.fetchWait (s : State) (t : Tid) : State :=
  match s.xlate t .fetch (s.thr t).pc with
  | .ok pa _ => s.serveWait t (s.l1iOf t) (pa / 64) false
  | .fail _ _ => s

/-! Decode. -/

/-- Instructions that may not stand in a delay slot (R60, R107). -/
def slotBad : Instr → Bool
  | .beq .. => true
  | .bne .. => true
  | .blt .. => true
  | .bge .. => true
  | .bltu .. => true
  | .bgeu .. => true
  | .j .. => true
  | .call .. => true
  | .jr .. => true
  | .callr .. => true
  | .ret .. => true
  | .repN .. => true
  | .repG .. => true
  | .eret .. => true
  | .brk .. => true
  | .sysc .. => true
  | .hvc .. => true
  | .monc .. => true
  | .encrun .. => true
  | .encdone .. => true
  | _ => false

/-- Whether an instruction stands above the current level (R48, R96, R99, R104). -/
def privBad (x : Thread) : Instr → Bool
  | .mfc _ _ n => match crAt n.toNat with
    | some d => x.pl < d.rd
    | none => false
  | .mtc _ _ n => match crAt n.toNat with
    | some d => x.pl < (if d.wr > 3 then d.rd else d.wr)
    | none => false
  | .eret .. => x.eretPriv
  | .wait .. => x.pl < 1
  | .rdpmc .. => x.pl < 1 && !bit (x.c 0x300) 16
  | .tlbwRnd .. => x.pl < 1
  | .tlbwSlot .. => x.pl < 1
  | .tlbrd .. => x.pl < 1
  | .tlbfind .. => x.pl < 1
  | .tlbiVa .. => x.pl < 1
  | .tlbiAsid .. => x.pl < 1
  | .tlbiVmid .. => x.pl < 2
  | .tlbiAll .. => x.pl < 2
  | .gpmw .. => x.pl < 2
  | .gpmr .. => x.pl < 2
  | .gpmi .. => x.pl < 2
  | .ownersync .. => x.pl < 3
  | .rssave .. => x.pl < 1
  | .rsload .. => x.pl < 1
  | .dtload .. => x.pl < 1
  | _ => false

/-- Which unit an instruction needs (R83, R110, R126): 1 floating point, 2 sift, 3 both. -/
def unitNeed : Instr → Nat
  | .fadd .. => 1
  | .fsub .. => 1
  | .fmul .. => 1
  | .fdiv .. => 1
  | .fsqrt .. => 1
  | .fmin .. => 1
  | .fmax .. => 1
  | .fneg .. => 1
  | .fabs .. => 1
  | .fmov .. => 1
  | .feq .. => 1
  | .flt .. => 1
  | .fle .. => 1
  | .fclass .. => 1
  | .fcvti .. => 1
  | .fcvtiu .. => 1
  | .fcvtf .. => 1
  | .fcvtfu .. => 1
  | .fcvtx .. => 1
  | .fmvg .. => 1
  | .fmvf .. => 1
  | .fmadd .. => 1
  | .fmsub .. => 1
  | .fnmsub .. => 1
  | .fnmadd .. => 1
  | .load _ _ _ k _ _ => b2n (k.val ≥ 8)
  | .store _ _ _ k _ _ => b2n (k.val ≥ 8)
  | .loadx _ _ _ k _ _ _ => b2n (k.val ≥ 8)
  | .storex _ _ _ k _ _ _ => b2n (k.val ≥ 8)
  | .vbcast .. => 2
  | .vins .. => 2
  | .vext .. => 2
  | .vmov .. => 2
  | .pscan .. => 2
  | .compress .. => 2
  | .unpack .. => 2
  | .vhash .. => 2
  | .vcrc .. => 2
  | .redmin _ _ _ _ _ x => if x.val ≥ 2 then 3 else 2
  | .redmax _ _ _ _ _ x => if x.val ≥ 2 then 3 else 2
  | .vcnt .. => 2
  | .sload .. => 2
  | .sscan .. => 2
  | .sgather .. => 2
  | .sdict .. => 2
  | .saccadd .. => 2
  | .aclr .. => 2
  | .aaddf .. => 2
  | .amacf .. => 2
  | .aaddi .. => 2
  | .acnt .. => 2
  | .ardf .. => 3
  | .ardi .. => 2
  | .ardw .. => 2
  | .awrw .. => 2
  | _ => 0

/-- A needed unit is disabled (R49). -/
def unitBad (x : Thread) (i : Instr) : Bool :=
  (unitNeed i % 2 == 1 && !bit (x.c 0) 5) || (unitNeed i ≥ 2 && !bit (x.c 0) 6)

/-- DTTID.TID differs from DTCID.CID (R109, R117). -/
def State.dtMismatch (s : State) (t : Tid) : Bool :=
  fget ((s.thr t).c 0x201) 0 12 != fget ((s.core (coreKey t)).c 0x200) 0 12

/-- Items 6 and 7 of R78, with R109, R117 and R401: the decode table's causes; 0 where none. -/
def State.dtCode (s : State) (t : Tid) : Instr → Nat
  | .udi _ sel _ _ _ _ =>
    if (s.thr t).enc then 0x43
    else if s.dtMismatch t then 0x5C
    else if (SMap.find? (s.core (coreKey t)).dt sel.val).isNone then 0x13 else 0
  | .dtload _ _ _ =>
    if (s.thr t).pl ≥ 2 then 0
    else if s.dtMismatch t then 0x5C
    else if bit ((s.thr t).c 0x201) 12 then 0x5D else 0
  | _ => 0

/-- An illegal instruction (R75, R58, R104). -/
def State.illegal (s : State) (t : Tid) (i : Instr) : Bool :=
  reservedEnc i || match i with
    | .eret _ => (s.thr t).eretIllegal
    | .encrun _ _ _ => (s.thr t).enc
    | .encdone _ _ => !(s.thr t).enc
    | _ => false

/-- The cause of the decode group that an instruction raises, in the order of R78; 0 where none. -/
def State.decodeCode (s : State) (t : Tid) (i : Instr) : Nat :=
  let x := s.thr t
  if s.illegal t i then 0x01
  else if x.slot.isSome && slotBad i then 0x03
  else if privBad x i then 0x02
  else if (match i with | .cust .. => true | _ => false) then 0x05
  else if unitBad x i then 0x06
  else s.dtCode t i

/-! Machine checks of a retiring instruction. -/

/-- The core's bank records a synchronous machine check (R417). The STRUCT is not stated: a free code (DESIGN CHOICE, log 3). -/
def State.mcRecord (s : State) (t : Tid) (code type pa : Nat) : State :=
  let b := s.coreBank t.val
  let fresh := !s.flag (F.MCb_STATUS_VAL b)
  let e : ErrRec := {
    sev := .recoverable, struct := 1 + Config.freeNat s.freeCtr % 25, type := type, cause := code, addr := some pa,
    pkg := false, tid := some t.val, inc := s.rd (F.CORE_MAPl_INC (dieOf t) (coreOf t)), row := 0, way := 0 }
  (s.tick.logErr b e).wrIf fresh (F.MCb_STATUS_SIGNALLED b) 1

/-! Completion. -/

/-- The instruction retires and the next one follows: in a delay slot, the address after it (R59). -/
def State.retire (s : State) (t : Tid) : State :=
  let s := s.pmEvent t 2
  let x := s.thr t
  s.setThr t { x with pc := x.slot.getD (x.pc + 4), slot := none, repLeft := none }

/-- A trap of the instruction at pc is taken (R57, R61, R67). -/
def State.raise (s : State) (t : Tid) (x : Trap) (rep : Option Nat) : State :=
  let th := s.thr t
  s.takeSync t { code := x.code, val := x.val, int := false, epc := th.pc + BitVec.ofNat 64 x.adv, bd := th.slot, rep := rep, slot := x.slot } x.space

/-- An instruction of address va ends: its destinations' homes, and its retirement. -/
def State.ends (s : State) (t : Tid) (va : Word) (i : Instr) : State := (s.homed t va i).retire t

/-- A branch of address va ends (R140, R157, R490); the next address is its caller's to set. -/
def State.branchEnds (s : State) (t : Tid) (va : Word) (i : Instr) : State :=
  (((s.homed t va i).branched t).pmEvent t 2).pmEvent t 0x22

/-- The end of an instruction of address va. -/
def Out.finish (t : Tid) (va : Word) (i : Instr) : Out → State
  | .done s => s.ends t va i
  | .branch s tgt =>
    let s := s.branchEnds t va i
    let x := s.thr t
    s.setThr t { x with pc := x.pc + 4, slot := some tgt }
  | .skip s =>
    let s := s.branchEnds t va i
    let x := s.thr t
    s.setThr t { x with pc := x.pc + 8, slot := none }
  | .go s => s
  | .trap s x => s.raise t x none
  | .hold s => s.holds t

/-- The thread leaves WAIT, and its cluster leaves SLEEP (R445). -/
def State.running (s : State) (t : Tid) : State :=
  let s := s.unsleep t
  let x := s.thr t
  s.setThr t { x with run := .running }

/-- The state in which an instruction of a thread acts: its thread runs, and the instruction has been routed. -/
def State.acting (s : State) (t : Tid) (i : Instr) : State :=
  (s.running t).steered t (s.thr t).pc i

/-- The fetch checks, the fetch, the decode checks and an instruction's own effect, in the order of R54. An unanswered REP count of an
earlier ERET is dropped by any instruction but REP. A decode cause that REP raises of itself, as in a delay slot, comes before a fetch
fault of the word after it, which R108 fetches with it (DESIGN CHOICE, log 16). -/
def State.run1 (s : State) (t : Tid) (i : Instr) (body : State → Out) : State :=
  if s.canIssue t then
    let s := (s.running t).tlbScrub t
    match s.fetchTrap t with
    | some (x, pa) =>
      let s := match pa with
        | some pa => s.mcRecord t x.code 3 pa
        | none => s
      s.raise t x (s.thr t).repLeft
    | none => match s.fetched t with
      | none => s.fetchWait t
      | some s =>
        let va := (s.thr t).pc
        let c := s.decodeCode t i
        if c ≠ 0 then s.raise t (.mk1 c (if c = 0x43 then 0 else (encode i).setWidth 64)) none
        else if s.creditless t i then s.siftWait t
        else (body (s.steered t va i)).finish t va i
  else s

/-- A thread that a debugger steps halts again after its instruction (R407). -/
def State.stepped (s : State) (t : Nat) : State :=
  if s.sec.stepping.contains t then
    let x := s.thrN t
    match x.run with
    | .ioWait _ _ _ => s
    | _ => { s.setThrN t { x with run := .debugHalt } with
        sec := { s.sec with stepping := s.sec.stepping.filter fun u => u != t } }
  else s

/-- One instruction of a thread: nothing where the thread does not issue; else the errors in its die's arrays are found
(DESIGN CHOICE, log 12), and it runs if its core still issues. -/
def State.issue (s : State) (t : Tid) (i : Instr) (body : State → Out) : State :=
  if s.canIssue t then
    let u := (s.scrub (dieOf t)).run1 t i body
    if s.sec.stepping.contains t.val then u.stepped t.val else u
  else s

/-! The store queue. -/

/-- Whether the bytes of two accesses overlap. -/
def PendStore.meets (p : PendStore) (pa n : Nat) : Bool := Machine.meets p.pa p.data.length pa n

/-- The bytes that an access performs at once, of n at an address (R45): all of an aligned one of up to 8 bytes; a 16-byte one in
8-byte halves, and a misaligned one in naturally aligned pieces (DESIGN CHOICE, log 68). -/
def pieceLen (pa n : Nat) : Nat :=
  if pa % 8 = 0 && 8 ≤ n then 8 else if pa % 4 = 0 && 4 ≤ n then 4 else if pa % 2 = 0 && 2 ≤ n then 2 else 1

/-- The line of a write is to be had: the thread's L1 data cache owns it, or it goes elsewhere (R148, R153). -/
def State.writable (s : State) (t : Tid) (pa ks : Nat) : Option State :=
  if s.cached pa then s.serve t (s.l1dOf t) (pa / 64) ks true else some s

/-- A piece of the oldest pending store of a thread becomes globally visible and joins the take of its thread's view (R45, R71,
R214); the store's entries are freed with its last piece (R145). -/
def State.commitOne (s : State) (t : Tid) : Option State :=
  match (s.thr t).storeQ with
  | [] => none
  | p :: q =>
    if s.dieRunning (dieOf t) then
      match s.writable t p.pa p.kslot with
      | none => none
      | some s =>
        let k := pieceLen p.pa p.data.length
        let rest := p.data.drop k
        let s := s.setThr t { s.thr t with
          storeQ := if rest = [] then q else { p with pa := p.pa + k, data := rest } :: q }
        let s := if rest = [] then s.sdqPop t else s
        some (s.storeIn (dieOf t) (s.clusterOf t.val) p.pa (p.data.take k) p.kslot)
    else none

/-- The oldest pending store of a thread waits for its line. -/
def State.commitWait (s : State) (t : Tid) : State :=
  match (s.thr t).storeQ with
  | [] => s
  | p :: _ => if s.dieRunning (dieOf t) && s.cached p.pa then s.serveWait t (s.l1dOf t) (p.pa / 64) true else s

/-- Every pending store of a thread becomes visible, oldest first; none where one has to wait. -/
def State.drainN (t : Tid) : Nat → State → Option State
  | 0, s => if (s.thr t).storeQ == [] then some s else none
  | fuel + 1, s =>
    if (s.thr t).storeQ == [] then some s
    else match s.commitOne t with
      | some s => State.drainN t fuel s
      | none => none

/-- Every pending store of a thread becomes visible (R72, R73). -/
def State.drain (s : State) (t : Tid) : Option State :=
  State.drainN t ((s.thr t).storeQ.map fun p => p.data.length).sum s

/-- STORE_COMMIT (R148). Nothing becomes visible where no store is pending or its line is not to be had yet. -/
def execStoreCommit (t : Tid) (s : State) : Res := .next ((s.commitOne t).getD (s.commitWait t))

/-- A store of a thread retires into the store queue. -/
def State.pushStore (s : State) (t : Tid) (pa ks : Nat) (bs : List Byte) : State :=
  let x := s.thr t
  (s.setThr t { x with storeQ := x.storeQ ++ [{ pa := pa, data := bs, kslot := ks }] }).sdqPush t

/-- A store that finds no entry of the store-address queue free waits until the oldest one is written (R144). -/
def State.saqWait (s : State) (t : Tid) : State :=
  let s := s.idles t 0 0x019
  (s.commitOne t).getD (s.commitWait t)

end Sys2Proof.Machine
end

