-- ==== Sys2Proof/Machine/Alu.lean ====
section
/-!
DEFINITION. Integer instructions (R80, R81, R82).
-/
namespace Sys2Proof.Machine

/-- Leading zero bits, 0 to 64. -/
def clzW (w : Word) : Nat := if w = 0 then 64 else 63 - Nat.log2 w.toNat
/-- Trailing zero bits, 0 to 64. -/
def ctzW (w : Word) : Nat := ((List.range 64).find? fun i => w.getLsbD i).getD 64
/-- The number of one bits of the low n bits of a number. -/
def popcN (n v : Nat) : Nat := ((List.range n).filter fun i => v.testBit i).length
/-- The eight bytes of a doubleword in reverse order. -/
def bswapW (w : Word) : Word := BitVec.ofNat 64 (ofBytes (bytesOf 8 w.toNat).reverse)
/-- Signed quotient rounded toward zero (R81, R82). -/
def divW (a b : Word) : Word := if b = 0 then BitVec.allOnes 64 else BitVec.ofInt 64 (a.toInt.tdiv b.toInt)
/-- Unsigned quotient. -/
def divuW (a b : Word) : Word := if b = 0 then BitVec.allOnes 64 else BitVec.ofNat 64 (a.toNat / b.toNat)
/-- Signed remainder with the sign of the dividend. -/
def remW (a b : Word) : Word := if b = 0 then a else BitVec.ofInt 64 (a.toInt.tmod b.toInt)
/-- Unsigned remainder. -/
def remuW (a b : Word) : Word := if b = 0 then a else BitVec.ofNat 64 (a.toNat % b.toNat)
/-- High 64 bits of the signed product. -/
def mulhW (a b : Word) : Word := BitVec.ofInt 64 (a.toInt * b.toInt / 2 ^ 64)
/-- High 64 bits of the unsigned product. -/
def mulhuW (a b : Word) : Word := BitVec.ofNat 64 (a.toNat * b.toNat / 2 ^ 64)
/-- 1 where a condition holds, else 0. -/
def boolW (b : Bool) : Word := if b then 1 else 0
/-- A shift amount: the low six bits (R81). -/
def shAmt (b : Word) : Nat := b.toNat % 64
/-- Arithmetic shift right. -/
def sraW (a : Word) (n : Nat) : Word := a.sshiftRight n
/-- Rotate right. -/
def rorW (a : Word) (n : Nat) : Word := a.rotateRight n
/-- The sign extension of IMM16. -/
def sx16 (i : BitVec 16) : Word := i.signExtend 64
/-- The zero extension of IMM16. -/
def zx16 (i : BitVec 16) : Word := i.setWidth 64

/-- What ADDI (R80) does to its destination. -/
def bodyAddi (t : Tid) (d a : Rn) (imm : BitVec 16) (s : State) : Out := .done (s.setG t d (s.g t a + sx16 imm))
/-- ADDI (R80). -/
def execAddi (t : Tid) (d a : Rn) (imm : BitVec 16) (s : State) : Res := .next (s.issue t (.addi t d a imm) (bodyAddi t d a imm))
/-- What ANDI (R80) does to its destination. -/
def bodyAndi (t : Tid) (d a : Rn) (imm : BitVec 16) (s : State) : Out := .done (s.setG t d (s.g t a &&& zx16 imm))
/-- ANDI (R80). -/
def execAndi (t : Tid) (d a : Rn) (imm : BitVec 16) (s : State) : Res := .next (s.issue t (.andi t d a imm) (bodyAndi t d a imm))
/-- What ORI (R80) does to its destination. -/
def bodyOri (t : Tid) (d a : Rn) (imm : BitVec 16) (s : State) : Out := .done (s.setG t d (s.g t a ||| zx16 imm))
/-- ORI (R80). -/
def execOri (t : Tid) (d a : Rn) (imm : BitVec 16) (s : State) : Res := .next (s.issue t (.ori t d a imm) (bodyOri t d a imm))
/-- What XORI (R80) does to its destination. -/
def bodyXori (t : Tid) (d a : Rn) (imm : BitVec 16) (s : State) : Out := .done (s.setG t d (s.g t a ^^^ zx16 imm))
/-- XORI (R80). -/
def execXori (t : Tid) (d a : Rn) (imm : BitVec 16) (s : State) : Res := .next (s.issue t (.xori t d a imm) (bodyXori t d a imm))
/-- What SLTI (R80) does to its destination. -/
def bodySlti (t : Tid) (d a : Rn) (imm : BitVec 16) (s : State) : Out := .done (s.setG t d (boolW ((s.g t a).slt (sx16 imm))))
/-- SLTI (R80). -/
def execSlti (t : Tid) (d a : Rn) (imm : BitVec 16) (s : State) : Res := .next (s.issue t (.slti t d a imm) (bodySlti t d a imm))
/-- What SLTUI (R80) does to its destination. -/
def bodySltui (t : Tid) (d a : Rn) (imm : BitVec 16) (s : State) : Out := .done (s.setG t d (boolW ((s.g t a).ult (sx16 imm))))
/-- SLTUI (R80). -/
def execSltui (t : Tid) (d a : Rn) (imm : BitVec 16) (s : State) : Res := .next (s.issue t (.sltui t d a imm) (bodySltui t d a imm))
/-- What LUI (R80) does to its destination. -/
def bodyLui (t : Tid) (d : Rn) (imm : BitVec 16) (s : State) : Out := .done (s.setG t d (sx16 imm <<< 16))
/-- LUI (R80). -/
def execLui (t : Tid) (d : Rn) (imm : BitVec 16) (s : State) : Res := .next (s.issue t (.lui t d imm) (bodyLui t d imm))
/-- What SHORI (R80) does to its destination. -/
def bodyShori (t : Tid) (d : Rn) (imm : BitVec 16) (s : State) : Out := .done (s.setG t d ((s.g t d <<< 16) ||| zx16 imm))
/-- SHORI (R80). -/
def execShori (t : Tid) (d : Rn) (imm : BitVec 16) (s : State) : Res := .next (s.issue t (.shori t d imm) (bodyShori t d imm))
/-- What ADDPC (R80) does to its destination. -/
def bodyAddpc (t : Tid) (d : Rn) (imm : BitVec 16) (s : State) : Out := .done (s.setG t d ((s.thr t).pc + (sx16 imm <<< 2)))
/-- ADDPC (R80). -/
def execAddpc (t : Tid) (d : Rn) (imm : BitVec 16) (s : State) : Res := .next (s.issue t (.addpc t d imm) (bodyAddpc t d imm))
/-- What SLLI (R80) does to its destination. -/
def bodySlli (t : Tid) (d a : Rn) (sh : BitVec 6) (s : State) : Out := .done (s.setG t d (s.g t a <<< sh.toNat))
/-- SLLI (R80). -/
def execSlli (t : Tid) (d a : Rn) (sh : BitVec 6) (s : State) : Res := .next (s.issue t (.slli t d a sh) (bodySlli t d a sh))
/-- What SRLI (R80) does to its destination. -/
def bodySrli (t : Tid) (d a : Rn) (sh : BitVec 6) (s : State) : Out := .done (s.setG t d (s.g t a >>> sh.toNat))
/-- SRLI (R80). -/
def execSrli (t : Tid) (d a : Rn) (sh : BitVec 6) (s : State) : Res := .next (s.issue t (.srli t d a sh) (bodySrli t d a sh))
/-- What SRAI (R80) does to its destination. -/
def bodySrai (t : Tid) (d a : Rn) (sh : BitVec 6) (s : State) : Out := .done (s.setG t d (sraW (s.g t a) sh.toNat))
/-- SRAI (R80). -/
def execSrai (t : Tid) (d a : Rn) (sh : BitVec 6) (s : State) : Res := .next (s.issue t (.srai t d a sh) (bodySrai t d a sh))
/-- What RORI (R80) does to its destination. -/
def bodyRori (t : Tid) (d a : Rn) (sh : BitVec 6) (s : State) : Out := .done (s.setG t d (rorW (s.g t a) sh.toNat))
/-- RORI (R80). -/
def execRori (t : Tid) (d a : Rn) (sh : BitVec 6) (s : State) : Res := .next (s.issue t (.rori t d a sh) (bodyRori t d a sh))
/-- What ADD (R81) does to its destination. -/
def bodyAdd (t : Tid) (d a b : Rn) (s : State) : Out := .done (s.setG t d (s.g t a + s.g t b))
/-- ADD (R81). -/
def execAdd (t : Tid) (d a b : Rn) (s : State) : Res := .next (s.issue t (.add t d a b) (bodyAdd t d a b))
/-- What SUB (R81) does to its destination. -/
def bodySub (t : Tid) (d a b : Rn) (s : State) : Out := .done (s.setG t d (s.g t a - s.g t b))
/-- SUB (R81). -/
def execSub (t : Tid) (d a b : Rn) (s : State) : Res := .next (s.issue t (.sub t d a b) (bodySub t d a b))
/-- What AND (R81) does to its destination. -/
def bodyAnd (t : Tid) (d a b : Rn) (s : State) : Out := .done (s.setG t d (s.g t a &&& s.g t b))
/-- AND (R81). -/
def execAnd (t : Tid) (d a b : Rn) (s : State) : Res := .next (s.issue t (.and t d a b) (bodyAnd t d a b))
/-- What OR (R81) does to its destination. -/
def bodyOr (t : Tid) (d a b : Rn) (s : State) : Out := .done (s.setG t d (s.g t a ||| s.g t b))
/-- OR (R81). -/
def execOr (t : Tid) (d a b : Rn) (s : State) : Res := .next (s.issue t (.or t d a b) (bodyOr t d a b))
/-- What XOR (R81) does to its destination. -/
def bodyXor (t : Tid) (d a b : Rn) (s : State) : Out := .done (s.setG t d (s.g t a ^^^ s.g t b))
/-- XOR (R81). -/
def execXor (t : Tid) (d a b : Rn) (s : State) : Res := .next (s.issue t (.xor t d a b) (bodyXor t d a b))
/-- What ANDN (R81) does to its destination. -/
def bodyAndn (t : Tid) (d a b : Rn) (s : State) : Out := .done (s.setG t d (s.g t a &&& ~~~(s.g t b)))
/-- ANDN (R81). -/
def execAndn (t : Tid) (d a b : Rn) (s : State) : Res := .next (s.issue t (.andn t d a b) (bodyAndn t d a b))
/-- What ORN (R81) does to its destination. -/
def bodyOrn (t : Tid) (d a b : Rn) (s : State) : Out := .done (s.setG t d (s.g t a ||| ~~~(s.g t b)))
/-- ORN (R81). -/
def execOrn (t : Tid) (d a b : Rn) (s : State) : Res := .next (s.issue t (.orn t d a b) (bodyOrn t d a b))
/-- What SLT (R81) does to its destination. -/
def bodySlt (t : Tid) (d a b : Rn) (s : State) : Out := .done (s.setG t d (boolW ((s.g t a).slt (s.g t b))))
/-- SLT (R81). -/
def execSlt (t : Tid) (d a b : Rn) (s : State) : Res := .next (s.issue t (.slt t d a b) (bodySlt t d a b))
/-- What SLTU (R81) does to its destination. -/
def bodySltu (t : Tid) (d a b : Rn) (s : State) : Out := .done (s.setG t d (boolW ((s.g t a).ult (s.g t b))))
/-- SLTU (R81). -/
def execSltu (t : Tid) (d a b : Rn) (s : State) : Res := .next (s.issue t (.sltu t d a b) (bodySltu t d a b))
/-- What MIN (R81) does to its destination. -/
def bodyMin (t : Tid) (d a b : Rn) (s : State) : Out := .done (s.setG t d (if (s.g t a).slt (s.g t b) then s.g t a else s.g t b))
/-- MIN (R81). -/
def execMin (t : Tid) (d a b : Rn) (s : State) : Res := .next (s.issue t (.min t d a b) (bodyMin t d a b))
/-- What MAX (R81) does to its destination. -/
def bodyMax (t : Tid) (d a b : Rn) (s : State) : Out := .done (s.setG t d (if (s.g t a).slt (s.g t b) then s.g t b else s.g t a))
/-- MAX (R81). -/
def execMax (t : Tid) (d a b : Rn) (s : State) : Res := .next (s.issue t (.max t d a b) (bodyMax t d a b))
/-- What MINU (R81) does to its destination. -/
def bodyMinu (t : Tid) (d a b : Rn) (s : State) : Out := .done (s.setG t d (if (s.g t a).ult (s.g t b) then s.g t a else s.g t b))
/-- MINU (R81). -/
def execMinu (t : Tid) (d a b : Rn) (s : State) : Res := .next (s.issue t (.minu t d a b) (bodyMinu t d a b))
/-- What MAXU (R81) does to its destination. -/
def bodyMaxu (t : Tid) (d a b : Rn) (s : State) : Out := .done (s.setG t d (if (s.g t a).ult (s.g t b) then s.g t b else s.g t a))
/-- MAXU (R81). -/
def execMaxu (t : Tid) (d a b : Rn) (s : State) : Res := .next (s.issue t (.maxu t d a b) (bodyMaxu t d a b))
/-- What SLL (R81) does to its destination. -/
def bodySll (t : Tid) (d a b : Rn) (s : State) : Out := .done (s.setG t d (s.g t a <<< shAmt (s.g t b)))
/-- SLL (R81). -/
def execSll (t : Tid) (d a b : Rn) (s : State) : Res := .next (s.issue t (.sll t d a b) (bodySll t d a b))
/-- What SRL (R81) does to its destination. -/
def bodySrl (t : Tid) (d a b : Rn) (s : State) : Out := .done (s.setG t d (s.g t a >>> shAmt (s.g t b)))
/-- SRL (R81). -/
def execSrl (t : Tid) (d a b : Rn) (s : State) : Res := .next (s.issue t (.srl t d a b) (bodySrl t d a b))
/-- What SRA (R81) does to its destination. -/
def bodySra (t : Tid) (d a b : Rn) (s : State) : Out := .done (s.setG t d (sraW (s.g t a) (shAmt (s.g t b))))
/-- SRA (R81). -/
def execSra (t : Tid) (d a b : Rn) (s : State) : Res := .next (s.issue t (.sra t d a b) (bodySra t d a b))
/-- What ROR (R81) does to its destination. -/
def bodyRor (t : Tid) (d a b : Rn) (s : State) : Out := .done (s.setG t d (rorW (s.g t a) (shAmt (s.g t b))))
/-- ROR (R81). -/
def execRor (t : Tid) (d a b : Rn) (s : State) : Res := .next (s.issue t (.ror t d a b) (bodyRor t d a b))
/-- What MUL (R81) does to its destination. -/
def bodyMul (t : Tid) (d a b : Rn) (s : State) : Out := .done (s.setG t d (s.g t a * s.g t b))
/-- MUL (R81). -/
def execMul (t : Tid) (d a b : Rn) (s : State) : Res := .next (s.issue t (.mul t d a b) (bodyMul t d a b))
/-- What MULH (R81) does to its destination. -/
def bodyMulh (t : Tid) (d a b : Rn) (s : State) : Out := .done (s.setG t d (mulhW (s.g t a) (s.g t b)))
/-- MULH (R81). -/
def execMulh (t : Tid) (d a b : Rn) (s : State) : Res := .next (s.issue t (.mulh t d a b) (bodyMulh t d a b))
/-- What MULHU (R81) does to its destination. -/
def bodyMulhu (t : Tid) (d a b : Rn) (s : State) : Out := .done (s.setG t d (mulhuW (s.g t a) (s.g t b)))
/-- MULHU (R81). -/
def execMulhu (t : Tid) (d a b : Rn) (s : State) : Res := .next (s.issue t (.mulhu t d a b) (bodyMulhu t d a b))
/-- What DIV (R81, R82) does to its destination. -/
def bodyDiv (t : Tid) (d a b : Rn) (s : State) : Out := .done (s.setG t d (divW (s.g t a) (s.g t b)))
/-- DIV (R81, R82). -/
def execDiv (t : Tid) (d a b : Rn) (s : State) : Res := .next (s.issue t (.div t d a b) (bodyDiv t d a b))
/-- What DIVU (R81, R82) does to its destination. -/
def bodyDivu (t : Tid) (d a b : Rn) (s : State) : Out := .done (s.setG t d (divuW (s.g t a) (s.g t b)))
/-- DIVU (R81, R82). -/
def execDivu (t : Tid) (d a b : Rn) (s : State) : Res := .next (s.issue t (.divu t d a b) (bodyDivu t d a b))
/-- What REM (R81, R82) does to its destination. -/
def bodyRem (t : Tid) (d a b : Rn) (s : State) : Out := .done (s.setG t d (remW (s.g t a) (s.g t b)))
/-- REM (R81, R82). -/
def execRem (t : Tid) (d a b : Rn) (s : State) : Res := .next (s.issue t (.rem t d a b) (bodyRem t d a b))
/-- What REMU (R81, R82) does to its destination. -/
def bodyRemu (t : Tid) (d a b : Rn) (s : State) : Out := .done (s.setG t d (remuW (s.g t a) (s.g t b)))
/-- REMU (R81, R82). -/
def execRemu (t : Tid) (d a b : Rn) (s : State) : Res := .next (s.issue t (.remu t d a b) (bodyRemu t d a b))
/-- What CLZ (R81) does to its destination. -/
def bodyClz (t : Tid) (d a : Rn) (s : State) : Out := .done (s.setG t d (BitVec.ofNat 64 (clzW (s.g t a))))
/-- CLZ (R81). -/
def execClz (t : Tid) (d a : Rn) (s : State) : Res := .next (s.issue t (.clz t d a) (bodyClz t d a))
/-- What CTZ (R81) does to its destination. -/
def bodyCtz (t : Tid) (d a : Rn) (s : State) : Out := .done (s.setG t d (BitVec.ofNat 64 (ctzW (s.g t a))))
/-- CTZ (R81). -/
def execCtz (t : Tid) (d a : Rn) (s : State) : Res := .next (s.issue t (.ctz t d a) (bodyCtz t d a))
/-- What POPC (R81) does to its destination. -/
def bodyPopc (t : Tid) (d a : Rn) (s : State) : Out := .done (s.setG t d (BitVec.ofNat 64 (popcN 64 (s.g t a).toNat)))
/-- POPC (R81). -/
def execPopc (t : Tid) (d a : Rn) (s : State) : Res := .next (s.issue t (.popc t d a) (bodyPopc t d a))
/-- What BSWAP (R81) does to its destination. -/
def bodyBswap (t : Tid) (d a : Rn) (s : State) : Out := .done (s.setG t d (bswapW (s.g t a)))
/-- BSWAP (R81). -/
def execBswap (t : Tid) (d a : Rn) (s : State) : Res := .next (s.issue t (.bswap t d a) (bodyBswap t d a))
/-- What SEXTB (R81) does to its destination. -/
def bodySextb (t : Tid) (d a : Rn) (s : State) : Out := .done (s.setG t d (sextN 8 (s.g t a)))
/-- SEXTB (R81). -/
def execSextb (t : Tid) (d a : Rn) (s : State) : Res := .next (s.issue t (.sextb t d a) (bodySextb t d a))
/-- What SEXTH (R81) does to its destination. -/
def bodySexth (t : Tid) (d a : Rn) (s : State) : Out := .done (s.setG t d (sextN 16 (s.g t a)))
/-- SEXTH (R81). -/
def execSexth (t : Tid) (d a : Rn) (s : State) : Res := .next (s.issue t (.sexth t d a) (bodySexth t d a))
/-- What SEXTW (R81) does to its destination. -/
def bodySextw (t : Tid) (d a : Rn) (s : State) : Out := .done (s.setG t d (sextN 32 (s.g t a)))
/-- SEXTW (R81). -/
def execSextw (t : Tid) (d a : Rn) (s : State) : Res := .next (s.issue t (.sextw t d a) (bodySextw t d a))
/-- What ZEXTW (R81) does to its destination. -/
def bodyZextw (t : Tid) (d a : Rn) (s : State) : Out := .done (s.setG t d (((s.g t a).setWidth 32).setWidth 64))
/-- ZEXTW (R81). -/
def execZextw (t : Tid) (d a : Rn) (s : State) : Res := .next (s.issue t (.zextw t d a) (bodyZextw t d a))

end Sys2Proof.Machine
end

