-- ==== Sys2Proof/Machine/Flags.lean ====
section
/-!
DEFINITION. The IEEE 754 flags of FCSR (R50, R83) and the exact arithmetic behind them: unpacking, rounding with tininess
detected after rounding (R47), and the operations of R84 to R86 on the two formats.
-/
namespace Sys2Proof.Machine

/-- FCSR flag NV, in its bit position (R50). -/
def fNV : Nat := 64
/-- FCSR flag DZ. -/
def fDZ : Nat := 32
/-- FCSR flag OF. -/
def fOF : Nat := 16
/-- FCSR flag UF. -/
def fUF : Nat := 8
/-- FCSR flag NX. -/
def fNX : Nat := 4

/-- A binary format: precision, exponent width, and the exponent of its smallest subnormal. -/
structure Fmt where
  p    : Nat
  ew   : Nat
  emin : Int
deriving DecidableEq, Repr

/-- binary64. -/
def fmt64 : Fmt := ⟨53, 11, -1074⟩
/-- binary32. -/
def fmt32 : Fmt := ⟨24, 8, -149⟩
/-- The format that the bit W selects (R83). -/
def fmtOf (w : Bool) : Fmt := if w then fmt32 else fmt64

/-- A floating-point value: a NaN, signalling or not, an infinity, or sign, significand and exponent. -/
inductive Fv where
  | nan (sig : Bool)
  | inf (neg : Bool)
  | fin (neg : Bool) (m : Nat) (e : Int)
deriving DecidableEq, Repr

/-- The value that the bits of a format stand for. -/
def Fmt.unpack (f : Fmt) (n : Nat) : Fv :=
  let frac := n % 2 ^ (f.p - 1)
  let ex := n / 2 ^ (f.p - 1) % 2 ^ f.ew
  let neg := n / 2 ^ (f.p - 1 + f.ew) % 2 == 1
  if ex = 2 ^ f.ew - 1 then (if frac = 0 then .inf neg else .nan (frac < 2 ^ (f.p - 2)))
  else if ex = 0 then .fin neg frac f.emin
  else .fin neg (frac + 2 ^ (f.p - 1)) (f.emin + (ex - 1 : Nat))

/-- The sign bit of a format. -/
def Fmt.signBit (f : Fmt) (neg : Bool) : Nat := b2n neg * 2 ^ (f.p - 1 + f.ew)
/-- An infinity. -/
def Fmt.infBits (f : Fmt) (neg : Bool) : Nat := f.signBit neg + (2 ^ f.ew - 1) * 2 ^ (f.p - 1)
/-- The largest finite magnitude. -/
def Fmt.maxBits (f : Fmt) (neg : Bool) : Nat := f.infBits neg - 1
/-- The default quiet NaN (R47). -/
def Fmt.qnan (f : Fmt) : Nat := f.infBits false + 2 ^ (f.p - 2)

/-- The number of bits of a natural number. -/
def bitLen (n : Nat) : Nat := if n = 0 then 0 else Nat.log2 n + 1

/-- Whether a magnitude m with a remainder r of 2^sh, and more below where sticky, rounds up under mode rm (R50). -/
def roundsUp (rm : Nat) (neg : Bool) (m r sh : Nat) (sticky : Bool) : Bool :=
  match rm with
  | 0 => 2 ^ sh < 2 * r || (2 ^ sh == 2 * r && (sticky || m % 2 == 1))
  | 1 => false
  | 2 => neg && (r != 0 || sticky)
  | _ => !neg && (r != 0 || sticky)

/-- m * 2^e, with more below where sticky, rounded to a multiple of 2^q: the multiple, and whether it is inexact. -/
def roundAt (rm : Nat) (neg : Bool) (m : Nat) (e q : Int) (sticky : Bool) : Nat × Bool :=
  if q ≤ e then (m * 2 ^ (e - q).toNat, sticky)
  else
    let sh := (q - e).toNat
    let k := m / 2 ^ sh
    let r := m % 2 ^ sh
    (if roundsUp rm neg k r sh sticky then k + 1 else k, r != 0 || sticky)

/-- Round (-1)^neg * m * 2^e, m not 0, with more below where sticky, to a format: bits and flags. -/
def Fmt.round (f : Fmt) (rm : Nat) (neg : Bool) (m : Nat) (e : Int) (sticky : Bool) : Nat × Nat :=
  let qn : Int := e + bitLen m - f.p
  let q := max f.emin qn
  let r := roundAt rm neg m e q sticky
  let u := roundAt rm neg m e qn sticky
  let tiny : Bool := decide ((bitLen u.1 : Int) + qn < f.emin + f.p)
  let flags := if r.2 then fNX + (if tiny then fUF else 0) else 0
  let mag := (q - f.emin).toNat * 2 ^ (f.p - 1) + r.1
  if (2 ^ f.ew - 1) * 2 ^ (f.p - 1) ≤ mag then
    let toMax := rm = 1 || (rm = 2 && !neg) || (rm = 3 && neg)
    (if toMax then f.maxBits neg else f.infBits neg, fOF + fNX)
  else (f.signBit neg + mag, flags)

/-- Round a signed integer times 2^e to a format; zneg is the sign of an exact zero. -/
def Fmt.roundInt (f : Fmt) (rm : Nat) (n : Int) (e : Int) (zneg : Bool) : Nat × Nat :=
  if n = 0 then (f.signBit zneg, 0) else f.round rm (decide (n < 0)) n.natAbs e false

/-- A value with its sign inverted. -/
def Fv.neg : Fv → Fv
  | .nan b => .nan b
  | .inf s => .inf !s
  | .fin s m e => .fin (!s) m e
/-- Whether a value is a NaN. -/
def Fv.isNan : Fv → Bool
  | .nan _ => true
  | _ => false
/-- Whether a value is a signalling NaN. -/
def Fv.isSig : Fv → Bool
  | .nan b => b
  | _ => false
/-- A significand with its sign. -/
def sgn (neg : Bool) (m : Nat) : Int := if neg then -(m : Int) else m

/-- The NaN result of an operation, with NV where nv holds. -/
def Fmt.nanRes (f : Fmt) (nv : Bool) : Nat × Nat := (f.qnan, if nv then fNV else 0)

/-- Addition (R84). -/
def Fmt.add (f : Fmt) (rm : Nat) (a b : Fv) : Nat × Nat :=
  match a, b with
  | .fin s1 m1 e1, .fin s2 m2 e2 =>
    let e := min e1 e2
    let n := sgn s1 m1 * 2 ^ (e1 - e).toNat + sgn s2 m2 * 2 ^ (e2 - e).toNat
    f.roundInt rm n e (if s1 = s2 then s1 else rm == 2)
  | .inf s1, .inf s2 => if s1 = s2 then (f.infBits s1, 0) else f.nanRes true
  | .inf s1, .fin _ _ _ => (f.infBits s1, 0)
  | .fin _ _ _, .inf s2 => (f.infBits s2, 0)
  | _, _ => f.nanRes (a.isSig || b.isSig)

/-- Multiplication (R84). -/
def Fmt.mul (f : Fmt) (rm : Nat) (a b : Fv) : Nat × Nat :=
  match a, b with
  | .fin s1 m1 e1, .fin s2 m2 e2 => f.roundInt rm (sgn (s1 != s2) (m1 * m2)) (e1 + e2) (s1 != s2)
  | .inf s1, .inf s2 => (f.infBits (s1 != s2), 0)
  | .inf s1, .fin s2 m _ => if m = 0 then f.nanRes true else (f.infBits (s1 != s2), 0)
  | .fin s1 m _, .inf s2 => if m = 0 then f.nanRes true else (f.infBits (s1 != s2), 0)
  | _, _ => f.nanRes (a.isSig || b.isSig)

/-- Division (R84). -/
def Fmt.div (f : Fmt) (rm : Nat) (a b : Fv) : Nat × Nat :=
  match a, b with
  | .fin s1 m1 e1, .fin s2 m2 e2 =>
    if m2 = 0 then (if m1 = 0 then f.nanRes true else (f.infBits (s1 != s2), fDZ))
    else if m1 = 0 then (f.signBit (s1 != s2), 0)
    else
      let k := f.p + 3 + bitLen m2
      f.round rm (s1 != s2) (m1 * 2 ^ k / m2) (e1 - e2 - k) (m1 * 2 ^ k % m2 != 0)
  | .inf _, .inf _ => f.nanRes true
  | .inf s1, .fin s2 _ _ => (f.infBits (s1 != s2), 0)
  | .fin s1 _ _, .inf s2 => (f.signBit (s1 != s2), 0)
  | _, _ => f.nanRes (a.isSig || b.isSig)

/-- The integer square root, bit by bit from bit i - 1 down. -/
def isqrt (n : Nat) : Nat → Nat → Nat
  | 0, r => r
  | i + 1, r => isqrt n i (if (r + 2 ^ i) * (r + 2 ^ i) ≤ n then r + 2 ^ i else r)

/-- Square root (R84). -/
def Fmt.sqrt (f : Fmt) (rm : Nat) (a : Fv) : Nat × Nat :=
  match a with
  | .fin s m e =>
    if m = 0 then (f.signBit s, 0)
    else if s then f.nanRes true
    else
      let k := 2 * (f.p + 3) + (e % 2).toNat
      let n := m * 2 ^ k
      let r := isqrt n (bitLen n / 2 + 1) 0
      f.round rm false r ((e - k) / 2) (r * r != n)
  | .inf s => if s then f.nanRes true else (f.infBits false, 0)
  | .nan g => f.nanRes g

/-- a * b + c with one rounding (R86). -/
def Fmt.fma (f : Fmt) (rm : Nat) (a b c : Fv) : Nat × Nat :=
  let badProd := match a, b with
    | .inf _, .fin _ m _ => m == 0
    | .fin _ m _, .inf _ => m == 0
    | _, _ => false
  if badProd then f.nanRes true
  else match a, b, c with
    | .fin s1 m1 e1, .fin s2 m2 e2, .fin s3 m3 e3 =>
      let e := min (e1 + e2) e3
      let n := sgn (s1 != s2) (m1 * m2) * 2 ^ (e1 + e2 - e).toNat + sgn s3 m3 * 2 ^ (e3 - e).toNat
      f.roundInt rm n e (if (s1 != s2) = s3 then s3 else rm == 2)
    | .nan g, _, _ => f.nanRes (g || b.isSig || c.isSig)
    | _, .nan g, _ => f.nanRes (g || c.isSig)
    | _, _, .nan g => f.nanRes g
    | .fin _ _ _, .fin _ _ _, .inf s => (f.infBits s, 0)
    | .inf s1, .inf s2, .inf s => if (s1 != s2) = s then (f.infBits s, 0) else f.nanRes true
    | .inf s1, .fin s2 _ _, .inf s => if (s1 != s2) = s then (f.infBits s, 0) else f.nanRes true
    | .fin s1 _ _, .inf s2, .inf s => if (s1 != s2) = s then (f.infBits s, 0) else f.nanRes true
    | .inf s1, .inf s2, .fin _ _ _ => (f.infBits (s1 != s2), 0)
    | .inf s1, .fin s2 _ _, .fin _ _ _ => (f.infBits (s1 != s2), 0)
    | .fin s1 _ _, .inf s2, .fin _ _ _ => (f.infBits (s1 != s2), 0)

/-- The order of two values that are no NaN: a < b; zeros of either sign are equal. -/
def Fv.lt (a b : Fv) : Bool :=
  match a, b with
  | .fin s1 m1 e1, .fin s2 m2 e2 =>
    let e := min e1 e2
    decide (sgn s1 m1 * 2 ^ (e1 - e).toNat < sgn s2 m2 * 2 ^ (e2 - e).toNat)
  | .inf s1, .inf s2 => s1 && !s2
  | .inf s1, .fin _ _ _ => s1
  | .fin _ _ _, .inf s2 => !s2
  | _, _ => false

/-- Whether a value is negative, -0 included. -/
def Fv.isNeg : Fv → Bool
  | .fin s _ _ => s
  | .inf s => s
  | .nan _ => false

/-- a is the smaller where -0 lies below +0 (R85, R128). -/
def Fv.below (a b : Fv) : Bool := a.lt b || (!b.lt a && a.isNeg && !b.isNeg)

/-- FMIN (mn) or FMAX of two operands given as values and bits (R85). -/
def Fmt.minmax (f : Fmt) (mn : Bool) (x y : Nat) : Nat × Nat :=
  let a := f.unpack x; let b := f.unpack y
  let fl := if a.isSig || b.isSig then fNV else 0
  if a.isNan && b.isNan then (f.qnan, fl)
  else if a.isNan then (y, fl)
  else if b.isNan then (x, fl)
  else if mn then (if b.below a then y else x, fl)
  else (if a.below b then y else x, fl)

/-- The FCLASS mask (R85). -/
def Fmt.classMask (f : Fmt) (x : Nat) : Nat :=
  match f.unpack x with
  | .nan g => if g then 2 ^ 8 else 2 ^ 9
  | .inf s => if s then 2 ^ 0 else 2 ^ 7
  | .fin s m _ =>
    if m = 0 then (if s then 2 ^ 3 else 2 ^ 4)
    else if m < 2 ^ (f.p - 1) then (if s then 2 ^ 2 else 2 ^ 5)
    else (if s then 2 ^ 1 else 2 ^ 6)

/-- Rounding to an integer of the range lo to hi (R85): the integer and the flags. -/
def Fv.toInteger (a : Fv) (rm : Nat) (lo hi : Int) : Int × Nat :=
  match a with
  | .nan _ => (0, fNV)
  | .inf s => (if s then lo else hi, fNV)
  | .fin s m e =>
    let r := roundAt rm s m e 0 false
    let n := sgn s r.1
    if n < lo then (lo, fNV) else if hi < n then (hi, fNV) else (n, if r.2 then fNX else 0)

/-- Conversion between formats (R84, FCVTX). -/
def Fmt.ofFv (f : Fmt) (rm : Nat) (a : Fv) : Nat × Nat :=
  match a with
  | .nan g => f.nanRes g
  | .inf s => (f.infBits s, 0)
  | .fin s m e => f.roundInt rm (sgn s m) e s

/-- FCSR.RM of a thread (R50). -/
def Thread.rm (x : Thread) : Nat := fget (x.c 1) 0 2

/-- The end of a floating-point operation with its flags (R53, R57, R83): the sticky flags are set; a flag whose trap is
enabled raises FP_TRAP and leaves the destination unchanged. -/
def State.fpEnd (s : State) (t : Tid) (flags : Nat) (wb : State → State) : Out :=
  let x := s.thr t
  let fcsr := x.c 1
  let s := if flags = 0 then s else s.setThr t (x.setC 1 (fcsr ||| BitVec.ofNat 64 flags))
  if fget fcsr 0 12 / 32 &&& flags ≠ 0 then .trap s (.mk1 0x0D (BitVec.ofNat 64 flags)) else .done (wb s)

/-- The bits of an f register that an operation of a format reads (R47). -/
def State.fb (s : State) (t : Tid) (w : Bool) (r : Rn) : Nat :=
  if w then (s.f t r).toNat % 2 ^ 32 else (s.f t r).toNat
/-- The value of an f register in a format. -/
def State.fv (s : State) (t : Tid) (w : Bool) (r : Rn) : Fv := (fmtOf w).unpack (s.fb t w r)
/-- An operation that writes an f register: bits and flags. -/
def State.fpTo (s : State) (t : Tid) (d : Rn) (r : Nat × Nat) : Out :=
  s.fpEnd t r.2 fun s => s.setF t d (BitVec.ofNat 64 r.1)
/-- An operation that writes a g register. -/
def State.fpToG (s : State) (t : Tid) (d : Rn) (v : Word) (flags : Nat) : Out :=
  s.fpEnd t flags fun s => s.setG t d v

end Sys2Proof.Machine
end

