-- ==== Sys2Proof/Machine/Float.lean ====
section
/-!
DEFINITION. Floating-point instructions (R83 to R86).
-/
namespace Sys2Proof.Machine

/-- What FADD (R84) does to its destination and flags. -/
def bodyFadd (t : Tid) (w : Bool) (d a b : Rn) (s : State) : Out :=
  s.fpTo t d ((fmtOf w).add (s.thr t).rm (s.fv t w a) (s.fv t w b))
/-- FADD (R84). -/
def execFadd (t : Tid) (w : Bool) (d a b : Rn) (s : State) : Res := .next (s.issue t (.fadd t w d a b) (bodyFadd t w d a b))
/-- What FSUB (R84) does to its destination and flags. -/
def bodyFsub (t : Tid) (w : Bool) (d a b : Rn) (s : State) : Out :=
  s.fpTo t d ((fmtOf w).add (s.thr t).rm (s.fv t w a) (s.fv t w b).neg)
/-- FSUB (R84). -/
def execFsub (t : Tid) (w : Bool) (d a b : Rn) (s : State) : Res := .next (s.issue t (.fsub t w d a b) (bodyFsub t w d a b))
/-- What FMUL (R84) does to its destination and flags. -/
def bodyFmul (t : Tid) (w : Bool) (d a b : Rn) (s : State) : Out :=
  s.fpTo t d ((fmtOf w).mul (s.thr t).rm (s.fv t w a) (s.fv t w b))
/-- FMUL (R84). -/
def execFmul (t : Tid) (w : Bool) (d a b : Rn) (s : State) : Res := .next (s.issue t (.fmul t w d a b) (bodyFmul t w d a b))
/-- What FDIV (R84) does to its destination and flags. -/
def bodyFdiv (t : Tid) (w : Bool) (d a b : Rn) (s : State) : Out :=
  s.fpTo t d ((fmtOf w).div (s.thr t).rm (s.fv t w a) (s.fv t w b))
/-- FDIV (R84). -/
def execFdiv (t : Tid) (w : Bool) (d a b : Rn) (s : State) : Res := .next (s.issue t (.fdiv t w d a b) (bodyFdiv t w d a b))
/-- What FSQRT (R84) does to its destination and flags. -/
def bodyFsqrt (t : Tid) (w : Bool) (d a : Rn) (s : State) : Out :=
  s.fpTo t d ((fmtOf w).sqrt (s.thr t).rm (s.fv t w a))
/-- FSQRT (R84). -/
def execFsqrt (t : Tid) (w : Bool) (d a : Rn) (s : State) : Res := .next (s.issue t (.fsqrt t w d a) (bodyFsqrt t w d a))
/-- What FMIN (R84, R85) does to its destination and flags. -/
def bodyFmin (t : Tid) (w : Bool) (d a b : Rn) (s : State) : Out :=
  s.fpTo t d ((fmtOf w).minmax true (s.fb t w a) (s.fb t w b))
/-- FMIN (R84, R85). -/
def execFmin (t : Tid) (w : Bool) (d a b : Rn) (s : State) : Res := .next (s.issue t (.fmin t w d a b) (bodyFmin t w d a b))
/-- What FMAX (R84, R85) does to its destination and flags. -/
def bodyFmax (t : Tid) (w : Bool) (d a b : Rn) (s : State) : Out :=
  s.fpTo t d ((fmtOf w).minmax false (s.fb t w a) (s.fb t w b))
/-- FMAX (R84, R85). -/
def execFmax (t : Tid) (w : Bool) (d a b : Rn) (s : State) : Res := .next (s.issue t (.fmax t w d a b) (bodyFmax t w d a b))
/-- What FNEG (R84) does to its destination and flags. FNEG, FABS and FMOV keep the bits of a NaN operand, sign apart, and make it no
default NaN of R47 and R83 (DESIGN CHOICE, log 71). -/
def bodyFneg (t : Tid) (w : Bool) (d a : Rn) (s : State) : Out :=
  .done (s.setF t d (BitVec.ofNat 64 (s.fb t w a ^^^ (fmtOf w).signBit true)))
/-- FNEG (R84). -/
def execFneg (t : Tid) (w : Bool) (d a : Rn) (s : State) : Res := .next (s.issue t (.fneg t w d a) (bodyFneg t w d a))
/-- What FABS (R84) does to its destination and flags. -/
def bodyFabs (t : Tid) (w : Bool) (d a : Rn) (s : State) : Out :=
  .done (s.setF t d (BitVec.ofNat 64 (s.fb t w a % (fmtOf w).signBit true)))
/-- FABS (R84). -/
def execFabs (t : Tid) (w : Bool) (d a : Rn) (s : State) : Res := .next (s.issue t (.fabs t w d a) (bodyFabs t w d a))
/-- What FMOV (R84) does to its destination and flags. -/
def bodyFmov (t : Tid) (w : Bool) (d a : Rn) (s : State) : Out :=
  .done (s.setF t d (BitVec.ofNat 64 (s.fb t w a)))
/-- FMOV (R84). -/
def execFmov (t : Tid) (w : Bool) (d a : Rn) (s : State) : Res := .next (s.issue t (.fmov t w d a) (bodyFmov t w d a))
/-- What FEQ (R84, R85) does to its destination and flags. -/
def bodyFeq (t : Tid) (w : Bool) (d a b : Rn) (s : State) : Out :=
  s.fpToG t d (boolW (!(s.fv t w a).isNan && !(s.fv t w b).isNan && !(s.fv t w a).lt (s.fv t w b) && !(s.fv t w b).lt (s.fv t w a))) (if (s.fv t w a).isSig || (s.fv t w b).isSig then fNV else 0)
/-- FEQ (R84, R85). -/
def execFeq (t : Tid) (w : Bool) (d a b : Rn) (s : State) : Res := .next (s.issue t (.feq t w d a b) (bodyFeq t w d a b))
/-- What FLT (R84, R85) does to its destination and flags. -/
def bodyFlt (t : Tid) (w : Bool) (d a b : Rn) (s : State) : Out :=
  s.fpToG t d (boolW ((s.fv t w a).lt (s.fv t w b))) (if (s.fv t w a).isNan || (s.fv t w b).isNan then fNV else 0)
/-- FLT (R84, R85). -/
def execFlt (t : Tid) (w : Bool) (d a b : Rn) (s : State) : Res := .next (s.issue t (.flt t w d a b) (bodyFlt t w d a b))
/-- What FLE (R84, R85) does to its destination and flags. -/
def bodyFle (t : Tid) (w : Bool) (d a b : Rn) (s : State) : Out :=
  s.fpToG t d (boolW (!(s.fv t w a).isNan && !(s.fv t w b).isNan && !(s.fv t w b).lt (s.fv t w a))) (if (s.fv t w a).isNan || (s.fv t w b).isNan then fNV else 0)
/-- FLE (R84, R85). -/
def execFle (t : Tid) (w : Bool) (d a b : Rn) (s : State) : Res := .next (s.issue t (.fle t w d a b) (bodyFle t w d a b))
/-- What FCLASS (R84, R85) does to its destination and flags. -/
def bodyFclass (t : Tid) (w : Bool) (d a : Rn) (s : State) : Out :=
  .done (s.setG t d (BitVec.ofNat 64 ((fmtOf w).classMask (s.fb t w a))))
/-- FCLASS (R84, R85). -/
def execFclass (t : Tid) (w : Bool) (d a : Rn) (s : State) : Res := .next (s.issue t (.fclass t w d a) (bodyFclass t w d a))
/-- What FCVTI (R84, R85) does to its destination and flags. -/
def bodyFcvti (t : Tid) (w : Bool) (d a : Rn) (s : State) : Out :=
  let r := (s.fv t w a).toInteger (s.thr t).rm (-2 ^ 63) (2 ^ 63 - 1)
  s.fpToG t d (BitVec.ofInt 64 r.1) r.2
/-- FCVTI (R84, R85). -/
def execFcvti (t : Tid) (w : Bool) (d a : Rn) (s : State) : Res := .next (s.issue t (.fcvti t w d a) (bodyFcvti t w d a))
/-- What FCVTIU (R84, R85) does to its destination and flags. -/
def bodyFcvtiu (t : Tid) (w : Bool) (d a : Rn) (s : State) : Out :=
  let r := (s.fv t w a).toInteger (s.thr t).rm 0 (2 ^ 64 - 1)
  s.fpToG t d (BitVec.ofInt 64 r.1) r.2
/-- FCVTIU (R84, R85). -/
def execFcvtiu (t : Tid) (w : Bool) (d a : Rn) (s : State) : Res := .next (s.issue t (.fcvtiu t w d a) (bodyFcvtiu t w d a))
/-- What FCVTF (R84) does to its destination and flags. -/
def bodyFcvtf (t : Tid) (w : Bool) (d a : Rn) (s : State) : Out :=
  s.fpTo t d ((fmtOf w).roundInt (s.thr t).rm (s.g t a).toInt 0 false)
/-- FCVTF (R84). -/
def execFcvtf (t : Tid) (w : Bool) (d a : Rn) (s : State) : Res := .next (s.issue t (.fcvtf t w d a) (bodyFcvtf t w d a))
/-- What FCVTFU (R84) does to its destination and flags. -/
def bodyFcvtfu (t : Tid) (w : Bool) (d a : Rn) (s : State) : Out :=
  s.fpTo t d ((fmtOf w).roundInt (s.thr t).rm (s.g t a).toNat 0 false)
/-- FCVTFU (R84). -/
def execFcvtfu (t : Tid) (w : Bool) (d a : Rn) (s : State) : Res := .next (s.issue t (.fcvtfu t w d a) (bodyFcvtfu t w d a))
/-- What FCVTX (R84) does to its destination and flags. -/
def bodyFcvtx (t : Tid) (w : Bool) (d a : Rn) (s : State) : Out :=
  s.fpTo t d ((fmtOf w).ofFv (s.thr t).rm (s.fv t (!w) a))
/-- FCVTX (R84). -/
def execFcvtx (t : Tid) (w : Bool) (d a : Rn) (s : State) : Res := .next (s.issue t (.fcvtx t w d a) (bodyFcvtx t w d a))
/-- What FMVG (R84) does to its destination and flags. -/
def bodyFmvg (t : Tid) (w : Bool) (d a : Rn) (s : State) : Out :=
  .done (s.setG t d (BitVec.ofNat 64 (s.fb t w a)))
/-- FMVG (R84). -/
def execFmvg (t : Tid) (w : Bool) (d a : Rn) (s : State) : Res := .next (s.issue t (.fmvg t w d a) (bodyFmvg t w d a))
/-- What FMVF (R84) does to its destination and flags. -/
def bodyFmvf (t : Tid) (w : Bool) (d a : Rn) (s : State) : Out :=
  .done (s.setF t d (if w then ((s.g t a).setWidth 32).setWidth 64 else s.g t a))
/-- FMVF (R84). -/
def execFmvf (t : Tid) (w : Bool) (d a : Rn) (s : State) : Res := .next (s.issue t (.fmvf t w d a) (bodyFmvf t w d a))
/-- What FMADD (R86) does to its destination and flags. -/
def bodyFmadd (t : Tid) (w : Bool) (d a b c : Rn) (s : State) : Out :=
  s.fpTo t d ((fmtOf w).fma (s.thr t).rm (s.fv t w a) (s.fv t w b) (s.fv t w c))
/-- FMADD (R86). -/
def execFmadd (t : Tid) (w : Bool) (d a b c : Rn) (s : State) : Res := .next (s.issue t (.fmadd t w d a b c) (bodyFmadd t w d a b c))
/-- What FMSUB (R86) does to its destination and flags. -/
def bodyFmsub (t : Tid) (w : Bool) (d a b c : Rn) (s : State) : Out :=
  s.fpTo t d ((fmtOf w).fma (s.thr t).rm (s.fv t w a) (s.fv t w b) (s.fv t w c).neg)
/-- FMSUB (R86). -/
def execFmsub (t : Tid) (w : Bool) (d a b c : Rn) (s : State) : Res := .next (s.issue t (.fmsub t w d a b c) (bodyFmsub t w d a b c))
/-- What FNMSUB (R86) does to its destination and flags. -/
def bodyFnmsub (t : Tid) (w : Bool) (d a b c : Rn) (s : State) : Out :=
  s.fpTo t d ((fmtOf w).fma (s.thr t).rm (s.fv t w a).neg (s.fv t w b) (s.fv t w c))
/-- FNMSUB (R86). -/
def execFnmsub (t : Tid) (w : Bool) (d a b c : Rn) (s : State) : Res := .next (s.issue t (.fnmsub t w d a b c) (bodyFnmsub t w d a b c))
/-- What FNMADD (R86) does to its destination and flags. -/
def bodyFnmadd (t : Tid) (w : Bool) (d a b c : Rn) (s : State) : Out :=
  s.fpTo t d ((fmtOf w).fma (s.thr t).rm (s.fv t w a).neg (s.fv t w b) (s.fv t w c).neg)
/-- FNMADD (R86). -/
def execFnmadd (t : Tid) (w : Bool) (d a b c : Rn) (s : State) : Res := .next (s.issue t (.fnmadd t w d a b c) (bodyFnmadd t w d a b c))

end Sys2Proof.Machine
end

