-- ==== Sys2Proof/Machine/Operands.lean ====
section
/-!
DEFINITION. Operand forms: access sizes (R88), effective addresses and address modes (R88, R89, R92, R93), modulo and
bit-reversed updates (R70), address checks (R44, R45), and what a load or store of each SZK moves.
-/
namespace Sys2Proof.Machine

/-- The size of an access by SZK (R88). -/
def szOf (k : Nat) : Nat :=
  match k with
  | 0 => 1
  | 1 => 1
  | 2 => 2
  | 3 => 2
  | 4 => 4
  | 5 => 4
  | 7 => 16
  | 8 => 4
  | _ => 8

/-- sext(DISP11) * s (R88). -/
def disp11 (d : BitVec 11) (s : Nat) : Word := d.signExtend 64 * BitVec.ofNat 64 s
/-- The address of LOAD, STORE, LDI without .PC, IOLD and IOST. -/
def State.eaMd (s : State) (t : Tid) (a : Rn) (k : Nat) (disp : BitVec 11) : Word := s.g t a + disp11 disp (szOf k)

/-- MBj.BASE and MLj.LEN of a thread (R69). -/
def Thread.mb (x : Thread) (j : Nat) : Word := x.c (0x190 + j)
def Thread.ml (x : Thread) (j : Nat) : Nat := fget (x.c (0x194 + j)) 0 33

/-- The low b bits of a number in reverse order. -/
def revBits (b n : Nat) : Nat := (List.range b).foldl (fun r i => r * 2 + n / 2 ^ i % 2) 0

/-- R70 for a modulo access: the new base register, or none for MODULO_RANGE. -/
def Thread.modulo (x : Thread) (j : Nat) (r : Word) (inc : Int) (s : Nat) : Option Word :=
  let len := x.ml j
  let off := (r - x.mb j).toNat
  if len = 0 || len ≤ off || len < off + s || len < inc.natAbs then none
  else
    let n : Int := off + inc
    let n := if n ≥ len then n - len else n
    let n := if n < 0 then n + len else n
    some (x.mb j + BitVec.ofInt 64 n)

/-- R70 for a bit-reversed access. -/
def Thread.bitrev (x : Thread) (j : Nat) (r : Word) (inc : Int) (s : Nat) : Option Word :=
  let len := x.ml j
  let off := (r - x.mb j).toNat
  if len = 0 || len ≤ off || len < off + s || len < inc.natAbs then none
  else if len != 2 ^ Nat.log2 len || len < s || off % s != 0 || inc % s != 0 then none
  else
    let b := Nat.log2 (len / s)
    let n := s * revBits b ((revBits b (off / s) + revBits b ((inc / s) % (2 ^ b : Nat)).toNat) % 2 ^ b)
    some (x.mb j + BitVec.ofNat 64 n)

/-- What an address mode gives (R89): the address, and the new g[a] where it is updated; or MODULO_RANGE. -/
inductive Mode where
  | at (ea : Word) (upd : Option Word)
  | range
deriving DecidableEq, Repr

/-- The address modes of R89 for an access of s bytes. -/
def State.mode (st : State) (t : Tid) (a : Rn) (m : Fin 8) (f : BitVec 8) (s : Nat) : Mode :=
  let x := st.thr t
  let r := x.gr a.val
  let n := f.toNat
  let gb := x.gr (n / 8)
  let wrap (v : Option Word) : Mode := match v with
    | some u => .at r (some u)
    | none => .range
  match m.val with
  | 0 => .at (r + gb * BitVec.ofNat 64 (if n / 4 % 2 = 1 then s else 1)) none
  | 1 => .at r (some (r + gb))
  | 2 => .at r (some (r + f.signExtend 64 * BitVec.ofNat 64 s))
  | 3 => wrap (x.modulo (n / 64) r ((f.setWidth 6).toInt * s) s)
  | 4 => wrap (x.modulo (n / 2 % 4) r gb.toInt s)
  | 5 => wrap (x.bitrev (n / 64) r ((f.setWidth 6).toInt * s) s)
  | _ => wrap (x.bitrev (n / 2 % 4) r gb.toInt s)

/-- The outcome of the address checks of an access. -/
inductive Addr where
  | ok (pa ks : Nat)
  | bad (x : Trap)

/-- The checks of R44, R45 and R165 on an access of n bytes, in their order (R54); natural: it must be naturally aligned. -/
def State.addr (s : State) (t : Tid) (u : Use) (va : Word) (n : Nat) (natural : Bool) : Addr :=
  if !canonical va then .bad (.mk1 0x0E va)
  else if (natural && va.toNat % n != 0) || 64 < va.toNat % 64 + n then .bad (.mk1 0x08 va)
  else match s.xlate t u va with
    | .ok pa ks => .ok pa ks
    | .fail c i => .bad ⟨c, va, i, u.space, 0⟩

/-- A range of an area that R105 checks before any access: chunks of physical address, key slot and length, page by page,
or the lowest faulting address's trap. -/
def State.area (s : State) (t : Tid) (u : Use) : Nat → Word → Nat → (List (Nat × Nat × Nat)) ⊕ Trap
  | 0, _, _ => .inl []
  | fuel + 1, va, n =>
    if n = 0 then .inl []
    else
      let k := Nat.min n (4096 - va.toNat % 4096)
      if !canonical va then .inr (.mk1 0x0E va)
      else match s.xlate t u va with
        | .fail c i => .inr ⟨c, va, i, u.space, 0⟩
        | .ok pa ks => match State.area s t u fuel (va + BitVec.ofNat 64 k) (n - k) with
          | .inl l => .inl ((pa, ks, k) :: l)
          | .inr x => .inr x

/-- The value that a load of a g register gives for its bytes (R88): sign-extended for even SZK. -/
def loadVal (k : Nat) (bs : List Byte) : Word :=
  let w : Word := BitVec.ofNat 64 (ofBytes bs)
  if k % 2 = 0 then sextN (8 * bs.length) w else w

/-- The destination registers of a load written (R88). -/
def State.loadTo (s : State) (t : Tid) (d : Rn) (k : Nat) (bs : List Byte) : State :=
  if k ≥ 8 then s.setF t d (BitVec.ofNat 64 (ofBytes bs))
  else if k = 7 then
    let s := s.setG t d (BitVec.ofNat 64 (ofBytes (bs.take 8)))
    s.setThr t ((s.thr t).setGr (d.val + 1) (BitVec.ofNat 64 (ofBytes (bs.drop 8))))
  else s.setG t d (loadVal k bs)

/-- The bytes a store of each SZK writes (R88). -/
def State.storeBytes (s : State) (t : Tid) (d : Rn) (k : Nat) : List Byte :=
  if k ≥ 8 then bytesOf (szOf k) (s.f t d).toNat
  else if k = 7 then bytesOf 8 (s.g t d).toNat ++ bytesOf 8 ((s.thr t).gr (d.val + 1)).toNat
  else bytesOf (szOf k) (s.g t d).toNat

/-- What a read gives a thread: the bytes, their poison and the state after; or a wait. -/
inductive Got where
  | ok (bs : List Byte) (poison : Bool) (s : State)
  | wait (s : State)

/-- The read of readIn. -/
def State.gotIn (s : State) (t : Tid) (pa n ks : Nat) : Got :=
  let v := s.readIn (dieOf t) pa n ks
  .ok v.1 v.2.1 v.2.2

/-- A data read of a thread through its L1 data cache (R153, R186). -/
def State.readCached (s : State) (t : Tid) (pa n ks : Nat) : Got :=
  if s.cached pa then
    match s.serve t (s.l1dOf t) (pa / 64) ks false with
    | some s => s.gotIn t pa n ks
    | none => .wait (s.serveWait t (s.l1dOf t) (pa / 64) false)
  else s.gotIn t pa n ks

/-- A data read in the pieces of R45, one a command: what earlier ones gave stands in the thread's machinery. -/
def State.readParts (s : State) (t : Tid) (pa n ks : Nat) : Got :=
  let done := (s.decOf t).part
  let k := pieceLen (pa + done.length) (n - done.length)
  match s.readCached t (pa + done.length) k ks with
  | .wait s => .wait s
  | .ok bs poison s =>
    if poison || n ≤ done.length + k then .ok (done ++ bs) poison s
    else .wait (s.setDec t { s.decOf t with part := done ++ bs })

/-- The bytes a data load of a thread reads (R71, R149): from its newest pending store that covers them, else, once every
pending store that overlaps them is visible, from memory, in the pieces of R45 or whole. -/
def State.loadBytes (s : State) (t : Tid) (pa n ks : Nat) (whole : Bool) : Got :=
  let read (s : State) : Got := if whole then s.readCached t pa n ks else s.readParts t pa n ks
  let q := (s.thr t).storeQ
  match q.reverse.findIdx? fun p => p.meets pa n with
  | none => read s
  | some j =>
    let p := q.getD (q.length - 1 - j) ⟨0, [], 0⟩
    if p.pa ≤ pa && pa + n ≤ p.pa + p.data.length then
      .ok ((p.data.drop (pa - p.pa)).take n) false (s.storeDataWait t (q.length - 1 - j))
    else
      let s := s.drainEvent t
      match s.drain t with
      | some s => read s
      | none => .wait (s.commitWait t)

end Sys2Proof.Machine
end

