-- ==== Sys2Proof/Machine/Branch.lean ====
section
/-!
DEFINITION. Branches, jumps and calls (R87), with their delay slots (R59, R61) and the return stack (R62 to R65).
-/
namespace Sys2Proof.Machine

/-- The address of the running instruction. -/
def State.pcOf (s : State) (t : Tid) : Word := (s.thr t).pc

/-- A conditional branch: taken to its target, not taken past its slot, or with the suffix .A skipping the slot (R59). -/
def State.condBranch (s : State) (t : Tid) (taken an : Bool) (disp : BitVec 15) : Out :=
  if taken then .branch s (s.pcOf t + (disp.signExtend 64 <<< 2))
  else if an then .skip s else .branch s (s.pcOf t + 8)

/-- RSCTL.DEPTH (R63). -/
def Thread.depth (x : Thread) : Nat := fget (x.c 0x1C0) 4 5

/-- A push (R64). -/
def Thread.rsPush (x : Thread) (v : Word) : Thread :=
  let y := (List.range 15).foldl (fun (y : Thread) i => y.setC (0x1C2 + i) (x.c (0x1C1 + i))) x
  (y.setC 0x1C1 v).setC 0x1C0 (fset (x.c 0x1C0) 4 5 (Nat.min (x.depth + 1) 16))

/-- A pop (R64). -/
def Thread.rsPop (x : Thread) : Thread :=
  let y := (List.range 15).foldl (fun (y : Thread) i => y.setC (0x1C1 + i) (x.c (0x1C2 + i))) x
  (y.setC 0x1D0 0).setC 0x1C0 (fset (x.c 0x1C0) 4 5 (x.depth - 1))

/-- Whether a call that finds 16 entries discards the oldest (R65): wrap mode, or the handler that RS_OVERFLOW would enter is
active. -/
def Thread.rsWraps (x : Thread) : Bool := !bit (x.c 0x1C0) 0 || bit (x.c (setBase (Nat.max 1 x.pl) + 7)) 0

/-- A call pushes the address after its slot and goes to its target (R65, R87). -/
def State.callTo (s : State) (t : Tid) (target : Word) : Out :=
  let x := s.thr t
  if x.depth ≥ 16 then
    if x.rsWraps then
      let y := x.rsPush (x.pc + 8)
      .branch (s.setThr t (y.setC 0x1C0 (setBit (y.c 0x1C0) 1 true))) target
    else .trap s (.mk1 0x09 0)
  else .branch (s.setThr t (x.rsPush (x.pc + 8))) target

/-- What BEQ does (R87). -/
def bodyBeq (t : Tid) (a b : Rn) (an : Bool) (disp : BitVec 15) (s : State) : Out :=
  s.condBranch t (s.g t a == s.g t b) an disp
/-- BEQ (R87). -/
def execBeq (t : Tid) (a b : Rn) (an : Bool) (disp : BitVec 15) (s : State) : Res :=
  .next (s.issue t (.beq t a b an disp) (bodyBeq t a b an disp))
/-- What BNE does (R87). -/
def bodyBne (t : Tid) (a b : Rn) (an : Bool) (disp : BitVec 15) (s : State) : Out :=
  s.condBranch t (s.g t a != s.g t b) an disp
/-- BNE (R87). -/
def execBne (t : Tid) (a b : Rn) (an : Bool) (disp : BitVec 15) (s : State) : Res :=
  .next (s.issue t (.bne t a b an disp) (bodyBne t a b an disp))
/-- What BLT does (R87). -/
def bodyBlt (t : Tid) (a b : Rn) (an : Bool) (disp : BitVec 15) (s : State) : Out :=
  s.condBranch t ((s.g t a).slt (s.g t b)) an disp
/-- BLT (R87). -/
def execBlt (t : Tid) (a b : Rn) (an : Bool) (disp : BitVec 15) (s : State) : Res :=
  .next (s.issue t (.blt t a b an disp) (bodyBlt t a b an disp))
/-- What BGE does (R87). -/
def bodyBge (t : Tid) (a b : Rn) (an : Bool) (disp : BitVec 15) (s : State) : Out :=
  s.condBranch t (!(s.g t a).slt (s.g t b)) an disp
/-- BGE (R87). -/
def execBge (t : Tid) (a b : Rn) (an : Bool) (disp : BitVec 15) (s : State) : Res :=
  .next (s.issue t (.bge t a b an disp) (bodyBge t a b an disp))
/-- What BLTU does (R87). -/
def bodyBltu (t : Tid) (a b : Rn) (an : Bool) (disp : BitVec 15) (s : State) : Out :=
  s.condBranch t ((s.g t a).ult (s.g t b)) an disp
/-- BLTU (R87). -/
def execBltu (t : Tid) (a b : Rn) (an : Bool) (disp : BitVec 15) (s : State) : Res :=
  .next (s.issue t (.bltu t a b an disp) (bodyBltu t a b an disp))
/-- What BGEU does (R87). -/
def bodyBgeu (t : Tid) (a b : Rn) (an : Bool) (disp : BitVec 15) (s : State) : Out :=
  s.condBranch t (!(s.g t a).ult (s.g t b)) an disp
/-- BGEU (R87). -/
def execBgeu (t : Tid) (a b : Rn) (an : Bool) (disp : BitVec 15) (s : State) : Res :=
  .next (s.issue t (.bgeu t a b an disp) (bodyBgeu t a b an disp))
/-- What J does (R87). -/
def bodyJ (t : Tid) (disp : BitVec 26) (s : State) : Out := .branch s (s.pcOf t + (disp.signExtend 64 <<< 2))
/-- J (R87). -/
def execJ (t : Tid) (disp : BitVec 26) (s : State) : Res := .next (s.issue t (.j t disp) (bodyJ t disp))
/-- What CALL does (R65, R87). -/
def bodyCall (t : Tid) (disp : BitVec 26) (s : State) : Out := s.callTo t (s.pcOf t + (disp.signExtend 64 <<< 2))
/-- CALL (R65, R87). -/
def execCall (t : Tid) (disp : BitVec 26) (s : State) : Res := .next (s.issue t (.call t disp) (bodyCall t disp))
/-- What JR does (R87). -/
def bodyJr (t : Tid) (a : Rn) (s : State) : Out := .branch s (s.g t a)
/-- JR (R87). -/
def execJr (t : Tid) (a : Rn) (s : State) : Res := .next (s.issue t (.jr t a) (bodyJr t a))
/-- What CALLR does (R65, R87). -/
def bodyCallr (t : Tid) (a : Rn) (s : State) : Out := s.callTo t (s.g t a)
/-- CALLR (R65, R87). -/
def execCallr (t : Tid) (a : Rn) (s : State) : Res := .next (s.issue t (.callr t a) (bodyCallr t a))
/-- What RET does (R64, R65, R87). -/
def bodyRet (t : Tid) (s : State) : Out :=
  let x := s.thr t
  if x.depth = 0 then .trap s (.mk1 0x0A 0) else .branch (s.setThr t x.rsPop) (x.c 0x1C1)
/-- RET (R64, R65, R87). -/
def execRet (t : Tid) (s : State) : Res := .next (s.issue t (.ret t) (bodyRet t))

end Sys2Proof.Machine
end

