-- ==== Sys2Proof/Machine/LoadStore.lean ====
section
/-!
DEFINITION. Data loads and stores (R88 to R91), instruction-space loads (R92), atomics (R94) and fences (R95).
-/
namespace Sys2Proof.Machine

/-- A load at an address, whose base register takes upd where the access completes (R88, R89, R416). -/
def State.doLoad (s : State) (t : Tid) (d a : Rn) (k : Nat) (va : Word) (upd : Option Word) : Out :=
  match s.addr t .load va (szOf k) false with
  | .bad x => .trap s x
  | .ok pa ks => match s.loadBytes t pa (szOf k) ks false with
    | .wait s => .hold s
    | .ok bs poison s =>
      if poison then .trap (s.mcRecord t 0x80 3 pa) (.mk1 0x80 va)
      else
        let s := s.loadTo t d k bs
        .done (match upd with | some u => s.setG t a u | none => s)

/-- A store at an address (R88, R89): its bytes enter the store queue, once it has an entry for them (R144). -/
def State.doStore (s : State) (t : Tid) (d a : Rn) (k : Nat) (va : Word) (upd : Option Word) : Out :=
  match s.addr t .store va (szOf k) false with
  | .bad x => .trap s x
  | .ok pa ks =>
    if s.saqRoom t 1 then
      let s := s.pushStore t pa ks (s.storeBytes t d k)
      .done (match upd with | some u => s.setG t a u | none => s)
    else .hold (s.saqWait t)

/-- What LOAD does (R88). A load with .AQ is performed before every later access, as every load of the model is (DESIGN CHOICE, log 5). -/
def bodyLoad (t : Tid) (d a : Rn) (szk : Fin 16) (_ord : Bool) (disp : BitVec 11) (s : State) : Out :=
  s.doLoad t d a szk.val (s.eaMd t a szk.val disp) none
/-- LOAD (R88). -/
def execLoad (t : Tid) (d a : Rn) (szk : Fin 16) (ord : Bool) (disp : BitVec 11) (s : State) : Res :=
  .next (s.issue t (.load t d a szk ord disp) (bodyLoad t d a szk ord disp))
/-- What STORE does (R88). A store with .RL becomes visible after every earlier one, as every store of the model does. -/
def bodyStore (t : Tid) (d a : Rn) (szk : Fin 16) (_ord : Bool) (disp : BitVec 11) (s : State) : Out :=
  s.doStore t d a szk.val (s.eaMd t a szk.val disp) none
/-- STORE (R88). -/
def execStore (t : Tid) (d a : Rn) (szk : Fin 16) (ord : Bool) (disp : BitVec 11) (s : State) : Res :=
  .next (s.issue t (.store t d a szk ord disp) (bodyStore t d a szk ord disp))

/-- An address mode that raises MODULO_RANGE, after the address's canonical check (R54, R70). -/
def State.modeBad (s : State) (t : Tid) (a : Rn) : Out :=
  let va := s.g t a
  .trap s (if canonical va then .mk1 0x0F va else .mk1 0x0E va)

/-- What LOADX does (R89). -/
def bodyLoadx (t : Tid) (d a : Rn) (szk : Fin 16) (_ord : Bool) (am : Fin 8) (amf : BitVec 8) (s : State) : Out :=
  match s.mode t a am amf (szOf szk.val) with
  | .range => s.modeBad t a
  | .at ea upd => s.doLoad t d a szk.val ea upd
/-- LOADX (R89). -/
def execLoadx (t : Tid) (d a : Rn) (szk : Fin 16) (ord : Bool) (am : Fin 8) (amf : BitVec 8) (s : State) : Res :=
  .next (s.issue t (.loadx t d a szk ord am amf) (bodyLoadx t d a szk ord am amf))
/-- What STOREX does (R89, R90). -/
def bodyStorex (t : Tid) (d a : Rn) (szk : Fin 16) (_ord : Bool) (am : Fin 8) (amf : BitVec 8) (s : State) : Out :=
  match s.mode t a am amf (szOf szk.val) with
  | .range => s.modeBad t a
  | .at ea upd => s.doStore t d a szk.val ea upd
/-- STOREX (R89, R90). -/
def execStorex (t : Tid) (d a : Rn) (szk : Fin 16) (ord : Bool) (am : Fin 8) (amf : BitVec 8) (s : State) : Res :=
  .next (s.issue t (.storex t d a szk ord am amf) (bodyStorex t d a szk ord am amf))

/-- What LDI does (R92): a read of instruction space, ordered with data stores only as R46 states. -/
def bodyLdi (t : Tid) (d a : Rn) (szk : Fin 16) (ord : Bool) (disp : BitVec 11) (s : State) : Out :=
  let va := if ord then (s.thr t).pc + disp11 disp (szOf szk.val) else s.eaMd t a szk.val disp
  match s.addr t .ldi va (szOf szk.val) false with
  | .bad x => .trap s x
  | .ok pa ks => match s.readParts t pa (szOf szk.val) ks with
    | .wait s => .hold s
    | .ok bs poison s =>
      if poison then .trap (s.mcRecord t 0x80 3 pa) (.mk1 0x80 va) else .done (s.loadTo t d szk.val bs)
/-- LDI (R92). -/
def execLdi (t : Tid) (d a : Rn) (szk : Fin 16) (ord : Bool) (disp : BitVec 11) (s : State) : Res :=
  .next (s.issue t (.ldi t d a szk ord disp) (bodyLdi t d a szk ord disp))

/-! Atomics. -/

/-- Whether an atomic at a physical address is performed where it goes (R186): in a cache, at the local store, or by the
device behind the port. -/
def State.atomicOk (s : State) (pa : Nat) : Bool :=
  (s.lsOf pa).isSome || s.cacheable pa || match s.route pa with
    | .port n _ => Config.devAtomic n
    | .gport r _ => Config.devAtomic (16 + r)
    | .pkg p => Config.devAtomic (20 + p)
    | _ => true

/-- The operand pair or single register of an atomic as one number (R94). -/
def State.amoReg (s : State) (t : Tid) (q : Bool) (r : Rn) : Nat :=
  if q then (s.g t r).toNat + 2 ^ 64 * ((s.thr t).gr (r.val + 1)).toNat else (s.g t r).toNat

/-- The old value of an atomic goes to its destination (R94). -/
def State.amoTo (s : State) (t : Tid) (q : Bool) (d : Rn) (v : Nat) : State :=
  let s := s.setG t d (BitVec.ofNat 64 v)
  if q then s.setThr t ((s.thr t).setGr (d.val + 1) (BitVec.ofNat 64 (v / 2 ^ 64))) else s

/-- One atomic (R94): op gives what is stored, none where no store is performed, from the old value, g[d] and g[b]. -/
def State.doAmo (s : State) (t : Tid) (q : Bool) (d a b : Rn) (op : Nat → Nat → Nat → Option Nat) : Out :=
  let n := if q then 16 else 8
  let va := s.g t a
  match s.addr t .atomic va n true with
  | .bad x => .trap s x
  | .ok pa ks => match s.drain t with
    | none => .hold (s.commitWait t)
    | some s =>
      if !s.atomicOk pa then .trap (s.mcRecord t 0x82 8 pa) (.mk1 0x82 va)
      else match s.writable t pa ks with
        | none => .hold (s.serveWait t (s.l1dOf t) (pa / 64) true)
        | some s => match s.gotIn t pa n ks with
          | .wait s => .hold s
          | .ok bs poison s =>
            if poison then .trap (s.mcRecord t 0x80 3 pa) (.mk1 0x80 va)
            else
              let old := ofBytes bs
              let s1 := match op old (s.amoReg t q d) (s.amoReg t q b) with
                | some w => s.storeIn (dieOf t) (s.clusterOf t.val) pa (bytesOf n w) ks
                | none => s
              .done (s1.amoTo t q d old)

/-- The signed value of an atomic's operand. -/
def amoInt (q : Bool) (n : Nat) : Int := if q then (BitVec.ofNat 128 n).toInt else (BitVec.ofNat 64 n).toInt

/-- What SWAP does (R94). -/
def bodySwap (t : Tid) (q : Bool) (d a b : Rn) (s : State) : Out := s.doAmo t q d a b fun _ _ y => some y
/-- SWAP (R94). -/
def execSwap (t : Tid) (q : Bool) (d a b : Rn) (s : State) : Res := .next (s.issue t (.swap t q d a b) (bodySwap t q d a b))
/-- What CAS does (R94). -/
def bodyCas (t : Tid) (q : Bool) (d a b : Rn) (s : State) : Out :=
  s.doAmo t q d a b fun old x y => if old = x then some y else none
/-- CAS (R94). -/
def execCas (t : Tid) (q : Bool) (d a b : Rn) (s : State) : Res := .next (s.issue t (.cas t q d a b) (bodyCas t q d a b))
/-- What FETCH.ADD does (R94). -/
def bodyFetchAdd (t : Tid) (q : Bool) (d a b : Rn) (s : State) : Out := s.doAmo t q d a b fun old _ y => some (old + y)
/-- FETCH.ADD (R94). -/
def execFetchAdd (t : Tid) (q : Bool) (d a b : Rn) (s : State) : Res :=
  .next (s.issue t (.fetchAdd t q d a b) (bodyFetchAdd t q d a b))
/-- What FETCH.AND does (R94). -/
def bodyFetchAnd (t : Tid) (q : Bool) (d a b : Rn) (s : State) : Out := s.doAmo t q d a b fun old _ y => some (old &&& y)
/-- FETCH.AND (R94). -/
def execFetchAnd (t : Tid) (q : Bool) (d a b : Rn) (s : State) : Res :=
  .next (s.issue t (.fetchAnd t q d a b) (bodyFetchAnd t q d a b))
/-- What FETCH.OR does (R94). -/
def bodyFetchOr (t : Tid) (q : Bool) (d a b : Rn) (s : State) : Out := s.doAmo t q d a b fun old _ y => some (old ||| y)
/-- FETCH.OR (R94). -/
def execFetchOr (t : Tid) (q : Bool) (d a b : Rn) (s : State) : Res :=
  .next (s.issue t (.fetchOr t q d a b) (bodyFetchOr t q d a b))
/-- What FETCH.MAX does (R94). -/
def bodyFetchMax (t : Tid) (q : Bool) (d a b : Rn) (s : State) : Out :=
  s.doAmo t q d a b fun old _ y => some (if amoInt q old < amoInt q y then y else old)
/-- FETCH.MAX (R94). -/
def execFetchMax (t : Tid) (q : Bool) (d a b : Rn) (s : State) : Res :=
  .next (s.issue t (.fetchMax t q d a b) (bodyFetchMax t q d a b))
/-- What FETCH.MAXU does (R94). -/
def bodyFetchMaxu (t : Tid) (q : Bool) (d a b : Rn) (s : State) : Out :=
  s.doAmo t q d a b fun old _ y => some (if old < y then y else old)
/-- FETCH.MAXU (R94). -/
def execFetchMaxu (t : Tid) (q : Bool) (d a b : Rn) (s : State) : Res :=
  .next (s.issue t (.fetchMaxu t q d a b) (bodyFetchMaxu t q d a b))

/-! Fences (R72, R95). Loads are performed and stores enter the queue in program order, so only a fence of earlier stores
against later loads waits for the queue. -/

/-- Every earlier store of the thread is visible before the instruction completes. -/
def State.afterDrain (s : State) (t : Tid) : Out :=
  match s.drain t with
  | some s => .done s
  | none => .hold (s.commitWait t)

/-- What FENCE LL does (R95). -/
def bodyFenceLl (_t : Tid) (s : State) : Out := .done s
/-- FENCE LL (R95). -/
def execFenceLl (t : Tid) (s : State) : Res := .next (s.issue t (.fenceLl t) (bodyFenceLl t))
/-- What FENCE LS does (R95). -/
def bodyFenceLs (_t : Tid) (s : State) : Out := .done s
/-- FENCE LS (R95). -/
def execFenceLs (t : Tid) (s : State) : Res := .next (s.issue t (.fenceLs t) (bodyFenceLs t))
/-- What FENCE SL does (R95). -/
def bodyFenceSl (t : Tid) (s : State) : Out := s.afterDrain t
/-- FENCE SL (R95). -/
def execFenceSl (t : Tid) (s : State) : Res := .next (s.issue t (.fenceSl t) (bodyFenceSl t))
/-- What FENCE SS does (R95): stores become visible in program order already. -/
def bodyFenceSs (_t : Tid) (s : State) : Out := .done s
/-- FENCE SS (R95). -/
def execFenceSs (t : Tid) (s : State) : Res := .next (s.issue t (.fenceSs t) (bodyFenceSs t))
/-- What FENCE ALL does (R95). -/
def bodyFenceAll (t : Tid) (s : State) : Out := s.afterDrain t
/-- FENCE ALL (R95). -/
def execFenceAll (t : Tid) (s : State) : Res := .next (s.issue t (.fenceAll t) (bodyFenceAll t))
/-- What ISYNC does (R46, R95): later instructions are fetched after it, as each command's fetch is. -/
def bodyIsync (_t : Tid) (s : State) : Out := .done s
/-- ISYNC (R46, R95). -/
def execIsync (t : Tid) (s : State) : Res := .next (s.issue t (.isync t) (bodyIsync t))

end Sys2Proof.Machine
end

