-- ==== Sys2Proof/Machine/Special.lean ====
section
/-!
DEFINITION. Control registers as MFC and MTC see them (R48, R63, R64, R112, R113, R164, R229, R273, R385, R489), the system
instructions (R96 to R98) and the slate alarms (R273, R274).
-/
namespace Sys2Proof.Machine

/-- The micro-op words of an entry as image doublewords 1 to 8 (R115). -/
def DtEntry.imageWord (e : DtEntry) (k : Nat) : Word :=
  if k = 0 then e.hdr
  else BitVec.ofNat 64 ((e.uops.getD (2 * (k - 1)) 0).toNat + 2 ^ 32 * (e.uops.getD (2 * (k - 1) + 1) 0).toNat)

/-- TLBPTE (R164). -/
def Thread.tlbpte (x : Thread) : Word :=
  let ty := fget (x.c 0x100) 10 2
  if ty = 3 then 0
  else
    let pt := x.c (0x106 + ty)
    let a := 4096 * fget pt 12 52 + (x.c 0x103).toNat % 2 ^ 56 / 2 ^ fget pt 0 6 * 8
    BitVec.ofNat 64 (a / 8 * 8)

/-- The valid bits of a list of slots as a number. -/
def bitmapOf (l : List Nat) : Word := l.foldl (fun w i => setBit w i true) 0

/-- A control register as MFC reads it (R48). -/
def State.readCr (s : State) (t : Tid) (n : Nat) : Word :=
  let x := s.thr t
  let c := s.core (coreKey t)
  if n = 0x109 then x.tlbpte
  else if n = 0x112 then bitmapOf ((c.gpm.filter fun m => m.2.v).map (·.1))
  else if n = 0x202 then bitmapOf (c.dt.map (·.1))
  else if n = 0x204 then
    let w := fget (x.c 0x203) 0 4
    match SMap.find? c.dt (fget (x.c 0x203) 4 6) with | some e => e.imageWord w | none => 0
  else if 0x380 ≤ n && n ≤ 0x387 then (if s.domEn (n - 0x380) then s.view (dieOf t) (n - 0x380) else 0)
  else if 0x1C1 ≤ n && n ≤ 0x1D0 then (if fget (x.c 0x1C0) 4 5 ≤ n - 0x1C1 then 0 else x.c n)
  else match crAt n with
    | some d => if d.core then c.c n else x.c n
    | none => 0

/-! Slate alarms. -/

/-- Arm or disarm the alarm of a level. -/
def Thread.arm (x : Thread) (lvl : Nat) (on : Bool) : Thread :=
  { x with armed := if on then x.armed ||| BitVec.ofNat 4 (2 ^ lvl) else x.armed &&& ~~~ BitVec.ofNat 4 (2 ^ lvl) }

/-- A write of SLCMP_x (R273): PEND clears and the alarm is rearmed. -/
def Thread.slcmpWrite (x : Thread) (lvl : Nat) (v : Word) : Thread :=
  let x := x.setC (slcmpNo lvl) v
  (x.setC (slctlNo lvl) (setBit (x.c (slctlNo lvl)) 2 false)).arm lvl true

/-- A write of SLCTL_x (R273): setting EN from 0 to 1 rearms the alarm. -/
def Thread.slctlWrite (x : Thread) (lvl : Nat) (v : Word) : Thread :=
  let old := x.c (slctlNo lvl)
  let x := x.setC (slctlNo lvl) (setBit (fset old 0 2 (fget v 0 2)) 2 (bit old 2 && !bit v 2))
  if bit v 0 && !bit old 0 then x.arm lvl true else x

/-- The condition of an alarm holds (R273, R271). In UNSET the slate reads 0 (R270). -/
def State.alarmDue (s : State) (x : Thread) (lvl : Nat) : Bool :=
  let v := x.c (slcmpNo lvl)
  if bit (x.c (slctlNo lvl)) 1 then s.slatePast v else v.toNat ≤ s.slateRead.toNat

/-- SLATE_ALARM_FIRE (R274): an armed and enabled alarm whose condition holds sets PEND, once until it is rearmed. -/
def execSlateAlarmFire (t : Tid) (lvl : Lvl) (s : State) : Res :=
  let x := s.thr t
  let l := lvl.val
  if l ≥ 1 && x.armed.getLsbD l && bit (x.c (slctlNo l)) 0 && s.alarmDue x l then
    let x := (x.setC (slctlNo l) (setBit (x.c (slctlNo l)) 2 true)).arm l false
    .next (s.wake.setThr t { x with pendSlate := SMap.put x.pendSlate l s.slateRead })
  else .next s

/-- SLCMP_WRITE (R273). -/
def execSlcmpWrite (t : Tid) (lvl : Lvl) (v : Word) (s : State) : Res :=
  if lvl.val ≥ 1 then .next (s.setThr t ((s.thr t).slcmpWrite lvl.val v)) else .next s

/-! MTC. -/

/-- A write of RSCTL (R63, R64): a DEPTH that is written zeroes the entries it discards. -/
def Thread.rsctlWrite (x : Thread) (v : Word) (flds : List Fld) : Thread :=
  let x := x.setC 0x1C0 (fldsWrite flds (x.c 0x1C0) v (BitVec.allOnes 64) false)
  if fget v 4 5 ≤ 16 then
    (List.range 16).foldl (fun (x : Thread) i => if fget v 4 5 ≤ i then x.setC (0x1C1 + i) 0 else x) x
  else x

/-- A control register written by MTC (R48, R97), its fields under R12, R15 and R16. -/
def State.writeCr (s : State) (t : Tid) (n : Nat) (v : Word) : State :=
  let x := s.thr t
  match crAt n with
  | none => s
  | some d =>
    if d.wr > 3 then s
    else if n = 0 then s.setThr t (x.setC 0 (statusFix (fset (x.c 0) 4 3 (fget v 4 3))))
    else if n = 0x1C0 then s.setThr t (x.rsctlWrite v d.flds)
    else if n = 0x390 || n = 0x392 || n = 0x394 then s.setThr t (x.slcmpWrite ((n - 0x38E) / 2) v)
    else if n = 0x391 || n = 0x393 || n = 0x395 then s.setThr t (x.slctlWrite ((n - 0x38F) / 2) v)
    else
      let v := if 0x302 ≤ n && n ≤ 0x307 && !pmEventOk (fget v 0 12) then fset v 0 12 (fget (x.c n) 0 12) else v
      if d.core then
        let c := s.core (coreKey t)
        s.setCore (coreKey t) (c.setC n (fldsWrite d.flds (c.c n) v (BitVec.allOnes 64) false))
      else s.setThr t (x.setC n (fldsWrite d.flds (x.c n) v (BitVec.allOnes 64) false))

/-! System instructions. -/

/-- What MFC does (R48, R96). -/
def bodyMfc (t : Tid) (d : Rn) (num : BitVec 12) (s : State) : Out :=
  .done (s.setG t d (s.readCr t num.toNat))
/-- MFC (R48, R96). -/
def execMfc (t : Tid) (d : Rn) (num : BitVec 12) (s : State) : Res := .next (s.issue t (.mfc t d num) (bodyMfc t d num))
/-- What MTC does (R48, R96, R97). -/
def bodyMtc (t : Tid) (a : Rn) (num : BitVec 12) (s : State) : Out := .done (s.writeCr t num.toNat (s.g t a))
/-- MTC (R48, R96, R97). -/
def execMtc (t : Tid) (a : Rn) (num : BitVec 12) (s : State) : Res := .next (s.issue t (.mtc t a num) (bodyMtc t a num))
/-- What ERET does (R58, R418): where it clears MCACT while PENDOVER is set, the pending machine check is taken at once. -/
def bodyEret (t : Tid) (s : State) : Out :=
  let s := s.pmEvent t 2
  let x := s.thr t
  let y := x.eret
  let s := s.setThr t y
  if bit (x.c 0x070) 0 && bit (y.c 0x070) 1 && y.mcOpen && !s.mcPend.isEmpty then .go (s.mcTake t false) else .go s
/-- ERET (R58). -/
def execEret (t : Tid) (s : State) : Res := .next (s.issue t (.eret t) (bodyEret t))
/-- What WAIT does (R96, R98). -/
def bodyWait (t : Tid) (s : State) : Out :=
  if s.wakes t then .done s else .done (s.setThr t { s.thr t with run := .waiting })
/-- WAIT (R96, R98). -/
def execWait (t : Tid) (s : State) : Res := .next (s.issue t (.wait t) (bodyWait t))

/-- A trap instruction: xEVAL holds its word, and xEPC is the address after it (R57). -/
def trapWord (code : Nat) (i : Instr) (s : State) : Out := .trap s ⟨code, (encode i).setWidth 64, none, 0, 4⟩

/-- What BRK does (R96). -/
def bodyBrk (t : Tid) (code : BitVec 12) (s : State) : Out := trapWord 0x0B (.brk t code) s
/-- BRK (R96). -/
def execBrk (t : Tid) (code : BitVec 12) (s : State) : Res := .next (s.issue t (.brk t code) (bodyBrk t code))
/-- What SYSC does (R96). -/
def bodySysc (t : Tid) (code : BitVec 12) (s : State) : Out := trapWord 0x0C (.sysc t code) s
/-- SYSC (R96). -/
def execSysc (t : Tid) (code : BitVec 12) (s : State) : Res := .next (s.issue t (.sysc t code) (bodySysc t code))
/-- What HVC does (R96). -/
def bodyHvc (t : Tid) (code : BitVec 12) (s : State) : Out := trapWord 0x10 (.hvc t code) s
/-- HVC (R96). -/
def execHvc (t : Tid) (code : BitVec 12) (s : State) : Res := .next (s.issue t (.hvc t code) (bodyHvc t code))
/-- What MONC does (R96). -/
def bodyMonc (t : Tid) (code : BitVec 12) (s : State) : Out := trapWord 0x11 (.monc t code) s
/-- MONC (R96). -/
def execMonc (t : Tid) (code : BitVec 12) (s : State) : Res := .next (s.issue t (.monc t code) (bodyMonc t code))
/-- What RDPMC does (R96, R493). -/
def bodyRdpmc (t : Tid) (d a : Rn) (s : State) : Out :=
  let n := (s.g t a).toNat
  .done (s.setG t d (if n < 8 then (s.thr t).c (0x308 + n) else 0))
/-- RDPMC (R96, R493). -/
def execRdpmc (t : Tid) (d a : Rn) (s : State) : Res := .next (s.issue t (.rdpmc t d a) (bodyRdpmc t d a))
/-- What KEYSET does (R96, R97). -/
def bodyKeyset (t : Tid) (a : Rn) (s : State) : Out :=
  .done (s.setThr t ((s.thr t).setC 0x180 (((s.g t a).setWidth 32).setWidth 64)))
/-- KEYSET (R96, R97). -/
def execKeyset (t : Tid) (a : Rn) (s : State) : Res := .next (s.issue t (.keyset t a) (bodyKeyset t a))
/-- What KEYGET does (R96). -/
def bodyKeyget (t : Tid) (d : Rn) (s : State) : Out := .done (s.setG t d (((s.thr t).c 0x180).setWidth 32 |>.setWidth 64))
/-- KEYGET (R96). -/
def execKeyget (t : Tid) (d : Rn) (s : State) : Res := .next (s.issue t (.keyget t d) (bodyKeyget t d))

/-! Translation instructions (R99). -/

/-- The end of a TLBW (R160, R172, R173, R178, R180). -/
def State.tlbwEnd (t : Tid) (r : Ins × State) : Out :=
  let s := r.2
  match r.1 with
  | .ok i e lf =>
    let c := s.core (coreKey t)
    .done (s.setCore (coreKey t) ((c.tlbPut i e).setC 0x10B (BitVec.ofNat 64 lf)))
  | .refuse reason region rsrc =>
    let guest := (s.thr t).pl == 1 && (s.thr t).gv && reason ≥ 4
    .trap s (.mk1 (if guest then 0x51 else 0x28) (refusalWord reason region rsrc))
  | .gpmMiss gt => .trap s (.mk1 0x50 (BitVec.ofNat 64 gt))
  | .walkError pa => .trap s (.mk1 0x29 (BitVec.ofNat 64 pa))
  | .tableError pa => .trap s (.mk1 0x44 (BitVec.ofNat 64 pa))

/-- What TLBW.RND does (R99, R161, R173). -/
def bodyTlbwRnd (t : Tid) (s : State) : Out := State.tlbwEnd t (s.tlbw t none)
/-- TLBW.RND (R99). -/
def execTlbwRnd (t : Tid) (s : State) : Res := .next (s.issue t (.tlbwRnd t) (bodyTlbwRnd t))
/-- What TLBW.SLOT does (R99, R173). -/
def bodyTlbwSlot (t : Tid) (a : Rn) (s : State) : Out := State.tlbwEnd t (s.tlbw t (some (fget (s.g t a) 0 6)))
/-- TLBW.SLOT (R99). -/
def execTlbwSlot (t : Tid) (a : Rn) (s : State) : Res := .next (s.issue t (.tlbwSlot t a) (bodyTlbwSlot t a))
/-- What TLBRD does (R99, R164): at S nothing of another virtual machine, and no host page of a guest. -/
def bodyTlbrd (t : Tid) (a : Rn) (s : State) : Out :=
  let x := s.thr t
  let e := (s.core (coreKey t)).slot (fget (s.g t a) 0 6)
  let put (e : TlbSlot) : Thread := ((x.setC 0x100 e.sv).setC 0x101 e.sp).setC 0x102 e.stg
  if x.pl = 1 && e.vmid != x.vmctlVmid then .done (s.setThr t (put TlbSlot.zero))
  else if x.pl = 1 && x.gv then .done (s.setThr t (put { e with sp := fset e.sp 12 40 0 }))
  else .done (s.setThr t (put e))
/-- TLBRD (R99). -/
def execTlbrd (t : Tid) (a : Rn) (s : State) : Res := .next (s.issue t (.tlbrd t a) (bodyTlbrd t a))
/-- What TLBFIND does (R99, R164). -/
def bodyTlbfind (t : Tid) (d : Rn) (s : State) : Out :=
  let q := (s.thr t).staged
  let va : Word := BitVec.ofNat 64 q.vpn
  let hit := List.find? (fun c => c.2.v && c.2.type == q.type && c.2.vmid == q.vmid
    && (c.2.global || c.2.asid == q.asid) && c.2.covers va) (s.core (coreKey t)).tlb
  .done (s.setG t d (match hit with | some (i, _) => BitVec.ofNat 64 i | none => BitVec.allOnes 64))
/-- TLBFIND (R99). -/
def execTlbfind (t : Tid) (d : Rn) (s : State) : Res := .next (s.issue t (.tlbfind t d) (bodyTlbfind t d))

/-- Invalidate TLB slots of a thread's core. -/
def State.tlbi (s : State) (t : Tid) (p : TlbSlot → Bool) : State :=
  s.setCore (coreKey t) ((s.core (coreKey t)).tlbDrop fun _ e => p e)

/-- What TLBI.VA does (R99). -/
def bodyTlbiVa (t : Tid) (a b : Rn) (s : State) : Out :=
  let vm := (s.thr t).vmid
  let asid := fget (s.g t b) 0 16
  .done (s.tlbi t fun e => e.v && e.vmid == vm && (e.global || e.asid == asid) && e.covers (s.g t a))
/-- TLBI.VA (R99). -/
def execTlbiVa (t : Tid) (a b : Rn) (s : State) : Res := .next (s.issue t (.tlbiVa t a b) (bodyTlbiVa t a b))
/-- What TLBI.ASID does (R99). -/
def bodyTlbiAsid (t : Tid) (b : Rn) (s : State) : Out :=
  let vm := (s.thr t).vmid
  let asid := fget (s.g t b) 0 16
  .done (s.tlbi t fun e => e.v && e.vmid == vm && !e.global && e.asid == asid)
/-- TLBI.ASID (R99). -/
def execTlbiAsid (t : Tid) (b : Rn) (s : State) : Res := .next (s.issue t (.tlbiAsid t b) (bodyTlbiAsid t b))
/-- What TLBI.VMID does (R99). -/
def bodyTlbiVmid (t : Tid) (b : Rn) (s : State) : Out :=
  let vm := fget (s.g t b) 0 12
  .done (s.tlbi t fun e => e.v && e.vmid == vm)
/-- TLBI.VMID (R99). -/
def execTlbiVmid (t : Tid) (b : Rn) (s : State) : Res := .next (s.issue t (.tlbiVmid t b) (bodyTlbiVmid t b))
/-- What TLBI.ALL does (R99). -/
def bodyTlbiAll (t : Tid) (s : State) : Out := .done (s.tlbi t fun e => e.v)
/-- TLBI.ALL (R99). -/
def execTlbiAll (t : Tid) (s : State) : Res := .next (s.issue t (.tlbiAll t) (bodyTlbiAll t))
/-- What GPMW does (R99, R171). -/
def bodyGpmw (t : Tid) (a : Rn) (s : State) : Out :=
  let x := s.thr t
  .done (s.setCore (coreKey t) ((s.core (coreKey t)).gpmPut (fget (s.g t a) 0 5) ⟨x.c 0x110, x.c 0x111⟩))
/-- GPMW (R99, R171). -/
def execGpmw (t : Tid) (a : Rn) (s : State) : Res := .next (s.issue t (.gpmw t a) (bodyGpmw t a))
/-- What GPMR does (R99). -/
def bodyGpmr (t : Tid) (a : Rn) (s : State) : Out :=
  let e := SMap.get GpmSlot.zero (s.core (coreKey t)).gpm (fget (s.g t a) 0 5)
  .done (s.setThr t (((s.thr t).setC 0x110 e.hi).setC 0x111 e.lo))
/-- GPMR (R99). -/
def execGpmr (t : Tid) (a : Rn) (s : State) : Res := .next (s.issue t (.gpmr t a) (bodyGpmr t a))
/-- What GPMI does (R99). -/
def bodyGpmi (t : Tid) (s : State) : Out :=
  let c := s.core (coreKey t)
  .done (s.setCore (coreKey t) { c with gpm := SMap.mapv (fun _ e => { e with hi := setBit e.hi 0 false }) c.gpm })
/-- GPMI (R99). -/
def execGpmi (t : Tid) (s : State) : Res := .next (s.issue t (.gpmi t) (bodyGpmi t))
/-- What OWNERSYNC does (R99, R178). -/
def bodyOwnersync (_t : Tid) (s : State) : Out := .done { s with owners := [] }
/-- OWNERSYNC (R99, R178). -/
def execOwnersync (t : Tid) (s : State) : Res := .next (s.issue t (.ownersync t) (bodyOwnersync t))

/-! Take and slate instructions (R100 to R103). -/

/-- A ticket (R227). -/
def ticketOf (dom : Nat) (take : Word) : Word := BitVec.ofNat 64 (take.toNat % 2 ^ 61 * 8 + dom)

/-- What CUTREQ does (R100, R101, R227, R228). -/
def bodyCutreq (t : Tid) (d a : Rn) (s : State) : Out :=
  let dom := fget (s.g t a) 0 3
  if !s.domEn dom then .trap s (.mk1 0x30 (BitVec.ofNat 64 dom))
  else if (s.thr t).c 0x388 = 0 then .hold s
  else match s.drain t with
    | none => .hold (s.commitWait t)
    | some s =>
      let take := s.view (dieOf t) dom
      let tk := ticketOf dom take
      let s := if take.toNat = s.openTake dom then s.cutTrigger dom else s
      let s := if s.ticketStatus tk = 2 then
          let x := s.thr t
          let dd := s.dom dom
          (s.setThr t (x.setC 0x388 (x.c 0x388 - 1))).setDom dom { dd with tickets := dd.tickets ++ [(t.val, take.toNat)] }
        else s
      .done ((s.pmEvent t 0x40).setG t d tk)
/-- CUTREQ (R100). -/
def execCutreq (t : Tid) (d a : Rn) (s : State) : Res := .next (s.issue t (.cutreq t d a) (bodyCutreq t d a))
/-- What CUTWAIT does (R100, R101): it waits while the ticket is pending, which counts (R490). -/
def bodyCutwait (t : Tid) (d a : Rn) (s : State) : Out :=
  let st := s.ticketStatus (s.g t a)
  if st = 2 then .hold (s.idles t 0 0x041) else .done (s.setG t d (BitVec.ofNat 64 st))
/-- CUTWAIT (R100). -/
def execCutwait (t : Tid) (d a : Rn) (s : State) : Res := .next (s.issue t (.cutwait t d a) (bodyCutwait t d a))
/-- What CUTSTAT does (R100, R101). -/
def bodyCutstat (t : Tid) (d a : Rn) (s : State) : Out := .done (s.setG t d (BitVec.ofNat 64 (s.ticketStatus (s.g t a))))
/-- CUTSTAT (R100). -/
def execCutstat (t : Tid) (d a : Rn) (s : State) : Res := .next (s.issue t (.cutstat t d a) (bodyCutstat t d a))
/-- What RDSLATE does (R100, R270). -/
def bodyRdslate (t : Tid) (d : Rn) (s : State) : Out := .done (s.setG t d s.slateRead)
/-- RDSLATE (R100, R270). -/
def execRdslate (t : Tid) (d : Rn) (s : State) : Res := .next (s.issue t (.rdslate t d) (bodyRdslate t d))
/-- What RDSLATEU does (R100, R270). -/
def bodyRdslateu (t : Tid) (d b : Rn) (s : State) : Out := .done ((s.setG t d s.slateRead).setG t b s.uncRead)
/-- RDSLATEU (R100, R270). -/
def execRdslateu (t : Tid) (d b : Rn) (s : State) : Res := .next (s.issue t (.rdslateu t d b) (bodyRdslateu t d b))
/-- What SLATEWAIT does (R100, R271). -/
def bodySlatewait (t : Tid) (d a : Rn) (s : State) : Out :=
  let bound := s.g t a
  if s.slatePast bound then .done (s.setG t d s.slateRead)
  else .hold (s.setThr t { s.thr t with run := .slateWait d bound })
/-- SLATEWAIT (R100, R271). -/
def execSlatewait (t : Tid) (d a : Rn) (s : State) : Res := .next (s.issue t (.slatewait t d a) (bodySlatewait t d a))
/-- SLATEWAIT_RELEASE (R271): a waiting SLATEWAIT whose condition holds completes, and its wait counts (R490). -/
def execSlatewaitRelease (t : Tid) (s : State) : Res :=
  match (s.thr t).run with
  | .slateWait d bound =>
    if s.coreOn t && s.slatePast bound then
      .next ((((s.running t).idles t 0 0x042).setG t d s.slateRead).ends t (s.thr t).pc (.slatewait t d 0))
    else .next s
  | _ => .next s

end Sys2Proof.Machine
end

