-- ==== Sys2Proof/Machine/Context.lean ====
section
/-!
DEFINITION. Context instructions (R104 to R107): the return-stack image, loading decode-table entries (R115 to R117),
entering and leaving enclaves (R396 to R398).
-/
namespace Sys2Proof.Machine

/-- The physical address and key slot of an offset into a checked area. -/
def areaAt : List (Nat × Nat × Nat) → Nat → Nat × Nat
  | [], _ => (0, 0)
  | (pa, ks, k) :: l, o => if o < k then (pa + o, ks) else areaAt l (o - k)

/-- The checks of an area before any access (R105, R116): alignment to 8, canonical form, translation. -/
def State.areaCheck (s : State) (t : Tid) (u : Use) (va : Word) (n : Nat) : (List (Nat × Nat × Nat)) ⊕ Trap :=
  if !canonical va then .inr (.mk1 0x0E va)
  else if va.toNat % 8 != 0 then .inr (.mk1 0x08 va)
  else s.area t u 3 va n

/-- What reading an area gives: its doublewords, a poisoned one (its number and physical address), or a wait. -/
inductive AreaRead where
  | ok (ws : List Word) (s : State)
  | poison (i pa : Nat) (s : State)
  | wait (s : State)

/-- n doublewords of a checked area from number i up, as data loads in ascending order. -/
def State.readArea (t : Tid) (l : List (Nat × Nat × Nat)) : Nat → Nat → State → AreaRead
  | 0, _, s => .ok [] s
  | n + 1, i, s =>
    let p := areaAt l (8 * i)
    match s.loadBytes t p.1 8 p.2 true with
    | .wait s => .wait s
    | .ok bs poison s =>
      if poison then .poison i p.1 s
      else match State.readArea t l n (i + 1) s with
        | .ok ws s => .ok (BitVec.ofNat 64 (ofBytes bs) :: ws) s
        | r => r

/-- What RSSAVE does (R64, R104, R105): 17 stores, once the store-address queue has room for them (R144). -/
def bodyRssave (t : Tid) (a : Rn) (s : State) : Out :=
  let va := s.g t a
  match s.areaCheck t .store va 136 with
  | .inr x => .trap s x
  | .inl l =>
    if !s.saqRoom t 17 then .hold (s.saqWait t) else
    let x := s.thr t
    let ws := x.c 0x1C0 :: (List.range 16).map fun i => if x.depth ≤ i then 0 else x.c (0x1C1 + i)
    .done ((List.range 17).foldl (fun s i =>
      let p := areaAt l (8 * i)
      s.pushStore t p.1 p.2 (bytesOf 8 (ws.getD i 0).toNat)) s)
/-- RSSAVE (R104). -/
def execRssave (t : Tid) (a : Rn) (s : State) : Res := .next (s.issue t (.rssave t a) (bodyRssave t a))

/-- The return stack of a saved image (R64, R105). -/
def Thread.rsImage (x : Thread) (ws : List Word) : Thread :=
  let w := ws.getD 0 0
  let depth := if fget w 4 5 ≤ 16 then fget w 4 5 else x.depth
  let x := x.setC 0x1C0 (BitVec.ofNat 64 (depth * 16 + fget w 0 2))
  (List.range 16).foldl (fun (x : Thread) i => x.setC (0x1C1 + i) (ws.getD (i + 1) 0)) x

/-- What RSLOAD does (R64, R104, R105). -/
def bodyRsload (t : Tid) (a : Rn) (s : State) : Out :=
  let va := s.g t a
  match s.areaCheck t .load va 136 with
  | .inr x => .trap s x
  | .inl l => match State.readArea t l 17 0 s with
    | .wait s => .hold s
    | .poison i pa s => .trap (s.mcRecord t 0x80 3 pa) (.mk1 0x80 (va + BitVec.ofNat 64 (8 * i)))
    | .ok ws s => .done (s.setThr t ((s.thr t).rsImage ws))
/-- RSLOAD (R104). -/
def execRsload (t : Tid) (a : Rn) (s : State) : Res := .next (s.issue t (.rsload t a) (bodyRsload t a))

/-- An unassigned code, or a reserved or unused field that is not zero (R116, RESULT 3). -/
def uBadCode (w : BitVec 32) : Bool :=
  let o := uOp w; let i := uImm w
  let sizeBad := i / 2 ^ 8 ≥ 4
  if o = 0 || o > 0x24 then true
  else if o ≤ 0x12 || o = 0x1E || o = 0x24 then i != 0
  else if o ≤ 0x16 then i != 0 || uSb w != 0
  else if o ≤ 0x18 then uSb w != 0
  else if o ≤ 0x1B then uSb w != 0 || i / 2 ^ 6 != 0
  else if o ≤ 0x1D then uSb w != 0
  else if o = 0x1F then uSb w != 0 || sizeBad || i % 2 ^ 8 != 0
  else if o ≤ 0x21 then uSb w != 0 || sizeBad
  else if o = 0x22 then uDst w != 0 || sizeBad
  else sizeBad || i % 2 ^ 8 != 0

/-- An unassigned selector, or a read-only destination (R116, RESULT 4). -/
def uBadSel (w : BitVec 32) : Bool :=
  uSa w ≥ 13 || uSb w ≥ 13 || uDst w ≥ 13 || (5 ≤ uDst w && uDst w ≤ 8)

/-- The limits of R119 broken at a word, given the memory micro-ops before it and whether one was ST (RESULT 5). -/
def uBadMem (w : BitVec 32) (n : Nat) (st : Bool) : Bool := uMem w && (st || n ≥ 4)

/-- The first bad micro-op word of an image from word i on: RESULT and UIDX (R116). -/
def uCheck (len : Nat) : List (BitVec 32) → Nat → Nat → Bool → Nat × Nat
  | [], _, _, _ => (0, 0)
  | w :: ws, i, n, st =>
    if len ≤ i then (if w = 0 then uCheck len ws (i + 1) n st else (6, i))
    else if uBadCode w then (3, i)
    else if uBadSel w then (4, i)
    else if uBadMem w n st then (5, i)
    else uCheck len ws (i + 1) (if uMem w then n + 1 else n) (st || uSt w)

/-- The micro-op words of an image (R115). -/
def imageUops (ws : List Word) : List (BitVec 32) :=
  (ws.drop 1).flatMap fun (w : Word) => [w.setWidth 32, (w >>> 32).setWidth 32]

/-- RESULT and UIDX of an image (R116). -/
def imageResult (ws : List Word) : Nat × Nat :=
  let h := ws.getD 0 0
  if !bit h 0 then (1, 0) else if fget h 6 58 ≠ 0 then (2, 0)
  else uCheck (fget h 2 4 + 1) (imageUops ws) 0 0 false

/-- What DTLOAD does (R104, R106, R116). -/
def bodyDtload (t : Tid) (a b : Rn) (s : State) : Out :=
  let va := s.g t a
  let sel := fget (s.g t b) 0 6
  match s.areaCheck t .load va 72 with
  | .inr x => .trap s x
  | .inl l => match State.readArea t l 9 0 s with
    | .wait s => .hold s
    | .poison i pa s => .trap (s.mcRecord t 0x80 3 pa) (.mk1 0x80 (va + BitVec.ofNat 64 (8 * i)))
    | .ok ws s =>
      let r := imageResult ws
      let c := s.core (coreKey t)
      let c := { c with
        dt := if r.1 = 0 then SMap.put c.dt sel { hdr := ws.getD 0 0, uops := imageUops ws } else SMap.del c.dt sel }
      .done ((s.setCore (coreKey t) c).setThr t ((s.thr t).setC 0x205 (BitVec.ofNat 64 (r.2 * 16 + r.1))))
/-- DTLOAD (R104, R116). -/
def execDtload (t : Tid) (a b : Rn) (s : State) : Res := .next (s.issue t (.dtload t a b) (bodyDtload t a b))

/-! Enclave entry and exit. -/

/-- The registers of the enclave part of a save area come back (R396, step 7): g, f, FCSR, MB, ML, the return stack, KEYMASK,
and the resume point with its BD and REP state. -/
def Thread.encRestore (x : Thread) (w : Nat → Word) : Thread :=
  let x := (List.range 31).foldl (fun (x : Thread) i => x.setGr (i + 1) (w i)) x
  let x := (List.range 32).foldl (fun (x : Thread) i => x.setFr i (w (31 + i))) x
  let x := x.setC 1 (w 63)
  let x := (List.range 8).foldl (fun (x : Thread) i => x.setC (0x190 + i) (w (67 + i))) x
  let x := (List.range 17).foldl (fun (x : Thread) i => x.setC (0x1C0 + i) (w (75 + i))) x
  let x := x.setC 0x180 (w 110)
  { x with
    pc := w 64, slot := if bit (w 66) 0 then some (w 65) else none,
    repLeft := if bit (w 66) 1 then some (fget (w 66) 2 7) else none }

/-- The return stack is emptied (R396, step 5). -/
def Thread.rsEmpty (x : Thread) : Thread :=
  let x := x.setC 0x1C0 (fset (x.c 0x1C0) 4 5 0)
  (List.range 16).foldl (fun (x : Thread) i => x.setC (0x1C1 + i) 0) x

/-- Steps 5 to 7 of R396, for the slot now ACTIVE: dw0 and entry point of the enclave, its save area, the token, HRP. -/
def State.encEnter (s : State) (t : Tid) (id slot : Nat) (resume : Bool) (dw0 entry : Word) (area : Nat) (hrp : Word) : Out :=
  let ks := fget dw0 8 10
  match s.saveFault t area ks with
  | some pa => .trap (s.slotSet t id slot 3) (.mk1 0x44 (BitVec.ofNat 64 pa))
  | none =>
    let x := s.thr t
    let host := ((List.range 17).map fun i => (92 + i, x.c (0x1C0 + i))) ++ [(109, hrp), (111, x.c 0x180)]
    let s := (s.saveWords t area ks host).encBoundary t (some id)
    let w (k : Nat) : Word := s.saveWord t area ks k
    let x := (s.thr t).rsEmpty
    let x := if resume then x.encRestore w else { x.setC 0x180 0 with pc := entry, slot := none, repLeft := none }
    let x := x.setC 0 (statusFix (setBit (x.c 0) 2 true))
    let x := x.setC 0x500 (BitVec.ofNat 64 (2 ^ 12 * slot + id))
    .go (s.setThr t { x with encDbg := bit dw0 2, encSave := area, encKs := ks, encClass := fget dw0 3 2 })

/-- What ENCRUN does (R396). -/
def bodyEncrun (t : Tid) (a b : Rn) (s : State) : Out :=
  let tok := s.g t a
  let hrp := s.g t b
  let id := fget tok 0 12
  let slot := fget tok 12 3
  let resume := bit tok 15
  let d := dieOf t
  if (s.thr t).pl ≠ 0 then .trap s (.mk1 0x42 tok)
  else
    let w0 := s.encDw d id 0
    let w1 := w0.2.encDw d id 1
    let w2 := w1.2.encDw d id 2
    let w3 := w2.2.encDw d id 3
    let s := w3.2
    match w0.1, w1.1, w2.1, w3.1 with
    | some dw0, some entry, some save, some dw3 =>
      let st := fget dw3 (2 * slot) 2
      if id = 0 || fget dw0 0 2 != 2 || fget dw0 5 3 < slot || fget dw0 18 12 != (s.thr t).vmid then .trap s (.mk1 0x40 tok)
      else if st != (if resume then 2 else 0) then .trap s (.mk1 0x41 tok)
      else (s.slotSet t id slot 1).encEnter t id slot resume dw0 entry (save.toNat + slot * 0x400) hrp
    | _, _, _, _ => .trap s (.mk1 0x44 (BitVec.ofNat 64 (s.encAddr id)))
/-- ENCRUN (R104, R396). -/
def execEncrun (t : Tid) (a b : Rn) (s : State) : Res :=
  .next (s.issue t (.encrun t a b) fun s => bodyEncrun t a b (s.pmEvent t 2))

/-- What ENCDONE does (R398). -/
def bodyEncdone (t : Tid) (a : Rn) (s : State) : Out :=
  let x := s.thr t
  let target := s.g t a
  let id := x.encId
  let slot := fget (x.c 0x500) 12 3
  match s.saveFault t x.encSave x.encKs, (s.encDw (dieOf t) id 3).1 with
  | none, some _ =>
    let s := (((s.slotSet t id slot 0).encBoundary t none).hostBack t x.encSave x.encKs).encOff t
    .go (s.setThr t { s.thr t with pc := target, slot := none, repLeft := none })
  | _, _ => .trap s (.mk1 0x44 0)
/-- ENCDONE (R104, R398). -/
def execEncdone (t : Tid) (a : Rn) (s : State) : Res :=
  .next (s.issue t (.encdone t a) fun s => bodyEncdone t a (s.pmEvent t 2))

end Sys2Proof.Machine
end

