-- ==== Sys2Proof/Machine/Rep.lean ====
section
/-!
DEFINITION. Instructions of the decode table (R109, R118 to R122) and the repeat prefix (R66 to R68, R108).
-/
namespace Sys2Proof.Machine

/-! Running an entry. -/

/-- The step of the sift hash (R135). -/
def mix (x : Word) : Word :=
  let x := x * 0x8F3B25D16C4A9E17
  let x := x ^^^ (x >>> 31)
  let x := x * 0xC2B671E95A3D84F5
  x ^^^ (x >>> 29)

/-- The operands and temporaries of a running entry: F1 to F4, pending register values, temporaries, and the ST that waits
for the end. -/
structure UEnv where
  fs  : List Rn
  g   : SMap Word
  u   : List Word
  st  : Option (Nat × Nat × List Byte)

/-- The value that a selector names (R118). -/
def UEnv.get (e : UEnv) (x : Thread) (sel : Nat) : Word :=
  if sel = 0 then 0
  else if sel ≤ 4 then
    let r := (e.fs.getD (sel - 1) 0).val
    SMap.get (x.gr r) e.g r
  else if sel ≤ 8 then BitVec.ofNat 64 (e.fs.getD (sel - 5) 0).val
  else e.u.getD (sel - 9) 0

/-- Write the register or temporary that a selector names (R118, R121). -/
def UEnv.put (e : UEnv) (sel : Nat) (v : Word) : UEnv :=
  if sel = 0 then e
  else if sel ≤ 4 then
    let r := (e.fs.getD (sel - 1) 0).val
    if r = 0 then e else { e with g := SMap.put e.g r v }
  else if 9 ≤ sel then { e with u := e.u.set (sel - 9) v }
  else e

/-- The result of a micro-op that does not access memory (R119), from a, b and the old d. -/
def uAlu (w : BitVec 32) (a b d : Word) : Word :=
  let i := uImm w
  let imm : Word := BitVec.ofNat 64 i
  match uOp w with
  | 0x01 => a + b
  | 0x02 => a - b
  | 0x03 => a &&& b
  | 0x04 => a ||| b
  | 0x05 => a ^^^ b
  | 0x06 => a &&& ~~~b
  | 0x07 => a <<< shAmt b
  | 0x08 => a >>> shAmt b
  | 0x09 => sraW a (shAmt b)
  | 0x0A => rorW a (shAmt b)
  | 0x0B => a * b
  | 0x0C => if a.slt b then a else b
  | 0x0D => if a.slt b then b else a
  | 0x0E => if a.ult b then a else b
  | 0x0F => if a.ult b then b else a
  | 0x10 => boolW (a.slt b)
  | 0x11 => boolW (a.ult b)
  | 0x12 => boolW (a == b)
  | 0x13 => BitVec.ofNat 64 (clzW a)
  | 0x14 => BitVec.ofNat 64 (ctzW a)
  | 0x15 => BitVec.ofNat 64 (popcN 64 a.toNat)
  | 0x16 => bswapW a
  | 0x17 => a + sextN 11 imm
  | 0x18 => a &&& imm
  | 0x19 => a <<< i
  | 0x1A => a >>> i
  | 0x1B => sraW a i
  | 0x1C => BitVec.ofNat 64 (a.toNat / 2 ^ (i % 64) % 2 ^ (i / 64 + 1))
  | 0x1D =>
    let p := i % 64
    let n := Nat.min (i / 64 + 1) (64 - p)
    fset d p n (a.toNat % 2 ^ (i / 64 + 1))
  | 0x1E => if b ≠ 0 then a else d
  | 0x1F => ((crc32c (d.setWidth 32) (bytesOf (2 ^ (i / 256)) a.toNat)).setWidth 64)
  | _ => mix (a ^^^ b)

/-- The address of a memory micro-op (R119). -/
def uAddr (w : BitVec 32) (a b : Word) : Word :=
  let sz : Word := BitVec.ofNat 64 (2 ^ (uImm w / 256))
  if uOp w = 0x23 then a + b * sz else a + sextN 8 (BitVec.ofNat 64 (uImm w % 256)) * sz

/-- What running micro-ops gives: the environment, a cause, or a wait. -/
inductive URun where
  | ok (e : UEnv) (s : State)
  | trap (s : State) (x : Trap)
  | wait (s : State)

/-- Run micro-ops in order (R120, R121). A misaligned load of one is performed at once (DESIGN CHOICE, log 68). -/
def uRun (t : Tid) : List (BitVec 32) → UEnv → State → URun
  | [], e, s => .ok e s
  | w :: ws, e, s =>
    let x := s.thr t
    let a := e.get x (uSa w); let b := e.get x (uSb w)
    if uMem w then
      let n := 2 ^ (uImm w / 256)
      let va := uAddr w a b
      match s.addr t (if uSt w then .stUop else .load) va n false with
      | .bad x => .trap s x
      | .ok pa ks =>
        if uSt w then uRun t ws { e with st := some (pa, ks, bytesOf n b.toNat) } s
        else match s.loadBytes t pa n ks true with
          | .wait s => .wait s
          | .ok bs poison s =>
            if poison then .trap (s.mcRecord t 0x80 3 pa) (.mk1 0x80 va)
            else
              let v : Word := BitVec.ofNat 64 (ofBytes bs)
              uRun t ws (e.put (uDst w) (if uOp w = 0x20 then sextN (8 * n) v else v)) s
    else uRun t ws (e.put (uDst w) (uAlu w a b (e.get x (uDst w)))) s

/-- What an OP 0x3B instruction does (R121): its registers and its store take effect when the last micro-op completes. -/
def bodyUdi (t : Tid) (sel : Fin 64) (f1 f2 f3 f4 : Rn) (s : State) : Out :=
  match SMap.find? (s.core (coreKey t)).dt sel.val with
  | none => .trap s (.mk1 0x13 ((encode (.udi t sel f1 f2 f3 f4)).setWidth 64))
  | some e =>
    match uRun t (e.uops.take (fget e.hdr 2 4 + 1)) { fs := [f1, f2, f3, f4], g := [], u := [0, 0, 0, 0], st := none } s with
    | .trap s x => .trap s x
    | .wait s => .hold s
    | .ok env s =>
      if env.st.isSome && !s.saqRoom t 1 then .hold (s.saqWait t) else
      let x := env.g.foldl (fun (x : Thread) c => x.setGr c.1 c.2) (s.thr t)
      let s := s.setThr t x
      .done (match env.st with | some (pa, ks, bs) => s.pushStore t pa ks bs | none => s)
/-- UDI (R109, R121). -/
def execUdi (t : Tid) (sel : Fin 64) (f1 f2 f3 f4 : Rn) (s : State) : Res :=
  .next (s.issue t (.udi t sel f1 f2 f3 f4) (bodyUdi t sel f1 f2 f3 f4))
/-- What CUST would do: nothing, for its decoding raises UNIMPLEMENTED_COPROCESSOR (R110). -/
def bodyCust (_t : Tid) (_func : BitVec 6) (_operands : BitVec 20) (s : State) : Out := .hold s
/-- CUST (R110). -/
def execCust (t : Tid) (func : BitVec 6) (operands : BitVec 20) (s : State) : Res :=
  .next (s.issue t (.cust t func operands) (bodyCust t func operands))

/-! REP. -/

/-- What one iteration of a repeatable instruction does. -/
def repBody : Instr → State → Out
  | .addi t d a i => bodyAddi t d a i
  | .andi t d a i => bodyAndi t d a i
  | .ori t d a i => bodyOri t d a i
  | .xori t d a i => bodyXori t d a i
  | .slti t d a i => bodySlti t d a i
  | .sltui t d a i => bodySltui t d a i
  | .lui t d i => bodyLui t d i
  | .shori t d i => bodyShori t d i
  | .slli t d a sh => bodySlli t d a sh
  | .srli t d a sh => bodySrli t d a sh
  | .srai t d a sh => bodySrai t d a sh
  | .rori t d a sh => bodyRori t d a sh
  | .add t d a b => bodyAdd t d a b
  | .sub t d a b => bodySub t d a b
  | .and t d a b => bodyAnd t d a b
  | .or t d a b => bodyOr t d a b
  | .xor t d a b => bodyXor t d a b
  | .andn t d a b => bodyAndn t d a b
  | .orn t d a b => bodyOrn t d a b
  | .slt t d a b => bodySlt t d a b
  | .sltu t d a b => bodySltu t d a b
  | .min t d a b => bodyMin t d a b
  | .max t d a b => bodyMax t d a b
  | .minu t d a b => bodyMinu t d a b
  | .maxu t d a b => bodyMaxu t d a b
  | .sll t d a b => bodySll t d a b
  | .srl t d a b => bodySrl t d a b
  | .sra t d a b => bodySra t d a b
  | .ror t d a b => bodyRor t d a b
  | .mul t d a b => bodyMul t d a b
  | .mulh t d a b => bodyMulh t d a b
  | .mulhu t d a b => bodyMulhu t d a b
  | .div t d a b => bodyDiv t d a b
  | .divu t d a b => bodyDivu t d a b
  | .rem t d a b => bodyRem t d a b
  | .remu t d a b => bodyRemu t d a b
  | .clz t d a => bodyClz t d a
  | .ctz t d a => bodyCtz t d a
  | .popc t d a => bodyPopc t d a
  | .bswap t d a => bodyBswap t d a
  | .sextb t d a => bodySextb t d a
  | .sexth t d a => bodySexth t d a
  | .sextw t d a => bodySextw t d a
  | .zextw t d a => bodyZextw t d a
  | .fadd t w d a b => bodyFadd t w d a b
  | .fsub t w d a b => bodyFsub t w d a b
  | .fmul t w d a b => bodyFmul t w d a b
  | .fdiv t w d a b => bodyFdiv t w d a b
  | .fsqrt t w d a => bodyFsqrt t w d a
  | .fmin t w d a b => bodyFmin t w d a b
  | .fmax t w d a b => bodyFmax t w d a b
  | .fneg t w d a => bodyFneg t w d a
  | .fabs t w d a => bodyFabs t w d a
  | .fmov t w d a => bodyFmov t w d a
  | .feq t w d a b => bodyFeq t w d a b
  | .flt t w d a b => bodyFlt t w d a b
  | .fle t w d a b => bodyFle t w d a b
  | .fclass t w d a => bodyFclass t w d a
  | .fcvti t w d a => bodyFcvti t w d a
  | .fcvtiu t w d a => bodyFcvtiu t w d a
  | .fcvtf t w d a => bodyFcvtf t w d a
  | .fcvtfu t w d a => bodyFcvtfu t w d a
  | .fcvtx t w d a => bodyFcvtx t w d a
  | .fmvg t w d a => bodyFmvg t w d a
  | .fmvf t w d a => bodyFmvf t w d a
  | .fmadd t w d a b c => bodyFmadd t w d a b c
  | .fmsub t w d a b c => bodyFmsub t w d a b c
  | .fnmsub t w d a b c => bodyFnmsub t w d a b c
  | .fnmadd t w d a b c => bodyFnmadd t w d a b c
  | .loadx t d a k o m f => bodyLoadx t d a k o m f
  | .storex t d a k o m f => bodyStorex t d a k o m f
  | .udi t sel f1 f2 f3 f4 => bodyUdi t sel f1 f2 f3 f4
  | _ => fun s => .hold s

/-- The registers that the selectors 1 to 4 of an entry's micro-ops name (R118, R122). -/
def udiRegs (e : DtEntry) (fs : List Rn) : List Nat :=
  (e.uops.take (fget e.hdr 2 4 + 1)).flatMap fun w =>
    ([uDst w, uSa w, uSb w].filter fun k => 1 ≤ k && k ≤ 4).map fun k => (fs.getD (k - 1) 0).val

/-- The instruction that REP repeats, where the word after it is repeatable (R66, R109, R122); count is gN's number in
REP gN. -/
def State.repTarget (s : State) (t : Tid) (w : BitVec 32) (count : Option Nat) : Option Instr :=
  match decodeRep t w with
  | some (.udi u sel f1 f2 f3 f4) => match SMap.find? (s.core (coreKey t)).dt sel.val with
    | some e =>
      let names := match count with
        | some g => (udiRegs e [f1, f2, f3, f4]).contains g
        | none => false
      if bit e.hdr 1 && !names then some (.udi u sel f1 f2 f3 f4) else none
    | none => none
  | some i =>
    let names := match count with
      | some g => (gNames i).contains g
      | none => false
    if names then none else some i
  | none => none

/-- The address of the word after the prefix. -/
def State.repVa (s : State) (t : Tid) : Word := (s.thr t).pc + 4

/-- One iteration: its decode checks, its routing (R139), and its effect (R66). -/
def State.repOne (s : State) (t : Tid) (i : Instr) : Out :=
  let c := s.decodeCode t i
  if c = 0 then repBody i (s.steered t (s.repVa t) i)
  else .trap s (.mk1 c (if c = 0x43 then 0 else (encode i).setWidth 64))

/-- An iteration of REP ends. -/
def State.repNext (s : State) (t : Tid) (i : Instr) : State := (s.homed t (s.repVa t) i).pmEvent t 2

/-- The fetch of the word after the prefix (R108). -/
def State.repFetch (s : State) (t : Tid) : Option (Trap × Option Nat) :=
  let x := s.thr t
  (s.setThr t { x with pc := x.pc + 4 }).fetchTrap t

/-- A fault of the word after the prefix, taken at the prefix (R108). -/
def State.repFetchRaise (s : State) (t : Tid) (x : Trap) (pa : Option Nat) (rep : Option Nat) : State :=
  let s := match pa with
    | some pa => s.mcRecord t x.code 3 pa
    | none => s
  s.raise t x rep

/-- The end of a REP: past the repeated word. -/
def State.repEnd (s : State) (t : Tid) : State :=
  let s := s.pmEvent t 2
  let x := s.thr t
  s.setThr t { x with pc := x.pc + 8, repLeft := none }

/-- The iterations of REP #n: left of them remain (R67). -/
def repLoop (t : Tid) (i : Instr) : Nat → State → State
  | 0, s => s.repEnd t
  | left + 1, s =>
    match s.repOne t i with
    | .done s => repLoop t i left (s.repNext t i)
    | .trap s x => s.raise t x (some (left + 1))
    | .hold s =>
      let y := s.thr t
      (s.setThr t { y with repLeft := some (left + 1) }).holds t
    | _ => s

/-- What REP #n does (R66, R67, R108): it ends by setting pc itself. -/
def bodyRepN (t : Tid) (nm1 : BitVec 6) (next : BitVec 32) (s : State) : Out :=
  let n := (s.thr t).repLeft.getD (nm1.toNat + 1)
  match s.repFetch t with
  | some (x, pa) => .go (s.repFetchRaise t x pa (some n))
  | none => match s.repTarget t next none with
    | none => .trap s (.mk1 0x04 ((encode (.repN t nm1 next)).setWidth 64))
    | some i => .go (repLoop t i n s)
/-- REP #n (R66, R67, R108). -/
def execRepN (t : Tid) (nm1 : BitVec 6) (next : BitVec 32) (s : State) : Res :=
  .next (s.issue t (.repN t nm1 next) (bodyRepN t nm1 next))

/-- The count of REP gN is one less (R68): the front end writes it, in the unit that holds it. -/
def State.repCount (s : State) (t : Tid) (g : Rn) : State := s.setG t g (s.g t g - 1)

/-- Iterations of REP gN (R68): at most 65 in one command, as a cue may be taken between iterations; the prefix is then
executed again with the count that gN holds (DESIGN CHOICE, log 16). -/
def repGLoop (t : Tid) (g : Rn) (i : Instr) : Nat → State → State
  | 0, s => s
  | fuel + 1, s =>
    if s.g t g = 0 then s.repEnd t
    else match s.repOne t i with
      | .done s => repGLoop t g i fuel ((s.repNext t i).repCount t g)
      | .trap s x => s.raise t x none
      | .hold s => s.holds t
      | _ => s

/-- What REP gN does (R66, R68, R108): the front end takes the count (R139). R68 says that the next word raises nothing where the
count is 0, and R108 that its fetch fault is taken at the prefix: the model raises the word's fetch fault and ILLEGAL_REPEAT before it
reads the count (DESIGN CHOICE, log 16). -/
def bodyRepG (t : Tid) (g : Rn) (next : BitVec 32) (s : State) : Out :=
  match s.repFetch t with
  | some (x, pa) => .go (s.repFetchRaise t x pa none)
  | none => match s.repTarget t next (some g.val) with
    | none => .trap s (.mk1 0x04 ((encode (.repG t g next)).setWidth 64))
    | some i => .go (repGLoop t g i 65 (s.steerCount t g))
/-- REP gN (R66, R68, R108). -/
def execRepG (t : Tid) (g : Rn) (next : BitVec 32) (s : State) : Res :=
  .next (s.issue t (.repG t g next) (bodyRepG t g next))

end Sys2Proof.Machine
end

