-- ==== Sys2Proof/Machine/Sift.lean ====
section
/-!
DEFINITION. The sift unit's data and stream operations (R123 to R130). A command has its effect in the step of its instruction; the
credit that it holds until it has completed stands in the thread's machinery (R124).
-/
namespace Sys2Proof.Machine

/-- A vector register of a thread (R123). -/
def Thread.vr (x : Thread) (r : Nat) : BitVec 512 := SMap.get 0 x.v r
/-- Write a vector register. -/
def Thread.setVr (x : Thread) (r : Nat) (v : BitVec 512) : Thread := { x with v := SMap.put x.v r v }
/-- A vector register of a thread of the state. -/
def State.v (s : State) (t : Tid) (r : Fin 16) : BitVec 512 := (s.thr t).vr r.val
/-- Write a vector register of a thread of the state. -/
def State.setV (s : State) (t : Tid) (r : Fin 16) (v : BitVec 512) : State := s.setThr t ((s.thr t).setVr r.val v)

/-! Lanes (R127). -/

/-- The lane width in bits that EW selects. -/
def laneW (ew : Fin 4) : Nat := 8 * 2 ^ ew.val
/-- The number of lanes of a width. -/
def laneN (ew : Fin 4) : Nat := 512 / laneW ew
/-- Lane i of a register, of w bits. -/
def lane (v : BitVec 512) (w i : Nat) : Nat := v.toNat / 2 ^ (w * i) % 2 ^ w
/-- A register of lanes of w bits, lane 0 lowest; the lanes not given are 0. -/
def ofLanes (w : Nat) (ls : List Nat) : BitVec 512 := BitVec.ofNat 512 (ls.foldr (fun x r => x % 2 ^ w + r * 2 ^ w) 0)
/-- The w-bit two's-complement value of a lane. -/
def laneS (w x : Nat) : Int := if 2 ^ (w - 1) ≤ x then (x : Int) - 2 ^ w else x
/-- Whether mask register g[H] selects lane i; H = 0 selects all lanes. -/
def State.lanesOf (s : State) (t : Tid) (h : Rn) (i : Nat) : Bool := h.val == 0 || (s.g t h).getLsbD i
/-- A word whose bit i is p i, for i below n. -/
def bitsOf (n : Nat) (p : Nat → Bool) : Nat := (List.range n).foldl (fun r i => if p i then r + 2 ^ i else r) 0

/-- The format of a floating-point lane. -/
def laneFmt (ew : Fin 4) : Fmt := if ew.val = 2 then fmt32 else fmt64

/-- Predicate code pc on lanes x, y and, for codes 12 and 13, the bounds y and hi (R129). -/
def predicate (pc : Nat) (ew : Fin 4) (x y hi : Nat) : Bool :=
  let w := laneW ew
  let a := laneS w x; let b := laneS w y
  let fa := (laneFmt ew).unpack x; let fb := (laneFmt ew).unpack y
  let num := !fa.isNan && !fb.isNan
  match pc with
  | 0 => x == y
  | 1 => x != y
  | 2 => a < b
  | 3 => a ≤ b
  | 4 => b < a
  | 5 => b ≤ a
  | 6 => x < y
  | 7 => x ≤ y
  | 8 => y < x
  | 9 => y ≤ x
  | 10 => num && fa.lt fb
  | 11 => num && !fb.lt fa
  | 12 => b ≤ a && a ≤ laneS w hi
  | _ => y ≤ x && x ≤ hi

/-! Data operations (R128). -/

/-- What VBCAST does. -/
def bodyVbcast (t : Tid) (v : Fin 16) (g : Rn) (ew : Fin 4) (s : State) : Out :=
  .done (s.setV t v (ofLanes (laneW ew) (List.replicate (laneN ew) (s.g t g).toNat)))
/-- VBCAST (R128). -/
def execVbcast (t : Tid) (v : Fin 16) (g : Rn) (ew : Fin 4) (s : State) : Res :=
  .next (s.issue t (.vbcast t v g ew) (bodyVbcast t v g ew))
/-- What VINS does. -/
def bodyVins (t : Tid) (v : Fin 16) (g : Rn) (x : Fin 8) (s : State) : Out :=
  .done (s.setV t v (lineSet (s.v t v) (8 * x.val) (bytesOf 8 (s.g t g).toNat)))
/-- VINS (R128). -/
def execVins (t : Tid) (v : Fin 16) (g : Rn) (x : Fin 8) (s : State) : Res :=
  .next (s.issue t (.vins t v g x) (bodyVins t v g x))
/-- What VEXT does. -/
def bodyVext (t : Tid) (v : Fin 16) (g : Rn) (x : Fin 8) (s : State) : Out :=
  .done (s.setG t g (BitVec.ofNat 64 (lane (s.v t v) 64 x.val)))
/-- VEXT (R128). -/
def execVext (t : Tid) (v : Fin 16) (g : Rn) (x : Fin 8) (s : State) : Res :=
  .next (s.issue t (.vext t v g x) (bodyVext t v g x))
/-- What VMOV does. -/
def bodyVmov (t : Tid) (vd va : Fin 16) (s : State) : Out := .done (s.setV t vd (s.v t va))
/-- VMOV (R128). -/
def execVmov (t : Tid) (vd va : Fin 16) (s : State) : Res := .next (s.issue t (.vmov t vd va) (bodyVmov t vd va))
/-- What PSCAN does. -/
def bodyPscan (t : Tid) (g : Rn) (va vb : Fin 16) (ew : Fin 4) (pc : Fin 16) (s : State) : Out :=
  let w := laneW ew
  let a := s.v t va; let b := s.v t vb
  let hi := (s.thr t).vr (vb.val + 1)
  .done (s.setG t g (BitVec.ofNat 64 (bitsOf (laneN ew) fun i =>
    predicate pc.val ew (lane a w i) (lane b w i) (lane hi w i))))
/-- PSCAN (R128, R129). -/
def execPscan (t : Tid) (g : Rn) (va vb : Fin 16) (ew : Fin 4) (pc : Fin 16) (s : State) : Res :=
  .next (s.issue t (.pscan t g va vb ew pc) (bodyPscan t g va vb ew pc))
/-- What COMPRESS does; its mask is g[G], and g0 reads zero. -/
def bodyCompress (t : Tid) (v : Fin 16) (g : Rn) (h : Fin 16) (ew : Fin 4) (s : State) : Out :=
  let w := laneW ew
  let a := s.v t h
  let keep := (List.range (laneN ew)).filter fun i => (s.g t g).getLsbD i
  .done (s.setV t v (ofLanes w (keep.map (lane a w))))
/-- COMPRESS (R128). -/
def execCompress (t : Tid) (v : Fin 16) (g : Rn) (h : Fin 16) (ew : Fin 4) (s : State) : Res :=
  .next (s.issue t (.compress t v g h ew) (bodyCompress t v g h ew))
/-- What UNPACK does: lanes of w = G + 1 bits, widened. -/
def bodyUnpack (t : Tid) (v : Fin 16) (g : Rn) (h : Fin 16) (ew : Fin 4) (s : State) : Out :=
  let w := g.val + 1
  let a := s.v t h
  .done (s.setV t v (ofLanes (laneW ew) ((List.range (laneN ew)).map (lane a w))))
/-- UNPACK (R128). -/
def execUnpack (t : Tid) (v : Fin 16) (g : Rn) (h : Fin 16) (ew : Fin 4) (s : State) : Res :=
  .next (s.issue t (.unpack t v g h ew) (bodyUnpack t v g h ew))
/-- What VHASH does. -/
def bodyVhash (t : Tid) (v : Fin 16) (g : Rn) (h : Fin 16) (s : State) : Out :=
  let a := s.v t h
  .done (s.setV t v (ofLanes 64 ((List.range 8).map fun i => (mix (s.g t g ^^^ BitVec.ofNat 64 (lane a 64 i))).toNat)))
/-- VHASH (R128, R135). -/
def execVhash (t : Tid) (v : Fin 16) (g : Rn) (h : Fin 16) (s : State) : Res :=
  .next (s.issue t (.vhash t v g h) (bodyVhash t v g h))
/-- What VCRC does. -/
def bodyVcrc (t : Tid) (v : Fin 16) (g : Rn) (s : State) : Out :=
  .done (s.setG t g ((crc32c ((s.g t g).setWidth 32) (bytesOf 64 (s.v t v).toNat)).setWidth 64))
/-- VCRC (R128, R135). -/
def execVcrc (t : Tid) (v : Fin 16) (g : Rn) (s : State) : Res := .next (s.issue t (.vcrc t v g) (bodyVcrc t v g))

/-- The lanes that a reduction reads (R128): selected, and no NaN in floating point. -/
def State.redLanes (s : State) (t : Tid) (v : Fin 16) (h : Rn) (ew : Fin 4) (fp : Bool) : List Nat :=
  (((List.range (laneN ew)).filter (s.lanesOf t h)).map (lane (s.v t v) (laneW ew))).filter fun x =>
    !(fp && ((laneFmt ew).unpack x).isNan)

/-- A reduction by an order, from the value that no lane gives (R128). -/
def reduce (better : Nat → Nat → Bool) (none0 : Nat) : List Nat → Nat
  | [] => none0
  | x :: xs => xs.foldl (fun m y => if better y m then y else m) x

/-- The result of REDMIN (mn) or REDMAX: a lane value (R128). X with both its bits set asks for unsigned and floating point at once, of
which R128 does not say which holds: the model takes floating point and ignores X[0] (DESIGN CHOICE, log 69). -/
def State.redVal (s : State) (t : Tid) (v : Fin 16) (h : Rn) (ew : Fin 4) (x : Nat) (mn : Bool) : Nat :=
  let w := laneW ew
  let fp := 2 ≤ x
  let uns := x % 2 == 1
  let ls := s.redLanes t v h ew fp
  let f := laneFmt ew
  let less (a b : Nat) : Bool :=
    if fp then (f.unpack a).below (f.unpack b) else if uns then a < b else laneS w a < laneS w b
  let none0 := if fp then f.infBits (!mn) else if uns then (if mn then 2 ^ w - 1 else 0)
    else (if mn then 2 ^ (w - 1) - 1 else 2 ^ (w - 1))
  reduce (fun a b => if mn then less a b else less b a) none0 ls

/-- The destination of REDMIN and REDMAX written (R128). -/
def State.redTo (s : State) (t : Tid) (g : Rn) (ew : Fin 4) (x : Nat) (r : Nat) : State :=
  if 2 ≤ x then s.setF t g (BitVec.ofNat 64 r)
  else if x % 2 = 1 then s.setG t g (BitVec.ofNat 64 r)
  else s.setG t g (BitVec.ofInt 64 (laneS (laneW ew) r))

/-- What REDMIN does. -/
def bodyRedmin (t : Tid) (v : Fin 16) (g h : Rn) (ew : Fin 4) (x : Fin 16) (s : State) : Out :=
  .done (s.redTo t g ew x.val (s.redVal t v h ew x.val true))
/-- REDMIN (R128). -/
def execRedmin (t : Tid) (v : Fin 16) (g h : Rn) (ew : Fin 4) (x : Fin 16) (s : State) : Res :=
  .next (s.issue t (.redmin t v g h ew x) (bodyRedmin t v g h ew x))
/-- What REDMAX does. -/
def bodyRedmax (t : Tid) (v : Fin 16) (g h : Rn) (ew : Fin 4) (x : Fin 16) (s : State) : Out :=
  .done (s.redTo t g ew x.val (s.redVal t v h ew x.val false))
/-- REDMAX (R128). -/
def execRedmax (t : Tid) (v : Fin 16) (g h : Rn) (ew : Fin 4) (x : Fin 16) (s : State) : Res :=
  .next (s.issue t (.redmax t v g h ew x) (bodyRedmax t v g h ew x))
/-- What VCNT does. -/
def bodyVcnt (t : Tid) (v : Fin 16) (g : Rn) (s : State) : Out :=
  .done (s.setG t g (BitVec.ofNat 64 (popcN 512 (s.v t v).toNat)))
/-- VCNT (R128). -/
def execVcnt (t : Tid) (v : Fin 16) (g : Rn) (s : State) : Res := .next (s.issue t (.vcnt t v g) (bodyVcnt t v g))

/-! Stream operations (R125, R130). -/

/-- What a stream read gives: its bytes and the state, or a trap, or a wait. -/
inductive Stream where
  | ok (bs : List Byte) (s : State)
  | bad (s : State) (x : Trap)
  | wait (s : State)

/-- A read of the sift unit within one line, through the cluster's L2 (R125, R154). -/
def State.readSift (s : State) (t : Tid) (pa n ks : Nat) : Got :=
  if s.cached pa then
    match s.serveL2 t (pa / 64) ks with
    | some s => s.gotIn t pa n ks
    | none => .wait (s.l2Waits t 4 (pa / 64) false)
  else s.gotIn t pa n ks

/-- Read n bytes line by line: the first poisoned piece ends it. -/
def State.streamRead (s : State) (t : Tid) (ks : Nat) : Nat → Nat → Word → Nat → Stream
  | 0, _, _, _ => .ok [] s
  | fuel + 1, pa, va, n =>
    if n = 0 then .ok [] s
    else
      let k := Nat.min n (64 - pa % 64)
      match s.readSift t pa k ks with
      | .wait s => .wait s
      | .ok bs0 poison s =>
        if poison then .bad (s.mcRecord t 0x80 3 pa) (.mk1 0x80 va)
        else match State.streamRead s t ks fuel (pa + k) (va + BitVec.ofNat 64 k) (n - k) with
          | .ok bs s => .ok (bs0 ++ bs) s
          | r => r

/-- The range of a stream operation (R125): canonical, aligned, within one 4 KiB block, translated once as a data load;
then its reads, after every pending store that overlaps it. -/
def State.stream (s : State) (t : Tid) (va : Word) (n align : Nat) : Stream :=
  if !canonical va then .bad s (.mk1 0x0E va)
  else if va.toNat % align != 0 || 4096 < va.toNat % 4096 + n then .bad s (.mk1 0x08 va)
  else match s.xlate t .load va with
    | .fail c i => .bad s ⟨c, va, i, Use.load.space, 0⟩
    | .ok pa ks =>
      if (s.thr t).storeQ.any fun p => p.meets pa n then
        match s.drain t with
        | some s => s.streamRead t ks 65 pa va n
        | none => .wait (s.commitWait t)
      else s.streamRead t ks 65 pa va n

/-- A stream read and what follows it. -/
def State.streamThen (s : State) (t : Tid) (va : Word) (n align : Nat) (k : List Byte → State → State) : Out :=
  match s.stream t va n align with
  | .wait s => .hold s
  | .bad s x => .trap s x
  | .ok bs s => .done (k bs s)

/-- The 4 KiB block of an address. -/
def block4k (va : Word) : Word := va - BitVec.ofNat 64 (va.toNat % 4096)

/-- What SLOAD does. -/
def bodySload (t : Tid) (v : Fin 16) (g : Rn) (post : Bool) (s : State) : Out :=
  s.streamThen t (s.g t g) 64 1 fun bs s =>
    let s := s.setV t v (BitVec.ofNat 512 (ofBytes bs))
    if post then s.setG t g (s.g t g + 64) else s
/-- SLOAD (R130). -/
def execSload (t : Tid) (v : Fin 16) (g : Rn) (post : Bool) (s : State) : Res :=
  .next (s.issue t (.sload t v g post) (bodySload t v g post))
/-- What SSCAN does. -/
def bodySscan (t : Tid) (v : Fin 16) (g h : Rn) (ew : Fin 4) (pc : Fin 16) (s : State) : Out :=
  let n := 2 ^ ew.val
  let lo := (s.g t h).toNat % 2 ^ laneW ew
  let hi := ((s.thr t).gr (h.val + 1)).toNat % 2 ^ laneW ew
  s.streamThen t (s.g t g) (512 * n) n fun bs s =>
    let m := ofBytes bs
    s.setV t v (BitVec.ofNat 512 (bitsOf 512 fun i => predicate pc.val ew (m / 2 ^ (laneW ew * i) % 2 ^ laneW ew) lo hi))
/-- SSCAN (R129, R130). -/
def execSscan (t : Tid) (v : Fin 16) (g h : Rn) (ew : Fin 4) (pc : Fin 16) (s : State) : Res :=
  .next (s.issue t (.sscan t v g h ew pc) (bodySscan t v g h ew pc))

/-- The element of width n at byte o of a block; none where it falls outside. -/
def elemAt (m : Nat) (o n : Nat) : Option Nat := if o + n ≤ 4096 then some (m / 2 ^ (8 * o) % 2 ^ (8 * n)) else none

/-- What SGATHER does. An element outside the block of g[G] that is taken has no stated value: a free one (DESIGN CHOICE, log 3). The
address that its translation causes put in xEVAL is that of the block, of which R130 names none (DESIGN CHOICE, log 70). -/
def bodySgather (t : Tid) (v : Fin 16) (g h : Rn) (ew : Fin 4) (x : Fin 16) (s : State) : Out :=
  let n := 2 ^ ew.val
  let base := s.g t g
  let c := (s.g t h).toNat
  let bm := s.v t x
  let left := (List.range 512).filter fun i => c ≤ i && bm.getLsbD i
  let took := left.take (laneN ew)
  s.streamThen t (block4k base) 4096 1 fun bs s =>
    let m := ofBytes bs
    let free := (Config.freeWord s.freeCtr).toNat
    let es := took.map fun i => (elemAt m (base.toNat % 4096 + i * n) n).getD free
    let s := (if took.any fun i => (elemAt m (base.toNat % 4096 + i * n) n).isNone then s.tick else s)
    let s := s.setV t v (ofLanes (laneW ew) es)
    let next := if left.length ≤ took.length then 512 else (took.getLast?.getD 511) + 1
    s.setG t h (BitVec.ofNat 64 next)
/-- SGATHER (R130). -/
def execSgather (t : Tid) (v : Fin 16) (g h : Rn) (ew : Fin 4) (x : Fin 16) (s : State) : Res :=
  .next (s.issue t (.sgather t v g h ew x) (bodySgather t v g h ew x))
/-- What SDICT does. Its translation causes name the block, as SGATHER's do (DESIGN CHOICE, log 70). -/
def bodySdict (t : Tid) (v : Fin 16) (g h : Rn) (ew : Fin 4) (x : Fin 16) (s : State) : Out :=
  let n := 2 ^ ew.val
  let base := s.g t g
  let idx := s.v t x
  s.streamThen t (block4k base) 4096 1 fun bs s =>
    let m := ofBytes bs
    let el (i : Nat) : Option Nat := elemAt m (base.toNat % 4096 + lane idx 32 i * n) n
    let s := s.setV t v (ofLanes (laneW ew) ((List.range (laneN ew)).map fun i => (el i).getD 0))
    s.setG t h (BitVec.ofNat 64 (bitsOf (laneN ew) fun i => (el i).isNone))
/-- SDICT (R130). -/
def execSdict (t : Tid) (v : Fin 16) (g h : Rn) (ew : Fin 4) (x : Fin 16) (s : State) : Res :=
  .next (s.issue t (.sdict t v g h ew x) (bodySdict t v g h ew x))

end Sys2Proof.Machine
end

