-- ==== Sys2Proof/Machine/Accum.lean ====
section
/-!
DEFINITION. Exact accumulators (R131 to R134) and SACCADD (R130).
-/
namespace Sys2Proof.Machine

/-- An accumulator of a thread (R123). -/
def Thread.ac (x : Thread) (a : Nat) : SumAcc := SMap.get SumAcc.zero x.acc a
/-- An accumulator of a thread of the state. -/
def State.ac (s : State) (t : Tid) (a : Fin 4) : SumAcc := (s.thr t).ac a.val
/-- Write an accumulator. -/
def State.setAc (s : State) (t : Tid) (a : Fin 4) (v : SumAcc) : State :=
  let x := s.thr t
  s.setThr t { x with acc := SMap.put x.acc a.val v }

/-- Add an exact value: a finite one to FX with weight 2^(j-2148), an infinity or a NaN to the flags (R132, R133). -/
def SumAcc.addFv (a : SumAcc) : Fv → SumAcc
  | .nan _ => { a with nan := true }
  | .inf neg => if neg then { a with ninf := true } else { a with pinf := true }
  | .fin neg m e => { a with fx := a.fx + BitVec.ofInt 4224 (sgn neg m * 2 ^ (e + 2148).toNat) }

/-- Whether a value is zero. -/
def Fv.isZero : Fv → Bool
  | .fin _ m _ => m == 0
  | _ => false

/-- The exact product of two values; infinity times zero is a NaN. -/
def Fv.times : Fv → Fv → Fv
  | .nan g, _ => .nan g
  | _, .nan g => .nan g
  | .inf x, b => if b.isZero then .nan false else .inf (x != b.isNeg)
  | a, .inf y => if a.isZero then .nan false else .inf (a.isNeg != y)
  | .fin x m e, .fin y n k => .fin (x != y) (m * n) (e + k)

/-- The sum of two accumulators (R133). -/
def SumAcc.plus (a b : SumAcc) : SumAcc :=
  { fx := a.fx + b.fx, pinf := a.pinf || b.pinf, ninf := a.ninf || b.ninf, nan := a.nan || b.nan, int := a.int + b.int }

/-- Doubleword x of an accumulator's image (R132). -/
def SumAcc.dw (a : SumAcc) (x : Nat) : Word :=
  if x < 66 then BitVec.ofNat 64 (a.fx.toNat / 2 ^ (64 * x))
  else if x = 66 then BitVec.ofNat 64 (b2n a.pinf + 2 * b2n a.ninf + 4 * b2n a.nan)
  else if x = 67 then BitVec.ofNat 64 a.int.toNat
  else if x = 68 then BitVec.ofNat 64 (a.int.toNat / 2 ^ 64)
  else 0

/-- An accumulator with doubleword x of its image written; reserved bits and padding ignore the write (R131). -/
def SumAcc.setDw (a : SumAcc) (x : Nat) (w : Word) : SumAcc :=
  if x < 66 then
    let old := a.fx.toNat / 2 ^ (64 * x) % 2 ^ 64
    { a with fx := BitVec.ofNat 4224 (a.fx.toNat - old * 2 ^ (64 * x) + w.toNat * 2 ^ (64 * x)) }
  else if x = 66 then { a with pinf := bit w 0, ninf := bit w 1, nan := bit w 2 }
  else if x = 67 then { a with int := BitVec.ofNat 128 (a.int.toNat / 2 ^ 64 * 2 ^ 64 + w.toNat) }
  else if x = 68 then { a with int := BitVec.ofNat 128 (a.int.toNat % 2 ^ 64 + w.toNat * 2 ^ 64) }
  else a

/-- The accumulator of an image (R132). -/
def SumAcc.ofImage (bs : List Byte) : SumAcc :=
  (List.range 69).foldl (fun a x => a.setDw x (BitVec.ofNat 64 (ofBytes ((bs.drop (8 * x)).take 8)))) SumAcc.zero

/-- The readout of an accumulator: bits and flags (R134). -/
def SumAcc.readout (a : SumAcc) : Nat × Nat :=
  if a.nan || (a.pinf && a.ninf) then (fmt64.qnan, fNV)
  else if a.pinf then (fmt64.infBits false, 0)
  else if a.ninf then (fmt64.infBits true, 0)
  else fmt64.roundInt 0 a.fx.toInt (-2148) false

/-- Lanes selected by bit B + i of g[G]; a lane for which B + i exceeds 63 is not selected, and G = 0 selects all (R131). -/
def State.accLane (s : State) (t : Tid) (g : Rn) (x : BitVec 7) (i : Nat) : Bool :=
  g.val == 0 || (x.toNat % 64 + i ≤ 63 && (s.g t g).getLsbD (x.toNat % 64 + i))

/-- The selected lanes among n. -/
def State.accLanes (s : State) (t : Tid) (g : Rn) (x : BitVec 7) (n : Nat) : List Nat :=
  (List.range n).filter (s.accLane t g x)

/-- The format and lane width of TY in AADDF and AMACF. -/
def accFmt (ty : Fin 4) : Fmt := if ty.val = 1 then fmt32 else fmt64
/-- The lane width of TY in AADDF and AMACF. -/
def accW (ty : Fin 4) : Nat := if ty.val = 1 then 32 else 64

/-- What ACLR does. -/
def bodyAclr (t : Tid) (acc : Fin 4) (s : State) : Out := .done (s.setAc t acc SumAcc.zero)
/-- ACLR (R131). -/
def execAclr (t : Tid) (acc : Fin 4) (s : State) : Res := .next (s.issue t (.aclr t acc) (bodyAclr t acc))
/-- What AADDF does. -/
def bodyAaddf (t : Tid) (acc : Fin 4) (v : Fin 16) (g : Rn) (ty : Fin 4) (x : BitVec 7) (s : State) : Out :=
  let a := s.v t v
  let w := accW ty
  .done (s.setAc t acc ((s.accLanes t g x (512 / w)).foldl (fun r i =>
    r.addFv ((accFmt ty).unpack (lane a w i))) (s.ac t acc)))
/-- AADDF (R131, R133). -/
def execAaddf (t : Tid) (acc : Fin 4) (v : Fin 16) (g : Rn) (ty : Fin 4) (x : BitVec 7) (s : State) : Res :=
  .next (s.issue t (.aaddf t acc v g ty x) (bodyAaddf t acc v g ty x))
/-- What AMACF does. -/
def bodyAmacf (t : Tid) (acc : Fin 4) (v : Fin 16) (g : Rn) (ty : Fin 4) (x : BitVec 7) (s : State) : Out :=
  let a := s.v t v
  let b := (s.thr t).vr (v.val + 1)
  let w := accW ty
  let f := accFmt ty
  .done (s.setAc t acc ((s.accLanes t g x (512 / w)).foldl (fun r i =>
    r.addFv ((f.unpack (lane a w i)).times (f.unpack (lane b w i)))) (s.ac t acc)))
/-- AMACF (R131, R133). -/
def execAmacf (t : Tid) (acc : Fin 4) (v : Fin 16) (g : Rn) (ty : Fin 4) (x : BitVec 7) (s : State) : Res :=
  .next (s.issue t (.amacf t acc v g ty x) (bodyAmacf t acc v g ty x))
/-- What AADDI does. -/
def bodyAaddi (t : Tid) (acc : Fin 4) (v : Fin 16) (g : Rn) (ty : Fin 4) (x : BitVec 7) (s : State) : Out :=
  let a := s.v t v
  let w := laneW ty
  let val (i : Nat) : Int := if x.getLsbD 6 then (lane a w i : Int) else laneS w (lane a w i)
  let r := s.ac t acc
  .done (s.setAc t acc { r with
    int := (s.accLanes t g x (laneN ty)).foldl (fun n i => n + BitVec.ofInt 128 (val i)) r.int })
/-- AADDI (R131). -/
def execAaddi (t : Tid) (acc : Fin 4) (v : Fin 16) (g : Rn) (ty : Fin 4) (x : BitVec 7) (s : State) : Res :=
  .next (s.issue t (.aaddi t acc v g ty x) (bodyAaddi t acc v g ty x))
/-- What ACNT does. -/
def bodyAcnt (t : Tid) (acc : Fin 4) (v : Fin 16) (s : State) : Out :=
  let r := s.ac t acc
  .done (s.setAc t acc { r with int := r.int + BitVec.ofNat 128 (popcN 512 (s.v t v).toNat) })
/-- ACNT (R131). -/
def execAcnt (t : Tid) (acc : Fin 4) (v : Fin 16) (s : State) : Res := .next (s.issue t (.acnt t acc v) (bodyAcnt t acc v))
/-- What ARDF does. -/
def bodyArdf (t : Tid) (acc : Fin 4) (g : Rn) (s : State) : Out := s.fpTo t g (s.ac t acc).readout
/-- ARDF (R131, R134). -/
def execArdf (t : Tid) (acc : Fin 4) (g : Rn) (s : State) : Res := .next (s.issue t (.ardf t acc g) (bodyArdf t acc g))
/-- What ARDI does. -/
def bodyArdi (t : Tid) (acc : Fin 4) (g : Rn) (hi : Bool) (s : State) : Out :=
  .done (s.setG t g ((s.ac t acc).dw (if hi then 68 else 67)))
/-- ARDI (R131). -/
def execArdi (t : Tid) (acc : Fin 4) (g : Rn) (hi : Bool) (s : State) : Res :=
  .next (s.issue t (.ardi t acc g hi) (bodyArdi t acc g hi))
/-- What ARDW does. -/
def bodyArdw (t : Tid) (acc : Fin 4) (g : Rn) (x : BitVec 7) (s : State) : Out :=
  .done (s.setG t g ((s.ac t acc).dw x.toNat))
/-- ARDW (R131, R132). -/
def execArdw (t : Tid) (acc : Fin 4) (g : Rn) (x : BitVec 7) (s : State) : Res :=
  .next (s.issue t (.ardw t acc g x) (bodyArdw t acc g x))
/-- What AWRW does. -/
def bodyAwrw (t : Tid) (acc : Fin 4) (g : Rn) (x : BitVec 7) (s : State) : Out :=
  .done (s.setAc t acc ((s.ac t acc).setDw x.toNat (s.g t g)))
/-- AWRW (R131, R132). -/
def execAwrw (t : Tid) (acc : Fin 4) (g : Rn) (x : BitVec 7) (s : State) : Res :=
  .next (s.issue t (.awrw t acc g x) (bodyAwrw t acc g x))

/-- What SACCADD does. -/
def bodySaccadd (t : Tid) (acc : Fin 4) (g : Rn) (s : State) : Out :=
  s.streamThen t (s.g t g) 576 64 fun bs s => s.setAc t acc ((s.ac t acc).plus (SumAcc.ofImage bs))
/-- SACCADD (R130, R133). -/
def execSaccadd (t : Tid) (acc : Fin 4) (g : Rn) (s : State) : Res :=
  .next (s.issue t (.saccadd t acc g) (bodySaccadd t acc g))

end Sys2Proof.Machine
end

