-- ==== Sys2Proof/Machine/Slate.lean ====
section
/-!
DEFINITION. The slate (R265 to R289): how it advances and is corrected, its states, its uncertainty, its time links.
-/
namespace Sys2Proof.Machine

/-- Change what the H-die keeps of the slate. -/
def State.setSl (s : State) (x : SlateSt) : State := { s with sl := x }

/-- The largest slate (R265). -/
def slateMax : Nat := 2 ^ 64 - 1
/-- The slate moves on by n units and never wraps (R265). -/
def slateAdd (w : Word) (n : Nat) : Word := BitVec.ofNat 64 (Nat.min slateMax (w.toNat + n))

/-- SLATE_CTL.ROLE (R275): 0 MEMBER, 1 GROUP_LEAD, 2 ROOT. -/
def State.slateRole (s : State) : Nat := s.rd F.SLATE_CTL_ROLE
/-- The package is the ROOT of its fabric. -/
def State.isRoot (s : State) : Bool := s.slateRole == 2
/-- The group number is assigned (R31). -/
def State.assigned (s : State) : Bool := s.flag F.FAB_ID_ASSIGNED
/-- The node ID of the package (R30). -/
def State.nodeId (s : State) : Nat := s.rd F.FAB_ID_G * 16 + s.gpos

/-- The per-hop term of the present source (R285). -/
def State.hopPs (s : State) : Nat :=
  if s.rd F.SLATE_STAT_SOURCE = 1 then s.rd F.SLATE_HOP_CLAP_PS else s.rd F.SLATE_HOP_PLINK_PS

/-- unc_h of R285 as it stands now, in ps. -/
def State.uncNow (s : State) : Nat :=
  let x := s.sl
  match s.slateState with
  | 1 => x.entry + (if x.fast then 100000 else s.rd F.SLATE_CTL_HOLDOVER_RATE) * (s.now - x.since) / 8000000
  | 2 => x.srcUnc + s.hopPs + x.rest
  | 3 => if s.isRoot then s.rd F.SLATE_ROOTUNC_PS else x.srcUnc + s.hopPs
  | 4 => x.entry + s.rd F.SLATE_CTL_HOLDOVER_RATE * (s.now - x.since) / 8000000
  | _ => 0

/-- SLATE_UNC follows unc_h. -/
def State.uncFresh (s : State) : State := s.wr F.SLATE_UNC_PS s.uncNow

/-- Enter FREE or HOLDOVER with unc_h as it stands (R285); fast: at the rate of R267. -/
def State.slateDrift (s : State) (st unc : Nat) (fast : Bool) : State :=
  let s := s.setSl { s.sl with entry := unc, since := s.now, fast := fast, good := 0 }
  (s.wr F.SLATE_STAT_STATE st).uncFresh

/-- The source is lost (R283): from ACQUIRE or TRACK to HOLDOVER; under REFFAULT the state stays FREE. -/
def State.sourceLost (s : State) : State :=
  let unc := s.uncNow
  let s := s.wr F.SLATE_STAT_SOURCE 0
  if s.slateState = 2 || s.slateState = 3 then s.slateDrift 4 unc false else s

/-! Advance of time. -/

/-- The slate advances by one phase of TREFCLK (R266, R267, R284): one unit, with a second one or none on at most one phase
in 2,000 while it slews. -/
def State.phase (s : State) : State :=
  let x := s.sl
  let due := 2000 ≤ x.phase + 1
  if due && 0 < x.slew then
    { s with slate := slateAdd s.slate 2, sl := { x with slew := x.slew - 1, phase := 0 } }
  else if due && x.slew < 0 then { s with sl := { x with slew := x.slew + 1, phase := 0 } }
  else { s with slate := slateAdd s.slate 1, sl := { x with phase := Nat.min 2000 (x.phase + 1) } }

/-- 125 ps of the crystal (R267): at the end of its period of 244,140.625 units the slate steps by as many. -/
def State.xtalTick (s : State) : State :=
  let x := s.sl
  if !x.xtalRun then s
  else if x.xtalPos + 1000 < 244140625 then { s with sl := { x with xtalPos := x.xtalPos + 1000 } }
  else
    let m := x.milli + 244140625
    { s with
      slate := slateAdd s.slate (m / 1000),
      sl := { x with xtalPos := x.xtalPos + 1000 - 244140625, milli := m % 1000 } }

/-- One 125 ps unit passes where no command waits (DESIGN CHOICE, log 8): the slate advances, and unc_h follows. -/
def State.idle (s : State) : State :=
  let s := { s with now := s.now + 1 }
  if s.slateState = 0 || s.power = .off || s.power = .unpowered then s
  else (if s.sl.xtal then s.xtalTick else s.phase).uncFresh

/-! Corrections. -/

/-- The slate steps forward by ps (R284); the fraction of a unit is kept. -/
def State.slateStep (s : State) (ps : Nat) : State :=
  let m := s.sl.milli + 8 * ps
  { s with slate := slateAdd s.slate (m / 1000), sl := { s.sl with milli := m % 1000, slew := 0 } }

/-- An offset in ps, child minus parent, is corrected (R284): a step where the slate is behind by more than 8 units, else a
slew. The ps that remain enter unc_h in ACQUIRE. -/
def State.correct (s : State) (ofs : Int) : State :=
  if ofs < -1000 then
    let s := s.slateStep (-ofs).toNat
    s.setSl { s.sl with rest := 0 }
  else s.setSl { s.sl with slew := -(ofs.tdiv 125), rest := ofs.natAbs }

/-- A two-way measurement (R278): delay and offset in ps. -/
def measure2 (t1 t2 t3 t4 asym : Int) : Int × Int :=
  (((t2 - t1) + (t4 - t3)) / 2, ((t2 - t1) - (t4 - t3) - asym) / 2)

/-- A valid message of the source src, at the depth given, with UNC in ps and perhaps a measurement, is applied (R278,
R283 to R285). On the crystal nothing is corrected (R267). -/
def State.applySource (s : State) (src depth phops unc : Nat) (m : Option (Int × Int)) : State :=
  let s := (s.wr F.SLATE_STAT_SOURCE src).wr F.SLATE_STAT_DEPTH (depth + 1)
  let s := (s.wr F.SLATE_STAT_PHOPS phops).setSl { s.sl with srcUnc := unc }
  let s := match m with
    | some (d, o) => (s.wr F.SLATE_OFS_DELAY (BitVec.ofInt 32 d).toNat).wr F.SLATE_OFS_OFFSET (BitVec.ofInt 32 o).toNat
    | none => s
  if s.sl.xtal || s.slateState = 0 then s
  else
    let s := if s.slateState = 1 || s.slateState = 4 then (s.setSl { s.sl with good := 0 }).wr F.SLATE_STAT_STATE 2 else s
    match m with
    | some (_, o) =>
      let f := Config.slateFilter o s.freeCtr
      let s := s.tick.correct f
      (s.setSl { s.sl with good := if o.natAbs ≤ 125 then Nat.min 16 (s.sl.good + 1) else 0 }).uncFresh
    | none => s.uncFresh

/-! The initial value, the reference and saturation. -/

/-- Units per second. -/
def unitsPerSec : Nat := 8000000000

/-- The last wrap slate against the epoch in force, plus one unit (R269); 0 below 0. -/
def State.wrapSlateNow (s : State) : Nat :=
  let w := (s.rdw A.DLY_WRAPSLATE).toNat
  let d : Int := (s.sl.wrapEp.toInt - s.sl.epoch.toInt) * unitsPerSec
  ((w : Int) + d).toNat + 1

/-- REFFAULT: the slate goes to the crystal in FREE (R267). -/
def State.refFault (s : State) : State :=
  let s := s.logAsync 330 (ErrRec.plain .recoverable 24 11)
  let s := s.wr F.SLATE_STAT_REFFAULT 1
  let unc := s.uncNow
  let s := s.setSl { s.sl with xtal := true }
  if s.slateState = 0 then s else s.slateDrift 1 unc true

/-- The continuity processor sets the slate at a cold start (R267, R269, R289): cal is the calendar time as a slate. -/
def State.slateInit (s : State) (cal : Nat) : State :=
  let trefOk := s.sl.tref
  let ep := BitVec.ofNat 32 (s.rd F.SLATE_EPOCH_SECONDS)
  let s := s.setSl { SlateSt.reset with epoch := ep, wrapEp := s.sl.wrapEp, xtalRun := s.sl.xtalRun, tref := trefOk }
  let s := if trefOk then s else s.refFault
  let s := { s with slate := slateAdd 0 (Nat.max cal s.wrapSlateNow) }
  if s.sl.xtal then s.slateDrift 1 30000000 true
  else if s.isRoot then (s.wr F.SLATE_STAT_STATE 3).uncFresh
  else s.slateDrift 1 30000000 false

/-- TREFCLK_FAULT (R267): one without power, or in a wrap or its park, is found at the next cold start. -/
def execTrefclkFault (s : State) : Res :=
  let s := s.setSl { s.sl with tref := false }
  .next (if s.sl.xtal || !s.works then s else s.refFault)
/-- TREFCLK_RETURN (R267). -/
def execTrefclkReturn (s : State) : Res :=
  let s := s.setSl { s.sl with tref := true }
  if !s.sl.xtal then .next s
  else
    let unc := s.uncNow
    let s := s.setSl { s.sl with xtal := false, xtalPos := 0, phase := 0 }
    if s.slateState = 0 then .next s
    else if s.isRoot then .next (s.wr F.SLATE_STAT_STATE 3).uncFresh
    else if s.rd F.SLATE_STAT_SOURCE ≠ 0 then
      .next ((s.setSl { s.sl with good := 0 }).wr F.SLATE_STAT_STATE 2).uncFresh
    else .next (s.slateDrift 1 unc false)
/-- TREFCLK_WARN (R267). -/
def execTrefclkWarn (s : State) : Res := .next (s.wr F.SLATE_STAT_REFWARN 1)
/-- SLATE_SATURATE (R265): the slate has reached its largest value. -/
def execSlateSaturate (s : State) : Res :=
  if s.slate.toNat = slateMax && s.slateState != 0 && !s.flag F.SLATE_STAT_SATURATED then
    .next ((s.wr F.SLATE_STAT_SATURATED 1).logAsync 330 (ErrRec.plain .recoverable 24 12))
  else .next s

/-! Time inside the package (R268). -/

/-- The D-link that carries a die's time channel: link 0, or link 1 when that is down (R268). -/
def State.timeLink (s : State) (d : Nat) : Option Nat :=
  if s.rd (F.DL_STAT_STATE (2 * d)) = 2 then some (2 * d)
  else if s.rd (F.DL_STAT_STATE (2 * d + 1)) = 2 then some (2 * d + 1) else none

/-- TSYM_SEND (R279): the H-die sends its slate to a die whose D-link is up. -/
def execTsymSend (d : DieNo) (s : State) : Res :=
  if s.dieRunning d.val && (s.timeLink d.val).isSome then .next (s.setSl { s.sl with tsymOut := SMap.put s.sl.tsymOut d.val s.slate }) else .next s
/-- TSYM (R268): the die receives the symbol, at the slate of its copy. -/
def execTsym (d : DieNo) (s : State) : Res :=
  match SMap.find? s.sl.tsymOut d.val, s.timeLink d.val with
  | some w, some _ => .next (s.setSl { s.sl with
      tsymOut := SMap.del s.sl.tsymOut d.val, tsymIn := SMap.put s.sl.tsymIn d.val w,
      tsymAt := SMap.put s.sl.tsymAt d.val s.slate })
  | _, _ => .next s
/-- TRET (R268, R278): the return marker, which the die sends as it receives TSYM, reaches the H-die, and the die's copy is
measured; the copy equals the H-die slate (DESIGN CHOICE, log 9). -/
def execTret (d : DieNo) (s : State) : Res :=
  match SMap.find? s.sl.tsymIn d.val, s.timeLink d.val with
  | some t1, some l =>
    let t2 := ((SMap.get 0 s.sl.tsymAt d.val).toNat * 125 : Nat)
    let m := measure2 (t1.toNat * 125 : Nat) t2 t2 (s.slate.toNat * 125 : Nat) (Config.linkAsym l)
    .next (s.setSl { s.sl with
      tsymIn := SMap.del s.sl.tsymIn d.val, tsymAt := SMap.del s.sl.tsymAt d.val,
      copies := SMap.put s.sl.copies d.val m })
  | _, _ => .next s
/-- SLATE_COPY_SETTLED (R268): the threads of a RUNNING die may run. -/
def execSlateCopySettled (d : DieNo) (s : State) : Res :=
  if s.dieRunning d.val && (s.timeLink d.val).isSome && !s.sl.settled.contains d.val then
    .next (s.setSl { s.sl with settled := d.val :: s.sl.settled })
  else .next s

/-! P-link time symbols (R276, R278, R279). -/

/-- The number of one bits of a number below 16. -/
def ones4 (n : Nat) : Nat := n % 2 + n / 2 % 2 + n / 4 % 2 + n / 8 % 2
/-- The Hamming distance of two positions. -/
def hamming (a b : Nat) : Nat := ones4 (a ^^^ b)
/-- The position at the other end of P-link k (R328). -/
def State.neighbour (s : State) (k : Nat) : Nat := s.gpos ^^^ 2 ^ k
/-- P-link k is UP (R328). -/
def State.plinkUp (s : State) (k : Nat) : Bool := s.rd (F.PL_STATk_STATE k) == 2

/-- Whether the symbols of a P-link are valid (R282): the last one was, at most 3 us ago. -/
def State.ptLive (s : State) (k : Nat) : Bool := s.sl.ptOk.contains k && s.now ≤ SMap.get 0 s.sl.ptSince k + 24000

/-- The P-link to the MEMBER's source (R276): the lowest qualifying neighbour. -/
def State.ptSource (s : State) : Option Nat :=
  let lead := s.rd F.SLATE_CTL_LEADP
  let ok := (List.range 4).filter fun k =>
    s.plinkUp k && s.ptLive k && hamming (s.neighbour k) lead + 1 == hamming s.gpos lead
  ok.foldl (fun b k => match b with
    | none => some k
    | some j => if s.neighbour k < s.neighbour j then some k else some j) none

/-- PTSYM_SEND (R279). -/
def execPtsymSend (k : Fin 4) (s : State) : Res :=
  if !s.plinkUp k.val then .next s
  else
    let m : PtSym := {
      t1 := s.slate.toNat * 125, t2 := 0, t3 := 0, t4 := ((SMap.get 0 s.sl.ptAt k.val).toNat * 125 : Nat), slate := s.slate,
      unc := s.rd F.SLATE_UNC_PS, state := s.slateState, depth := s.rd F.SLATE_STAT_DEPTH,
      leadp := Fin.ofNat 16 (s.rd F.SLATE_CTL_LEADP), checkOk := true }
    .next (s.setSl { s.sl with ptOut := SMap.put s.sl.ptOut k.val m })

/-- PTSYM (R276, R278, R282 to R285): a symbol of P-link k. -/
def execPtsym (k : Fin 4) (m : PtSym) (s : State) : Res :=
  if !s.plinkUp k.val || !m.checkOk then .next s
  else
    let valid := m.leadp.val == s.rd F.SLATE_CTL_LEADP && 2 ≤ m.state && m.state ≤ 4
    let had := s.ptSource
    let rest := s.sl.ptOk.filter fun j => j != k.val
    let s := s.setSl { s.sl with
      ptIn := SMap.put s.sl.ptIn k.val m, ptAt := SMap.put s.sl.ptAt k.val s.slate,
      ptSince := SMap.put s.sl.ptSince k.val s.now,
      ptOk := if valid then k.val :: rest else rest }
    if s.slateRole ≠ 0 then .next s
    else if s.ptSource = some k.val then
      let asym := (BitVec.ofNat 16 (s.rd (F.PLT_ASYMk_PS k.val))).toInt
      .next (s.applySource 2 m.depth (hamming s.gpos m.leadp.val) m.unc (some (measure2 m.t1 m.t2 m.t3 m.t4 asym)))
    else if had = some k.val && s.rd F.SLATE_STAT_SOURCE = 2 then .next s.sourceLost
    else .next s

/-! Clapper frames (R277, R280, R281). -/

/-- CLF_SEND (R280, R281). The ROOT of a MEMBER, whose symbols do not carry it, is free (DESIGN CHOICE, log 3). -/
def execClfSend (s : State) : Res :=
  if !(s.flag F.SLATE_CTL_DN_EN && s.assigned) then .next s
  else
    let c := s.sl.clrIn.getD (0, 0)
    let root := if s.isRoot then s.nodeId else s.sl.rootId.getD (Config.freeNat s.freeCtr % 4096)
    let m : ClfFrame := {
      t1 := s.slate.toNat, t2 := 0, t3 := 0, t4 := c.2.toNat, slate := s.slate, rseq := c.1, seq := s.sl.clfSeq,
      unc := Nat.min (s.rd F.SLATE_UNC_PS) 0xFFFFFFFF, root := root, depth := s.rd F.SLATE_STAT_DEPTH, state := s.slateState,
      epoch := s.sl.epoch, checkOk := true }
    let s := if s.isRoot || s.sl.rootId.isSome then s else s.tick
    .next (s.setSl { s.sl with clfOut := some m, clfSeq := s.sl.clfSeq + 1 })

/-- The reasons for which a checked frame is refused (R277). -/
def State.clfRefused (s : State) (m : ClfFrame) : Bool :=
  m.root == s.nodeId || m.depth == 15 || m.epoch != s.sl.epoch || m.unc == 0xFFFFFFFF

/-- CLF (R277, R281 to R285): a forward frame at the upstream port, which stays off until the group number is assigned (R31,
R333). Its T1 and T4 are slates, and its arrival times are in ps (R278). -/
def execClf (m : ClfFrame) (s : State) : Res :=
  if !s.assigned then .next s
  else if !m.checkOk then .next (s.incSat F.CLAP_UP_CRCERR 1)
  else
    let s := s.wrIf (m.root == s.nodeId) F.SLATE_STAT_LOOP 1
    let s := s.wrIf (m.epoch != s.sl.epoch) F.SLATE_STAT_EPOCHMIS 1
    if s.clfRefused m then .next (s.incSat F.CLAP_UP_CRCERR 1)
    else
      let s := (s.inc F.CLAP_UP_FRAMES 1).wr F.CLAP_UP_PRESENT 1
      let s := s.setSl { s.sl with clfIn := some m }
      if !(s.slateRole == 1 && s.flag F.SLATE_CTL_UP_EN && s.assigned) then .next s
      else if m.state ≤ 1 then .next (if s.rd F.SLATE_STAT_SOURCE = 1 then s.sourceLost else s)
      else
        let s := s.setSl { s.sl with rootId := some m.root }
        let asym := (BitVec.ofNat 16 (s.rd F.CLAP_ASYM_PS)).toInt
        let v := if m.t4 = 0 then none else some (measure2 (125 * m.t1) m.t2 m.t3 (125 * m.t4) asym)
        .next (s.applySource 1 m.depth 0 m.unc v)

/-- CLR_SEND (R280, R281): after a CLF. -/
def execClrSend (s : State) : Res :=
  match s.sl.clfIn, s.assigned with
  | none, _ => .next s
  | _, false => .next s
  | some m, true =>
    let r : ClrFrame := {
      seq := s.sl.clrSeq, echo := m.seq, unc := Nat.min (s.rd F.SLATE_UNC_PS) 0xFFFFFFFF, depth := s.rd F.SLATE_STAT_DEPTH,
      state := s.slateState, checkOk := true }
    .next (s.setSl { s.sl with clrOut := some r, clrSeq := s.sl.clrSeq + 1 })
/-- CLR (R277, R281, R282): a return frame at the downstream port. -/
def execClr (m : ClrFrame) (s : State) : Res :=
  if !s.assigned then .next s
  else if !m.checkOk || m.depth == 15 || m.unc == 0xFFFFFFFF then .next (s.incSat F.CLAP_DN_CRCERR 1)
  else .next (((s.inc F.CLAP_DN_FRAMES 1).wr F.CLAP_DN_PRESENT 1).setSl { s.sl with clrIn := some (m.seq, s.slate) })
/-- CLAP_DN_PRESENT_LOSS (R282). -/
def execClapDnPresentLoss (s : State) : Res := .next (s.wr F.CLAP_DN_PRESENT 0)

/-- SLATE_SOURCE_LOST (R282, R283): no valid frame or symbol of the source in its time. -/
def execSlateSourceLost (s : State) : Res :=
  let src := s.rd F.SLATE_STAT_SOURCE
  let s := s.wrIf (src == 1) F.CLAP_UP_PRESENT 0
  let s := if src = 2 then match s.ptSource with
      | some k => s.setSl { s.sl with ptOk := s.sl.ptOk.filter fun j => j != k }
      | none => s
    else s
  .next (if src = 0 || s.isRoot then s else s.sourceLost)
/-- SLATE_SETTLED (R283): within one unit for 16 measurements. -/
def execSlateSettled (s : State) : Res :=
  .next (if s.slateState = 2 && s.sl.good = 16 then (s.wr F.SLATE_STAT_STATE 3).uncFresh else s)

/-! Register writes. -/

/-- A write of SLATE_SET (R284). -/
def State.slateSet (s : State) (v : Word) : State :=
  if s.isRoot && s.slateState != 0 && s.slate.toNat ≤ v.toNat then
    if s.slate = v then s else { s with slate := v, sl := { s.sl with milli := 0 } }
  else s.wr F.SLATE_STAT_SETREF 1
/-- SLATE_SET (R284). -/
def execSlateSet (v : Word) (s : State) : Res := .next (s.slateSet v)

/-- A signed number of ps to the nearest unit, halves away from zero (R284). -/
def roundUnits (ps : Int) : Int :=
  let n : Int := (ps.natAbs + 62) / 125
  if ps < 0 then -n else n
/-- A write of SLATE_ADJ (R284). -/
def State.slateAdj (s : State) (v : Word) : State :=
  if s.isRoot && s.slateState != 0 then
    s.setSl { s.sl with slew := s.sl.slew + roundUnits (v.setWidth 32).toInt }
  else s.wr F.SLATE_STAT_SETREF 1
/-- SLATE_ADJ (R284). -/
def execSlateAdj (v : Word) (s : State) : Res := .next (s.slateAdj v)

/-- Whether the present source still qualifies under SLATE_CTL (R275, R276). -/
def State.sourceOk (s : State) : Bool :=
  match s.rd F.SLATE_STAT_SOURCE with
  | 1 => s.slateRole == 1 && s.flag F.SLATE_CTL_UP_EN && s.assigned
  | 2 => s.slateRole == 0 && s.ptSource.isSome
  | _ => true

/-- A write of SLATE_CTL (R275, R283). -/
def State.slateCtl (s : State) (v mask : Word) : State :=
  let old := s.slateRole
  let lead := s.rd F.SLATE_CTL_LEADP
  let unc := s.uncNow
  let s := s.regPut A.SLATE_CTL v mask
  let s := if s.rd F.SLATE_CTL_LEADP = lead then s else s.setSl { s.sl with ptOk := [] }
  if s.slateState = 0 then s
  else if old ≠ 2 && s.isRoot then
    let s := ((s.wr F.SLATE_STAT_SOURCE 0).wr F.SLATE_STAT_DEPTH 0).wr F.SLATE_STAT_PHOPS 0
    let s := s.setSl { s.sl with slew := 0, rest := 0 }
    if s.sl.xtal then s else (s.wr F.SLATE_STAT_STATE 3).uncFresh
  else if old = 2 && !s.isRoot then (if s.sl.xtal then s else s.slateDrift 4 unc false)
  else if old ≠ s.slateRole || !s.sourceOk then s.sourceLost
  else s.uncFresh
/-- SLATE_ROLE_WRITE (R283): a write of SLATE_CTL. -/
def execSlateRoleWrite (v : Word) (s : State) : Res := .next (s.slateCtl v fullMask)

/-- SLATE_EPOCH_WRITE (R289): stored at once, and in force from the next cold start. -/
def execSlateEpochWrite (v : Word) (s : State) : Res := .next (s.regPut A.SLATE_EPOCH v fullMask)

end Sys2Proof.Machine
end

