-- ==== Sys2Proof/Machine/Ports.lean ====
section
/-!
DEFINITION. The memory ports (R290 to R309): enabling and losing a link, the home write queue and reads at a port, the
arbiter, interleave sets, the region table, and the write of WRAP_CTL.
-/
namespace Sys2Proof.Machine

/-- What port n holds beside its registers. -/
def State.pt (s : State) (n : Nat) : PortSt := SMap.get PortSt.reset s.ports n
/-- Store what port n holds. -/
def State.setPt (s : State) (n : Nat) (x : PortSt) : State := { s with ports := SMap.put s.ports n x }

/-! Enabling a port (R292, R293). -/

/-- The link of port n leaves UP: each active lane is counted (R482). -/
def State.mpLanes (s : State) (n : Nat) : State :=
  if s.flag (F.MPn_STAT_UP n) then s.lanesCount (1632 + 8 * n) 0 (s.rd (F.MPn_CAP_WIDTH n)) else s

/-- A step of R292 fails with a code. -/
def State.mpRefuse (s : State) (n code : Nat) : State :=
  (s.wr (F.MPn_STAT_REFUSE n) code).setPt n { s.pt n with phase := .off }

/-- Whether the device of port n is persistence-capable against a GPF timeout in us (R293). -/
def State.persistOk (s : State) (n timeout : Nat) : Bool := match (s.pt n).dev with
  | some d => d.psizeGib != 0 && d.gpfDvsec && d.gpf2Us ≤ timeout
  | none => false

/-- Whether a valid set names port n among its ways. -/
def State.setNames (s : State) (i n : Nat) : Bool :=
  s.flag (F.IS_CTLs_V i) && (List.range (2 ^ s.rd (F.IS_CTLs_WAYS i))).any fun k => s.isPort i k == n

/-- The physical line whose bytes lie at a port and device address, and the device address (R295). -/
def State.portOf (s : State) (n line : Nat) : Option Nat := match s.route (line * 64) with
  | .port m dev => if m = n then some dev else none
  | _ => none

/-- An answer of the device that carries poison: the device's line is poisoned, and so is the DAT on its way (R195, R307). -/
def State.poisonRead (s : State) (n line : Nat) : State :=
  let s := s.inc (F.MPn_ERR_POISON_RD n) 1
  let s := match s.portOf n line with
    | some dev => { s with mem := s.mem.setDevPois (devNo n dev) true }
    | none => s
  if s.msgs.any fun m => m.line == line && (m.kind == .dat true || m.kind == .dat false) then
    s.setLine line { s.line line with poison := true }
  else s

/-- The poison of a read that the lost link leaves unanswered. -/
def State.failRead (s : State) (line : Nat) : State :=
  if s.msgs.any fun m => m.line == line && (m.kind == .dat true || m.kind == .dat false) then
    s.setLine line { s.line line with poison := true }
  else s

/-- Whether a domain has a region or a reel segment on port n (R307). -/
def State.domOnPort (s : State) (d n : Nat) : Bool :=
  (s.domPorts d).contains n || (s.segments d (s.flag (F.TDn_SEG1_LINK d))).any fun g =>
    s.regions.any fun r => r.reel && r.base < g.1 + g.2 && g.1 ≤ r.last && s.setNames r.iset n

/-- The lines whose reads are pending at a port. -/
def PortSt.pendLines (x : PortSt) : List Nat :=
  (x.reads ++ x.waits.map (·.2) ++ x.burst.toList).flatMap fun q => (List.range q.left).map fun i => q.line + i

/-- A memory link goes down (R307). What is pending on the port ends with it. -/
def State.mpLoss (s : State) (n : Nat) : State :=
  let en := s.flag (F.MPn_CTL_EN n)
  let up := s.flag (F.MPn_STAT_UP n)
  let s := s.mpLanes n
  let s := (s.wr (F.MPn_STAT_UP n) 0).wr (F.MPn_STAT_READY n) 0
  let x := s.pt n
  let s := s.setPt n { x with phase := .off, reads := [], waits := [], burst := none }
  if !(en && up) || s.power = .wrap || s.power = .park then s
  else
    let s := (s.wr (F.MPn_STAT_LOST n) 1).logAsync (312 + n) (ErrRec.plain .recoverable 17 6)
    let s := x.pendLines.foldl (fun s l => s.failRead l) s
    let s := (s.inc (F.MPn_ERR_DISCARD n) (s.wq n).length).setWq n []
    (List.range 8).foldl (fun s d => if s.domEn d && s.domOnPort d n then s.spoil d else s) s

/-- Training starts (R292, step 1); a link that is up is lost for it (R307; DESIGN CHOICE, log 77). -/
def State.mpRetrain (s : State) (n : Nat) : State :=
  let s := if s.flag (F.MPn_STAT_UP n) then s.mpLoss n else s
  s.setPt n { s.pt n with phase := .training, dev := none }

/-- A write of MPn_CTL (R292, R307, R309). -/
def State.mpCtl (s : State) (n : Nat) (v mask : Word) : State :=
  let was := s.flag (F.MPn_CTL_EN n)
  let named := (List.range 16).any fun i => s.setNames i n
  let s := s.regPut (A.MPn_CTL n) v mask
  let s := if was && named then s.wr (F.MPn_CTL_EN n) 1 else s
  let now := s.flag (F.MPn_CTL_EN n)
  if now && (!was || bit (v &&& mask) 8) then s.mpRetrain n
  else if was && !now then s.mpLoss n
  else s

/-- MP_ENABLE (R292): a write of MPn_CTL. -/
def execMpEnable (n : Fin 16) (v : Word) (s : State) : Res := .next (s.mpCtl n.val v fullMask)
/-- MP_RETRAIN (R307): a write of MPn_CTL.RETRAIN. -/
def execMpRetrain (n : Fin 16) (s : State) : Res :=
  .next (if s.flag (F.MPn_CTL_EN n.val) then s.mpRetrain n.val else s)

/-- MPn_CAP and MPn_PPART of a device that has come up (R309). -/
def State.mpReport (s : State) (n : Nat) (d : DevInfo) : State :=
  let cap := 2 ^ 48 * Nat.min d.gpf2Us 65535 + 2 ^ 36 * Nat.min d.capGib 2048 + 2 ^ 20 * (d.lds % 16) + 2 ^ 12 * (d.width % 16)
    + d.rate % 16 * 2 ^ 4 + b2n d.flit256 * 8
  (s.wrw (A.MPn_CAP n) (BitVec.ofNat 64 cap)).wrw (A.MPn_PPART n)
    (BitVec.ofNat 64 (2 ^ 16 * (d.pbaseGib % 4096) + d.psizeGib % 4096))

/-- MP_LINK_UP (R292, steps 1 and 2). -/
def execMpLinkUp (n : Fin 16) (dev : DevInfo) (s : State) : Res :=
  if (s.pt n.val).phase ≠ .training then .next s
  else
    let s := s.lanesCount (1632 + 8 * n.val) dev.width 8
    let s := ((s.mpReport n.val dev).wr (F.MPn_STAT_UP n.val) 1).setPt n.val { s.pt n.val with phase := .waiting, dev := some dev }
    .next (if dev.isSwitch then s.mpRefuse n.val 6 else if !dev.type3 then s.mpRefuse n.val 1
      else if !dev.cxlMem then s.mpRefuse n.val 3 else if !dev.hdmH then s.mpRefuse n.val 2 else s)
/-- MP_TRAIN_TIMEOUT (R292, step 1). -/
def execMpTrainTimeout (n : Fin 16) (s : State) : Res :=
  .next (if (s.pt n.val).phase = .training then s.mpRefuse n.val 7 else s)
/-- MEMORY_ACTIVE (R292, steps 3 to 5, R293). -/
def execMemoryActive (n : Fin 16) (ideOk : Bool) (s : State) : Res :=
  if (s.pt n.val).phase ≠ .waiting then .next s
  else if !ideOk then .next (s.mpRefuse n.val 5)
  else
    let s := s.setPt n.val { s.pt n.val with phase := .ready }
    let s := (s.wr (F.MPn_STAT_READY n.val) 1).wr (F.MPn_STAT_REFUSE n.val) 0
    .next (s.wr (F.MPn_CAP_PERSIST n.val) (b2n (s.persistOk n.val (s.rd F.WRAP_CTL_GPF_TIMEOUT))))
/-- MEMORY_ACTIVE_TIMEOUT (R292, step 3). -/
def execMemoryActiveTimeout (n : Fin 16) (s : State) : Res :=
  .next (if (s.pt n.val).phase = .waiting then s.mpRefuse n.val 4 else s)

/-! The queue, reads and the loss of a link. -/

/-- MP_LINK_LOSS (R307). -/
def execMpLinkLoss (n : Fin 16) (s : State) : Res := .next (s.mpLoss n.val)

/-- PORT_WRITE (R249, R295, R298 to R300): a write that reaches port n; one that decodes to another port is not sent here. -/
def execPortWrite (n : Fin 16) (line : LineNo) (mask : BitVec 64) (data : LineData) (s : State) : Res :=
  .next (if !s.works then s else match s.route (line * 64) with
    | .port m dev => if m = n.val then s.portPut m dev mask data false false (s.line line).kslot else s
    | .undec b => s.undecodable b (line * 64)
    | .none => s.undecodable 353 (line * 64)
    | _ => s)

/-- Whether a read at a port is served by the queue (a full-line write), waits for a partial write, or neither (R301). -/
def State.wqHit (s : State) (n dev : Nat) : Option Bool :=
  match (s.wq n).reverse.find? fun e => e.dev == dev with
  | some e => some (e.mask == BitVec.allOnes 64)
  | none => none

/-- The lines of a burst that are granted as a unit: up to the next 256-byte boundary (R305). -/
def PortReq.unit (q : PortReq) : Nat := Nat.min q.left (4 - q.line % 4)

/-- Those of them that can go now: the ones before a line that waits for a partial write (R301). -/
def State.burstNow (s : State) (n : Nat) (q : PortReq) : Nat :=
  ((List.range q.unit).takeWhile fun i => match s.portOf n (q.line + i) with
    | some dev => s.wqHit n dev != some false
    | none => true).length

/-- One line of a read is served from the queue or sent to the device (R301). -/
def State.readLine (s : State) (n : Nat) (q : PortReq) (line : Nat) : State :=
  match s.portOf n line with
  | some dev =>
    if s.wqHit n dev = some true then s.inc (F.MPn_WQ_FWD_HITS n) 1
    else s.setPt n { s.pt n with reads := (s.pt n).reads ++ [{ q with line := line, left := 1 }] }
  | none => s

/-- A burst is granted up to its next break point, the grant then parked with its requester (R305). What is left of it goes on
with the next grant, or waits in the requester's entry where a partial write holds it back. -/
def State.acceptRead (s : State) (n : Nat) (q : PortReq) : State :=
  let k := s.burstNow n q
  let rest := { q with line := q.line + k, left := q.left - k }
  let s := (List.range k).foldl (fun s i => s.readLine n q (q.line + i)) s
  let x := s.pt n
  s.setPt n { x with
    owner := q.rq,
    waits := if k < q.unit then SMap.put x.waits q.rq rest else SMap.del x.waits q.rq,
    burst := if k < q.unit || rest.left = 0 then none else some rest,
    granted := SMap.put x.granted q.cls (SMap.get 0 x.granted q.cls + 64 * k) }

/-- The lines of a burst from a line on that lie at port m. -/
def State.burstLen (s : State) (m line lines : Nat) : Nat :=
  ((List.range lines).takeWhile fun i => (s.portOf m (line + i)).isSome).length

/-- PORT_READ (R295, R298, R301 to R305): a requester reads a line, or a burst of contiguous lines. A requester whose entry is in
use or whose burst goes on sends nothing further to the port. -/
def execPortRead (n : Fin 16) (rq : Fin 32) (span : LineSpan) (cls : Fin 64) (s : State) : Res :=
  let line := span.line
  .next (match s.route (line * 64) with
    | .port m _ =>
      let x := s.pt m
      if m ≠ n.val || 30 ≤ rq.val || (SMap.find? x.waits rq.val).isSome || x.burst.any (fun b => b.rq == rq.val)
          || (s.heldOf line).isSome then s
      else
        let q : PortReq := { line := line, left := s.burstLen m line (span.lines.val + 1), rq := rq.val, cls := cls.val,
                             urg := if rq.val = 20 then 3 else 0 }
        if (List.range q.left).all fun i => (s.portOf m (line + i)).any fun dev => s.wqHit m dev == some true then
          s.inc (F.MPn_WQ_FWD_HITS m) q.left
        else if x.waits == [] && x.burst.isNone && x.owner = rq.val then s.acceptRead m q
        else s.setPt m { x with waits := SMap.put x.waits rq.val q }
    | .undec b => s.undecodable b (line * 64)
    | .none => s.undecodable 353 (line * 64)
    | _ => s)

/-- The urgency of an age against a target (R303). -/
def urgencyOf (age target : Nat) : Nat :=
  if target = 0 then 0 else if target ≤ age then 3 else if 3 * target ≤ 4 * age then 2 else if target ≤ 2 * age then 1 else 0

/-- URGENCY_RISE (R303). -/
def execUrgencyRise (n : Fin 16) (rq : Fin 32) (ageNs : Nat) (s : State) : Res :=
  let x := s.pt n.val
  .next (match SMap.find? x.waits rq.val with
    | some q =>
      let u := Nat.max q.urg (urgencyOf ageNs (s.rd (F.MPn_QOSc_TARGET_NS n.val q.cls)))
      let s := if u = 3 && q.urg < 3 then s.inc (F.MPn_URG_OVERRUN n.val) 1 else s
      s.setPt n.val { x with waits := SMap.put x.waits rq.val { q with urg := u } }
    | none => s)

/-- Whether request a wins over b at port n (R305): urgency, then bytes granted to its class by weight, then the order of
requesters after the last grant. -/
def State.arbBeats (s : State) (n : Nat) (a b : PortReq) : Bool :=
  let x := s.pt n
  let load (c d : Nat) : Nat := SMap.get 0 x.granted c * s.rd (F.MPn_QOSc_WEIGHT n d)
  let dist (r : Nat) : Nat := (r + 32 - x.owner - 1) % 32
  if a.urg ≠ b.urg then b.urg < a.urg
  else if load a.cls b.cls ≠ load b.cls a.cls then load a.cls b.cls < load b.cls a.cls
  else dist a.rq < dist b.rq

/-- The requests at a port that can be granted: those not waiting for a partial write of their line (R301). -/
def State.arbReady (s : State) (n : Nat) : List PortReq :=
  ((s.pt n).waits.map (·.2)).filter fun q => match s.portOf n q.line with
    | some dev => s.wqHit n dev != some false
    | none => true

/-- The arbiter decides among the requests that wait (R305): the winner is granted, after the hub cycles given. -/
def State.arbDecide (s : State) (n cycles : Nat) : State :=
  match s.arbReady n with
  | [] => s
  | q :: qs =>
    let w := qs.foldl (fun b q => if s.arbBeats n q b then q else b) q
    let s := (s.inc (F.MPn_ARBr_GRANTS_COUNT n w.rq) 1).inc (F.MPn_ARBr_WAIT_CYCLES n w.rq) cycles
    let m := s.rd (F.MPn_ARBr_MAXWAIT_CYCLES n w.rq)
    (s.wr (F.MPn_ARBr_MAXWAIT_CYCLES n w.rq) (Nat.max m (Nat.min cycles (2 ^ 32 - 1)))).acceptRead n w

/-- ARB_GRANT (R305): at a break point of a burst a request of strictly higher urgency pre-empts it, else the burst goes on; without
one the arbiter decides. -/
def execArbGrant (n : Fin 16) (cycles : Nat) (s : State) : Res :=
  .next (match (s.pt n.val).burst with
    | some b =>
      if (s.arbReady n.val).any fun q => b.urg < q.urg then
        (s.setPt n.val { s.pt n.val with burst := none, waits := SMap.put (s.pt n.val).waits b.rq b }).arbDecide n.val cycles
      else s.acceptRead n.val b
    | none => s.arbDecide n.val cycles)

/-- DEVICE_WRITE_COMPLETION (R299): the oldest write of a line at a port completes at its device. -/
def execDeviceWriteCompletion (n : Fin 16) (line : LineNo) (s : State) : Res :=
  .next (if !s.works then s else match s.portOf n.val line with
    | some dev => match (s.wq n.val).find? fun e => e.dev == dev with
      | some e =>
        ({ s with mem := s.mem.devComplete (devNo n.val dev) e }).setWq n.val ((s.wq n.val).filter fun x => x.id != e.id)
      | none => s
    | none => s)

/-- DEVICE_READ_RESPONSE (R303, R307): the device answers the oldest read of a line. -/
def execDeviceReadResponse (n : Fin 16) (line : LineNo) (poison overload : Bool) (s : State) : Res :=
  let x := s.pt n.val
  .next (match x.reads.find? fun q => q.line == line with
    | some q =>
      let s := s.setPt n.val { x with reads := x.reads.erase q, overload := overload }
      if poison then s.poisonRead n.val line else s
    | none => s)

/-! Interleave sets (R296). -/

/-- A set as its registers stand: first byte, size, ways, device offset. -/
def State.setWays (s : State) (i : Nat) : List Nat := (List.range (2 ^ s.rd (F.IS_CTLs_WAYS i))).map (s.isPort i)
/-- The bytes of a set on each of its ports. -/
def State.setPart (s : State) (i : Nat) : Nat := s.isSize i / 2 ^ s.rd (F.IS_CTLs_WAYS i)
/-- The offset of a set on its devices. -/
def State.setOfs (s : State) (i : Nat) : Nat := 2 ^ 21 * s.rd (F.IS_CTLs_DEVOFF i)

/-- Whether two ranges, as first byte and length, overlap. -/
def rangesMeet (a n b m : Nat) : Bool := a < b + m && b < a + n

/-- The reason to refuse set i (R296), the lowest where several hold (DESIGN CHOICE, log 10); 0 for none. -/
def State.setReason (s : State) (i : Nat) : Nat :=
  let w := 2 ^ s.rd (F.IS_CTLs_WAYS i)
  let unit := w * Nat.max (2 ^ granLg (s.rd (F.IS_CTLs_GRAN i))) (2 ^ 21)
  let ports := s.setWays i
  let others := (List.range 16).filter fun k => k != i && s.flag (F.IS_CTLs_V k)
  if s.isSize i = 0 || s.isBase i % unit != 0 || s.isSize i % unit != 0 then 1
  else if ports.dedup.length < ports.length then 2
  else if ports.any fun n => !s.portReady n then 3
  else if ports.any fun n => 2 ^ 30 * s.rd (F.MPn_CAP_CAP_GIB n) < s.setOfs i + s.setPart i then 4
  else if others.any fun k => rangesMeet (s.setOfs i) (s.setPart i) (s.setOfs k) (s.setPart k)
      && ports.any fun n => (s.setWays k).contains n then 5
  else if others.any fun k => rangesMeet (s.isBase i) (s.isSize i) (s.isBase k) (s.isSize k) then 6
  else 0

/-- A write of IS_CTLs (R296): it stores and validates where V is 0, and can only clear V where V is 1. -/
def State.isCtl (s : State) (i : Nat) (v mask : Word) : State :=
  if s.flag (F.IS_CTLs_V i) then
    if bit mask 0 && !bit v 0 && !(s.regions.any fun r => r.iset == i && (r.mtype == mtDevice
        || (r.mtype != mtFabric && s.homedHere r.base))) then s.wr (F.IS_CTLs_V i) 0
    else s
  else
    let s := s.regPut (A.IS_CTLs i) v mask
    if s.flag (F.IS_CTLs_V i) then
      let s := s.wr (F.IS_CTLs_V i) 0
      let why := s.setReason i
      if why = 0 then s.wr (F.IS_CTLs_V i) 1
      else s.wrw A.IS_REFUSE (BitVec.ofNat 64 (2 ^ 8 + why * 16 + i))
    else s

/-- A write of another register of set i (R296): ignored while the set is valid. -/
def State.isOther (s : State) (i a : Nat) (v mask : Word) : State := if s.flag (F.IS_CTLs_V i) then s else s.regPut a v mask

/-- IS_VALIDATE (R296): a write of IS_CTLs. -/
def execIsValidate (k : Fin 16) (v : Word) (s : State) : Res := .next (s.isCtl k.val v fullMask)
/-- IS_INVALIDATE (R296): a write of IS_CTLs with V = 0. -/
def execIsInvalidate (k : Fin 16) (s : State) : Res :=
  .next (if s.flag (F.IS_CTLs_V k.val) then s.isCtl k.val 0 1 else s)

/-! The region table (R174, R192, R297). -/

/-- The devices of region r's set hold a PERSISTENT region wholly in their persistent partitions (R297). -/
def State.regionPersist (s : State) (r : Region) : Bool :=
  !s.homedHere r.base || (s.flag (F.IS_CTLs_V r.iset) && (s.setWays r.iset).all fun n =>
    s.flag (F.MPn_CAP_PERSIST n) && 2 ^ 30 * s.rd (F.MPn_PPART_PBASE_GIB n) ≤ s.setOfs r.iset
      && s.setOfs r.iset + s.setPart r.iset ≤ 2 ^ 30 * (s.rd (F.MPn_PPART_PBASE_GIB n) + s.rd (F.MPn_PPART_PSIZE_GIB n)))

/-- The reason to refuse region n, in the order of R174; 0 for none. -/
def State.regionReason (s : State) (n : Nat) : Nat :=
  let r := s.region n
  let tracked := r.mtype == mtVolatile || r.mtype == mtPersistent
  if r.last < r.base then 2
  else if s.regions.any fun q => q.index != n && q.base ≤ r.last && r.base ≤ q.last then 1
  else if tracked && !(r.base / 2 ^ 48 == r.last / 2 ^ 48 && r.last % 2 ^ 48 < 2 ^ 45) then 5
  else if r.mtype == mtPersistent && !r.reel && !s.domEn r.domain then 4
  else if r.mtype == mtPersistent && !s.regionPersist r then 3
  else 0

/-- A write of PRT_ATTRn (R174). -/
def State.prtAttr (s : State) (n : Nat) (v mask : Word) : State :=
  if s.regionV n then (if bit mask 0 && !bit v 0 then s.wr (F.PRT_ATTRn_V n) 0 else s)
  else
    let s := s.regPut (A.PRT_ATTRn n) v mask
    if s.regionV n then
      let s := s.wr (F.PRT_ATTRn_V n) 0
      let why := s.regionReason n
      if why = 0 then s.wr (F.PRT_ATTRn_V n) 1
      else s.wrw A.PRT_REFUSE (BitVec.ofNat 64 (2 ^ 12 + why * 2 ^ 8 + n))
    else s

/-- A write of another register of region n (R174): ignored while the region is valid. -/
def State.prtOther (s : State) (n a : Nat) (v mask : Word) : State := if s.regionV n then s else s.regPut a v mask

/-- PRT_VALIDATE (R37, R174, R192, R297): a write of PRT_ATTRn. -/
def execPrtValidate (n : Fin 64) (v : Word) (s : State) : Res := .next (s.prtAttr n.val v fullMask)
/-- PRT_INVALIDATE (R174): a write of PRT_ATTRn with V = 0. -/
def execPrtInvalidate (n : Fin 64) (s : State) : Res :=
  .next (if s.regionV n.val then s.prtAttr n.val 0 1 else s)

/-! WRAP_CTL (R264, R293). -/

/-- Whether a valid PERSISTENT region's set names port n. -/
def State.portPersistent (s : State) (n : Nat) : Bool :=
  s.regions.any fun r => r.mtype == mtPersistent && s.homedHere r.base && s.setNames r.iset n

/-- A write of WRAP_CTL (R293): PERSIST of every port that is ready is judged again, unless that would clear it on a port a
PERSISTENT region uses. -/
def State.wrapCtl (s : State) (v mask : Word) : State :=
  let old := s.rd F.WRAP_CTL_GPF_TIMEOUT
  let s := s.regPut A.WRAP_CTL v mask
  let t := s.rd F.WRAP_CTL_GPF_TIMEOUT
  let ready := (List.range 16).filter fun n => s.flag (F.MPn_STAT_READY n)
  if ready.any fun n => s.flag (F.MPn_CAP_PERSIST n) && !s.persistOk n t && s.portPersistent n then
    (s.wr F.WRAP_CTL_GPF_TIMEOUT old).wr F.WRAP_CTL_TOREF 1
  else ready.foldl (fun s n => s.wr (F.MPn_CAP_PERSIST n) (b2n (s.persistOk n t))) s

/-- GPF_TIMEOUT_WRITE (R293): a write of WRAP_CTL. -/
def execGpfTimeoutWrite (v : Word) (s : State) : Res := .next (s.wrapCtl v fullMask)

end Sys2Proof.Machine
end

