-- ==== Sys2Proof/Machine/Links.lean ====
section
/-!
DEFINITION. The Kraly links (R310 to R338): training of D-links and P-links, packets and replay, failover, membership of
the coherence group, and fabric windows.
-/
namespace Sys2Proof.Machine

/-! Effective lane maps (R313). -/

/-- The physical lane of a logical lane in a map of four words. -/
def mapLane (m : List Word) (i : Nat) : Nat := fget (m.getD (i / 8) 0) (8 * (i % 8)) 8

/-- A map with one lane replaced. -/
def mapSet (m : List Word) (i p : Nat) : List Word := m.modify (i / 8) fun w => fset w (8 * (i % 8)) 8 p

/-- The lanes a width code stands for (R310). -/
def widthLanes (c : Nat) : Nat := if c = 0 then 32 else if c = 1 then 16 else 8

/-- The logical lanes from i up to w are given passing lanes (R313, step 2); none where none is left. -/
def mapFix (fail : BitVec 34) (w : Nat) : Nat → Nat → List Word → Option (List Word)
  | 0, _, m => some m
  | fuel + 1, i, m =>
    if fail.getLsbD (mapLane m i) || 34 ≤ mapLane m i then
      match (List.range 34).find? fun p => !fail.getLsbD p && (List.range w).all fun j => j == i || mapLane m j != p with
      | some p => mapFix fail w fuel (i + 1) (mapSet m i p)
      | none => none
    else mapFix fail w fuel (i + 1) m

/-- The effective map of a direction at a width code. -/
def effMap (fail : BitVec 34) (m : List Word) (c : Nat) : Option (List Word) := mapFix fail (widthLanes c) (widthLanes c) 0 m

/-- The width code a direction reaches from code c down (R313, step 2). -/
def effWidth (fail : BitVec 34) (m : List Word) (c : Nat) : Option Nat :=
  [0, 1, 2].find? fun x => decide (c ≤ x) && (effMap fail m x).isSome

/-- The number of passing lanes. -/
def passing (fail : BitVec 34) : Nat := ((List.range 34).filter fun p => !fail.getLsbD p).length

/-- The four words of a map register. -/
def State.mapWords (s : State) (a : Nat → Nat) : List Word := (List.range 4).map fun j => s.rdw (a j)

/-- Store the four words of a map register. -/
def State.setMapWords (s : State) (a : Nat → Nat) (m : List Word) : State :=
  (List.range 4).foldl (fun s j => s.wrw (a j) (m.getD j 0)) s

/-- The dailies count the lanes of a direction that fail or are substituted in a training (R313, R482): base is the first
lane's number. -/
def State.dlLanes (s : State) (base : Nat) (fail : BitVec 34) (call eff : List Word) (w : Nat) : State :=
  (List.range 34).foldl (fun s p =>
    if fail.getLsbD p || (List.range w).any (fun i => mapLane call i == p && mapLane eff i != p) then s.laneCount (base + p)
    else s) s

/-! Training of a D-link (R313 to R317). -/

/-- DL_STAT.STATE. -/
def State.dlState (s : State) (j : Nat) : Nat := s.rd (F.DL_STAT_STATE j)

/-- Training starts: the link's traffic state starts afresh, and the C-die keeps what it held until the first training
packet. -/
def State.dlTrain (s : State) (j : Nat) : State :=
  let s := s.setLk j { LinkSt.reset with cEnd := (s.lk j).cEnd, cDelay := (s.lk j).cDelay }
  (s.wr (F.DL_STAT_STATE j) 1).wr (F.DL_STAT_FLUSHED j) 0

/-- A link's training at its C-die's release from die reset (R311, R313, R316, R323): the die has been loaded with its receive
codes. -/
def State.dlStart (s : State) (j : Nat) : State :=
  let s := s.setLk j { s.lk j with
    cDelay := (List.range 5).map fun i => s.rdw (A.DL_DLYCj j i) }
  ((s.dlTrain j).wr (F.DL_STAT_MOVED j) 0).wr (F.DL_STAT_PARTIAL j) 0

/-- A DL_CTL.RESET write (R313, R315): ignored in TRAIN and UP. -/
def State.dlReset (s : State) (j : Nat) : State :=
  if s.dlState j = 0 || s.dlState j = 3 then s.dlTrain j else s

/-- The feature vector of a C-die stepping of the matrix (R325). -/
def stepFeat (step : Nat) : Option Nat := if step = 0x01 then some 1 else if step = 0x10 then some 3 else none

/-- PKG_FEAT is computed once per cold reset (R326). -/
def State.featNow (s : State) : State :=
  if s.group.feat then s
  else
    let v := (List.range 12).foldl (fun a d => if s.dieRunning d then a &&& s.rd (F.PKG_DIEd_DFEAT d) else a) 3
    { s.wr F.PKG_FEAT_FEAT v with group := { s.group with feat := true } }

/-- It is computed when every C-die has trained or been held (R326). -/
def State.featCheck (s : State) : State :=
  if (List.range 12).any (fun d => s.rd (F.PKG_DIEd_STATE d) == 5) then s else s.featNow

/-- The die start of a C-die ends when neither of its links trains any more (R316, R326, R327): its traffic is bound to the
links that are UP, or it stays out with no link. -/
def State.dieStarted (s : State) (d : Nat) : State :=
  let st := s.rd (F.PKG_DIEd_STATE d)
  if s.dlState (2 * d) = 1 || s.dlState (2 * d + 1) = 1 || !(st == 5 || st == 4) then s
  else
    let b := b2n (s.dlState (2 * d) == 2) + 2 * b2n (s.dlState (2 * d + 1) == 2)
    let s := { s with group := { s.group with bound := SMap.put s.group.bound d b } }
    let s := if b = 0 then s.setDie d 4 else (s.setDie d 0).countCores d
    s.featCheck

/-- A D-link's training fails (R315). -/
def State.dlFail (s : State) (j : Nat) (type : Option Nat) : State :=
  let s := s.wr (F.DL_STAT_STATE j) 3
  let s := match type with
    | some ty => s.logAsync (341 + j / 2) (ErrRec.plain .recoverable 15 ty)
    | none => s.logAsyncFree (341 + j / 2) 15
  s.dieStarted (j / 2)

/-- DL_RESET (R313). -/
def execDlReset (j : Fin 24) (s : State) : Res := .next (s.dlReset j.val)

/-- The pattern check ends (R313, steps 1 to 3): up and down are the failing lanes of each direction. -/
def State.laneCheck (s : State) (j : Nat) (up down : BitVec 34) : State :=
  let s := (s.wr (F.DL_LANEFAIL_UP j) up.toNat).wr (F.DL_LANEFAILD_DOWN j) down.toNat
  let mu := s.mapWords (A.DL_MAPUj j)
  let md := s.mapWords (A.DL_MAPDj j)
  let c := s.rd (F.DL_CTL_WIDTH j)
  match effWidth up mu c, effWidth down md c with
  | some cu, some cd =>
    let w := Nat.max cu cd
    let eu := (effMap up mu w).getD mu
    let ed := (effMap down md w).getD md
    let s := (s.setMapWords (A.DL_EMAPUj j) eu).setMapWords (A.DL_EMAPDj j) ed
    let s := (s.dlLanes (68 * j) up mu eu (widthLanes w)).dlLanes (68 * j + 34) down md ed (widthLanes w)
    let s := (s.wr (F.DL_STAT_EWIDTH j) w).wr (F.DL_STAT_MAPDIFF j) (b2n (eu != mu || ed != md || w != c))
    if passing up < 8 || passing down < 8 then s.dlFail j none else s.setLk j { s.lk j with checked := true }
  | _, _ => ((s.dlLanes (68 * j) up mu mu 0).dlLanes (68 * j + 34) down md md 0).dlFail j none

/-- LANE_CHECK_DONE (R313). -/
def execLaneCheckDone (j : Fin 24) (up down : BitVec 34) (s : State) : Res :=
  .next (if s.dlState j.val = 1 && !(s.lk j.val).checked then s.laneCheck j.val up down else s)

/-- TRAINING_PACKET (R313, R314): the C-die adopts the width and maps of the H-die. -/
def execTrainingPacket (j : Fin 24) (s : State) : Res :=
  .next (if s.dlState j.val = 1 && (s.lk j.val).checked then
      s.setLk j.val { s.lk j.val with
        adopted := true,
        cEnd := some (s.rd (F.DL_STAT_EWIDTH j.val), s.mapWords (A.DL_EMAPUj j.val) ++ s.mapWords (A.DL_EMAPDj j.val)) }
    else s)

/-- The H-die holds a die in reset (R317, R326): both links go DOWN, and a recoverable machine check is logged. -/
def State.dieHold (s : State) (d st : Nat) : State :=
  (((s.dlinksDown d).setDie d st).logAsyncFree (341 + d) 15).featCheck

/-- The training answer (R313, step 5; R315 to R317, R326). -/
def State.dlAnswer (s : State) (j pos step : Nat) : State :=
  let d := j / 2
  let s := s.wr (F.PKG_DIEd_STEP d) step
  if pos ≠ d then s.dieHold d 2
  else match stepFeat step with
    | none => s.dieHold d 1
    | some v =>
      let s := (s.wr (F.PKG_DIEd_DFEAT d) v).wr (F.DL_STAT_STATE j) 2
      if s.dieRunning d then s.wr (F.DL_STAT_PARTIAL j) 1 else s.dieStarted d

/-- TRAINING_ANSWER (R313, R317, R326). -/
def execTrainingAnswer (j : Fin 24) (pos : Nat) (step : BitVec 8) (s : State) : Res :=
  .next (if s.dlState j.val = 1 && (s.lk j.val).adopted then s.dlAnswer j.val pos step.toNat else s)

/-- DLINK_TRAIN_TIMEOUT (R315): 50 us have passed. -/
def execDlinkTrainTimeout (j : Fin 24) (s : State) : Res :=
  .next (if s.dlState j.val = 1 then s.dlFail j.val (some 5) else s)

/-! Packets and replay (R318 to R324). -/

/-- A link's packets are committed by an ACK, in the order sent (R320). -/
def ackOut (a : Nat) (out : List OutPkt) : List OutPkt :=
  if out.any fun p => p.seq == a then (out.dropWhile fun p => p.seq != a).drop 1 else out

/-- DL_STAT.FLUSHED follows: every packet sent is acknowledged during a flush (R322). -/
def State.flushed (s : State) (l : Nat) : State :=
  if l < 24 && (s.lk l).flush && (s.lk l).out == [] then s.wr (F.DL_STAT_FLUSHED l) 1 else s

/-- The SEQ after one, modulo 4,096. -/
def seqNext (n : Nat) : Nat := (n + 1) % 4096

/-- A packet is rewound (R319, R320): it is counted, and what follows is dropped until its SEQ comes again. -/
def State.rewind (s : State) (l : Nat) : State :=
  let s := s.setLk l { s.lk l with rewound := true }
  if l < 24 then s.inc (F.DL_ERR_CRCERR l) 1 else s.incSat (F.PL_ERRk_CRCERR (l - 24)) 1

/-- A packet commits (R319): its SEQ is the last good one, and its ACK releases the replay buffer. -/
def State.commitPkt (s : State) (l seq ack : Nat) : State :=
  let x := s.lk l
  (s.setLk l { x with good := some seq, rewound := false, out := ackOut ack x.out }).flushed l

/-- A packet from a C-die commits: traffic of a dead incarnation is dropped and counted (R426, R430), and so is an UNDO
whose two addresses disagree, as a CRC failure (R318). -/
def State.diePkt (s : State) (l : Nat) (p : LinkPacket) : State :=
  let s := s.commitPkt l p.seq.toNat p.ack.toNat
  let old := match p.src with
    | some (c, i) => decide (s.rd (F.CORE_MAPl_INC (l / 2) c.val) ≠ i.val) || !s.populated (l / 2) c.val
    | none => false
  if old then s.inc (F.STALE_SPEAKERd_CORE (l / 2)) 1
  else if p.chan.val = 4 && !p.lineOk then s.inc (F.DL_ERR_CRCERR l) 1 else s

/-- A packet from another package commits: on a link in HOLD only link-layer packets count (R330); one for another package
goes on, unless its onward link is not UP (R331, R332). -/
def State.pkgPkt (s : State) (k : Nat) (p : LinkPacket) : State :=
  let s := s.commitPkt (24 + k) p.seq.toNat p.ack.toNat
  if p.chan.val = 7 then s
  else if s.rd (F.PL_STATk_STATE k) = 3 then s.inc (F.PL_ERRk_STALE k) 1
  else match p.dest with
    | some q =>
      if q.val = s.gpos then s
      else
        let k2 := s.plinkTo q.val
        if s.plinkUp k2 then s.linkPush (24 + k2) else s.inc (F.PL_ERRk_STALE k2) 1
    | none => s

/-- Whether a link carries packets: a D-link that is UP, a P-link in UP or HOLD. -/
def State.linkOn (s : State) (l : Nat) : Bool :=
  if l < 24 then s.dlState l == 2 else s.rd (F.PL_STATk_STATE (l - 24)) == 2 || s.rd (F.PL_STATk_STATE (l - 24)) == 3

/-- PACKET_RECEIVE (R319). A fenced die's packets are dropped and counted (R431). -/
def execPacketReceive (l : Fin 28) (p : LinkPacket) (s : State) : Res :=
  .next (if l.val < 24 && s.rd (F.PKG_DIEd_STATE (l.val / 2)) == 3 then s.inc (F.STALE_SPEAKERd_DIE (l.val / 2)) 1
    else if !s.linkOn l.val then s
    else
      let x := s.lk l.val
      let due := match x.good with
        | some g => p.seq.toNat == seqNext g
        | none => true
      if due && p.crcOk then if l.val < 24 then s.diePkt l.val p else s.pkgPkt (l.val - 24) p
      else if x.rewound && !due then s else s.rewind l.val)

/-- The lines of a lost D-link move to the surviving one (R323): the packets after seq are resent there, in order. -/
def State.moveLink (s : State) (j o : Nat) (seq : Option Nat) : State :=
  let out := match seq with
    | some a => ackOut a (s.lk j).out
    | none => (s.lk j).out
  let s := s.setLk j { s.lk j with out := [] }
  let s := out.foldl (fun s _ => s.linkPush o) s
  let s := (s.inc (F.DL_ERR_REPLAYS o) out.length).wr (F.DL_STAT_MOVED j) 1
  { s with group := { s.group with bound := SMap.put s.group.bound (j / 2) (if o % 2 = 0 then 1 else 2) } }

/-- The other D-link of the same die. -/
def otherLink (j : Nat) : Nat := if j % 2 = 0 then j + 1 else j - 1

/-- FAILOVER (R323): link j is lost, and the far end has committed up to seq on it. -/
def execFailover (j : Fin 24) (seq : BitVec 12) (s : State) : Res :=
  .next (if s.dieRunning (j.val / 2) && s.dlState (otherLink j.val) = 2 && !s.flag (F.DL_STAT_MOVED j.val)
        && (s.dlState j.val = 2 || s.dlState j.val = 0) then
      (s.wr (F.DL_STAT_STATE j.val) 0).moveLink j.val (otherLink j.val) (some seq.toNat)
    else s)

/-! Membership (R331, R332). -/

/-- The number of packages of the group (R329). -/
def State.groupSize (s : State) : Nat := 2 ^ s.rd F.GRP_CFG_SIZE

/-- Whether the route from package x to package q is wholly UP, by the links' states last known (R331, R332). -/
def State.routeUp (s : State) (q : Nat) : Nat → Nat → Nat → Bool
  | 0, _, _ => true
  | fuel + 1, k, x =>
    if (x ^^^ q) / 2 ^ k % 2 = 1 then
      (if x = s.gpos then s.plinkUp k else (SMap.get 0 s.group.notices x) / 2 ^ k % 2 == 1) && s.routeUp q fuel (k + 1) (x ^^^ 2 ^ k)
    else s.routeUp q fuel (k + 1) x

/-- LOC_PKG.HOPS of a package (R336). -/
def locHops (q : Nat) : FRef := ⟨A.LOC_PKG, 3 * q, 3⟩

/-- A member is lost (R203, R235, R332): its lines are reclaimed, and the domains that span the group are spoiled, by their lead
on every package, and here too where the lead is the package lost. -/
def State.memberLost (s : State) (q : Nat) : State :=
  let m := s.rd F.GRP_STAT_MEMBER
  let s := s.wr F.GRP_STAT_MEMBER (m - 2 ^ q)
  let l := s.rd F.GRP_STAT_LOST
  let s := s.wr F.GRP_STAT_LOST (if l.testBit q then l else l + 2 ^ q)
  let s := s.wr (locHops q) 7
  let s := if hamming s.gpos q = 1 then { s with group := { s.group with barred := q :: s.group.barred.filter fun x => x != q } } else s
  let s := s.reclaim (.pkg (Fin.ofNat 16 q)) true q
  (List.range 8).foldl (fun s d => if s.domEn d && s.leads d then (s.spoil d).tell d
    else if s.domEn d && s.flag (F.TDn_CFG_SPAN d) && s.rd (F.TDn_CFG_LEAD d) == q then s.spoil d else s) s

/-- GRP_STAT and LOC_PKG follow the routes (R332, R336). -/
def State.membership (s : State) : State :=
  (List.range 16).foldl (fun s q =>
    if q = s.gpos then s
    else
      let up := decide (q < s.groupSize) && s.routeUp q 4 0 s.gpos
      let was := s.member q
      if up && !was then
        (s.wr F.GRP_STAT_MEMBER (s.rd F.GRP_STAT_MEMBER + 2 ^ q)).wr (locHops q) (hamming s.gpos q)
      else if was && !up then s.memberLost q else s) s

/-- The states of the P-links change (R332): membership follows, and every package that can be reached is told. -/
def State.linksChanged (s : State) : State :=
  let s := s.membership
  s.others.foldl (fun s p => s.packetOut (.pkg (Fin.ofNat 16 p)) 0) s

/-- LINK_STATE_NOTICE (R332). -/
def execLinkStateNotice (p : Fin 16) (up : BitVec 4) (s : State) : Res :=
  .next (if p.val = s.gpos then s
    else ({ s with group := { s.group with notices := SMap.put s.group.notices p.val up.toNat } } : State).membership)

/-! P-links (R328 to R330). -/

/-- A P-link leaves UP (R332, R482), and its time symbols stop being valid (R276). -/
def State.plinkLost (s : State) (k st : Nat) : State :=
  let was := s.plinkUp k
  let s := if was then s.lanesCount (1824 + 16 * k) 0 (s.lk (24 + k)).width else s
  let s := (s.wr (F.PL_STATk_STATE k) st).wr (F.PL_STATk_WIDTH k) 0
  let s := (s.wr (F.PL_STATk_RATE k) 0).setLk (24 + k) LinkSt.reset
  let s := s.setSl { s.sl with ptOk := s.sl.ptOk.filter fun j => j != k }
  if was then s.linksChanged else s

/-- PLINK_DOWN (R332). -/
def execPlinkDown (k : Fin 4) (s : State) : Res :=
  .next (if s.rd (F.PL_STATk_STATE k.val) = 0 || s.rd (F.PL_STATk_STATE k.val) = 4 then s else s.plinkLost k.val 0)

/-- A PL_CTLk.RESET write (R328, R329): a package outside the group trains no link and shows why. -/
def State.plReset (s : State) (k : Nat) : State :=
  if s.groupSize ≤ s.gpos then (s.plinkLost k 3).wr (F.PL_STATk_REASON k) 6
  else if s.groupSize ≤ 2 ^ k then s
  else (s.plinkLost k 1).wr (F.PL_STATk_REASON k) 0

/-- PL_RESET (R328). -/
def execPlReset (k : Fin 4) (s : State) : Res := .next (s.plReset k.val)

/-- The reason for which a training exchange puts the link in HOLD (R330): the lowest that holds; 0 none. -/
def State.plReason (s : State) (k : Nat) (m : PlPeer) : Nat :=
  if m.p.val = s.gpos then 1
  else if m.p.val ≠ s.neighbour k then 2
  else if m.size ≠ s.rd F.GRP_CFG_SIZE then 3
  else if m.assigned && s.assigned && m.g ≠ s.rd F.FAB_ID_G then 4
  else if s.group.barred.contains m.p.val && SMap.find? s.group.counts m.p.val == some m.coldBoot.toNat then 5
  else 0

/-- The training exchange of a P-link (R32, R330, R332). -/
def State.plTrain (s : State) (k : Nat) (m : PlPeer) : State :=
  let s := s.wr (F.PL_STATk_PEERP k) m.p.val
  let why := s.plReason k m
  let s := s.lanesCount (1824 + 16 * k) m.width 16
  let s := (s.wr (F.PL_STATk_RATE k) m.rate).setLk (24 + k) { LinkSt.reset with width := m.width }
  let s := if m.width < 16 then s.wr (F.PL_STATk_WIDTH k) m.width else s.tick.wr (F.PL_STATk_WIDTH k) (Config.freeNat s.freeCtr)
  let s := s.wr (F.PL_STATk_REASON k) why
  if why = 0 then
    let s := { s with group := { s.group with
      counts := SMap.put s.group.counts m.p.val m.coldBoot.toNat, barred := s.group.barred.filter fun x => x != m.p.val } }
    (s.wr (F.PL_STATk_STATE k) 2).linksChanged
  else
    let s := s.wr (F.PL_STATk_STATE k) 3
    if why = 1 then (s.logAsyncFree (333 + k) 20).logEvent 8 k else s

/-- PLINK_TRAIN (R330). -/
def execPlinkTrain (k : Fin 4) (peer : PlPeer) (s : State) : Res :=
  .next (if s.rd (F.PL_STATk_STATE k.val) ≠ 1 then s
    else if peer.trained then s.plTrain k.val peer else s.wr (F.PL_STATk_STATE k.val) 4)

/-! What needs both. -/

/-- A D-link or P-link goes down because a packet has been resent too often (R315, R320, R323). -/
def State.replayDown (s : State) (l : Nat) : State :=
  if l < 24 then
    let s := s.wr (F.DL_STAT_STATE l) 0
    if s.dlState (otherLink l) = 2 then s else s.setLk l { s.lk l with out := [] }
  else s.plinkLost (l - 24) 0

/-- NAK (R320): the packets up to seq are acknowledged, and the others are resent. -/
def execNak (l : Fin 28) (seq : BitVec 12) (s : State) : Res :=
  .next (if !s.linkOn l.val then s
    else
      let x := s.lk l.val
      let out := ackOut seq.toNat x.out
      let lim := if l.val < 24 then s.rd (F.DL_CTL_REPLAY_LIMIT l.val) else s.rd (F.PL_CTLk_REPLAY_LIMIT (l.val - 24))
      if out.any fun p => lim ≤ p.resent then (s.setLk l.val { x with out := out }).replayDown l.val
      else
        let s := s.setLk l.val { x with out := out.map fun p => { p with resent := p.resent + 1 } }
        let s := if l.val < 24 then s.inc (F.DL_ERR_REPLAYS l.val) out.length else s.incSat (F.PL_ERRk_REPLAYS (l.val - 24)) out.length
        s.flushed l.val)

/-- A DL_CTL.FLUSH write (R322). -/
def State.dlFlush (s : State) (j : Nat) : State := (s.setLk j { s.lk j with flush := true }).flushed j
/-- A DL_CTL.RESUME write (R322). -/
def State.dlResume (s : State) (j : Nat) : State := (s.setLk j { s.lk j with flush := false }).wr (F.DL_STAT_FLUSHED j) 0

/-- DL_FLUSH (R322). -/
def execDlFlush (j : Fin 24) (s : State) : Res := .next (s.dlFlush j.val)
/-- DL_RESUME (R322). -/
def execDlResume (j : Fin 24) (s : State) : Res := .next (s.dlResume j.val)

/-- A write of DL_CTL (R313, R322, R337). -/
def State.dlCtl (s : State) (j : Nat) (v mask : Word) : State :=
  let s := s.regPut (A.DL_CTL j) v mask
  let w := v &&& mask
  let s := if bit w 1 then s.dlReset j else s
  let s := if bit w 2 then s.dlFlush j else s
  if bit w 3 then s.dlResume j else s

/-- A write of PL_CTLk (R328, R338). -/
def State.plCtl (s : State) (k : Nat) (v mask : Word) : State :=
  let s := s.regPut (A.PL_CTLk k) v mask
  if bit (v &&& mask) 0 then s.plReset k else s

/-- HEARTBEAT_SEND (R324): a heartbeat goes out on a link that is UP, flushed or not. -/
def execHeartbeatSend (l : Fin 28) (s : State) : Res :=
  .next (if (if l.val < 24 then s.dlState l.val == 2 else s.plinkUp (l.val - 24)) then s.linkPush l.val else s)

/-- HEARTBEAT (R319, R324): a heartbeat packet commits in its turn. -/
def execHeartbeat (l : Fin 28) (s : State) : Res :=
  .next (if l.val < 24 && s.rd (F.PKG_DIEd_STATE (l.val / 2)) == 3 then s.inc (F.STALE_SPEAKERd_DIE (l.val / 2)) 1
    else if s.linkOn l.val && !(s.lk l.val).rewound then
      s.setLk l.val { s.lk l.val with good := (s.lk l.val).good.map seqNext }
    else s)

/-! The fabric (R333, R335). -/

/-- FAB_ID_ASSIGN (R333): a write of FAB_ID. -/
def execFabIdAssign (v : Word) (s : State) : Res := .next (s.regPut A.FAB_ID v fullMask)

/-- Bytes of a fabric window: base and size (R335). -/
def State.fwRange (s : State) (w : Nat) : Nat × Nat :=
  (2 ^ 21 * s.rd (F.FW_BASEw_BASE w), 2 ^ 21 * s.rd (F.FW_SIZEw_SIZE w))

/-- Whether a fabric window may become valid (R333, R335). -/
def State.fwOk (s : State) (w : Nat) : Bool :=
  let r := s.fwRange w
  let p := s.rd (F.FW_TGTw_PORT w)
  s.assigned && decide (p < 3) && s.gpUp p && s.flag (F.GP_STATr_PBR p) && (List.range 16).all fun u =>
    u == w || !s.flag (F.FW_TGTw_V u) || !rangesMeet r.1 r.2 (s.fwRange u).1 (s.fwRange u).2

/-- A write of FW_TGTw (R335, R338): the window's other fields hold while V is 1. -/
def State.fwTgt (s : State) (w : Nat) (v mask : Word) : State :=
  if s.flag (F.FW_TGTw_V w) then s.regPut (A.FW_TGTw w) v (mask &&& 3#64)
  else
    let s := s.regPut (A.FW_TGTw w) v mask
    if s.flag (F.FW_TGTw_V w) && !s.fwOk w then (s.wr (F.FW_TGTw_V w) 0).wr (F.FW_TGTw_REFUSE w) 1 else s

/-- A write of another register of a fabric window. -/
def State.fwOther (s : State) (w a : Nat) (v mask : Word) : State := if s.flag (F.FW_TGTw_V w) then s else s.regPut a v mask

/-- FW_VALIDATE (R335): a write of FW_TGTw. -/
def execFwValidate (w : Fin 16) (v : Word) (s : State) : Res := .next (s.fwTgt w.val v fullMask)

end Sys2Proof.Machine
end

