-- ==== Sys2Proof/Machine/Pcie.lean ====
section
/-!
DEFINITION. The general root ports and the mirror port (R339 to R357): inbound windows, MSI, waiting reads, device windows,
link power, PTM, the mirror windows, doorbells and remote cuts.
-/
namespace Sys2Proof.Machine

/-- What PCIe port r holds beside its registers. -/
def State.gpx (s : State) (r : Nat) : GpSt := SMap.get GpSt.reset s.gp r
/-- Store what PCIe port r holds. -/
def State.setGpx (s : State) (r : Nat) (x : GpSt) : State := { s with gp := SMap.put s.gp r x }
/-- The package answers or posts something. -/
def State.say (s : State) (a : Answer) : State := { s with answer := some a }
/-- The mirror port is an endpoint (R346). -/
def State.endpoint (s : State) : Bool := s.flag F.MIR_STAT_ENDPOINT
/-- Whether root port r carries traffic: port 3 only in root mode (R346). -/
def State.rootUp (s : State) (r : Nat) : Bool := s.gpUp r && (r < 3 || !s.endpoint)
/-- Whether the mirror port carries the peer's traffic. -/
def State.mirUp (s : State) : Bool := s.endpoint && s.flag F.MIR_STAT_UP
/-- A TLP or a pending request wakes a link (R355). -/
def State.linkAwake (s : State) (r : Nat) : State := s.setGpx r { s.gpx r with aspm := 0 }
/-- An inbound TLP wakes the link and is a wake event (R355, R447). -/
def State.wakeLink (s : State) (r : Nat) : State := s.wake.linkAwake r

/-! Windows (R342, R349, R350, R365). -/

/-- The valid region that holds a whole range (R174). -/
def State.regionOfRange (s : State) (pa n : Nat) : Option Region :=
  s.regions.find? fun r => r.base ≤ pa && pa + n ≤ r.last + 1

/-- The region is of type VOLATILE or PERSISTENT. -/
def Region.isMem (r : Region) : Bool := r.mtype == mtVolatile || r.mtype == mtPersistent

/-- The code of R350, 2 to 4 and 6, that refuses a range; 0 none. A range that crosses regions lies in no single one. -/
def State.rangeReason (s : State) (pa n vmid ks : Nat) (w : Bool) : Nat :=
  match s.regionOfRange pa n with
  | some r =>
    if !(r.isMem && r.mono) then 2
    else if r.vmid ≠ vmid then 3
    else if s.flag (F.KS_ATTRs_ENC ks) then 4
    else if w && r.mtype == mtPersistent && !s.domEn r.domain then 6 else 0
  | none => 2

/-- Whether the target of an access still lies in a valid VOLATILE or PERSISTENT region (R342). -/
def State.targetOk (s : State) (pa n : Nat) : Bool := match s.regionOfRange pa n with
  | some r => r.isMem
  | none => false

/-- An inbound window: where its four registers stand (R356, R369). -/
structure WinRef where
  base : FRef
  size : FRef
  pa   : FRef
  attr : Nat
deriving DecidableEq, Repr

/-- Inbound window j of port r. -/
def iwRef (r j : Nat) : WinRef := ⟨F.IW_BASErj_BASE r j, F.IW_SIZErj_LOG2 r j, F.IW_PArj_PA r j, A.IW_ATTRrj r j⟩
/-- First bus or function address of a window. -/
def State.winBase (s : State) (w : WinRef) : Nat := 2 ^ 20 * s.rd w.base
/-- LOG2 of a window's size. -/
def State.winLog (s : State) (w : WinRef) : Nat := s.rd w.size
/-- First physical address of a window. -/
def State.winPa (s : State) (w : WinRef) : Nat := 2 ^ 20 * s.rd w.pa
/-- Whether a window is valid. -/
def State.winV (s : State) (w : WinRef) : Bool := bit (s.rdw w.attr) 0

/-- The physical address of a range through one valid window that grants its access (R342, R365). -/
def State.winMap (s : State) (ws : List WinRef) (a n : Nat) (wr : Bool) : Option (Nat × WinRef) :=
  (ws.find? fun w => s.winV w && s.winBase w ≤ a && a + n ≤ s.winBase w + 2 ^ s.winLog w
    && bit (s.rdw w.attr) (if wr then 2 else 1)).map fun w => (s.winPa w + (a - s.winBase w), w)

/-- The code of R350 that refuses a window among the other windows of its port or function; the lowest that holds (DESIGN CHOICE, log 10). -/
def State.winReason (s : State) (w : WinRef) (others : List WinRef) (vmid ks : Nat) : Nat :=
  let n := 2 ^ s.winLog w
  if others.any fun u => u.attr != w.attr && s.winV u && rangesMeet (s.winBase w) n (s.winBase u) (2 ^ s.winLog u) then 1
  else
    let bad := s.winLog w < 20 || 52 < s.winLog w || s.winBase w % n != 0 || s.winPa w % n != 0
    let c := s.rangeReason (s.winPa w) n vmid ks (bit (s.rdw w.attr) 2)
    if c ≠ 0 && c ≠ 6 then c else if bad then 5 else c

/-- A write of a window's attribute register (R342, R365): it validates, invalidates, or is stored. -/
def State.winAttr (s : State) (w : WinRef) (others : List WinRef) (vk : State → Nat × Nat) (v mask : Word) : State :=
  if s.winV w then
    if bit mask 0 && !bit v 0 then s.wrw w.attr (setBit (s.rdw w.attr) 0 false) else s
  else
    let s := s.regPut w.attr v mask
    if !s.winV w then s
    else
      let k := vk s
      let c := s.winReason w others k.1 k.2
      if c = 0 then s else s.wrw w.attr (fset (setBit (s.rdw w.attr) 0 false) 6 4 c)

/-- A write of another register of a window: ignored while it is valid. -/
def State.winOther (s : State) (w : WinRef) (a : Nat) (v mask : Word) : State := if s.winV w then s else s.regPut a v mask

/-- The inbound windows of a port. -/
def iwAll (r : Nat) : List WinRef := (List.range 32).map (iwRef r)

/-- A write of IW_ATTRr,j. -/
def State.iwAttr (s : State) (r j : Nat) (v mask : Word) : State :=
  s.winAttr (iwRef r j) (iwAll r) (fun s => (s.rd (F.IW_ATTRrj_VMID r j), s.rd (F.IW_ATTRrj_KSLOT r j))) v mask

/-- IW_VALIDATE (R342, R350): a write of IW_ATTRr,j. -/
def execIwValidate (r : Fin 4) (j : Fin 32) (v : Word) (s : State) : Res := .next (s.iwAttr r.val j.val v fullMask)
/-- IW_INVALIDATE (R342): V is written 0. -/
def execIwInvalidate (r : Fin 4) (j : Fin 32) (s : State) : Res := .next (s.iwAttr r.val j.val 0 1#64)

/-! Inbound requests of the root ports (R342 to R344, R353). -/

/-- A refused inbound request is counted and logged (R342). -/
def State.inRefuse (s : State) (r addr : Nat) (np : Bool) : State :=
  let s := if np then s.incSat (F.GP_ERRr_IN_UR r) 1 else s.incSat (F.GP_ERRr_IN_DROP r) 1
  let s := s.wrw (A.GP_LOGr r) (BitVec.ofNat 64 addr)
  let s := (s.wr (F.GP_LOGSr_NP r) (b2n np)).wr (F.GP_LOGSr_VALID r) 1
  if np then s.say .unsupported else s

/-- Whether an address lies in the port's MSI range (R343). -/
def State.inMsi (s : State) (r addr : Nat) : Bool :=
  s.flag (F.GP_MSIr_V r) && addr / 2 ^ 12 == s.rd (F.GP_MSIr_ADDR r)

/-- An MSI (R343, R376). -/
def State.msi (s : State) (r : Nat) (data : Nat) : State :=
  if data < 8192 && (s.rd (F.CUEV_MSIM data)).testBit r then s.cueRaise data else s.cueDrop

/-- Whether every earlier posted write of a port has been accepted at its home or dropped (R353). -/
def State.streamClear (s : State) (r : Nat) : Bool := s.wrWaits (portAgent r) == []

/-- Whether a port holds a credit for another request at home (R33): 2,048 of its writes may wait there. -/
def State.portMay (s : State) (r : Nat) : Bool := decide ((s.wrWaits (portAgent r)).length < 2048)

/-- A posted write that arrives at root port r, and waits outside without a credit; an MSI keeps its place behind the writes before
it (R353). -/
def State.inWrite (s : State) (r addr : Nat) (bs : List Byte) : State :=
  if s.inMsi r addr then
    if !s.streamClear r then s else if bs.length = 4 then s.msi r (ofBytes bs) else s.inRefuse r addr false
  else match s.winMap (iwAll r) addr bs.length true with
    | some (pa, w) =>
      if !s.targetOk pa bs.length then s.inRefuse r addr false
      else if s.portMay r then s.homeWrites (portAgent r) (bs.length + 1) pa bs (fget (s.rdw w.attr) 22 10)
      else s
    | none => s.inRefuse r addr false

/-- A read that arrives at root port r. -/
def State.inRead (s : State) (r addr n : Nat) : State :=
  match s.winMap (iwAll r) addr n false with
  | some (pa, w) =>
    if s.targetOk pa n then
      let v := s.homeReads (portAgent r) (n + 1) pa n (fget (s.rdw w.attr) 22 10)
      v.2.2.say (.data v.1 v.2.1)
    else s.inRefuse r addr true
  | none => s.inRefuse r addr true

/-- GP_INBOUND_WRITE (R342, R343). -/
def execGpInboundWrite (r : Fin 4) (addr : Nat) (data : List Byte) (s : State) : Res :=
  .next (if s.rootUp r.val then (s.wakeLink r.val).inWrite r.val addr data else s)
/-- GP_INBOUND_READ (R342): it waits for the port's earlier posted writes (R353). -/
def execGpInboundRead (r : Fin 4) (addr : Nat) (len : Nat) (s : State) : Res :=
  .next (if s.rootUp r.val && s.streamClear r.val then (s.wakeLink r.val).inRead r.val addr len else s)
/-- INBOUND_MSI (R343, R376): a write of 4 bytes. -/
def execInboundMsi (r : Fin 4) (addr : Nat) (data : BitVec 32) (s : State) : Res :=
  .next (if s.rootUp r.val then (s.wakeLink r.val).inWrite r.val addr (bytesOf 4 data.toNat) else s)
/-- CXL_CACHE_REQUEST (R344): one that leaves no copy is served through the windows, and any other is answered GO-Err. -/
def execCxlCacheRequest (r : Fin 3) (addr : Nat) (wantsCopy : Bool) (data : Option LineData) (s : State) : Res :=
  .next (if !(s.rootUp r.val && s.flag (F.GP_STATr_CXLM r.val)) then s
    else
      let s := s.wakeLink r.val
      if wantsCopy then (s.incSat (F.GP_ERRr_IN_UR r.val) 1).say .goErr
      else match data with
        | some d => s.inWrite r.val addr (bytesOf 64 d.toNat)
        | none => if s.streamClear r.val then s.inRead r.val addr 64 else s)

/-! Waiting reads (R341, R345). -/

/-- A waiting IOLD takes its value (R93, R213): the thread goes on. -/
def State.ioFinish (s : State) (t : Nat) (bs : List Byte) : State :=
  if h : t < 432 then
    match (s.thrN t).run with
    | .ioWait _ d k =>
      let s := s.promote (t / 36)
      let s := s.setThrN t { s.thrN t with run := .running }
      (s.loadTo ⟨t, h⟩ d k bs).ends ⟨t, h⟩ (s.thrN t).pc (.iold ⟨t, h⟩ d 0 (Fin.ofNat 16 k) 0)
    | _ => s
  else s

/-- The bytes of a read that returns all ones. -/
def onesBytes (n : Nat) : List Byte := List.replicate n (BitVec.allOnes 8)

/-- A waiting IOLD of a thread takes all ones, or the low bytes of a value, in the size of its access. -/
def State.ioAnswer (s : State) (t : Nat) (v : Option Word) : State := match (s.thrN t).run with
  | .ioWait _ _ k => (s.ioFinish t (match v with | some v => bytesOf (szOf k) v.toNat | none => onesBytes (szOf k))).stepped t
  | _ => s

/-- PCIE_COMPLETION (R341): of the oldest read outstanding; one that comes after its timeout is dropped and counted. -/
def execPcieCompletion (r : Fin 4) (ok : Bool) (v : Word) (s : State) : Res :=
  .next (if !s.rootUp r.val then s
    else
      let x := s.gpx r.val
      let s := s.setGpx r.val { x with reads := x.reads.drop 1, aspm := 0 }
      match x.reads with
      | some t :: _ => if ok then s.ioAnswer t (some v) else (s.incSat (F.GP_ERRr_CPL_ERR r.val) 1).ioAnswer t none
      | none :: _ => s.incSat (F.GP_ERRr_CPL_ERR r.val) 1
      | [] => s)

/-- The oldest read of a port that has not timed out does so: its entry stays for the late completion. -/
def timeOut : List (Option Nat) → List (Option Nat) × Option Nat
  | [] => ([], none)
  | some t :: q => (none :: q, some t)
  | none :: q => let r := timeOut q; (none :: r.1, r.2)

/-- COMPLETION_TIMEOUT (R341). -/
def execCompletionTimeout (r : Fin 4) (s : State) : Res :=
  .next (match timeOut (s.gpx r.val).reads with
    | (q, some t) => ((s.setGpx r.val { s.gpx r.val with reads := q }).incSat (F.GP_ERRr_CPL_TO r.val) 1).ioAnswer t none
    | (_, none) => s)

/-! Links (R339, R345, R346, R354). -/

/-! The runner functions' descriptors (R361 to R369), as far as a port needs them. -/

/-- What function f holds beside its registers. -/
def State.vrf (s : State) (f : Nat) : VrfSt := SMap.get VrfSt.reset s.vrfs f
/-- Store what function f holds. -/
def State.setVrf (s : State) (f : Nat) (x : VrfSt) : State := { s with vrfs := SMap.put s.vrfs f x }

/-- Whether a descriptor has started and not ended. -/
def Job.busy (j : Job) : Bool := j.engine.isSome && j.ended.isNone
/-- Doubleword i of a descriptor. -/
def Job.w (j : Job) (i : Nat) : Word := j.dw.getD i 0
/-- OP. -/
def Job.op (j : Job) : Nat := fget (j.w 0) 0 8

/-- VRF_STAT.ACTIVE and RN_ENGe.BUSY follow the descriptors in progress (R369). -/
def State.vrfActive (s : State) (f : Nat) : State :=
  let s := s.wr (F.VRF_STAT_ACTIVE f) (b2n ((s.vrf f).jobs.any Job.busy))
  (List.range 32).foldl (fun s e =>
    let b := s.vrfs.any fun c => c.2.jobs.any fun j => j.busy && j.engine == some e
    if s.flag (F.RN_ENGe_BUSY e) == b then s else s.wr (F.RN_ENGe_BUSY e) (b2n b)) s

/-- A link that goes down ends every SHIP under way through it with LINKDOWN (R363). -/
def State.shipsDown (s : State) (r : Nat) : State :=
  let ends (j : Job) : Bool := j.busy && j.op == 5 && j.port == r
  s.vrfs.foldl (fun s c =>
    if c.2.jobs.any ends then
      (s.setVrf c.1 { c.2 with jobs := c.2.jobs.map fun j => if ends j then { j with ended := some (5, 0) } else j }).vrfActive c.1
    else s) s

/-- A link leaves UP: its active lanes are counted (R482), waiting IOLDs return all ones, and inbound writes that have not been
accepted are dropped (R345). -/
def State.gpDown (s : State) (r : Nat) : State :=
  let x := s.gpx r
  let up := if r = 3 && s.endpoint then s.flag F.MIR_STAT_UP else s.gpUp r
  let s := if up then (s.lanesCount (1760 + 16 * r) 0 x.width).shipsDown r else s
  let s := (s.wrDrop (portAgent r)).1.setGpx r { GpSt.reset with training := x.training }
  let s := x.reads.foldl (fun s t => match t with | some t => s.ioAnswer t none | none => s) s
  if r = 3 && s.endpoint then (s.wr F.MIR_STAT_UP 0).wr F.MIR_STAT_RATE 0
  else
    let s := (s.wr (F.GP_STATr_UP r) 0).wr (F.GP_STATr_RATE r) 0
    (s.wr (F.GP_STATr_CXLM r) 0).wr (F.GP_STATr_PBR r) 0

/-- An UP root port loses its link (R345). -/
def State.gpLoss (s : State) (r : Nat) : State :=
  ((s.gpDown r).wr (F.GP_STATr_LOST r) 1).logAsync (if r = 3 then 340 else 337 + r) (ErrRec.plain .recoverable 21 6)

/-- A port trains its link; a link that is up is lost for it (R345; DESIGN CHOICE, log 77). -/
def State.gpTrain (s : State) (r : Nat) : State :=
  let s := if s.rootUp r then s.gpLoss r else s.gpDown r
  s.setGpx r { s.gpx r with training := true }

/-- GP_LINK_LOSS (R345). -/
def execGpLinkLoss (r : Fin 4) (s : State) : Res := .next (if s.rootUp r.val then s.gpLoss r.val else s)

/-- A GP_CTLr.RETRAIN write (R345). -/
def State.gpRetrain (s : State) (r : Nat) : State :=
  if s.flag (F.GP_CTLr_EN r) && (r < 3 || !s.endpoint) then s.gpTrain r else s

/-- GP_RETRAIN (R345). -/
def execGpRetrain (r : Fin 4) (s : State) : Res := .next (s.gpRetrain r.val)

/-- A write of GP_CTLr (R345, R346, R356). -/
def State.gpCtl (s : State) (r : Nat) (v mask : Word) : State :=
  let was := s.flag (F.GP_CTLr_EN r)
  let s := s.regPut (A.GP_CTLr r) v mask
  let now := s.flag (F.GP_CTLr_EN r)
  if r = 3 && s.endpoint then s
  else if was && !now then s.setGpx r { (s.gpDown r).gpx r with training := false } |>.gpDown r
  else if now && (!was || bit (v &&& mask) 2) then s.gpTrain r else s

/-- The function's configuration space returns to its reset values (R347). -/
def State.mirConfigReset (s : State) : State := { s with mir := { s.mir with bar0 := 0, bar2 := 0, bar4 := 0 } }

/-- Every chosen set of a waiting commit becomes active (R350). -/
def State.mwSwitch (s : State) : State :=
  if s.mir.commit == [] then s
  else
    let s := s.mir.commit.foldl (fun s c =>
      ((s.wrw (A.MWx_LOCAL c.1) c.2.1).wrw (A.MWx_LEN c.1) c.2.2.1).wrw (A.MWx_ATTR c.1) c.2.2.2) s
    { s.wr F.MW_COMMIT_BUSY 0 with mir := { s.mir with commit := [] } }

/-- The mirror link goes down in endpoint mode (R347, R350, R354). -/
def State.mirDown (s : State) : State := (s.mirLost.gpDown 3).mirConfigReset.mwSwitch

/-- MIRROR_LINK_DOWN (R354). -/
def execMirrorLinkDown (s : State) : Res :=
  .next (if s.mirUp then (if s.flag F.MIR_CTL_EN then s.mirDown.wr F.MIR_STAT_LOST 1 else s.mirDown) else s)

/-- The mirror port trains as an endpoint; a link that was up goes down for it, and LOST shows that (R357). -/
def State.mirTrain (s : State) : State :=
  let s := if s.flag F.MIR_STAT_UP then s.mirDown.wr F.MIR_STAT_LOST 1 else s
  s.setGpx 3 { s.gpx 3 with training := true }

/-- A MIR_CTL.RETRAIN write (R346): no effect in root mode. -/
def State.mirRetrain (s : State) : State := if s.endpoint && s.flag F.MIR_CTL_EN then s.mirTrain else s

/-- MIR_RETRAIN (R346). -/
def execMirRetrain (s : State) : Res := .next s.mirRetrain

/-- A write of MIR_CTL (R346, R357). -/
def State.mirCtl (s : State) (v mask : Word) : State :=
  let was := s.flag F.MIR_CTL_EN
  let s := s.regPut A.MIR_CTL v mask
  let now := s.flag F.MIR_CTL_EN
  if !s.endpoint then s
  else if was && !now then
    let s := if s.flag F.MIR_STAT_UP then s.mirDown else s
    s.setGpx 3 { s.gpx 3 with training := false }
  else if now && (!was || bit (v &&& mask) 1) then s.mirTrain else s

/-- A write of MIR_BARSZ: ignored while EN is 1 (R348). -/
def State.mirBarsz (s : State) (v mask : Word) : State :=
  if s.flag F.MIR_CTL_EN then s else s.regPut A.MIR_BARSZ v mask

/-- WIDTH of a link status field of four bits: sixteen lanes have no stated code, a free one (DESIGN CHOICE, log 3). -/
def State.widthCode (s : State) (w : Nat) : Nat := if w < 16 then w else Config.freeNat s.freeCtr

/-- PCIE_LINK_UP (R339, R346, R348): a port's training completes. -/
def execPcieLinkUp (p : Fin 4) (width rate : Nat) (cxlm pbr : Bool) (s : State) : Res :=
  .next (if !(s.gpx p.val).training then s
    else
      let s := s.lanesCount (1760 + 16 * p.val) width 16
      let s := s.setGpx p.val { GpSt.reset with width := width }
      let w := s.widthCode width
      let s := s.tick
      if p.val = 3 && s.endpoint then
        let s := ((s.wr F.MIR_STAT_WIDTH w).wr F.MIR_STAT_RATE rate).wr F.MIR_STAT_UP 1
        { s with mir := { s.mir with logA := s.rd F.MIR_BARSZ_LOG2A, logB := s.rd F.MIR_BARSZ_LOG2B } }
      else
        let cxl := cxlm && p.val != 3 && s.flag (F.GP_CTLr_CXL p.val)
        let s := ((s.wr (F.GP_STATr_WIDTH p.val) w).wr (F.GP_STATr_RATE p.val) rate).wr (F.GP_STATr_UP p.val) 1
        (s.wr (F.GP_STATr_CXLM p.val) (b2n cxl)).wr (F.GP_STATr_PBR p.val) (b2n (cxl && pbr)))

/-! Device windows (R344). -/

/-- Bytes of a device window: base and size. -/
def State.gdwRange (s : State) (w : Nat) : Nat × Nat :=
  (2 ^ 21 * s.rd (F.GDW_BASEw_BASE w), 2 ^ 21 * s.rd (F.GDW_SIZEw_SIZE w))

/-- Whether a device window may become valid. -/
def State.gdwOk (s : State) (w : Nat) : Bool :=
  let r := s.gdwRange w
  let p := s.rd (F.GDW_TGTw_PORT w)
  decide (p < 3) && s.gpUp p && s.flag (F.GP_STATr_CXLM p) && (List.range 8).all fun u =>
    u == w || !s.flag (F.GDW_TGTw_V u) || !rangesMeet r.1 r.2 (s.gdwRange u).1 (s.gdwRange u).2

/-- A write of GDW_TGTw. -/
def State.gdwTgt (s : State) (w : Nat) (v mask : Word) : State :=
  if s.flag (F.GDW_TGTw_V w) then s.regPut (A.GDW_TGTw w) v (mask &&& 3#64)
  else
    let s := s.regPut (A.GDW_TGTw w) v mask
    if s.flag (F.GDW_TGTw_V w) && !s.gdwOk w then (s.wr (F.GDW_TGTw_V w) 0).wr (F.GDW_TGTw_REFUSE w) 1 else s

/-- A write of another register of a device window. -/
def State.gdwOther (s : State) (w a : Nat) (v mask : Word) : State := if s.flag (F.GDW_TGTw_V w) then s else s.regPut a v mask

/-- GDW_VALIDATE (R344): a write of GDW_TGTw. -/
def execGdwValidate (w : Fin 8) (v : Word) (s : State) : Res := .next (s.gdwTgt w.val v fullMask)

/-! Link power and PTM (R355). -/

/-- Whether port p's link is up, whichever mode it is in. -/
def State.portUp (s : State) (p : Nat) : Bool := if p = 3 && s.endpoint then s.mirUp else s.gpUp p
/-- L0S_US of a port; the mirror port's lies in MIR_PM. -/
def State.l0sUs (s : State) (p : Nat) : Nat := if p = 3 then s.rd F.MIR_PM_L0S_US else s.rd (F.GP_PMr_L0S_US p)
/-- L1_US of a port. -/
def State.l1Us (s : State) (p : Nat) : Nat := if p = 3 then s.rd F.MIR_PM_L1_US else s.rd (F.GP_PMr_L1_US p)

/-- ASPM_L0S_ENTRY (R355). -/
def execAspmL0sEntry (p : Fin 4) (s : State) : Res :=
  .next (if s.portUp p.val && s.l0sUs p.val != 0 && (s.gpx p.val).aspm == 0 && (s.gpx p.val).reads == [] then
      s.setGpx p.val { s.gpx p.val with aspm := 1 }
    else s)
/-- ASPM_L1_ENTRY (R355). -/
def execAspmL1Entry (p : Fin 4) (partner : Bool) (s : State) : Res :=
  .next (if s.portUp p.val && partner && s.l1Us p.val != 0 && (s.gpx p.val).reads == [] then
      s.setGpx p.val { s.gpx p.val with aspm := 2 }
    else s)
/-- PTM_REQUEST (R355): the answer is the slate in ns. -/
def execPtmRequest (r : Fin 4) (s : State) : Res :=
  .next (if s.rootUp r.val then (s.wakeLink r.val).say (.time (BitVec.ofNat 64 (s.slate.toNat / 8))) else s)

/-! The mirror windows (R349, R350). -/

/-- The code of R350 that refuses a set of window x; 0 none. A set that is not valid is not checked. -/
def State.setCode (s : State) (x : Nat) (loc len attr : Word) : Nat :=
  if !bit attr 0 then 0
  else
    let n := len.toNat
    let c := s.rangeReason loc.toNat n (fget attr 10 12) (fget attr 22 10) (bit attr 2)
    let bad := n < 2 ^ 20 || 2 ^ (if x = 0 then s.rd F.MIR_BARSZ_LOG2A else s.rd F.MIR_BARSZ_LOG2B) < n
    if c ≠ 0 && c ≠ 6 then c else if bad then 5 else c

/-- A write of MW_COMMIT (R350). -/
def State.mwCommit (s : State) (v mask : Word) : State :=
  let s := s.regPut A.MW_COMMIT v mask
  let w := v &&& mask
  let xs := (if bit w 0 then [0] else []) ++ (if bit w 1 then [1] else [])
  if xs == [] || s.flag F.MW_COMMIT_BUSY then s
  else
    let sets := xs.map fun x => (x, s.rdw (A.MWx_NLOCAL x), s.rdw (A.MWx_NLEN x), s.rdw (A.MWx_NATTR x))
    match sets.findSome? fun c => let k := s.setCode c.1 c.2.1 c.2.2.1 c.2.2.2; if k = 0 then none else some k with
    | some k => (s.wr F.MW_COMMIT_REFUSED 1).wr F.MW_COMMIT_REASON k
    | none =>
      let s : State := { s.wr F.MW_COMMIT_BUSY 1 with mir := { s.mir with commit := sets } }
      if s.mirUp then s else s.mwSwitch

/-- MW_COMMIT (R350). -/
def execMwCommit (v : Word) (s : State) : Res := .next (if s.endpoint then s.mwCommit v fullMask else s)

/-- A refused TLP of the peer (R349). -/
def State.mwDrop (s : State) (x ofs : Nat) (np : Bool) : State :=
  let s := (s.inc F.MW_DROP_COUNT 1).wrw A.MW_DROPOFS (BitVec.ofNat 64 ofs)
  let s := ((s.wr F.MW_DROP_NP (b2n np)).wr F.MW_DROP_WIN x).wr F.MW_DROP_VALID 1
  if np then s.say .unsupported else s

/-- The physical address of an access to window x, if the active set accepts it (R349). -/
def State.mwMap (s : State) (x ofs n : Nat) (wr : Bool) : Option Nat :=
  let attr := s.rdw (A.MWx_ATTR x)
  let pa := (s.rdw (A.MWx_LOCAL x)).toNat + ofs
  if bit attr 0 && ofs + n ≤ (s.rdw (A.MWx_LEN x)).toNat && bit attr (if wr then 2 else 1) && s.targetOk pa n then some pa
  else none

/-- A TLP boundary of the inbound stream (R350). -/
def State.tlp (s : State) : State := (s.wakeLink 3).mwSwitch

/-- MIRROR_INBOUND_WRITE (R349). -/
def execMirrorInboundWrite (winB : Bool) (ofs : Nat) (data : List Byte) (s : State) : Res :=
  .next (if !s.mirUp then s
    else
      let s := s.tlp
      let x := b2n winB
      match s.mwMap x ofs data.length true with
      | some pa => if s.portMay 3 then s.homeWrites (portAgent 3) (data.length + 1) pa data (fget (s.rdw (A.MWx_ATTR x)) 22 10) else s
      | none => s.mwDrop x ofs false)

/-- A register that BAR0 presents to the peer (R351), as it reads. -/
def State.peerReg (s : State) (ofs : Nat) : Word :=
  let mirdom := (List.range 8).filter fun d => s.domEn d && s.flag (F.TDn_CFG_MIRTRIG d)
  if ofs = 0 then BitVec.ofNat 64 (s.nodeId * 2 ^ 8 + mirdom.foldl (fun v d => v + 2 ^ d) 0)
  else if 0x1000 ≤ ofs && ofs < 0x1080 then
    s.rdw (if ofs % 16 = 0 then A.MIR_RCn ((ofs - 0x1000) / 16) else A.MIR_RCTn ((ofs - 0x1000) / 16))
  else if 0x2000 ≤ ofs && ofs < 0x2040 then
    if mirdom.contains ((ofs - 0x2000) / 8) then BitVec.ofNat 64 (s.cutTake ((ofs - 0x2000) / 8)) else 0
  else 0

/-- The bytes of a read of BAR0. -/
def State.peerBytes (s : State) (ofs n : Nat) : List Byte :=
  (List.range n).map fun i => BitVec.ofNat 8 (fget (s.peerReg ((ofs + i) / 8 * 8)) (8 * ((ofs + i) % 8)) 8)

/-- MIRROR_INBOUND_READ (R349), and a read of BAR0 (R351): it waits for earlier posted writes (R353). -/
def execMirrorInboundRead (win : Fin 3) (ofs : Nat) (len : Nat) (s : State) : Res :=
  .next (if !s.mirUp || !s.streamClear 3 then s
    else
      let s := s.tlp
      if win.val = 2 then s.say (.data (s.peerBytes ofs len) false)
      else match s.mwMap win.val ofs len false with
        | some pa =>
          let v := s.homeReads (portAgent 3) (len + 1) pa len (fget (s.rdw (A.MWx_ATTR win.val)) 22 10)
          v.2.2.say (.data v.1 v.2.1)
        | none => s.mwDrop win.val ofs true)

/-- CUT_DB (R352, R353). -/
def execCutDb (v : Word) (s : State) : Res :=
  .next (if !s.mirUp || !s.streamClear 3 then s
    else
      let s := s.tlp
      let d := fget v 16 3
      let s := (s.wr (F.MIR_RCn_SEQ d) (fget v 0 16)).wrw (A.MIR_RCTn d) 0
      if !(s.domEn d && s.flag (F.TDn_CFG_MIRTRIG d)) then s.wr (F.MIR_RCn_STATE d) 4
      else
        let take := s.view (portAgent 3) d
        let s := s.wrw (A.MIR_RCTn d) take
        if s.spoiled d then s.wr (F.MIR_RCn_STATE d) 3
        else
          ((s.wr (F.MIR_RCn_STATE d) 1).rcFresh d).cutTrigger d)

/-- HOST_DB (R351, R353). -/
def execHostDb (i : Fin 16) (s : State) : Res :=
  .next (if !s.mirUp || !s.streamClear 3 then s
    else
      let s := s.tlp
      let p := s.rd F.MIR_DB_PEND
      if p.testBit i.val then s
      else (s.wr F.MIR_DB_PEND (p + 2 ^ i.val)).cueRaise ((s.rd F.MIR_CTL_CUEBASE + i.val) % 8192))

/-! The function's configuration space (R347, R348). -/

/-- A BAR with the address bits from lg up writable, as one of its halves is written. -/
def barWrite (old v : Word) (lg : Nat) (hi : Bool) : Word :=
  let w := if hi then fset old 32 32 (fget v 0 32) else fset old 0 32 (fget v 0 32)
  BitVec.ofNat 64 (w.toNat / 2 ^ lg * 2 ^ lg)

/-- The value a configuration read of the BARs returns: the address, and 64-bit and prefetchable marks. -/
def barRead (b : Word) (marks : Nat) (hi : Bool) : Word := BitVec.ofNat 64 (if hi then fget b 32 32 else fget b 0 32 + marks)

/-- MIRROR_CONFIG_REQUEST (R347, R348): reg is the byte offset of a doubleword of 32 bits, the BARs lying at 0x10 to 0x24.
What the spec does not state of the space reads as a free value and ignores writes. -/
def execMirrorConfigRequest (wr : Bool) (reg : Nat) (v : Word) (s : State) : Res :=
  .next (if !s.mirUp then s
    else
      let s := s.tlp
      let m := s.mir
      if wr then
        match reg with
        | 0x10 => { s with mir := { m with bar0 := barWrite m.bar0 v 20 false } }
        | 0x14 => { s with mir := { m with bar0 := barWrite m.bar0 v 20 true } }
        | 0x18 => { s with mir := { m with bar2 := barWrite m.bar2 v m.logA false } }
        | 0x1C => { s with mir := { m with bar2 := barWrite m.bar2 v m.logA true } }
        | 0x20 => { s with mir := { m with bar4 := barWrite m.bar4 v m.logB false } }
        | 0x24 => { s with mir := { m with bar4 := barWrite m.bar4 v m.logB true } }
        | _ => s
      else
        match reg with
        | 0x10 => s.say (.value (barRead m.bar0 0x4 false))
        | 0x14 => s.say (.value (barRead m.bar0 0 true))
        | 0x18 => s.say (.value (barRead m.bar2 0xC false))
        | 0x1C => s.say (.value (barRead m.bar2 0 true))
        | 0x20 => s.say (.value (barRead m.bar4 0xC false))
        | 0x24 => s.say (.value (barRead m.bar4 0 true))
        | 0x08 => s.tick.say (.value (BitVec.ofNat 64 (0x058000 * 2 ^ 8 + Config.freeNat s.freeCtr % 256)))
        | 0x00 => s.say (.value (BitVec.ofNat 64 (fget s.mir.ids 0 32)))
        | 0x2C => s.say (.value (BitVec.ofNat 64 (fget s.mir.ids 32 32)))
        | _ => s.tick.say (.value (BitVec.ofNat 64 (Config.freeNat s.freeCtr % 2 ^ 32))))

end Sys2Proof.Machine
end

