-- ==== Sys2Proof/Machine/Enclave.lean ====
section
/-!
DEFINITION. The key slots (R389 to R392), the enclave engine (R393 to R395) and the debug certificate (R409, R410).
-/
namespace Sys2Proof.Machine

/-! Key slots. -/

/-- Store the attributes of a key slot (R411): ENCID, ENC, KIND and V. -/
def State.ksAttr (s : State) (k encid kind : Nat) (enc v : Bool) : State :=
  s.wrw (A.KS_ATTRs k) (BitVec.ofNat 64 (encid * 16 + b2n enc * 8 + kind * 2 + b2n v))

/-- Whether a key slot holds a key. -/
def State.ksValid (s : State) (k : Nat) : Bool := s.flag (F.KS_ATTRs_V k)

/-- A random key enters a slot (R389): its identity is one that no other key has. -/
def State.ksRandom (s : State) (k encid : Nat) (enc : Bool) : State :=
  let s := s.ksAttr k encid 1 enc true
  { s with keyIds := SMap.put s.keyIds k (2 * s.nextId + 3), nextId := s.nextId + 1 }

/-- A sealed key enters a slot (R391): the same key context and label give the same key. -/
def State.ksSealed (s : State) (k : Nat) (label : BitVec 128) : State :=
  let ctx := match s.boot.sheet with | some x => x.keyContext.toNat | none => 0
  let s := s.ksAttr k 0 2 false true
  { s with keyIds := SMap.put s.keyIds k (2 * Config.sealedKey ctx label + 2) }

/-- Every cached line that carries a slot is written back where it is dirty, and dropped (R390). -/
def State.ksSweep (s : State) (k : Nat) : State :=
  (s.lines.filter fun c => c.2.kslot == k && c.2.held).foldl (fun s c => (s.cleanLine c.1).dropLine c.1) s

/-- A slot is swept and its key erased (R390). -/
def State.ksErase (s : State) (k : Nat) : State :=
  let s := (s.ksSweep k).ksAttr k 0 0 false false
  { s with keyIds := SMap.del s.keyIds k }

/-- Forget a slot's record in the key ledger (R391). -/
def State.ledgerDel (s : State) (k : Nat) : State := { s with sec := { s.sec with ledger := SMap.del s.sec.ledger k } }

/-- LOAD_RANDOM (R390). -/
def State.loadRandom (s : State) (k : Nat) : State :=
  if k = 0 then s.wr F.KS_STAT_RESULT 2
  else if s.ksValid k then s.wr F.KS_STAT_RESULT 5
  else (s.ksRandom k 0 false).wr F.KS_STAT_RESULT 1

/-- LOAD_SEALED (R390, R391), with the label of KS_LABEL0 and KS_LABEL1. -/
def State.loadSealed (s : State) (k : Nat) : State :=
  if k = 0 then s.wr F.KS_STAT_RESULT 2
  else if s.ksValid k then s.wr F.KS_STAT_RESULT 5
  else if s.sec.sealOff then s.wr F.KS_STAT_RESULT 4
  else
    let label : BitVec 128 := s.rdw A.KS_LABEL1 ++ s.rdw A.KS_LABEL0
    let s := (s.ksSealed k label).wr F.KS_STAT_RESULT 1
    { s with sec := { s.sec with ledger := SMap.put s.sec.ledger k label } }

/-- CLEAR (R390). -/
def State.ksClear (s : State) (k : Nat) : State :=
  if k = 0 then s.wr F.KS_STAT_RESULT 2
  else if s.flag (F.KS_ATTRs_ENC k) then s.wr F.KS_STAT_RESULT 3
  else ((s.ksErase k).ledgerDel k).wr F.KS_STAT_RESULT 1

/-- LOAD_RANDOM (R390): a write of KS_CMD. -/
def execLoadRandom (k : Fin 1024) (s : State) : Res := .next (s.loadRandom k.val)
/-- LOAD_SEALED (R391): a write of KS_CMD. -/
def execLoadSealed (k : Fin 1024) (s : State) : Res := .next (s.loadSealed k.val)
/-- KS_CLEAR (R390): a write of KS_CMD. -/
def execKsClear (k : Fin 1024) (s : State) : Res := .next (s.ksClear k.val)

/-- A write of KS_CMD (R390). -/
def State.ksCmd (s : State) (v : Word) : State :=
  let k := fget v 4 10
  match fget v 0 2 with
  | 1 => s.loadRandom k
  | 2 => s.loadSealed k
  | 3 => s.ksClear k
  | _ => s

/-! The engine's memory accesses: at home (log 65). -/

/-- A doubleword that the engine reads. -/
def State.engDw (s : State) (pa : Nat) : Word := BitVec.ofNat 64 (ofBytes (s.homeReads hubAgent 9 pa 8 0).1)
/-- A word of 32 bits that the engine reads. -/
def State.engWord (s : State) (pa : Nat) : BitVec 32 := BitVec.ofNat 32 (ofBytes (s.homeReads hubAgent 5 pa 4 0).1)
/-- The engine writes bytes through a key slot. -/
def State.engWrite (s : State) (pa : Nat) (bs : List Byte) (ks : Nat) : State :=
  s.homeWrites hubAgent (bs.length + 1) pa bs ks
/-- The engine writes a doubleword. -/
def State.engPut (s : State) (pa : Nat) (v : Word) : State := s.engWrite pa (bytesOf 8 v.toNat) 0
/-- The bytes of a granule of zeros. -/
def zeros (n : Nat) : List Byte := List.replicate n 0

/-- Zero-fill n lines from pa up, through slot 0 (R393). -/
def State.engZero (s : State) (pa n : Nat) : State :=
  (List.range n).foldl (fun s i => s.engWrite (pa + 64 * i) (zeros 64) 0) s

/-- The cached copies of a granule's lines are dropped without write-back (R394). -/
def State.dropGranule (s : State) (pa : Nat) : State :=
  (List.range 256).foldl (fun s i =>
    let l := pa / 64 + i
    if (s.line l).held then s.dropLine l else s) s

/-- The valid region that holds an address, where it is VOLATILE or PERSISTENT (R394). -/
def State.memRegion (s : State) (pa : Nat) : Bool := match s.regionOf pa with
  | some r => r.mtype == mtVolatile || r.mtype == mtPersistent
  | none => false

/-- The address of a granule's owner entry (R386). -/
def State.ownAddr (s : State) (pa : Nat) : Nat := 2 ^ 14 * s.rd F.POT_BASE_BASE + pa / 2 ^ 14 * 4
/-- The address of a block's summary entry (R386). -/
def State.sumAddr (s : State) (pa : Nat) : Nat := 2 ^ 14 * s.rd F.POT_SUMBASE_BASE + pa / 2 ^ 21 * 4
/-- Whether the tables cover an address (R174, R386). -/
def State.ownIn (s : State) (pa : Nat) : Bool := pa / 2 ^ 21 < s.rd F.POT_SPAN_TOP

/-- The owner entry in force for a granule: its block's summary where that is UNIFORM (R386). -/
def State.ownEntry (s : State) (pa : Nat) : BitVec 32 :=
  if !s.ownIn pa then 0
  else
    let u := s.engWord (s.sumAddr pa)
    if u.getLsbD 0 then u &&& 0xFFFFFFFE#32 else s.engWord (s.ownAddr pa)

/-- The engine writes a granule's owner entry. -/
def State.putOwner (s : State) (pa : Nat) (e : BitVec 32) : State := s.engWrite (s.ownAddr pa) (bytesOf 4 e.toNat) 0
/-- UNIFORM is cleared in the summary of a granule's block (R394). -/
def State.unUniform (s : State) (pa : Nat) : State :=
  s.engWrite (s.sumAddr pa) (bytesOf 4 (s.engWord (s.sumAddr pa) &&& 0xFFFFFFFE#32).toNat) 0

/-- Whether a granule lies in the page map (R387). -/
def State.inMap (s : State) (pa : Nat) : Bool :=
  s.rd F.ERMAP_LO_ADDR ≤ pa / 2 ^ 14 && pa / 2 ^ 14 < s.rd F.ERMAP_HI_ADDR
/-- The engine writes a granule's page-map doubleword, where the map has one (R387). -/
def State.putMap (s : State) (pa : Nat) (v : Word) : State :=
  if s.inMap pa then s.engPut (2 ^ 14 * s.rd F.ERMAP_BASE_ADDR + (pa / 2 ^ 14 - s.rd F.ERMAP_LO_ADDR) * 8) v else s

/-- Doubleword k of an enclave's entry as the engine reads it (R393). -/
def State.entDw (s : State) (id k : Nat) : Word := s.engDw (s.encAddr id + 8 * k)
/-- Store doubleword k of an enclave's entry. -/
def State.putEnt (s : State) (id k : Nat) (v : Word) : State := s.engPut (s.encAddr id + 8 * k) v
/-- STATE of an enclave (R393): 0 FREE, 1 BUILDING, 2 READY. -/
def State.encState (s : State) (id : Nat) : Nat := fget (s.entDw id 0) 0 2
/-- GRANULES of an enclave changes. -/
def State.putGranules (s : State) (id n : Nat) : State := s.putEnt id 3 (fset (s.entDw id 3) 32 32 n)

/-- The engine-private doublewords of a building enclave's entry hold free values (R393; DESIGN CHOICE, log 3). -/
def State.encPrivate (s : State) (id : Nat) : State :=
  (List.range 12).foldl (fun s k => (s.putEnt id (4 + k) (Config.freeWord s.freeCtr)).tick) s

/-- A measured record of 128 bytes (R395): doublewords 0 to 2, and the digest of its page. -/
def measRec (a b c : Word) (digest : List Byte) : List Byte :=
  let bs := bytesOf 8 a.toNat ++ bytesOf 8 b.toNat ++ bytesOf 8 c.toNat ++ digest
  bs ++ zeros (128 - bs.length)

/-- The 48 bytes of a SHA-384 digest, most significant first as FIPS 180-4 writes it. -/
def digestBytes (bs : List Byte) : List Byte := (bytesOf 48 (Config.sha384 bs).toNat).reverse

/-- A record is measured (R395). -/
def State.measure (s : State) (id : Nat) (r : List Byte) : State :=
  { s with sec := { s.sec with meas := SMap.put s.sec.meas id (SMap.get [] s.sec.meas id ++ r) } }

/-- The result of an ENC_CMD (R394). -/
def State.encResult (s : State) (r : Nat) : State := s.wr F.ENC_STAT_RESULT r
/-- ENC_ARGk. -/
def State.encArg (s : State) (k : Nat) : Word := s.rdw (A.ENC_ARGk k)
/-- A granule address in an argument: its bits below 14 are not used. -/
def granOf (w : Word) : Nat := 2 ^ 14 * (w.toNat / 2 ^ 14)

/-- ENCLAVE_CREATE (R394, R395) with the identifier and the key slot that are free. -/
def State.encCreateAt (s : State) (id slot : Option Nat) : State :=
  let a := s.encArg 0
  let save := granOf (s.encArg 2)
  match id, slot with
  | none, _ => s.encResult 3
  | _, none => s.encResult 2
  | some e, some k =>
    if !s.memRegion save || !s.ownIn save || ownType (s.ownEntry save) != 0 then s.encResult 5
    else
      let vm := fget a 0 12
      let s := (s.ksRandom k e true).engWrite save (zeros 16384) k
      let s := (s.unUniform save).putOwner save (BitVec.ofNat 32 (2 * 2 ^ 30 + 2 ^ 18 * vm + e * 2 ^ 6))
      let s := s.putMap save 0
      let dw0 := 2 ^ 18 * vm + k * 2 ^ 8 + fget a 15 3 * 2 ^ 5 + fget a 13 2 * 2 ^ 3 + fget a 12 1 * 2 ^ 2 + 1
      let s := ((s.putEnt e 0 (BitVec.ofNat 64 dw0)).putEnt e 1 (s.encArg 1)).putEnt e 2 (BitVec.ofNat 64 save)
      let s := (s.putEnt e 3 (BitVec.ofNat 64 (2 ^ 32))).encPrivate e
      let s := { s with sec := { s.sec with meas := SMap.put s.sec.meas e [] } }
      let s := s.measure e (measRec 1 (s.encArg 1)
        (BitVec.ofNat 64 (fget a 12 1 + fget a 13 2 * 2 + fget a 15 3 * 8)) [])
      (s.wr F.ENC_STAT_ID e).encResult 1
/-- ENCLAVE_CREATE (R394, R395): the lowest free identifier and the lowest empty key slot. -/
def State.encCreate (s : State) : State :=
  s.encCreateAt ((List.range 4096).find? fun e => e != 0 && s.encState e == 0) ((List.range 1024).find? fun k => !s.ksValid k)

/-- ADD (R394, R395). -/
def State.encAdd (s : State) : State :=
  let a := s.encArg 0
  let id := fget a 0 12
  let tgt := granOf (s.encArg 1)
  let src := granOf (s.encArg 2)
  let va := s.encArg 3
  let zero := bit a 14
  let page := if zero then (zeros 16384, false, s) else s.homeReads hubAgent 257 src 16384 0
  if s.encState id ≠ 1 then s.encResult 4
  else if !s.memRegion tgt || !s.ownIn tgt || !s.inMap tgt || ownType (s.ownEntry tgt) != 0
      || (!zero && (page.2.1 || (s.regionOf src).isNone)) then s.encResult 5
  else if !canonical va || va.toNat % 2 ^ 14 != 0 then s.encResult 6
  else
    let s := page.2.2
    let dw0 := s.entDw id 0
    let s := s.engWrite tgt page.1 (fget dw0 8 10)
    let e := 2 * 2 ^ 30 + 2 ^ 18 * fget dw0 18 12 + id * 2 ^ 6 + b2n (!bit a 12) * 2 ^ 4 + b2n (!bit a 13) * 2 ^ 3
    let s := (s.unUniform tgt).putOwner tgt (BitVec.ofNat 32 e)
    let s := s.putMap tgt (BitVec.ofNat 64 (2 ^ 63 + fget va 14 42))
    let s := (s.putGranules id (fget (s.entDw id 3) 32 32 + 1)).encPrivate id
    let s := s.measure id (measRec 2 va
      (BitVec.ofNat 64 (fget a 12 1 + fget a 13 1 * 2 + b2n zero * 4)) (digestBytes page.1))
    s.encResult 1

/-- FINAL (R394, R395): the measurement stands in doublewords 4 to 9. -/
def State.encFinal (s : State) : State :=
  let id := fget (s.encArg 0) 0 12
  if s.encState id ≠ 1 then s.encResult 4
  else
    let s := s.measure id (measRec 3 (BitVec.ofNat 64 (fget (s.entDw id 3) 32 32)) 0 [])
    let s := s.engWrite (s.encAddr id + 32) (digestBytes (SMap.get [] s.sec.meas id)) 0
    let s := s.putEnt id 0 (fset (s.entDw id 0) 0 2 2)
    ({ s with sec := { s.sec with meas := SMap.del s.sec.meas id } }).encResult 1

/-- Whether REMOVE and DESTROY are refused with 4 (R394): STATE FREE, or an entry slot ACTIVE. -/
def State.encBusy (s : State) (id : Nat) : Bool :=
  s.encState id == 0 || (List.range 8).any fun k => fget (s.entDw id 3) (2 * k) 2 == 1

/-- A granule leaves its enclave (R394): its cached copies are dropped, it is zeroed through slot 0, its owner entry becomes
UNOWNED and its page-map word 0. -/
def State.encRelease (s : State) (id pa : Nat) : State :=
  let s := (s.dropGranule pa).engWrite pa (zeros 16384) 0
  let s := (s.putOwner pa 0).putMap pa 0
  s.putGranules id (fget (s.entDw id 3) 32 32 - 1)

/-- REMOVE (R394). -/
def State.encRemove (s : State) : State :=
  let id := fget (s.encArg 0) 0 12
  let pa := granOf (s.encArg 1)
  let e := s.ownEntry pa
  if s.encBusy id then s.encResult 4
  else if ownType e != 2 || ownEnc e != id || pa == granOf (s.entDw id 2) then s.encResult 5
  else (s.encRelease id pa).encResult 1

/-- DESTROY (R394). -/
def State.encDestroy (s : State) : State :=
  let id := fget (s.encArg 0) 0 12
  if s.encBusy id then s.encResult 4
  else if fget (s.entDw id 3) 32 32 > 1 then s.encResult 7
  else
    let s := (s.encRelease id (granOf (s.entDw id 2))).ksErase (fget (s.entDw id 0) 8 10)
    let s := s.putEnt id 0 (fset (s.entDw id 0) 0 2 0)
    ({ s with sec := { s.sec with meas := SMap.del s.sec.meas id } }).encResult 1

/-- SLOTCLR (R394). -/
def State.encSlotclr (s : State) : State :=
  let id := fget (s.encArg 0) 0 12
  let k := fget (s.encArg 1) 0 3
  let dw0 := s.entDw id 0
  if s.encState id ≠ 2 || fget dw0 5 3 < k then s.encResult 4
  else
    let s := s.putEnt id 3 (fset (s.entDw id 3) (2 * k) 2 0)
    (s.engWrite (granOf (s.entDw id 2) + k * 0x400) (zeros 1024) (fget dw0 8 10)).encResult 1

/-- A command of the engine (R394): RESULT 8 while the table is off. -/
def State.encCmd (s : State) (f : State → State) : State := if s.flag F.ENCT_BASE_V then f s else s.encResult 8

/-- ENCLAVE_CREATE (R394): ENC_CMD.OP = 1. -/
def execEnclaveCreate (s : State) : Res := .next (s.encCmd State.encCreate)
/-- ENCLAVE_ADD (R394): OP = 2. -/
def execEnclaveAdd (s : State) : Res := .next (s.encCmd State.encAdd)
/-- ENCLAVE_FINAL (R394): OP = 3. -/
def execEnclaveFinal (s : State) : Res := .next (s.encCmd State.encFinal)
/-- ENCLAVE_REMOVE (R394): OP = 4. -/
def execEnclaveRemove (s : State) : Res := .next (s.encCmd State.encRemove)
/-- ENCLAVE_DESTROY (R394): OP = 5. -/
def execEnclaveDestroy (s : State) : Res := .next (s.encCmd State.encDestroy)
/-- ENCLAVE_SLOTCLR (R394): OP = 6. -/
def execEnclaveSlotclr (s : State) : Res := .next (s.encCmd State.encSlotclr)

/-- A write of ENC_CMD (R394). -/
def State.encWrite (s : State) (v : Word) : State := match fget v 0 4 with
  | 1 => s.encCmd State.encCreate
  | 2 => s.encCmd State.encAdd
  | 3 => s.encCmd State.encFinal
  | 4 => s.encCmd State.encRemove
  | 5 => s.encCmd State.encDestroy
  | 6 => s.encCmd State.encSlotclr
  | _ => s

/-- A write of ENCT_BASE (R393): on its way from 0 to 1, V is set only where the table lies in one valid VOLATILE region, which
zero-fills it. -/
def State.enctBase (s : State) (v mask : Word) : State :=
  let old := s.rdw A.ENCT_BASE
  let s := s.regPut A.ENCT_BASE v mask
  if s.flag F.ENCT_BASE_V && !bit old 0 then
    let pa := 2 ^ 19 * s.rd F.ENCT_BASE_BASE
    match s.regionOfRange pa (2 ^ 19) with
    | some r => if r.mtype == mtVolatile then s.engZero pa 8192 else s.wr F.ENCT_BASE_V 0
    | none => s.wr F.ENCT_BASE_V 0
  else s

/-- ENCT_BASE_VALIDATE (R393): a write of ENCT_BASE. -/
def execEnctBaseValidate (v : Word) (s : State) : Res := .next (s.enctBase v fullMask)

/-- ENC_MEASk as it reads (R395). -/
def State.encMeas (s : State) (k : Nat) : Word :=
  let id := s.rd F.ENC_SEL_ID
  if s.flag F.ENCT_BASE_V && s.encState id == 2 then s.entDw id (4 + k) else 0

/-! Forced exits without an exception entry (R406, R410). -/

/-- A thread in enclave mode performs steps 1 to 3 of R399 and stops with its pc at HRP. -/
def State.exitStop (s : State) (t : Tid) (r : Run) : State :=
  let x := s.thr t
  if x.enc && x.run != .halted then
    let s := (s.forcedExit t x.pc (x.slot.getD 0) x.slot.isSome x.repLeft).1
    s.setThr t { s.thr t with run := r }
  else s

/-- The threads that a condition picks do so. -/
def State.exitAll (s : State) (p : Nat → Bool) (r : Run) : State :=
  (List.finRange 432).foldl (fun s t => if p t.val then s.exitStop t r else s) s

/-! Debug certificates. -/

/-- The state that the certificate in DBG_CERTk requests (R409). -/
def State.dbgWant (s : State) : Nat := fget (s.rdw (A.DBG_CERTk 3)) 0 8

/-- The REASON that refuses the certificate (R409); 0 where it passes. The section DEBUGKEY applies from STEP 7 (R465). -/
def State.dbgReason (s : State) (sigOk : Bool) : Nat :=
  let step := s.rd F.BOOT_STAT_STEP
  let key := (step == 7 || step == 8) && match s.boot.sheet with | some x => x.debugKey | none => false
  if !key then 5
  else if !sigOk then 1
  else if s.rdw (A.DBG_CERTk 0) != s.rdw A.DBG_UID0 || s.rdw (A.DBG_CERTk 1) != s.rdw A.DBG_UID1 then 2
  else if s.rdw (A.DBG_CERTk 2) != s.rdw A.DBG_NONCE then 3
  else if s.dbgWant ≤ s.rd F.PKG_DBG_STATE || 2 < s.dbgWant then 4
  else 0

/-- Entering FULL (R410): the sweep and the erasure of CLEAR on every slot; the key ledger keeps its records (DESIGN CHOICE,
log 78). -/
def State.dbgFull (s : State) : State :=
  let s := s.exitAll (fun _ => true) .debugHalt
  let s := (List.range 1023).foldl (fun s k => if s.ksValid (k + 1) then s.ksErase (k + 1) else s) s
  let s := { s with sec := { s.sec with sealOff := true } }
  (s.wr F.DBG_AUTH_NLEVEL 2).wr F.DBG_AUTH_SLEVEL 2

/-- DBG_CMD.CHECK (R409): sigOk is whether the signature over the certificate is right. -/
def State.dbgCheck (s : State) (sigOk : Bool) : State :=
  let why := s.dbgReason sigOk
  let want := s.dbgWant
  let s := ((s.wrw A.DBG_NONCE (Config.freeWord s.freeCtr)).tick).logEvent 5 (why * 16 + want % 4)
  let s := s.wr F.PKG_DBG_REASON why
  if why ≠ 0 then s.wr F.PKG_DBG_FAIL 1
  else
    let s := (s.wr F.PKG_DBG_FAIL 0).wr F.PKG_DBG_STATE want
    if want = 2 then s.dbgFull else s

/-- DBG_CHECK (R409). -/
def execDbgCheck (sigOk : Bool) (s : State) : Res := .next (s.dbgCheck sigOk)

/-- A write of DBG_AUTH (R407, R410): ignored in FULL. -/
def State.dbgAuth (s : State) (v mask : Word) : State :=
  if s.rd F.PKG_DBG_STATE = 2 then s else s.regPut A.DBG_AUTH v mask

end Sys2Proof.Machine
end

