-- ==== Sys2Proof/Machine/Dailies.lean ====
section
/-!
DEFINITION. The always-on well: the calendar (R472 to R475), wear and thermal cycles (R480, R481, R484), the dailies in the
ferroelectric array (R476 to R479), and the loss of VAON (R470).
-/
namespace Sys2Proof.Machine

/-- Change what the well holds. -/
def State.setAon (s : State) (x : AonSt) : State := { s with aon := x }

/-! The calendar. -/

/-- The calendar as a number of 2^-20 s. -/
def State.calNow (s : State) : Nat := (s.rdw A.CAL_NOW).toNat
/-- CAL_STAT.TRIM, signed. -/
def State.calTrim (s : State) : Int := (BitVec.ofNat 32 (s.rd F.CAL_STAT_TRIM)).toInt

/-- 125 ps pass for the calendar (R472): at the end of each crystal period it advances by 32 units, one more or less where
TRIM has come to a unit. -/
def State.calTick (s : State) : State :=
  let x := s.aon
  if !x.up || !s.sl.xtalRun then s
  else if x.calPos + 1000 < 244140625 then s.setAon { x with calPos := x.calPos + 1000 }
  else
    let acc := x.trimAcc + 32 * s.calTrim
    let adj := acc.tdiv 100000000
    let s := s.setAon { x with calPos := x.calPos + 1000 - 244140625, trimAcc := acc - adj * 100000000 }
    s.wrw A.CAL_NOW (BitVec.ofNat 64 ((s.calNow : Int) + 32 + adj).toNat)

/-- The calendar time of the slate (R473): SECONDS of the epoch in force, in 2^-20 s. -/
def State.slateCal (s : State) : Nat :=
  let n : Int := s.sl.epoch.toInt * 2 ^ 20 + ((s.slate.toNat * 2 ^ 20 / unitsPerSec : Nat) : Int)
  n.toNat

/-- The calendar as a slate (R265, R269): 0 while it holds no set value. -/
def State.calSlate (s : State) : Nat :=
  if s.flag F.CAL_STAT_VALID then
    (((s.calNow : Int) - (BitVec.ofNat 32 (s.rd F.SLATE_EPOCH_SECONDS)).toInt * 2 ^ 20) * unitsPerSec / 2 ^ 20).toNat
  else 0

/-- The calendar takes a value (R473). -/
def State.calPut (s : State) (v : Word) : State :=
  let s := s.setAon { s.aon with discAt := v.toNat }
  ((s.wrw A.CAL_NOW v).wr F.CAL_STAT_VALID 1).wr F.CAL_STAT_DISC 1

/-- TRIM takes up the error of the calendar over the 64 s since the last update (R473), within 100 ppm. -/
def State.calRetrim (s : State) : State :=
  let err : Int := (s.slateCal : Int) - s.calNow
  let t := s.calTrim + (err * 100000000).tdiv (64 * 2 ^ 20)
  let t := if t < -10000 then -10000 else if 10000 < t then 10000 else t
  s.wr F.CAL_STAT_TRIM (BitVec.ofInt 32 t).toNat

/-- The well disciplines the calendar at an update while the slate is in TRACK (R473). -/
def State.discipline (s : State) : State :=
  if s.slateState = 3 then
    let s := if s.aon.calDisc then s.calRetrim else s
    (s.calPut (BitVec.ofNat 64 s.slateCal)).setAon { s.aon with calDisc := true }
  else s.setAon { s.aon with calDisc := false }

/-- CAL_SET (R473, R485): from M, and ignored in TRACK. -/
def State.calSet (s : State) (v : Word) : State :=
  if s.slateState = 3 then s else (s.logEvent 7 (s.rd F.CAL_NOW_SECONDS % 2 ^ 32)).calPut v

/-- CAL_SET (R473): a write of CAL_SET. -/
def execCalSet (v : Word) (lvl : Lvl) (s : State) : Res := .next (if lvl.val = 3 then s.calSet v else s)

/-! Wear and thermal cycles. -/

/-- The largest r below 2^n above r0 with r^50 at most lim, bit by bit. -/
def root50 (lim : Nat) : Nat → Nat → Nat
  | 0, r => r
  | k + 1, r => root50 lim k (if (r + 2 ^ k) ^ 50 ≤ lim then r + 2 ^ k else r)

/-- The wear of 1 ms in 2^-64 units (R480), at t degrees and mv millivolts: af * 2^64 / 3,600,000, where af is 2 to the power
of (5 (t - 85) + (mv - 850)) / 50. -/
def wearOf (t mv : Nat) : Nat :=
  let n : Int := 5 * ((Nat.max t 25 : Nat) - 85 : Int) + ((mv : Int) - 850)
  root50 (2 ^ (n + 3200).toNat / 3600000 ^ 50) 200 0

/-- One sample's wear of a die (R480): the remainder is carried. -/
def State.wearAdd (s : State) (i t mv : Nat) : State :=
  let n := s.rd (F.DLY_WEARi_UNITS i) * 2 ^ 32 + SMap.get 0 s.aon.wearRem i + wearOf t mv
  let s := s.setAon { s.aon with wearRem := SMap.put s.aon.wearRem i (n % 2 ^ 32) }
  s.wr (F.DLY_WEARi_UNITS i) (Nat.min (n / 2 ^ 32) (2 ^ 64 - 1))

/-- A thermal-cycle detector sees a temperature (R481): past a fall of dt from a peak it waits for a rise of dt from the
lowest value since. Answers its state, and whether a cycle is complete. -/
def cycleStep (dt t : Nat) (x : Bool × Nat) : (Bool × Nat) × Bool :=
  if x.1 then
    let low := Nat.min x.2 t
    if low + dt ≤ t then ((false, t), true) else ((true, low), false)
  else
    let peak := Nat.max x.2 t
    if t + dt ≤ peak then ((true, t), false) else ((false, peak), false)

/-- One detector of a die: j = 0 for 20 degrees, 1 for 60. -/
def State.cycleAdd (s : State) (i j t : Nat) : State :=
  let k := 13 * j + i
  let r := cycleStep (if j = 0 then 20 else 60) t (SMap.get (false, 0) s.aon.cycles k)
  let s := s.setAon { s.aon with cycles := SMap.put s.aon.cycles k r.1 }
  if r.2 then s.incSat (if j = 0 then F.DLY_CYCLESi_C20 i else F.DLY_CYCLESi_C60 i) 1 else s

/-- The wear and the cycles of one sample (R480, R481): of each die whose rail is in range. -/
def State.wearSample (s : State) (dies : List (Option (Nat × Nat))) : State :=
  (List.range 13).foldl (fun s i => match dies.getD i none with
    | some (t, mv) => ((s.wearAdd i t mv).cycleAdd i 0 t).cycleAdd i 1 t
    | none => s) s

/-- The budget of a die in 2^-32 units (R480). -/
def wearBudget : Nat := 350640 * 2 ^ 32

/-- The remaining days of a die (R484); none where its history shows no power. -/
def State.remainDays (s : State) (i : Nat) : Option Nat :=
  let h := SMap.get [] s.aon.hist i
  let sum := h.foldl (· + ·) 0
  let used := s.rd (F.DLY_WEARi_UNITS i)
  if sum = 0 then none else some (Nat.min ((wearBudget - used) * h.length / sum) (2 ^ 32 - 1))

/-- The die with the fewest remaining days, the lowest where several have them. -/
def State.lifeDie (s : State) : Option (Nat × Nat) :=
  (List.range 13).foldl (fun b i => match s.remainDays i, b with
    | some d, some (j, e) => if d < e then some (i, d) else some (j, e)
    | some d, none => some (i, d)
    | none, b => b) none

/-- WEAR_DAY (R484). -/
def execWearDay (s : State) : Res :=
  let s := (List.range 13).foldl (fun s i =>
    let u := s.rd (F.DLY_WEARi_UNITS i)
    let h := (u - SMap.get 0 s.aon.wearDay i) :: SMap.get [] s.aon.hist i
    s.setAon { s.aon with hist := SMap.put s.aon.hist i (h.take 30), wearDay := SMap.put s.aon.wearDay i u }) s
  let s := match s.lifeDie with
    | some (i, d) => (s.wr F.DLY_LIFE_DIE (if i = 12 then 15 else i)).wr F.DLY_LIFE_REMAIN_DAYS d
    | none => s
  .next s.dlyStore

/-- Whether PWRGOOD time passes (R488): the package is neither without power nor in OFF. -/
def State.powered (s : State) : Bool := s.power != .unpowered && s.power != .off

/-- DAILIES_UPDATE (R473, R478): 64 s of power-on time have passed. -/
def execDailiesUpdate (s : State) : Res :=
  .next (if s.powered then ((s.incSat F.DLY_POWERON_SECONDS 64).discipline).dlyStore else s)

/-! VAON. -/

/-- Whether an address is one of the dailies' registers (R488). -/
def isDly (a : Nat) : Bool := 0xFE0006001000 ≤ a && a < 0xFE0006005000
/-- Whether an address is a register that the well keeps. -/
def isAon (a : Nat) : Bool := match regAt regTable a with
  | some (r, _, _) => r.aon
  | none => false

/-- The registers of the well as VAON finds them again (R470): the dailies from the array, SLATE_EPOCH kept, all else at its
reset value. -/
def State.aonReload (s : State) : SMap Word :=
  let rest := SMap.keep (fun a _ => !isAon a || a = A.SLATE_EPOCH) s.io
  s.aon.array.foldl (fun m c => SMap.put m c.1 c.2) rest

/-- VAON_RETURN (R470). -/
def execVaonReturn (s : State) : Res :=
  .next (if s.aon.up then s
    else
      let s := { s with
        io := s.aonReload,
        aon := { s.aon with wearRem := [], cycles := [], calPos := 0, trimAcc := 0, calDisc := false, up := true },
        pins := { s.pins with chat := [], stuck := [] }, wrap := { s.wrap with thermOut := false } }.wrw A.PAD_RELEASE 0
      let s := (s.wr F.AON_STAT_VAONLOST 1).incSat F.DLY_EVENTS_VAONLOSS 1
      s.logEvent 6 0)

end Sys2Proof.Machine
end

