-- ==== Sys2Proof/Machine/Runner.lean ====
section
/-!
DEFINITION. The runners (R358 to R374): rings, descriptors, their operations in units of 4 KiB, completion records, resizing
and function reset.
-/
namespace Sys2Proof.Machine

/-- RN_CFG.MODE is 1, quiesce (R358). -/
def State.rnQuiesce (s : State) : Bool := s.flag F.RN_CFG_MODE
/-- Whether function f is presented (R358). -/
def State.vrfHere (s : State) (f : Nat) : Bool := f < 64 || s.rnQuiesce
/-- VRF_CTL.EN. -/
def State.vrfOn (s : State) (f : Nat) : Bool := s.flag (F.VRF_CTL_EN f)
/-- The depth of the rings (R361). -/
def State.vrfDepth (s : State) (f : Nat) : Nat := 2 ^ s.rd (F.VRF_SQCFG_LOG2 f)

/-- A function stops with a reason (R361, R365, R369). -/
def State.vrfStop (s : State) (f err : Nat) : State := (s.wr (F.VRF_STAT_STOPPED f) 1).wr (F.VRF_STAT_ERR f) err

/-- The index error of R361. -/
def State.vrfCheck (s : State) (f : Nat) : State :=
  if s.vrfOn f && s.vrfDepth f < (s.rd (F.VRF_SQTAIL_TAIL f) + 65536 - s.rd (F.VRF_SQHEAD_HEAD f)) % 65536 then s.vrfStop f 1
  else s

/-- The windows of a function (R365). -/
def vrhRef (f i : Nat) : WinRef := ⟨F.VRH_WIN_BASE_BASE f i, F.VRH_WIN_SIZE_LOG2 f i, F.VRH_WIN_PA_PA f i, A.VRH_WIN_ATTR f i⟩
/-- All eight of them. -/
def vrhAll (f : Nat) : List WinRef := (List.range 8).map (vrhRef f)
/-- The physical address of a function's range (R365). -/
def State.vrfMap (s : State) (f a n : Nat) (wr : Bool) : Option Nat := (s.winMap (vrhAll f) a n wr).map (·.1)
/-- The key slot of a function's accesses. -/
def State.vrfKs (s : State) (f : Nat) : Nat := s.rd (F.VRH_CTL_KSLOT f)

/-- A write of a window's attribute register (R365). -/
def State.vrhAttr (s : State) (f i : Nat) (v mask : Word) : State :=
  s.winAttr (vrhRef f i) (vrhAll f) (fun s => (s.rd (F.VRH_CTL_VMID f), s.rd (F.VRH_CTL_KSLOT f))) v mask

/-- VRH_WIN_VALIDATE (R365): a write of the attribute register of window i. -/
def execVrhWinValidate (f : Fin 256) (i : Fin 8) (v : Word) (s : State) : Res :=
  .next (if s.vrfHere f.val then s.vrhAttr f.val i.val v fullMask else s)

/-- The requester number of engine e for function f (R211, R373). -/
def rnAgent (e f : Nat) : Nat := 12 + e + 64 * (f + 1)

/-- The writes of an engine that no home has accepted yet. -/
def State.engineOut (s : State) (e : Nat) : Nat :=
  (s.lines.map fun c => (c.2.queue.filter fun q => match q with
    | .wr a _ _ _ _ => viewAgent a == 12 + e
    | _ => false).length).sum

/-- Whether an engine may issue requests: it holds fewer than its credits (R366, R367). -/
def State.engineMay (s : State) (e : Nat) : Bool := s.engineOut e < s.rd (F.RN_ENGe_CREDITS e)

/-! Descriptors (R361, R362). -/

/-- LEN. -/
def Job.len (j : Job) : Nat := fget (j.w 0) 32 32
/-- CUE. -/
def Job.cue (j : Job) : Bool := bit (j.w 0) 8
/-- FENCE. -/
def Job.fence (j : Job) : Bool := bit (j.w 0) 9
/-- DB. -/
def Job.db (j : Job) : Bool := bit (j.w 0) 10

/-- A descriptor refused with BAD_DESC (R363). -/
def Job.bad (j : Job) : Bool :=
  j.op == 0 || 5 < j.op || fget (j.w 0) 11 21 != 0 || j.w 7 != 0 || j.len == 0
    || (j.op == 1 && rangesMeet (j.w 1).toNat j.len (j.w 2).toNat j.len) || (j.op == 5 && j.db && (j.w 5).toNat % 8 != 0)

/-- The doublewords of a 64-byte descriptor. -/
def dwsOf (bs : List Byte) : List Word := (List.range 8).map fun i => BitVec.ofNat 64 (ofBytes ((bs.drop (8 * i)).take 8))

/-- Records not yet consumed, and descriptors fetched and not completed (R361). -/
def State.vrfLoad (s : State) (f : Nat) : Nat :=
  (s.rd (F.VRF_CQTAIL_TAIL f) + 65536 - s.rd (F.VRF_CQHEAD_HEAD f)) % 65536 + (s.vrf f).jobs.length

/-- Whether a function fetches (R249, R361, R368, R374). -/
def State.vrfFetches (s : State) (f : Nat) : Bool :=
  s.works && s.vrfHere f && s.vrfOn f && !s.flag (F.VRF_STAT_STOPPED f) && !s.flag (F.VRH_CTL_QUIESCE f)
    && s.rd (F.VRF_SQTAIL_TAIL f) != s.rd (F.VRF_SQHEAD_HEAD f) && s.vrfLoad f < s.vrfDepth f

/-- The fetch of a descriptor (R361, R365, R369). -/
def State.vrfFetch (s : State) (f : Nat) : State :=
  let i := s.rd (F.VRF_SQHEAD_HEAD f)
  match s.vrfMap f (4096 * s.rd (F.VRF_SQBASE_BASE f) + i % s.vrfDepth f * 64) 64 false with
  | none => s.vrfStop f 2
  | some pa =>
    let v := s.homeReads hubAgent 65 pa 64 (s.vrfKs f)
    let s := v.2.2
    if v.2.1 then s.vrfStop f 3
    else
      let j : Job := { index := i, dw := dwsOf v.1, engine := none, port := 0, cls := 0, pos := 0, acc := 0,
                        ended := none, sent := false }
      let j : Job := { j with ended := if j.bad then some (4, 0) else none, acc := if j.op = 3 then fget (j.w 3) 0 32 else 0 }
      let x := s.vrf f
      (s.setVrf f { x with jobs := x.jobs ++ [j] }).wr (F.VRF_SQHEAD_HEAD f) ((i + 1) % 65536)

/-- DESCRIPTOR_FETCH (R361). -/
def execDescriptorFetch (f : Fin 256) (s : State) : Res := .next (if s.vrfFetches f.val then s.vrfFetch f.val else s)

/-- A write of VRF_SQTAIL (R361). -/
def State.sqTail (s : State) (f : Nat) (v mask : Word) : State := (s.regPut (A.VRF_SQTAIL f) v mask).vrfCheck f
/-- VRF_SQTAIL (R361). -/
def execVrfSqtail (f : Fin 256) (v : Word) (s : State) : Res :=
  .next (if s.vrfHere f.val then s.sqTail f.val v fullMask else s)

/-- A write of VRF_CTL: EN only where the host allows it (R369). -/
def State.vrfCtl (s : State) (f : Nat) (v mask : Word) : State :=
  if s.flag (F.VRH_CTL_ALLOW f) then (s.regPut (A.VRF_CTL f) v mask).vrfCheck f else s
/-- VRF_EN (R361, R369). -/
def execVrfEn (f : Fin 256) (v : Word) (s : State) : Res := .next (if s.vrfHere f.val then s.vrfCtl f.val v fullMask else s)

/-- A ring base: fixed while EN (R369). -/
def State.ringBase (s : State) (f a : Nat) (v mask : Word) : State := if s.vrfOn f then s else s.regPut a v mask

/-! Resizing (R368). -/

/-- A write of VRF_SQCFG (R368): the depth changes at once, or waits. A reserved encoding changes nothing (R16). -/
def State.sqCfg (s : State) (f : Nat) (v mask : Word) : State :=
  let s := s.regPut (A.VRF_SQCFG f) v mask
  let k := fget (v &&& mask) 8 5
  if mask &&& 0x1F00#64 = 0 || k < 4 || 15 < k then s
  else if s.vrfOn f then s.setVrf f { s.vrf f with next := some k }
  else (s.wr (F.VRF_SQCFG_LOG2 f) (s.rd (F.VRF_SQCFG_NLOG2 f))).setVrf f { s.vrf f with next := none }

/-- VRF_NLOG2_WRITE (R368). -/
def execVrfNlog2Write (f : Fin 256) (v : Word) (s : State) : Res :=
  .next (if s.vrfHere f.val then s.sqCfg f.val v fullMask else s)

/-- RING_RESIZE (R368): the rings are drained. -/
def execRingResize (f : Fin 256) (s : State) : Res :=
  .next (match (s.vrf f.val).next with
    | some k =>
      if s.rd (F.VRF_SQHEAD_HEAD f.val) = s.rd (F.VRF_SQTAIL_TAIL f.val)
          && s.rd (F.VRF_CQHEAD_HEAD f.val) = s.rd (F.VRF_CQTAIL_TAIL f.val) && (s.vrf f.val).jobs == [] then
        let s := s.setVrf f.val { s.vrf f.val with next := none }
        let s := ((s.wr (F.VRF_SQCFG_LOG2 f.val) k).wr (F.VRF_SQHEAD_HEAD f.val) 0).wr (F.VRF_SQTAIL_TAIL f.val) 0
        ((s.wr (F.VRF_CQHEAD_HEAD f.val) 0).wr (F.VRF_CQTAIL_TAIL f.val) 0).wr (F.VRF_STAT_RESIZED f.val) 1
      else s
    | none => s)

/-! The operations, one unit at a time (R363 to R366). -/

/-- What part of a unit has done: the state, the checksum, and where it stopped, as STATUS and RESULT. -/
structure UnitRes where
  s    : State
  acc  : Nat
  stop : Option (Nat × Nat)

/-- A 16-bit ones'-complement sum of big-endian pairs of bytes, an odd last byte padded with zero (R363). -/
def sum16 : List Byte → Nat → Nat
  | [], a => a
  | [b], a => a + b.toNat * 256
  | b :: c :: q, a => sum16 q (a + b.toNat * 256 + c.toNat)

/-- A sum folded into 16 bits with its carries. -/
def fold16 (a : Nat) : Nat := if a = 0 then 0 else (a - 1) % 65535 + 1

/-- Read and use the source line by line: n bytes at src, whose offset in the descriptor is ofs. dst is where a copy goes. -/
def unitRead (f agent : Nat) (op ks dst : Nat) : Nat → Nat → Nat → Nat → UnitRes → UnitRes
  | 0, _, _, _, r => r
  | fuel + 1, src, ofs, n, r =>
    if n = 0 || r.stop.isSome then r
    else
      let k := Nat.min n (64 - src % 64)
      let v := r.s.homeReads agent 2 src k ks
      if v.2.1 then { r with s := v.2.2, stop := some (3, ofs) }
      else
        let r : UnitRes := match op with
          | 1 => { r with s := v.2.2.homeWrites agent 3 (dst + ofs) v.1 ks }
          | 3 => { r with s := v.2.2, acc := (crc32c (BitVec.ofNat 32 r.acc) v.1).toNat }
          | 4 => { r with s := v.2.2, acc := fold16 (r.acc + (if ofs % 2 = 0 then sum16 v.1 0 else sum16 (0 :: v.1) 0)) }
          | _ => { r with s := v.2.2 }
        unitRead f agent op ks dst fuel (src + k) (ofs + k) (n - k) r

/-- The bytes of a pattern from offset ofs on, n of them (R363). -/
def fillBytes (pat : Word) (ofs n : Nat) : List Byte := (List.range n).map fun i => BitVec.ofNat 8 (fget pat (8 * ((ofs + i) % 8)) 8)

/-- Where a descriptor goes on: the physical source and destination, or the STATUS that refuses it (R363, R365). What refuses a SHIP
as NOT_ALLOWED is checked at its start. -/
def State.jobMap (s : State) (f : Nat) (j : Job) : Except Nat (Nat × Nat) :=
  let src := s.vrfMap f (j.w 1).toNat j.len false
  let dst := s.vrfMap f (j.w 2).toNat j.len true
  match j.op with
  | 1 => match src, dst with
    | some a, some b => .ok (a, b)
    | _, _ => .error 2
  | 2 => match dst with
    | some b => .ok (0, b)
    | none => .error 2
  | 5 =>
    if j.pos = 0 && (!s.flag (F.VRH_CTL_SHIPEN f) || !s.rootUp j.port) then .error 6
    else match src with
      | some a => .ok (a, (j.w 2).toNat)
      | none => .error 2
  | _ => match src with
    | some a => .ok (a, 0)
    | none => .error 2

/-- The posted writes of a SHIP (R363): at most 512 bytes each, in ascending order. -/
def State.shipOut (s : State) (port : Nat) : Nat → Nat → List Byte → State
  | 0, _, _ => s
  | fuel + 1, a, bs =>
    if bs.isEmpty then s else State.shipOut ((s.linkAwake port).say (.post port a (bs.take 512))) port fuel (a + 512) (bs.drop 512)

/-- RESULT of a descriptor that has run to its end (R363). -/
def Job.result (j : Job) (acc : Nat) : Nat := if j.op = 3 then acc else if j.op = 4 then 65535 - acc else 0

/-- One unit of a descriptor that has started on engine e (R363 to R366). -/
def State.runUnit (s : State) (f e : Nat) (j : Job) : State × Job :=
  let n := Nat.min 4096 (j.len - j.pos)
  let ks := s.vrfKs f
  match s.jobMap f j with
  | .error c => (s, { j with ended := some (c, 0) })
  | .ok (src, dst) =>
    let fin (s : State) (acc : Nat) : State × Job :=
      if j.pos + n = j.len then
        let s := if j.op = 5 && j.db then s.say (.post j.port (j.w 5).toNat (bytesOf 8 (j.w 6).toNat)) else s
        (s, { j with pos := j.pos + n, acc := acc, ended := some (0, j.result acc) })
      else (s, { j with pos := j.pos + n, acc := acc })
    if j.op = 2 then
      fin (s.homeWrites (rnAgent e f) (n + 1) (dst + j.pos) (fillBytes (j.w 3) j.pos n) ks) 0
    else if j.op = 5 then
      let v := s.homeReads (rnAgent e f) (n + 1) (src + j.pos) n ks
      if v.2.1 then
        let r := unitRead f (rnAgent e f) 5 ks 0 (n + 1) (src + j.pos) j.pos n ⟨s, 0, none⟩
        (r.s, { j with ended := some (r.stop.getD (3, j.pos)) })
      else fin (v.2.2.shipOut j.port (n + 1) (dst + j.pos) v.1) 0
    else
      let r := unitRead f (rnAgent e f) j.op ks dst (n + 1) (src + j.pos) j.pos n ⟨s, j.acc, none⟩
      match r.stop with
      | some x => (r.s, { j with ended := some x })
      | none => fin r.s r.acc

/-- Replace the i-th job of a function. -/
def State.setJob (s : State) (f i : Nat) (j : Job) : State := s.setVrf f { s.vrf f with jobs := (s.vrf f).jobs.set i j }

/-- Engine e has a place for a descriptor of function f: fewer than eight in progress, none of f (R366). -/
def State.engineFree (s : State) (e f : Nat) : Bool :=
  let on := (s.vrfs.filter fun c => c.2.jobs.any fun j => j.busy && j.engine == some e).map (·.1)
  on.length < 8 && !on.contains f

/-- The class that the requests of a virtual machine carry where they come from a function or through an inbound window (R380). -/
def State.vmClass (s : State) (v : Nat) : Nat := if s.flag (F.QOS_MAPv_V v) then s.rd (F.QOS_MAPv_CLASS v) else 63

/-- The engines that can take a descriptor of function f (R366). -/
def State.engines (s : State) (f : Nat) : List Nat :=
  (List.range 32).filter fun e => (s.rd (F.VRH_ENG_MASK f)).testBit e && s.engineFree e f && s.engineMay e

/-- The next descriptor of a function starts, on one of the engines that can take it, a free choice, and does its first unit (R366). FENCE and
ring order: every earlier one has started, and with FENCE it has completed. -/
def State.jobStart (s : State) (f op : Nat) : State :=
  let js := (s.vrf f).jobs
  match js.findIdx? fun j => j.engine.isNone && j.ended.isNone with
  | none => s
  | some i => match js[i]? with
    | none => s
    | some j =>
      if j.op ≠ op || (j.fence && i != 0) || s.flag (F.VRH_CTL_QUIESCE f) then s
      else match (s.engines f)[Config.freeNat s.freeCtr % (s.engines f).length]? with
        | none => s
        | some e =>
          let r := s.tick.runUnit f e { j with
            engine := some e, port := s.rd (F.VRH_CTL_SHIPPORT f), cls := s.vmClass (s.rd (F.VRH_CTL_VMID f)) }
          (r.1.setJob f i r.2).vrfActive f

/-- RUN_COPY (R363). -/
def execRunCopy (f : Fin 256) (s : State) : Res := .next (s.jobStart f.val 1)
/-- RUN_FILL (R363). -/
def execRunFill (f : Fin 256) (s : State) : Res := .next (s.jobStart f.val 2)
/-- RUN_CRC (R135, R363). -/
def execRunCrc (f : Fin 256) (s : State) : Res := .next (s.jobStart f.val 3)
/-- RUN_CSUM (R363). -/
def execRunCsum (f : Fin 256) (s : State) : Res := .next (s.jobStart f.val 4)
/-- RUN_SHIP (R363). -/
def execRunShip (f : Fin 256) (s : State) : Res := .next (s.jobStart f.val 5)

/-- The functions with a descriptor in progress on engine e, ascending. -/
def State.engineFns (s : State) (e : Nat) : List Nat :=
  (s.vrfs.filter fun c => c.2.jobs.any fun j => j.busy && j.engine == some e).map (·.1)

/-- The function whose unit comes next on engine e, and the units it has left in this turn (R366): each function gets SHARE
units in turn. -/
def State.nextTurn (s : State) (e : Nat) : Option (Nat × Nat) :=
  let fs := s.engineFns e
  let t := SMap.get (0, 0) s.turns e
  if t.2 ≠ 0 && fs.contains t.1 then some (t.1, t.2 - 1)
  else match (fs.find? fun f => t.1 < f).or fs.head? with
    | some f => some (f, s.rd (F.VRH_CTL_SHARE f) - 1)
    | none => none

/-- RUNNER_UNIT_DONE (R366): the engine does its next unit, where it has a credit. -/
def execRunnerUnitDone (e : Fin 32) (s : State) : Res :=
  .next (match (if s.engineMay e.val then s.nextTurn e.val else none) with
    | none => s
    | some (f, left) =>
      let s := { s with turns := SMap.put s.turns e.val (f, left) }
      let js := (s.vrf f).jobs
      match js.findIdx? fun j => j.busy && j.engine == some e.val with
      | none => s
      | some i => match js[i]? with
        | none => s
        | some j =>
          let r := s.runUnit f e.val j
          (r.1.setJob f i r.2).vrfActive f)

/-! Completion records (R364, R370). -/

/-- The engine by which a descriptor's record is written: its own, or the first where it never started. -/
def Job.agent (j : Job) (f : Nat) : Nat := rnAgent (j.engine.getD 0) f

/-- Send a descriptor's record to its home at CQTAIL; none where its translation fails. -/
def State.sendRecord (s : State) (f : Nat) (j : Job) (st res gen : Nat) : Option State :=
  (s.vrfMap f (4096 * s.rd (F.VRF_CQBASE_BASE f) + s.rd (F.VRF_CQTAIL_TAIL f) % s.vrfDepth f * 16) 16 true).map fun pa =>
    let w := 2 ^ 32 * (res % 2 ^ 32) + 2 ^ 24 * (gen % 256) + 2 ^ 16 * st + j.index
    s.homeWrites (j.agent f) 17 pa (bytesOf 8 (j.w 4).toNat ++ bytesOf 8 w) (s.vrfKs f)

/-- A record of STATUS st is counted, and CQTAIL moves past it (R361, R369). -/
def State.countRecord (s : State) (f st : Nat) : State :=
  let s := s.wr (F.VRF_CQTAIL_TAIL f) ((s.rd (F.VRF_CQTAIL_TAIL f) + 1) % 65536)
  if st = 1 then s.inc (F.VRH_STAT_DISC f) 1 else if 2 ≤ st then s.incSat (F.VRH_STAT_FAULTS f) 1 else s

/-- The completion cue of a record that is visible (R370). -/
def State.recordCue (s : State) (f : Nat) : State :=
  if s.flag (F.VRH_CUE_EN f) then s.cueRaise (s.rd (F.VRH_CUE_VECTOR f)) else s

/-- Bits [31:24] of a function's records (R358). -/
def State.recordGen (s : State) (f : Nat) : Nat := if s.rnQuiesce then f else s.rd (F.VRF_STAT_GEN f)

/-- Whether every write of a descriptor, its record included, has been accepted at its home. -/
def State.jobSettled (s : State) (f : Nat) (j : Job) : Bool := s.wrWaits (j.agent f) == []

/-- Whether no home has a write of a function still to accept. -/
def State.vrfSettled (s : State) (f : Nat) : Bool := (List.range 32).all fun e => s.wrWaits (rnAgent e f) == []

/-- The cues that a reset's records owe are raised once the records are visible (R370). -/
def State.cuesOwed (s : State) (f : Nat) : State :=
  if (s.vrf f).cues ≠ 0 && s.vrfSettled f then
    (List.range (s.vrf f).cues).foldl (fun s _ => s.recordCue f) (s.setVrf f { s.vrf f with cues := 0 })
  else s

/-- The record of the oldest descriptor has been accepted at its home: the descriptor has completed. -/
def State.recordDone (s : State) (f : Nat) (j : Job) (st : Nat) : State :=
  let s := (s.setVrf f { s.vrf f with jobs := (s.vrf f).jobs.drop 1 }).countRecord f st
  (if j.cue then s.recordCue f else s).vrfActive f

/-- The oldest descriptor of a function completes as far as it can (R364): its record is sent once it has ended and its writes
have been accepted, and counts once it has been accepted itself. -/
def State.record (s : State) (f : Nat) : State :=
  match (s.vrf f).jobs with
  | j :: _ => match (if s.jobSettled f j then j.ended else none) with
    | some (st, res) =>
      if j.sent then s.recordDone f j st
      else match s.sendRecord f j st res (s.recordGen f) with
        | some s => if s.jobSettled f j then s.recordDone f j st else s.setJob f 0 { j with sent := true }
        | none => s.vrfStop f 2
    | none => s
  | [] => s

/-- A record that has been sent and accepted has completed its descriptor, whatever comes next. -/
def State.recordSent (s : State) (f : Nat) : State := match (s.vrf f).jobs with
  | j :: _ => if j.sent then s.record f else s
  | [] => s

/-- COMPLETION_RECORD (R364, R370). -/
def execCompletionRecord (f : Fin 256) (s : State) : Res := .next ((s.cuesOwed f.val).record f.val)

/-! Function reset and quiesce (R371 to R374). -/

/-- DISCARDED records for every descriptor fetched and not completed, with a generation (R373, R374); a cue is owed where one of
them is not visible at once (R370). -/
def State.discardJobs (s : State) (f gen : Nat) : State :=
  (s.vrf f).jobs.foldl (fun s j => match s.sendRecord f j 1 0 gen with
    | some s =>
      let s := s.countRecord f 1
      if !j.cue then s
      else if s.vrfSettled f then s.recordCue f
      else s.setVrf f { s.vrf f with cues := (s.vrf f).cues + 1 }
    | none => s) s

/-- The guest registers return to their reset values, but GEN and LATE, and QUIESCE is cleared (R371). -/
def State.vrfClear (s : State) (f : Nat) : State :=
  let st := s.rdw (A.VRF_STAT f)
  let s := { s with io := SMap.keep (fun a _ => !(A.VRF_SQBASE f ≤ a && a < A.VRF_SQBASE f + 0x1000)) s.io }
  let s := s.wrw (A.VRF_STAT f) (st &&& 0xFFFFFFFFFF000000#64)
  ((s.setVrf f { VrfSt.reset with cues := (s.vrf f).cues }).wr (F.VRH_CTL_QUIESCE f) 0).vrfActive f

/-- The requests of a function that no home has accepted are discarded (R372, R373). -/
def State.vrfDrop (s : State) (f : Nat) : State :=
  (List.range 32).foldl (fun s e => if s.wrWaits (rnAgent e f) == [] then s else (s.wrDrop (rnAgent e f)).1) s

/-- A reset in generation mode (R373). -/
def State.vrfResetGen (s : State) (f : Nat) : State :=
  let g := s.rd (F.VRF_STAT_GEN f)
  let s := ((s.recordSent f).wr (F.VRF_STAT_GEN f) ((g + 1) % 256)).vrfDrop f
  (s.discardJobs f g).vrfClear f

/-- A reset in quiesce mode (R374). -/
def State.vrfResetQuiesce (s : State) (f : Nat) : State :=
  if !s.flag (F.VRF_STAT_QUIESCED f) then s.wr (F.VRH_STAT_RSTREF f) 1
  else ((s.recordSent f).discardJobs f f).vrfClear f

/-- A VRH_CTL.RESET write (R371). -/
def State.vrfReset (s : State) (f : Nat) : State :=
  if s.flag (F.VRH_STAT_RSTBUSY f) then s else if s.rnQuiesce then s.vrfResetQuiesce f else s.vrfResetGen f

/-- QUIESCE is set (R374): a descriptor in progress has done its current unit; where that was not its last, it ends
DISCARDED. -/
def State.vrfQuiesce (s : State) (f : Nat) : State :=
  let s := s.wr (F.VRH_CTL_QUIESCE f) 1
  let x := s.vrf f
  (s.setVrf f { x with jobs := x.jobs.map fun j => if j.busy then { j with ended := some (1, 0) } else j }).vrfActive f

/-- A write of VRH_CTL (R369, R371, R374): VMID and KSLOT are fixed while EN. -/
def State.vrhCtl (s : State) (f : Nat) (v mask : Word) : State :=
  let was := s.flag (F.VRH_CTL_QUIESCE f)
  let m := if s.vrfOn f then mask &&& 0xFFFFF000FF003FFF#64 else mask
  let s := s.regPut (A.VRH_CTL f) v m
  let now := s.flag (F.VRH_CTL_QUIESCE f)
  let s := if now && !was then s.vrfQuiesce f else if was && !now then s.wr (F.VRF_STAT_QUIESCED f) 0 else s
  if bit (v &&& mask) 1 then s.vrfReset f else s

/-- VRF_RESET_GEN (R373). -/
def execVrfResetGen (f : Fin 256) (s : State) : Res :=
  .next (if s.vrfHere f.val && !s.rnQuiesce then s.vrfReset f.val else s)
/-- VRF_RESET_QUIESCE (R374). -/
def execVrfResetQuiesce (f : Fin 256) (s : State) : Res := .next (if s.rnQuiesce then s.vrfReset f.val else s)
/-- VRF_QUIESCE (R374). -/
def execVrfQuiesce (f : Fin 256) (s : State) : Res :=
  .next (if s.vrfHere f.val && !s.flag (F.VRH_CTL_QUIESCE f.val) then s.vrfQuiesce f.val else s)
/-- VRF_QUIESCED (R374): no request of the function is outstanding. -/
def execVrfQuiesced (f : Fin 256) (s : State) : Res :=
  .next (if s.flag (F.VRH_CTL_QUIESCE f.val) && !(s.vrf f.val).jobs.any (fun j => j.engine.isSome) && s.vrfSettled f.val then
      s.wr (F.VRF_STAT_QUIESCED f.val) 1
    else s)
/-- LATE_RESPONSE (R373): in generation mode only. -/
def execLateResponse (f : Fin 256) (s : State) : Res := .next (if s.vrfHere f.val && !s.rnQuiesce then s.inc (F.VRF_STAT_LATE f.val) 1 else s)

/-! Modes and credits (R358, R367). -/

/-- A write of RN_CFG (R358): when MODE changes, every register of every VRF page returns to its reset value. -/
def State.rnCfg (s : State) (v mask : Word) : State :=
  if (List.range 256).any fun f => s.vrfOn f || s.flag (F.VRH_STAT_RSTBUSY f) then s
  else
    let was := s.rnQuiesce
    let s := s.regPut A.RN_CFG v mask
    if s.rnQuiesce == was then s
    else
      let s := s.wr F.RN_CFG_NVRF (if s.rnQuiesce then 256 else 64)
      { s with
        vrfs := [], turns := [],
        io := SMap.keep (fun a _ => !(A.VRF_SQBASE 0 ≤ a && a < A.VRH_CTL 256)) s.io }
/-- RN_MODE_WRITE (R358). -/
def execRnModeWrite (v : Word) (s : State) : Res := .next (s.rnCfg v fullMask)

/-- A write of RN_ENGe (R34, R367): refused where it would raise the total of the H-die's transactions above 65,536. -/
def State.rnEng (s : State) (e : Nat) (v mask : Word) : State :=
  let old := s.rd (F.RN_ENGe_CREDITS e)
  let s := s.regPut (A.RN_ENGe e) v mask
  let sum := (List.range 32).foldl (fun a e => a + s.rd (F.RN_ENGe_CREDITS e)) 0
  if 32768 < sum then (s.wr (F.RN_ENGe_CREDITS e) old).wr (F.RN_ENGe_REFUSED e) 1
  else if mask &&& 0x7FF0000#64 = 0 then s else s.wr (F.RN_ENGe_REFUSED e) 0
/-- RN_CREDITS_WRITE (R34, R367). -/
def execRnCreditsWrite (e : Fin 32) (v : Word) (s : State) : Res := .next (s.rnEng e.val v fullMask)

end Sys2Proof.Machine
end

