-- ==== Sys2Proof/Machine/Gaffer.lean ====
section
/-!
DEFINITION. The gaffer: clocks (R442 to R444, R450), its cap (R451, R452), gating and secure holds (R405, R406, R445), its
mailbox (R454, R455), DEEP and OFF (R446 to R449), and the residency counters (R467).
-/
namespace Sys2Proof.Machine

/-- Change what the gaffer holds. -/
def State.setGaf (s : State) (x : GafSt) : State := { s with gaf := x }

/-- An error of package scope whose STRUCT and TYPE the spec does not state: free codes (DESIGN CHOICE, log 3). -/
def State.freeErr (s : State) (sev : Sev) : ErrRec :=
  ErrRec.plain sev (1 + Config.freeNat s.freeCtr % 25) (1 + Config.freeNat (s.freeCtr + 1) % 13)

/-! Clocks. -/

/-- The part's peak cluster clock in MHz (R2). -/
def State.peakMhz (s : State) : Nat := if s.rd F.PKG_CAPS_PART = 0x3024 then 3000 else 3400
/-- The part's burst power, the default of BURST_LIMIT (R2). -/
def State.burstW (s : State) : Nat := if s.rd F.PKG_CAPS_PART = 0x3024 then 550 else 650
/-- The part's sustained power, the default of SUSTAIN_LIMIT (R2). -/
def State.sustainW (s : State) : Nat := if s.rd F.PKG_CAPS_PART = 0x3024 then 440 else 520
/-- The cap C (R452). -/
def State.capMhz (s : State) : Nat := s.rd F.GAF_STAT_CAP_MHZ
/-- The effective request of a cluster (R442). -/
def State.effReq (s : State) (c : Nat) : Nat := Nat.min (SMap.get 0 s.gaf.req c) (Nat.min s.capMhz s.peakMhz)
/-- The root that a C-die's requests ask for (R442). -/
def State.rootTarget (s : State) (d : Nat) : Nat :=
  let m := (List.range 5).foldl (fun m k => Nat.max m (s.effReq (5 * d + k))) 0
  Nat.min (Nat.max (2 * m / 100 * 100) 4800) (2 * s.peakMhz)
/-- The divider of a cluster with effective request e under a root (R442). -/
def divFor (root e : Nat) : Nat := ([2, 3, 4].find? fun n => root ≤ e * n).getD 8

/-- The clusters of a die that have moved to the root run at its present root over their dividers (R442, R444). -/
def State.setClocks (s : State) (d : Nat) : State :=
  (List.range 5).foldl (fun s k =>
    if s.flag (F.CLU_CLKk_SEL d k) then
      let root := s.rd (F.CLK_CTL_ROOT_MHZ d)
      let n := divFor root (s.effReq (5 * d + k))
      (s.wr (F.CLU_CLKk_DIV d k) n).wr (F.CLU_CLKk_MHZ d k) (root / n)
    else s) s

/-- SET_FREQ requests whose die has reached its root are answered DONE (R455). -/
def State.freqDone (s : State) (d : Nat) : State :=
  if s.rd (F.CLK_CTL_ROOT_MHZ d) = s.rootTarget d then
    let out := s.gaf.freq.filter fun x => x.2 / 5 == d
    let s := s.setGaf { s.gaf with freq := s.gaf.freq.filter fun x => x.2 / 5 != d }
    out.foldl (fun s x => s.respond x.1 1 0 false) s
  else s

/-- The dividers of every die follow a change of the cap. -/
def State.capChange (s : State) (c : Nat) : State :=
  let s := s.wr F.GAF_STAT_CAP_MHZ c
  (List.range 12).foldl (fun s d => (s.setClocks d).freqDone d) s

/-- I3C bus 0 is stuck, so that no regulator acknowledges a command (R443, R514). -/
def State.bus0Stuck (s : State) : Bool := s.pins.stuck.contains 8

/-- ROOT_STEP (R443, R444): one 100 MHz step toward the root asked for; a die whose regulator does not acknowledge keeps its
root. -/
def execRootStep (d : DieNo) (s : State) : Res :=
  let r := s.rd (F.CLK_CTL_ROOT_MHZ d.val)
  let t := s.rootTarget d.val
  .next (if !s.flag (F.CLK_CTL_LOCKED d.val) || r = t then s
    else if s.bus0Stuck then (s.tick.tick).logAsync 353 (s.freeErr .recoverable)
    else ((s.wr (F.CLK_CTL_ROOT_MHZ d.val) (if r < t then r + 100 else r - 100)).setClocks d.val).freqDone d.val)

/-! Secure holds and gating (R405, R406, R445). -/

/-- The threads of a cluster, 5d + physical cluster, that are populated. -/
def State.clusterThreads (s : State) (c : Nat) : List Nat :=
  (List.range 36).filterMap fun i =>
    let t := c / 5 * 36 + i
    if s.populated (c / 5) (i / 2) && s.clusterOf t == c then some t else none

/-- A cluster that a request may name: of a RUNNING die, with a populated core (R455). -/
def State.clusterOk (s : State) (c : Nat) : Bool := c < 60 && s.dieRunning (c / 5) && s.clusterThreads c != []

/-- A thread of a cluster that has been started is at M outside enclave mode. -/
def State.anyAtM (s : State) (c : Nat) : Bool :=
  (s.clusterThreads c).any fun t => (s.thrN t).run != .halted && (s.thrN t).pl == 3 && !(s.thrN t).enc
/-- SEC_HOLD0 holds a cluster. -/
def State.secBit (s : State) (c : Nat) : Bool := (s.rd F.SEC_HOLD0_CLUSTER).testBit c
/-- A cluster is secure-held (R405). -/
def State.secHeld (s : State) (c : Nat) : Bool :=
  s.anyAtM c || s.secBit c || (s.clusterThreads c).any fun t => (s.thrN t).run != .halted && (s.thrN t).enc

/-- A cluster enters SLEEP (R445): its L1s lose their lines, whose newer data its L2 has. -/
def State.sleepIn (s : State) (c : Nat) : State :=
  (clusterL1s c).foldl (fun s k => { s with caches := SMap.del s.caches k }) (s.wr (F.CLU_CLKk_SLEEP (c / 5) (c % 5)) 1)

/-- No sift command and no L2 miss of a cluster is outstanding (R445). -/
def State.clusterQuiet (s : State) (c : Nat) : Bool :=
  SMap.get [] s.miss (l2No c) == [] && (s.clusterThreads c).all fun t => (s.decN t).sift == 0

/-- A cluster is gated: it is held in SLEEP (R445, R455). -/
def State.gateOn (s : State) (c : Nat) : State :=
  let s := s.sleepIn c
  { s with gated := if s.gated.contains c then s.gated else s.gated ++ [c] }

/-- A gated cluster runs again (R406, R445): threads that a thermal emergency stopped go on at HRP. -/
def State.gateOff (s : State) (c : Nat) : State :=
  let s := s.wr (F.CLU_CLKk_SLEEP (c / 5) (c % 5)) 0
  let s := { s with gated := s.gated.filter fun x => x != c }
  (s.clusterThreads c).foldl (fun s t =>
    if (s.thrN t).run = .stopped then s.setThrN t { s.thrN t with run := .running } else s) s

/-- Requests and emergencies that wait for a hold act where it has ended (R405, R406). -/
def State.holdPoll (s : State) : State :=
  let s := s.gaf.held.foldl (fun s x =>
    if s.secHeld x.2 then s
    else ((s.gateOn x.2).setGaf { s.gaf with held := s.gaf.held.erase x }).respond x.1 1 0 false) s
  s.sec.thermal.foldl (fun s c =>
    if s.anyAtM c || s.secBit c then s
    else { s.gateOn c with sec := { s.sec with thermal := s.sec.thermal.erase c } }) s

/-- THERMAL_EMERGENCY (R406): the cue, the forced exits, and the gate at once where nothing holds the cluster. -/
def execThermalEmergency (c : Fin 60) (s : State) : Res :=
  let s := s.cueRaise (s.rd F.SEC_CTL_TVEC)
  let mine := s.clusterThreads c.val
  let s := s.exitAll (fun t => mine.contains t) .stopped
  let l := s.sec.thermal
  .next ({ s with sec := { s.sec with thermal := if l.contains c.val then l else l ++ [c.val] } }).holdPoll

/-- GRACE_EXPIRY (R406): a fatal machine check where the cluster is not gated yet. -/
def execGraceExpiry (c : Fin 60) (s : State) : Res :=
  let s := s.holdPoll
  .next (if s.sec.thermal.contains c.val then (s.tick.tick).fatal 353 (s.freeErr .fatal) else s)

/-- SLEEP_ENTRY (R445): every populated core of the cluster is idle, nothing of it is outstanding, and SLEEPEN is 1. -/
def execSleepEntry (c : Fin 60) (s : State) : Res :=
  let ts := s.clusterThreads c.val
  .next (if s.flag F.GAF_PWR_SLEEPEN && s.clusterOk c.val && s.clusterQuiet c.val && ts.all (fun t =>
        ((s.thrN t).run == .waiting || (s.thrN t).run == .halted) && !s.cuePending t) then s.sleepIn c.val
    else s)

/-! DEEP and OFF. -/

/-- The refusal REASON of a DEEP or OFF request (R446, step 1); 0 none. -/
def State.deepReason (s : State) : Nat :=
  let en := (List.range 8).filter s.domEn
  if s.others != [] || en.any (fun d => s.flag (F.TDn_CFG_SPAN d)) then 2
  else if en.any fun d => s.spoiled d || s.rolling d then 3
  else if (List.range 256).any fun f =>
      s.flag (F.VRF_STAT_ACTIVE f) || s.rd (F.VRF_SQTAIL_TAIL f) != s.rd (F.VRF_SQHEAD_HEAD f) then 4
  else 0

/-- Every populated thread is in WAIT or halted (R446, step 2). -/
def State.allIdle (s : State) : Bool :=
  (List.range 432).all fun t => !s.dieRunning (t / 36) || !s.populated (t / 36) (t % 36 / 2)
    || (s.thrN t).run == .waiting || (s.thrN t).run == .halted

/-- No coherence transaction, message or eviction is under way. -/
def State.linesQuiet (s : State) : Bool :=
  s.msgs == [] && s.undoOut == [] && s.swbOut == []
    && s.lines.all fun c => c.2.txn.isNone && c.2.queue == [] && c.2.evict == [] && c.2.undoP == []

/-- Step 4 of R446: every cache writes back its dirty lines. -/
def State.deepClean (s : State) : State := s.lines.foldl (fun s c => s.cleanLine c.1) s

/-- Step 4 of R446 ends: the caches are emptied, and with them the directory; every port completes its queue. -/
def State.deepFlush (s : State) : State :=
  let s := { s with lines := [], caches := [], miss := [], victims := [], wlist := [] }
  (List.range 16).foldl (fun s n =>
    let s := { s with mem := (s.wq n).foldl (fun (m : Mem) (e : WqEnt) => m.devComplete (devNo n e.dev) e) s.mem }
    s.setWq n []) s

/-- The pads are latched (R449). -/
def State.padLatch (s : State) : State := (s.wr F.PAD_RELEASE_BUS 1).wr F.PAD_RELEASE_GPIO 1

/-- The end of an OFF entry (R448): the dailies record it and the package parks in OFF. -/
def State.offPark (s : State) : State :=
  let s := (s.incSat F.DLY_EVENTS_OFFS 1).dlyStore
  let s := s.padLatch
  let s := if s.flag F.GAF_PWR_OFFPIN then s.wrw A.PIN_LVL (setBit (s.rdw A.PIN_LVL) 31 false) else s
  let s := (s.discardAll false).loseVolatile
  { s with power := .off }

/-- Step 5 of R446, or steps 1 to 4 of R448 from the first: Global Persistent Flush on the ports whose link is up. -/
def State.deepDown (s : State) (x : DeepSt) : State :=
  if x.off then
    let up := (List.range 16).filter fun n => s.flag (F.MPn_STAT_UP n)
    if up == [] then s.offPark else s.setGaf { s.gaf with deep := some { x with gpf := some up } }
  else
    let s := (s.inc F.GAF_DEEPCNT_ENTRIES 1).padLatch
    { s with power := .deep, gaf := { s.gaf with since := s.now } }

/-- A DEEP or OFF entry goes on as far as it can (R446, R448). -/
def State.deepPoll (s : State) : State :=
  match s.gaf.deep with
  | some x =>
    if s.power ≠ .run || x.gpf.isSome then s
    else match x.cuts with
      | none =>
        if s.allIdle then
          let en := (List.range 8).filter s.domEn
          let s := s.setGaf { s.gaf with deep := some { x with cuts := some (en.map fun d => (d, s.openTake d)) } }
          en.foldl (fun s d => s.cutTrigger d) s
        else s
      | some l =>
        if l.all (fun c => c.2 ≤ s.cutTake c.1) && s.linesQuiet then
          let s := s.deepClean
          if s.mem.held == [] then s.deepFlush.deepDown x else s
        else s
  | none => s

/-- DEEP_IDLE_TIMEOUT (R446, step 2): REASON 1. -/
def execDeepIdleTimeout (s : State) : Res :=
  .next (match s.gaf.deep with
    | some x => if x.cuts.isSome then s
      else (s.respond x.t 4 1 false).setGaf { s.gaf with deep := none }
    | none => s)

/-- DEEP_EXIT (R447). -/
def execDeepExit (s : State) : Res := .next (if s.power = .deep then s.deepExit else s)

/-! The mailbox (R454, R455). -/

/-- A DEEP or OFF request (R446, R448). -/
def State.deepReq (s : State) (t lvl : Nat) (off : Bool) : State :=
  if lvl < 3 then s.respond t 3 0 false
  else if s.deepReason ≠ 0 then s.respond t 4 s.deepReason false
  else if s.gaf.deep.isSome then s.respond t 4 1 false
  else (s.setGaf { s.gaf with deep := some ⟨t, off, none, none⟩ }).respond t 0 0 true

/-- A request of thread t (R455): its OP, TARGET, ARG and TAG. -/
def State.gafReq (s : State) (t op target arg tag : Nat) : State :=
  if op = 6 then
    if s.gaf.held.any fun x => x.1 == t then
      (s.setGaf { s.gaf with held := s.gaf.held.filter fun x => x.1 != t }).respond t 6 0 false
    else s
  else if s.flag (F.GAF_RSPt_BUSY t) then s
  else
    let s := s.wr (F.GAF_RSPt_TAG t) tag
    let lvl := (s.thrN t).pl
    let c := target / 8 * 5 + target % 8
    let bad := !(target % 8 < 5 && s.clusterOk c)
    match op with
    | 1 =>
      if bad || 3400 < arg then s.respond t 7 0 false
      else if lvl = 0 then s.respond t 3 0 false
      else
        let s := (s.setGaf { s.gaf with req := SMap.put s.gaf.req c arg }).wr (F.CLU_CLKk_SEL (c / 5) (c % 5)) 1
        let s := (s.setClocks (c / 5)).respond t 0 0 true
        (s.setGaf { s.gaf with freq := s.gaf.freq ++ [(t, c)] }).freqDone (c / 5)
    | 2 =>
      if bad then s.respond t 7 0 false
      else if lvl = 0 then s.respond t 3 0 false
      else if s.secHeld c && lvl < 3 then (s.setGaf { s.gaf with held := s.gaf.held ++ [(t, c)] }).respond t 2 0 true
      else (s.gateOn c).respond t 1 0 false
    | 3 =>
      if bad then s.respond t 7 0 false
      else if lvl = 0 then s.respond t 3 0 false
      else (s.gateOff c).respond t 1 0 false
    | 4 => s.deepReq t lvl false
    | 5 => s.deepReq t lvl true
    | _ => s.respond t 7 0 false

/-- SET_FREQ (R455): OP 1 in the thread's slot. -/
def execSetFreq (t : Tid) (target : BitVec 7) (arg tag : BitVec 16) (s : State) : Res :=
  .next (s.gafReq t.val 1 target.toNat arg.toNat tag.toNat)
/-- GATE (R455): OP 2. -/
def execGate (t : Tid) (target : BitVec 7) (tag : BitVec 16) (s : State) : Res :=
  .next (s.gafReq t.val 2 target.toNat 0 tag.toNat)
/-- UNGATE (R455): OP 3. -/
def execUngate (t : Tid) (target : BitVec 7) (tag : BitVec 16) (s : State) : Res :=
  .next (s.gafReq t.val 3 target.toNat 0 tag.toNat)
/-- DEEP (R446, R455): OP 4. -/
def execDeep (t : Tid) (tag : BitVec 16) (s : State) : Res := .next (s.gafReq t.val 4 0 0 tag.toNat)
/-- OFF (R448, R455): OP 5. -/
def execOff (t : Tid) (tag : BitVec 16) (s : State) : Res := .next (s.gafReq t.val 5 0 0 tag.toNat)
/-- WITHDRAW (R455): OP 6. -/
def execWithdraw (t : Tid) (tag : BitVec 16) (s : State) : Res := .next (s.gafReq t.val 6 0 0 tag.toNat)

/-- A write of GAF_REQt by thread u (R454): one from another thread than the slot's own is ignored and counted. -/
def State.gafWrite (s : State) (t : Nat) (u : Option Nat) (v : Word) : State :=
  if u == some t then s.gafReq t (fget v 0 4) (fget v 4 7) (fget v 32 16) (fget v 48 16)
  else s.incSat F.GAF_STAT_FOREIGN 1

/-! The 1 ms sample (R451, R452). -/

/-- PROCHOT_N reads asserted (R452, R512, R514). -/
def State.prochot (s : State) : Bool :=
  s.pins.low.contains 5 || s.pins.rails.contains .vio || (s.rd F.PIN_LOCK_IN).testBit 5

/-- The highest junction temperature of a sample. -/
def sampleTj (g : GafSample) : Nat :=
  g.dies.foldl (fun m x => match x with | some (t, _) => Nat.max m t | none => m) 0

/-- The mean of the last n samples exceeds w (R452). -/
def meanOver (n w : Nat) (h : List Nat) : Bool := n ≤ h.length && w * n < (h.take n).foldl (· + ·) 0

/-- PROCHOT_N asserted: the cap falls to 600 MHz (R452). -/
def State.capDrop (s : State) : State :=
  let s := if s.capMhz ≤ 600 then s else s.capChange 600
  s.wr F.GAF_STAT_WHY (s.rd F.GAF_STAT_WHY ||| 2)

/-- GAFFER_SAMPLE (R451, R452, R480, R481). -/
def execGafferSample (g : GafSample) (s : State) : Res :=
  let burst := s.rd F.GAF_LIMIT_BURST_W
  let sust := s.rd F.GAF_LIMIT_SUSTAIN_W
  let win := s.rd F.GAF_LIMIT_WINDOW_MS
  let s := (s.wr F.GAF_STAT_PKG_W (Nat.min g.watts 65535)).wr F.GAF_STAT_TJMAX (Nat.min (sampleTj g) 255)
  let s := s.wearSample g.dies
  let h := (g.watts :: s.gaf.hist).take 10000
  let n := if sust < g.watts then s.gaf.sust + 1 else 0
  let b1 := burst < g.watts
  let b2 := 10 ≤ n || meanOver win sust h
  let b3 := 100 < sampleTj g
  let any := b1 || b2 || b3
  let s := s.setGaf { s.gaf with hist := h, sust := n, calm := if any then 0 else Nat.min (s.gaf.calm + 1) 10 }
  let s := if s.prochot then s.capDrop
    else if any then (s.capChange (s.capMhz - 100)).wr F.GAF_STAT_WHY
      (s.rd F.GAF_STAT_WHY ||| (b2n b1 * 8 + b2n b2 * 4 + b2n b3))
    else if s.gaf.calm = 10 && s.capMhz < s.peakMhz then s.capChange (Nat.min (s.capMhz + 100) s.peakMhz)
    else s
  let s := if s.capMhz = s.peakMhz then s.wr F.GAF_STAT_WHY 0 else s
  let s := s.holdPoll.deepPoll
  .next (if 110 < sampleTj g then s.wrapStart 3 else s)

/-! Residency (R467). -/

/-- A microsecond passes for the residency counters of a running die. -/
def State.resTick (s : State) : State :=
  if s.power ≠ .run then s
  else (List.range 12).foldl (fun s d =>
    if !s.dieRunning d then s
    else
      let s := (List.range 5).foldl (fun s k =>
        if s.flag (F.CLU_CLKk_SLEEP d k) then s.inc (F.RES_SLEEPk_US d k) 1 else s) s
      (List.range 18).foldl (fun s l =>
        let c := s.clusterOf (tidOf d l 0)
        if !s.populated d l || s.flag (F.CLU_CLKk_SLEEP (c / 5) (c % 5)) then s
        else
          let off (t : Nat) : Bool := (s.thrN t).run == .waiting || (s.thrN t).run == .halted
          if off (tidOf d l 0) && off (tidOf d l 1) then s.inc (F.RES_IDLEl_US d l) 1
          else s.inc (F.RES_RUNl_US d l) 1) s) s

end Sys2Proof.Machine
end

