-- ==== Sys2Proof/Machine/Rollback.lean ====
section
/-!
DEFINITION. The scan and rollback of a take domain at a restart (R254 to R260), from the bytes of its reel.
-/
namespace Sys2Proof.Machine

/-! The reel's bytes under the geometry that the anchor records (R254). -/

/-- The size of an anchor's reel. -/
def Anchor.size (a : Anchor) : Nat := 2 ^ 30 * (a.gib0 + match a.seg1 with | some (_, n) => n | none => 0)
/-- The physical address of an offset in an anchor's reel. -/
def Anchor.addr (a : Anchor) (ofs : Nat) : Nat :=
  if ofs < 2 ^ 30 * a.gib0 then 2 ^ 30 * a.base0 + ofs
  else (match a.seg1 with | some (b, _) => 2 ^ 30 * b | none => 0) + (ofs - 2 ^ 30 * a.gib0)
/-- The offset after a block; after one full pass it is the first one again. -/
def Anchor.step (a : Anchor) (ofs : Nat) : Nat := if a.size ≤ ofs + 4096 then 0 else ofs + 4096

/-- A line of the reel: none where it cannot be read, because of poison or a port error (R258). Under another key than it was
written with its contents are undefined. -/
def State.reelLine (s : State) (pa ks : Nat) : Option LineData := match s.route pa with
  | .port n dev =>
    let v := s.portLine n dev
    if v.2.1 || !s.keyOk ks then none
    else some (if v.2.2 = s.keyOf ks then v.1 else Config.freeLine s.freeCtr)
  | _ => none

/-- The 4,096 bytes of a block; none where a line of it cannot be read. -/
def State.reelBytes (s : State) (pa ks : Nat) : Option (List Byte) :=
  (List.range 64).foldl (fun o i => match o, s.reelLine (pa + 64 * i) ks with
    | some bs, some l => some (bs ++ bytesOf 64 l.toNat)
    | _, _ => none) (some [])

/-- The number in n bytes of a string from byte i. -/
def numAt (bs : List Byte) (i n : Nat) : Nat := ofBytes ((bs.drop i).take n)

/-- KIND by its code (R239). -/
def kindOf : Nat → Option BlockKind
  | 1 => some .undo
  | 2 => some .cut
  | 3 => some .prepare
  | 4 => some .commit
  | 5 => some .rolled
  | _ => none

/-- Entry k of an UNDO block of a take, where its CHECK and TAKE_LO are right (R239, R257). -/
def entryOf (bs : List Byte) (take k : Nat) : Option UndoEntry :=
  let e := (bs.drop (16 + 80 * k)).take 80
  let w := numAt e 64 8
  if numAt e 76 4 = (crcCheck (e.take 76)).toNat && numAt e 72 4 = take % 2 ^ 32 then
    some ⟨w % 2 ^ 46, Fin.ofNat 8 (w / 2 ^ 46), w / 2 ^ 49 % 1024, w.testBit 59, numAt e 72 4, BitVec.ofNat 512 (numAt e 0 64)⟩
  else none

/-- The block that 4,096 bytes hold, where KIND and DOMAIN are right and, for a record, its CRC (R239, R256). -/
def blockOf (bs : List Byte) (d ofs : Nat) : Option ReelBlock :=
  let take := numAt bs 0 8
  let w := numAt bs 8 8
  match kindOf (w % 256) with
  | some k =>
    let okCrc := k == .undo || numAt bs 32 4 == (crcCheck (bs.take 32)).toNat
    if w / 2 ^ 8 % 8 = d && okCrc then
      some { seq := w / 2 ^ 32, take := take, kind := k,
             ents := if k == .undo then (List.range (Nat.min (w / 2 ^ 26 % 64) 51)).filterMap (entryOf bs take) else [],
             nums := [], ofs := ofs, slate := BitVec.ofNat 64 (numAt bs 16 8), members := BitVec.ofNat 16 (numAt bs 24 2) }
    else none
  | none => none

/-! The scan (R256, R258). -/

/-- What a scan finds: the blocks in SEQ order, and whether a block could not be read. -/
structure Scan where
  blocks : List ReelBlock
  unread : Bool
deriving DecidableEq, Repr

/-- The scan forward from an offset and SEQ, for at most fuel blocks. -/
def State.scanFrom (s : State) (a : Anchor) (d ks : Nat) : Nat → Nat → Nat → Scan
  | 0, _, _ => ⟨[], false⟩
  | fuel + 1, ofs, seq => match s.reelBytes (a.addr ofs) ks with
    | none => ⟨[], true⟩
    | some bs => match blockOf bs d ofs with
      | some b =>
        if b.seq = seq then
          let r := State.scanFrom s a d ks fuel (a.step ofs) ((seq + 1) % 2 ^ 32)
          ⟨b :: r.blocks, r.unread⟩
        else ⟨[], false⟩
      | none => ⟨[], false⟩

/-- The full scan of n blocks from an offset: every block with KIND and DOMAIN right; unreadable ones are skipped. -/
def State.scanAll (s : State) (a : Anchor) (d ks : Nat) : Nat → Nat → Scan
  | 0, _ => ⟨[], false⟩
  | n + 1, ofs =>
    let r := State.scanAll s a d ks n (ofs + 4096)
    match s.reelBytes (a.addr ofs) ks with
    | none => ⟨r.blocks, true⟩
    | some bs => match blockOf bs d ofs with
      | some b => ⟨b :: r.blocks, r.unread⟩
      | none => r

/-- A block is an anchor's cut record: on a member of a spanning domain, the COMMIT record (R234, R259). -/
def ReelBlock.isCut (b : ReelBlock) (c : Nat × Nat) : Bool :=
  (b.kind == .cut || b.kind == .commit) && b.seq == c.1 && b.ofs == c.2

/-- The blocks of a full scan in SEQ order, oldest first: SEQ wraps, so it is read around the anchor's tail (R239, R254). -/
def seqOrder (a : Anchor) (bs : List ReelBlock) : List ReelBlock :=
  bs.foldl (fun l b => reelInsert ((a.tail.1 + 2 ^ 31) % 2 ^ 32) b l) []

/-- The outcome of a scan: its blocks, its cut record, and the flags. -/
structure Found where
  scan : Scan
  cut  : Option ReelBlock
  full : Bool
deriving DecidableEq, Repr

/-- The scan of a domain at a restart (R256). -/
def State.scan (s : State) (d : Nat) (a : Anchor) : Found :=
  let ks := s.rd (F.TDn_CFG_RKSLOT d)
  let r := s.scanFrom a d ks (a.size / 4096) a.tail.2 a.tail.1
  let last := r.blocks.reverse.find? fun b => b.kind == .cut
  match a.cut with
  | none => ⟨r, last, false⟩
  | some c =>
    if r.blocks.any fun b => b.isCut c then ⟨r, last, false⟩
    else
      let r := s.scanAll a d ks (a.size / 4096) 0
      let bs := seqOrder a r.blocks
      let best := bs.foldl (fun o b => match o with
        | some (x : ReelBlock) => if b.kind == .cut && x.take < b.take then some b else o
        | none => if b.kind == .cut then some b else none) none
      ⟨⟨bs, r.unread⟩, best, true⟩

/-! The rollback (R257 to R259). -/

/-- Whether an entry's key slot could not be re-created (R258). -/
def State.keyLost (s : State) (e : UndoEntry) : Bool := e.kslot != 0 && (SMap.find? s.keyIds e.kslot).isNone

/-- The undo blocks above a cut (R257). -/
def undoAbove (c : Nat) (bs : List ReelBlock) : List ReelBlock := bs.filter fun b => b.kind == .undo && c < b.take

/-- A COMMIT record that a member owes its reel for takes at or below the lead's C (R260). -/
def State.owedCommits (s : State) (d c : Nat) : State :=
  let bs := (s.dom d).reel
  (bs.filter fun b => b.kind == .prepare && b.take ≤ c && !bs.any fun x => x.kind == .commit && x.take == b.take).foldl
    (fun s p =>
      let b : ReelBlock := ⟨(s.dom d).seqNext, p.take, .commit, [], [], s.rd (F.TDn_HEAD_OFFSET d), s.slate, s.members d⟩
      let x := s.dom d
      ((s.reelStore d b).setDom d { x with reel := x.reel ++ [b], seqNext := (x.seqNext + 1) % 2 ^ 32 }).headStep d) s

/-- What the rollback of a domain applied and met, in RESTART_DOMn (R257, R258, R264): reel bytes of the blocks it read, an
entry applied, a key missing. -/
def State.rolledBack (s : State) (d : Nat) (up : List ReelBlock) : State :=
  let ents := up.flatMap (·.ents)
  let s := (s.applyBlocks up).wr (F.RESTART_DOMn_UNDO_MIB d) (4096 * up.length / 2 ^ 20)
  (s.wr (F.RESTART_DOMn_KEYMISS d) (b2n (ents.any s.keyLost))).wr (F.RESTART_DOMn_ROLLED d) (b2n !(ents.all s.keyLost))

/-- The reel as the scan found it: its blocks, TDn_HEAD and the next SEQ. -/
def State.reelFound (s : State) (d : Nat) (a : Anchor) (bs : List ReelBlock) : State :=
  let head := match bs.getLast? with | some b => (a.step b.ofs, (b.seq + 1) % 2 ^ 32) | none => (a.tail.2, a.tail.1)
  (s.setDom d { TakeDom.reset with
    anchor := some a, segIn := a.seg1.isSome, seqNext := head.2, reel := bs }).wr (F.TDn_HEAD_OFFSET d) head.1

/-- The record of a cut in the blocks of a reel: a CUT record, or a COMMIT record on a member. -/
def recordOf (c : Nat) (bs : List ReelBlock) : Option ReelBlock :=
  bs.reverse.find? fun b => (b.kind == .cut || b.kind == .commit) && b.take == c

/-- The end of a domain's restart (R257 to R260): lead is C of the lead, on a member of a spanning domain. -/
def State.restartDom (s : State) (d : Nat) (lead : Option Nat) : State :=
  match (s.dom d).anchor with
  | none => s
  | some a =>
    let f := s.scan d a
    let bs := f.scan.blocks
    let c := lead.getD (match f.cut with | some b => b.take | none => 0)
    let s := (s.wr (F.RESTART_DOMn_FULLSCAN d) (b2n f.full)).wr (F.RESTART_DOMn_UNREAD d) (b2n f.scan.unread)
    let s := (s.rolledBack d (undoAbove c bs)).reelFound d a bs
    let s := match lead with | some n => s.owedCommits d n | none => s
    let cut := if lead.isSome then recordOf c (s.dom d).reel else f.cut
    let s := s.setDom d { s.dom d with
      reel := match cut with | some r => (s.dom d).reel.dropWhile fun b => b != r | none => [] }
    let next := bs.foldl (fun m b => Nat.max m (b.take + 1)) (c + 1)
    let s := (s.openRolled d next).setViews d next
    let s := (s.wr (F.TDn_CUT_LAST d) c).wr (F.TDn_CUTSLATE_SLATE d) (match cut with | some r => r.slate.toNat | none => 0)
    let s := (s.wr (F.TDn_SPOIL_FIRST d) 0).wr (F.TDn_RESUME_TAKE d) 0
    let s := ((s.wr (F.TDn_STAT_SPOILED d) 0).wr (F.TDn_STAT_ROLLING d) 0).wr (F.TDn_STAT_CUTTING d) 0
    let s := s.wr (F.TDn_STAT_PENDING d) 0
    let s := match (s.dom d).reel with
      | b :: _ => s.wr (F.TDn_TAIL_OFFSET d) b.ofs
      | [] => s
    let s := s.rewriteAnchor d (cut.map fun r => (r.seq, r.ofs))
    if f.scan.unread then s.spoil d else s

end Sys2Proof.Machine
end

