-- ==== Sys2Proof/Machine/Restart.lean ====
section
/-!
DEFINITION. The four resets (R456 to R460), the start slots (R453), the end of a wrap and the ways out of the park (R246 to
R253), and OFF's wake (R448, R475).
-/
namespace Sys2Proof.Machine

/-! What a reset leaves of the registers (R14, R458). -/

/-- Change what a start holds. -/
def State.setBoot (s : State) (x : BootSt) : State := { s with boot := x }

/-- Fused values (R327, R411). -/
def isFused (a : Nat) : Bool := a = A.DBG_UID0 || a = A.DBG_UID1
/-- PKG_CAPS with nothing but what is fused. -/
def State.capsReset (s : State) : Word := fset (s.rdw A.PKG_CAPS) 12 12 0

/-- The registers after a cold reset: the well's and the fused ones kept, with SLATE_EPOCH and the pad latches, and what a
restart leaves of WRAP_STAT (R264). -/
def State.coldIo (s : State) : SMap Word :=
  let m := SMap.keep (fun a _ => isAon a || isFused a) s.io
  let m := SMap.put m A.PKG_CAPS s.capsReset
  let m := SMap.put m A.PAD_RELEASE (setBit (s.rdw A.PAD_RELEASE) 1 false)
  SMap.put m A.WRAP_STAT (fset (fset (s.rdw A.WRAP_STAT) 0 6 0) 8 40 0)

/-- A field keeps its value through warm and die resets: a lock bit or an RWL field (R458). -/
def Fld.held (f : Fld) : Bool := f.acc == .rwl || f.acc == .w1s

/-- A register with only its lock bits and RWL fields kept. -/
def keepLocked (r : RegDesc) (i j : Nat) (w : Word) : Word :=
  r.flds.foldl (fun v f => if f.held then fset v f.lo f.w (fget w f.lo f.w) else v) (BitVec.ofNat 64 (resetOverride r i j))

/-- The registers of a C-die that a die reset keeps whole: the core map and the root's settings (R29, R458, R467). -/
def dieKept (a : Nat) : Bool :=
  let o := a % 2 ^ 32
  (0x2200 ≤ o && o < 0x22C0) || o == 0x2308 || o == 0x2800

/-- The registers of the global and take blocks that a warm reset keeps whole: what the package is, the reports of its last
restart, the interleave sets, the reset controls, and the configuration of the take domains (R205, R264, R458). -/
def warmGlobal (a : Nat) : Bool :=
  a ≤ A.DIR_BINV || (A.WRAP_STAT ≤ a && a < A.IS_REFUSE) || (A.PKG_RST ≤ a && a < A.TK_CAPS)
    || (A.TDn_CFG 0 ≤ a && a < A.TDn_CFG 8 && (a - A.TDn_CFG 0) % 0x100 < 0x18)

/-- The registers of the fabric block that a warm reset keeps whole: the state of the P-links and of the group, which the links
themselves give, and the package's place (DESIGN CHOICE, log 52). -/
def warmFabric (a : Nat) : Bool :=
  (List.range 4).any (fun k => a == A.PL_STATk k) || a == A.GRP_STAT || (A.LOC_PORTd 0 ≤ a && a < A.LOC_WINw 0)

/-- The registers that a warm reset keeps whole (R458), beside the well: the slate, the memory ports, the region table, the key
slots, the reports of fenced dies (R432), and the bandwidth windows (R498). -/
def warmKept (a : Nat) : Bool :=
  isAon a || warmGlobal a || warmFabric a || (A.SLATE_CAPS ≤ a && a < 0xFE0000300000)
    || (0xFE0002000000 ≤ a && a < 0xFE0002100000) || (0xFE0005010000 ≤ a && a < 0xFE0005011000)
    || (A.MC_DIEFATALd 0 0 ≤ a && a < A.MC_DIEFATALd 12 0) || (A.MC_DIEBANKd 0 ≤ a && a < A.MC_DIEBANKd 12)
    || (A.PRT_BASEn 0 ≤ a && a < A.PRT_REFUSE) || a == A.DBG_NONCE || isFused a
    || (A.KS_ATTRs 0 ≤ a && a < A.KS_ATTRs 1024) || a == A.PAD_RELEASE || (0xFE1000000000 ≤ a && dieKept a)

/-- A register's value after a reset that keeps the addresses of p whole. -/
def afterReset (p : Nat → Bool) (a : Nat) (w : Word) : Word :=
  if p a then w
  else match regAt regTable a with
    | some (r, i, j) => keepLocked r i j w
    | none => w

/-- The registers after a warm reset; PKG_DBG keeps its STATE alone (R409), with the debug levels of FULL (R410), and MIR_STAT
shows its strap (R346). -/
def State.warmIo (s : State) : SMap Word :=
  let m := SMap.put (SMap.mapv (afterReset warmKept) s.io) A.PKG_DBG (BitVec.ofNat 64 (s.rd F.PKG_DBG_STATE))
  let m := if s.rd F.PKG_DBG_STATE = 2 then SMap.put m A.DBG_AUTH (BitVec.ofNat 64 10) else m
  SMap.put m A.MIR_STAT (fset 0 2 1 (s.rd F.MIR_STAT_ENDPOINT))

/-- Whether an address lies in the block of C-die d. -/
def inDie (d a : Nat) : Bool := A.CORE_MAPl d 0 / 2 ^ 32 == a / 2 ^ 32

/-- The registers after a reset of die d. -/
def State.dieIo (s : State) (d : Nat) : SMap Word :=
  SMap.mapv (fun a w => if inDie d a then afterReset dieKept a w else w) s.io

/-! Die reset (R428, R458, R459). -/

/-- The cores of a die after its reset: every incarnation rises, and cores declared dead join the spares (R425, R428). -/
def State.dieCores (s : State) (d : Nat) : State :=
  let s := (List.range 18).foldl (fun s l => s.wr (F.CORE_MAPl_INC d l) ((s.rd (F.CORE_MAPl_INC d l) + 1) % 16)) s
  let listed := match s.boot.sheet with | some x => x.dead.getD d 0 | none => 0
  let dead := s.rd (F.CORE_PHYS_DEAD d)
  let back := (List.range 20).filter fun p => dead.testBit p && !listed.testBit p
  let s := s.wr (F.CORE_PHYS_SPARE d) (back.foldl (fun m p => m ||| 2 ^ p) (s.rd (F.CORE_PHYS_SPARE d)))
  s.wr (F.CORE_PHYS_DEAD d) (dead &&& listed % 2 ^ 20)

/-- Everything of a die but its local store and registers is as after a reset. -/
def State.dieClear (s : State) (d : Nat) : State :=
  { s with
    threads := SMap.keep (fun t _ => t / 36 != d) s.threads, cores := SMap.keep (fun c _ => c / 18 != d) s.cores,
    dec := SMap.keep (fun t _ => t / 36 != d) s.dec, hints := SMap.keep (fun c _ => c / 18 != d) s.hints,
    caches := SMap.keep (fun k _ => cacheDie k != d) s.caches, miss := SMap.keep (fun k _ => cacheDie k != d) s.miss,
    owners := SMap.keep (fun c _ => c / 5 != d) s.owners, latent := s.latent.filter fun e => e.die != d,
    sparing := SMap.del s.sparing d, gated := s.gated.filter fun c => c / 5 != d,
    links := SMap.del (SMap.del s.links (2 * d)) (2 * d + 1),
    sl := { s.sl with settled := s.sl.settled.filter fun x => x != d },
    gaf := { s.gaf with
      req := SMap.keep (fun c _ => c / 5 != d) s.gaf.req, freq := s.gaf.freq.filter fun x => x.2 / 5 != d,
      held := s.gaf.held.filter fun x => x.2 / 5 != d },
    sec := { s.sec with
      thermal := s.sec.thermal.filter fun c => c / 5 != d, stepping := s.sec.stepping.filter fun t => t / 36 != d } }

/-- A die is in reset and waits for its start slot. -/
def State.dieQueue (s : State) (d : Nat) : State :=
  let b := s.boot
  let clus := (List.range 5).map fun k => 5 * d + k
  s.setBoot { b with
    slots := (b.slots.filter fun x => x != d) ++ [d], clusters := (b.clusters.filter fun c => c / 5 != d) ++ clus,
    resets := b.resets.filter fun x => x != d }

/-- The die reset (R458, R459): its local store is undefined after it. Its take view stands as it was, though cuts may have gone by
while the die was fenced (DESIGN CHOICE, log 75). -/
def State.dieReset (s : State) (d : Nat) : State :=
  let s := ((s.dlinksDown d).setDie d 5).dieClear d
  let s := { s with io := s.dieIo d }
  let inLs (a : Nat) : Bool := a / lsSize == d
  let s := { s with mem := { s.mem with
    ls := SMap.keep (fun a _ => !inLs a) s.mem.ls, lsPoison := s.mem.lsPoison.filter fun a => !inLs a } }
  let s := (s.wr (F.CLK_CTL_ROOT_MHZ d) 0).wr (F.CLK_CTL_LOCKED d) 0
  (s.dieCores d).dieQueue d

/-- Die resets that wait go on where reclaim has finished: with HOLD the die stays in reset (R459). -/
def State.resetPoll (s : State) : State :=
  s.boot.resets.foldl (fun s d =>
    if s.reclaims.contains d then s
    else if s.flag (F.DIE_RSTd_HOLD d) then (s.dlinksDown d).setDie d 5
    else s.dieReset d) s

/-- A write of DIE_RSTd.RESET (R459). -/
def State.dieRst (s : State) (d : Nat) : State :=
  let s := s.fence d
  let b := s.boot
  (s.setBoot { b with resets := if b.resets.contains d then b.resets else b.resets ++ [d] }).resetPoll

/-- DIE_RST_RESET (R459): from M. -/
def execDieRstReset (d : DieNo) (lvl : Lvl) (s : State) : Res := .next (if lvl.val = 3 then s.dieRst d.val else s)

/-- The release of HOLD (R456, R459): a die that it kept in reset runs its reset. -/
def State.holdRelease (s : State) (d : Nat) : State :=
  if s.flag (F.DIE_RSTd_HOLD d) then
    let s := s.wr (F.DIE_RSTd_HOLD d) 0
    if s.rd (F.PKG_DIEd_STATE d) = 5 then s.dieRst d else s.resetPoll
  else s

/-- DIE_RST_HOLD_RELEASE (R459): from M. -/
def execDieRstHoldRelease (d : DieNo) (lvl : Lvl) (s : State) : Res := .next (if lvl.val = 3 then s.holdRelease d.val else s)

/-! Start slots (R453, R505). -/

/-- A die whose slot it is leaves reset: its root locks, its clusters stand on the wake clock, and its D-links train (R313,
R450, R459); without its rail it stays in reset (R505); after DEEP its links relock (R447). -/
def State.startDie (s : State) (d : Nat) (vcoreOk : Bool) : State :=
  let s := s.setBoot { s.boot with slots := s.boot.slots.filter fun x => x != d }
  if s.dieRunning d then s
  else if !vcoreOk then s.wrw A.PIN_EVT (setBit (s.rdw A.PIN_EVT) (16 + d) true)
  else
    let s := (s.wr (F.CLK_CTL_LOCKED d) 1).wr (F.CLK_CTL_ROOT_MHZ d) 4800
    let s := (List.range 5).foldl (fun s k => s.wakeClock d k) s
    (s.dlStart (2 * d)).dlStart (2 * d + 1)

/-- The die whose start slot comes next: ascending order (R453). -/
def State.nextSlot (s : State) : Option Nat := (List.range 12).find? fun d => s.boot.slots.contains d

/-- Whether a cluster's start slot comes next on its die. -/
def State.clusterDue (s : State) (d k : Nat) : Bool :=
  s.boot.clusters.contains (5 * d + k) && !s.boot.slots.contains d && s.flag (F.CLK_CTL_LOCKED d)
    && (List.range k).all fun j => !s.boot.clusters.contains (5 * d + j)

/-- CLUSTER_START_SLOT (R453). -/
def execClusterStartSlot (d : DieNo) (k : Fin 5) (s : State) : Res :=
  .next (if s.clusterDue d.val k.val then
      s.setBoot { s.boot with clusters := s.boot.clusters.filter fun c => c != 5 * d.val + k.val }
    else s)

/-- A halted thread starts at M (R460). -/
def State.startThread (s : State) (d l th : Nat) (pc : Word) : State :=
  let x := s.thrN (tidOf d l th)
  let s := s.setThrN (tidOf d l th) { x with
    run := .running, pc := pc, slot := none, repLeft := none, g := [], f := [], cr := SMap.del x.cr 0 }
  s.wrw (A.THR_STAT d) (setBit (s.rdw (A.THR_STAT d)) (2 * l + th) true)

/-- A write of THR_START (R460). -/
def State.thrStart (s : State) (d l th : Nat) : State :=
  if s.dieRunning d && l < 18 && s.populated d l && (s.thrN (tidOf d l th)).run = .halted then
    s.startThread d l th (s.rdw (A.THR_PC d))
  else s

/-- THR_START (R460): from M. -/
def execThrStart (d : DieNo) (l : Fin 18) (th : Fin 2) (lvl : Lvl) (s : State) : Res :=
  .next (if lvl.val = 3 then s.thrStart d.val l.val th.val else s)

/-! Cold and warm reset. -/

/-- The dailies and the well at the start (R473, R474, R478, R488). -/
def State.coldRecord (s : State) : State :=
  let s := s.incSat F.DLY_COLDBOOTS_COUNT 1
  let v := s.flag F.CAL_STAT_VALID
  let s := s.wrIf (v && s.rd F.DLY_FIRSTON_SECONDS == 0) F.DLY_FIRSTON_SECONDS (s.rd F.CAL_NOW_SECONDS)
  (s.wrIf (v && s.aon.discAt + 86400 * 2 ^ 20 < s.calNow) F.CAL_STAT_UNBOUND 1).dlyStore

/-- What a restart reports of the last stop (R246, R248, R264): a completed wrap, a missing one, or none. -/
def State.wrapReport (s : State) : State :=
  let w := s.wrap
  let s := if w.done then
      ((s.wr F.WRAP_STAT_VALID 1).wr F.WRAP_STAT_CAUSE w.cause).wr F.WRAP_STAT_GPF_LATE w.late
    else if w.missing then ((s.wr F.WRAP_STAT_MISSING 1).incSat F.DLY_EVENTS_MISSING 1).logEvent 4 0
    else s
  { s with wrap := { w with done := false, missing := false, ignored := false, stuck := false, held := [] } }

/-- The figures of the part that are a register's reset value (R2, R466): after a cold reset the power limits, and the cap after
a warm reset too. -/
def State.partFigures (s : State) (cold : Bool) : State :=
  let s := if cold then (s.wr F.GAF_LIMIT_BURST_W s.burstW).wr F.GAF_LIMIT_SUSTAIN_W s.sustainW else s
  s.wr F.GAF_STAT_CAP_MHZ s.peakMhz

/-- A cold reset (R14, R458): everything outside the always-on well takes its reset value, and the start stands at STEP 1. -/
def State.coldReset (s : State) : State :=
  let anchors := SMap.mapv (fun _ (x : TakeDom) => { TakeDom.reset with anchor := x.anchor }) s.doms
  let mem : Mem := { s.mem with ls := [], lsPoison := [], held := [], wq := [] }
  let s : State := { State.reset with
    pending := s.pending, io := s.coldIo, mem := mem, nextId := s.nextId, doms := anchors, wrap := s.wrap, now := s.now,
    sl := s.sl, sec := { SecSt.reset with ledger := s.sec.ledger }, aon := s.aon, pins := s.pins, freeCtr := s.freeCtr,
    boot := { BootSt.reset with
      input := s.boot.input, minVer := s.boot.minVer, slots := List.range 12, clusters := List.range 60 } }
  let s := (s.wrw A.DBG_NONCE (Config.freeWord s.freeCtr)).tick
  let s := match s.boot.input with
    | some b => { s with gpos := b.gpos.val }.wr F.MIR_STAT_ENDPOINT (b2n b.mirmode)
    | none => s
  ((s.partFigures true).coldRecord.wrapReport).slateInit s.calSlate

/-- A warm reset (R458, R461): the rest of the start begins at STEP 4, with every C-die to be reset. -/
def State.warmReset (s : State) : State :=
  let ls := s.mem.ls
  let lp := s.mem.lsPoison
  let s := (s.discardAll true).loseVolatile
  let s := { s with mem := { s.mem with ls := ls, lsPoison := lp } }
  let dies := (List.range 12).filter fun d => !s.flag (F.DIE_RSTd_HOLD d)
  let s := (List.range 12).foldl (fun s d => (((s.dlinksDown d).setDie d 5).dieClear d).dieCores d) s
  let s := { s with
    io := s.warmIo, doms := SMap.mapv (fun _ (x : TakeDom) => { TakeDom.reset with anchor := x.anchor }) s.doms,
    views := [], accepted := 0, reclaims := [], gated := [], power := .boot, gaf := GafSt.reset, answer := none,
    boot := { s.boot with
      images := [], slots := dies, clusters := List.range 60, resets := (List.range 12).filter fun d => !dies.contains d,
      rolls := [], leadC := [], warm := true } }
  let s := (List.range 12).foldl (fun s d => (s.wr (F.CLK_CTL_ROOT_MHZ d) 0).wr (F.CLK_CTL_LOCKED d) 0) s
  let s := (s.partFigures false).wr F.BOOT_STAT_STEP 4
  let s := { s with wrap := { s.wrap with done := false, missing := false } }
  ((s.wr F.WRAP_STAT_VALID 0).wr F.WRAP_STAT_CAUSE 0).wr F.WRAP_STAT_GPF_LATE 0

/-- A cold reset that acts on a package: a running one first discards its work and waits for the writes on its links
(R457). -/
def State.coldAct (s : State) : State :=
  if s.power = .park then s.coldReset else ((s.discardAll true).loseVolatile).coldReset

/-- Whether a reset acts on the package as running (R457). -/
def State.running? (s : State) : Bool := s.power == .run || s.power == .deep

/-! Chatter and lockout (R513, R514). -/

/-- Units of 125 ps in a second. -/
def secUnits : Nat := 8000000000

/-- A filtered assertion of input i, with its chatter count n: at more than n within 1 s the input is locked out. -/
def State.pinAssert (s : State) (i n : Nat) : State :=
  let l := (s.now :: SMap.get [] s.pins.chat i).filter fun t => s.now < t + secUnits
  let s := { s with pins := { s.pins with chat := SMap.put s.pins.chat i l } }
  if n < l.length then
    (s.wrw A.PIN_LOCK (setBit (s.rdw A.PIN_LOCK) i true)).wrw A.PIN_CHAT (setBit (s.rdw A.PIN_CHAT) i true)
  else s

/-- An input is locked out. -/
def State.pinLocked (s : State) (i : Nat) : Bool := bit (s.rdw A.PIN_LOCK) i
/-- An input is past its stuck limit. -/
def State.pinStuck (s : State) (i : Nat) : Bool := s.pins.stuck.contains i
/-- The electrical level of an input (R522). -/
def State.pinLevel (s : State) (i : Nat) (high : Bool) : State :=
  let s := s.wrw A.PIN_LVL (setBit (s.rdw A.PIN_LVL) i high)
  { s with pins := { s.pins with
      low := if high then s.pins.low.filter fun x => x != i else
      if s.pins.low.contains i then s.pins.low else s.pins.low ++ [i] } }
/-- The rail of the VIO inputs is out of range: they read inactive (R512). -/
def State.vioOut (s : State) : Bool := s.pins.rails.contains .vio

/-! Wraps and their ends (R247 to R253). -/

/-- PWRFAIL_ASSERT (R247, R252, R253): the third assertion within 1 s of the first is a real failure, and from then on the input
is ignored; in OFF an assertion is only counted. -/
def execPwrfailAssert (s : State) : Res :=
  .next (if !s.aon.up then s
    else if s.power = .off then s.wrapStart 1
    else if s.wrap.ignored then s
    else
      let l := (s.now :: s.wrap.times).filter fun t => s.now ≤ t + secUnits
      let s := { s with wrap := { s.wrap with times := l } }.wrapStart 1
      if 3 ≤ l.length && s.wrap.cause = 1 && (s.power == .wrap || s.power == .park) then
        let s := { s with wrap := { s.wrap with ignored := true } }
        if s.power = .park then s.chatter else s
      else s)

/-- Step 4 of a wrap or of an OFF entry ends where no port is left (R249, R448). -/
def State.gpfEnd (s : State) : State :=
  if s.power = .wrap && s.wrap.gpfLeft == [] then s.wrapFinish
  else match s.gaf.deep with
    | some x => if x.gpf = some [] then s.offPark else s
    | none => s

/-- GPF_PHASE2_DONE (R251). -/
def execGpfPhase2Done (port : Fin 16) (s : State) : Res :=
  .next (if s.power = .wrap then
      ({ s with wrap := { s.wrap with gpfLeft := s.wrap.gpfLeft.filter fun n => n != port.val } }).gpfEnd
    else match s.gaf.deep with
      | some x => match x.gpf with
        | some l => (s.setGaf { s.gaf with deep := some { x with gpf := some (l.filter fun n => n != port.val) } }).gpfEnd
        | none => s
      | none => s)

/-- GPF_TIMEOUT_EXPIRY (R251): the ports left are late. The writes that a late port's device has completed stand in the model,
though R251 no longer guarantees any domain on it (DESIGN CHOICE, log 76). -/
def execGpfTimeoutExpiry (s : State) : Res :=
  .next (if s.power = .wrap then
      let late := s.wrap.gpfLeft.foldl (fun m n => m ||| 2 ^ n) 0
      ({ s with wrap := { s.wrap with gpfLeft := [], late := late } }).gpfEnd
    else match s.gaf.deep with
      | some x => if x.gpf.isSome then (s.setGaf { s.gaf with deep := some { x with gpf := some [] } }).gpfEnd else s
      | none => s)

/-- PWRFAIL_STUCK (R253, R485, R522). -/
def State.pwrfailStuck (s : State) : State :=
  if s.power = .park && s.wrap.cause = 1 && !s.wrap.stuck && !s.wrap.ignored then
    let s := ((s.wr F.WRAP_STAT_STUCK 1).wrw A.PIN_STUCK (setBit (s.rdw A.PIN_STUCK) 1 true)).logEvent 2 0
    { s with wrap := { s.wrap with stuck := true } }
  else s

/-- PWRFAIL_STUCK (R253). -/
def execPwrfailStuck (s : State) : Res := .next s.pwrfailStuck

/-- The package stops at once, with no wrap (R246). -/
def State.stopNow (s : State) : State :=
  let s := (s.discardAll false).loseVolatile
  { s with power := .unpowered, wrap := { s.wrap with done := false, missing := true } }

/-- The package stops as at a PWRGOOD fall (R246, R507, R518), unless a wrap has parked it or it is in OFF. -/
def State.stopAct (s : State) : State := match s.power with
  | .park => { s with power := .unpowered }
  | .off => s
  | .unpowered => s
  | _ => s.stopNow

/-- PWRGOOD_FALL (R246, R253, R514). -/
def execPwrgoodFall (s : State) : Res :=
  .next (if !s.pins.pwrgood then s
    else
      let s := (s.pinAssert 0 4).pinLevel 0 false
      let s := { s with pins := { s.pins with pwrgood := false } }
      s.stopAct)

end Sys2Proof.Machine
end

