-- ==== Sys2Proof/Machine/Spare.lean ====
section
/-!
DEFINITION. The end of a core sparing (R426 to R429), the clearing of machine-check banks and of the records of fenced dies
(R415, R432), the release of the pads (R449), and the bandwidth windows (R497, R498).
-/
namespace Sys2Proof.Machine

/-! Core sparing. -/

/-- The lowest-numbered spare physical core of a die (R426). -/
def State.lowSpare (s : State) (d : Nat) : Option Nat :=
  (List.range 20).find? fun p => (s.rd (F.CORE_PHYS_SPARE d)).testBit p

/-- A thread of a newly mapped core enters at M with cause MC_SPARED_START (R429). -/
def State.sparedStart (s : State) (d l th : Nat) : State :=
  let t := tidOf d l th
  let s := s.setThrN t Thread.reset
  let s := s.wrw (A.THR_STAT d) (setBit (s.rdw (A.THR_STAT d)) (2 * l + th) true)
  if h : t < 432 then
    s.enterSet ⟨t, h⟩ 3 false ⟨0x91, BitVec.ofNat 64 l, false, 0, none, none, none⟩ 0 none
  else s

/-- Steps 3 to 5 of R426: the lowest spare is mapped under l, or l becomes unpopulated. -/
def State.spareEnd (s : State) (d l dropped : Nat) : State :=
  let s := s.inc (F.STALE_SPEAKERd_CORE d) dropped
  let s := s.coreForget d l
  let s := (s.setCore (18 * d + l) Core.reset).setThrN (tidOf d l 0) Thread.reset
  let s := s.setThrN (tidOf d l 1) Thread.reset
  let s := match s.lowSpare d with
    | some p =>
      let s := s.wr (F.CORE_PHYS_SPARE d) (s.rd (F.CORE_PHYS_SPARE d) - 2 ^ p)
      let s := (s.wr (F.CORE_MAPl_PHYS d l) p).wr (F.CORE_SPARE_RESULT d) 1
      (s.sparedStart d l 0).sparedStart d l 1
    | none => (s.wr (F.CORE_MAPl_POP d l) 0).wr (F.CORE_SPARE_RESULT d) 2
  let s := (s.wr (F.CORE_SPARE_BUSY d) 0).countCores d
  { s with sparing := SMap.del s.sparing d }

/-- SPARE_DRAIN_DONE (R426, step 3): no message of the old incarnation is left. -/
def execSpareDrainDone (d : DieNo) (dropped : Nat) (s : State) : Res :=
  .next (match SMap.find? s.sparing d.val with
    | some x => if x.drain then s.spareEnd d.val x.l dropped else s
    | none => s)

/-! Banks and records. -/

/-- A bank is cleared (R415). -/
def State.bankClear (s : State) (b : Nat) : State :=
  (((s.wrw (A.MCb_STATUS b) 0).wrw (A.MCb_ADDR b) 0).wrw (A.MCb_MISC b) 0).wrw (A.MCb_SLATE b) 0
/-- MC_BANK_CLEAR (R415): VAL written 1, from M. -/
def execMcBankClear (b : Fin 354) (lvl : Lvl) (s : State) : Res := .next (if lvl.val = 3 then s.bankClear b.val else s)

/-- The record of a fenced die is cleared (R432, R433). -/
def State.recordClear (s : State) (d : Nat) : State :=
  let s := (List.range 4).foldl (fun s k => s.wrw (A.MC_DIEFATALd d k) 0) s
  s.wrw (A.MC_DIEBANKd d) 0
/-- MC_DIEBANK_CLEAR (R432): V written 1, from M. -/
def execMcDiebankClear (d : DieNo) (lvl : Lvl) (s : State) : Res := .next (if lvl.val = 3 then s.recordClear d.val else s)

/-! Pads. -/

/-- PAD_RELEASE_BUS (R449). The monitor releases the group. -/
def execPadReleaseBus (lvl : Lvl) (s : State) : Res := .next (if lvl.val = 3 then s.wr F.PAD_RELEASE_BUS 0 else s)
/-- PAD_RELEASE_GPIO (R449). The monitor releases the group. -/
def execPadReleaseGpio (lvl : Lvl) (s : State) : Res := .next (if lvl.val = 3 then s.wr F.PAD_RELEASE_GPIO 0 else s)

/-! Bandwidth windows. -/

/-- Both peaks of a port are cleared. -/
def State.peakClear (s : State) (p : Nat) : State := (s.wrw (A.BW_PEAKRp p) 0).wrw (A.BW_PEAKWp p) 0

/-- BW_WINDOW_END (R498): the bytes of the window that ends. -/
def execBwWindowEnd (p : Fin 48) (rd wr : BitVec 48) (s : State) : Res :=
  let s := (s.wr (F.BW_LASTRp_BYTES p.val) rd.toNat).wr (F.BW_LASTWp_BYTES p.val) wr.toNat
  let s := s.wr (F.BW_PEAKRp_BYTES p.val) (Nat.max (s.rd (F.BW_PEAKRp_BYTES p.val)) rd.toNat)
  let s := s.wr (F.BW_PEAKWp_BYTES p.val) (Nat.max (s.rd (F.BW_PEAKWp_BYTES p.val)) wr.toNat)
  .next (s.inc (F.BW_CTLp_SEQ p.val) 1)

/-- A write of BW_CTLp (R498): one of WIN_US, unless reserved (R16), starts a new window, and PCLR clears the peaks. -/
def State.bwCtl (s : State) (p : Nat) (v mask : Word) : State :=
  let f := F.BW_CTLp_WIN_US p
  let m := fget mask f.lo f.w
  let mix := (s.rd f - (s.rd f &&& m)) ||| (fget v f.lo f.w &&& m)
  let s := s.regPut (A.BW_CTLp p) v mask
  let g := F.BW_CTLp_PCLR p
  if (m != 0 && s.rd f == mix) || bit (v &&& mask) g.lo then s.peakClear p else s

/-- BW_WIN_WRITE (R498): from M. -/
def execBwWinWrite (p : Fin 48) (v : Word) (lvl : Lvl) (s : State) : Res :=
  .next (if lvl.val = 3 then s.bwCtl p.val v fullMask else s)
/-- BW_PCLR (R498): from M. -/
def execBwPclr (p : Fin 48) (lvl : Lvl) (s : State) : Res := .next (if lvl.val = 3 then s.peakClear p.val else s)

end Sys2Proof.Machine
end

