-- ==== Sys2Proof/Machine/Vm.lean ====
section
/-!
DEFINITION. QoS classes (R380), virtual machine reset (R381), and the writes that raise a cue vector or validate a posting
table (R376, R382).
-/
namespace Sys2Proof.Machine

/-! QoS classes (R380). -/

/-- Class c is free. -/
def State.classFree (s : State) (c : Nat) : Bool := (s.rd F.QOS_FREE_FREE).testBit c

/-- A write of QOS_ALLOC with GO (R380). -/
def State.qosAlloc (s : State) (v : Nat) : State :=
  if s.flag (F.QOS_MAPv_V v) then s
  else
    let give (s : State) (c : Nat) (sh : Bool) : State :=
      let s := ((s.wr (F.QOS_MAPv_V v) 1).wr (F.QOS_MAPv_SH v) (b2n sh)).wr (F.QOS_MAPv_CLASS v) c
      let s := if s.classFree c then s.wr F.QOS_FREE_FREE (s.rd F.QOS_FREE_FREE - 2 ^ c) else s
      if c = 63 then s.wr F.QOS_STAT_SHARE63 (s.rd F.QOS_STAT_SHARE63 + 1) else s
    match (List.range 64).find? fun c => c != 0 && s.classFree c with
    | some c => give s c false
    | none => give s 63 true

/-- The class of a virtual machine is returned (R380, R381): class 63 is free again with its last holder. -/
def State.qosReturn (s : State) (v : Nat) : State :=
  if !s.flag (F.QOS_MAPv_V v) then s
  else
    let c := s.rd (F.QOS_MAPv_CLASS v)
    let s := s.wr (F.QOS_MAPv_V v) 0
    let s := if c = 63 then s.wr F.QOS_STAT_SHARE63 (s.rd F.QOS_STAT_SHARE63 - 1) else s
    if c = 63 && s.rd F.QOS_STAT_SHARE63 != 0 then s else s.wr F.QOS_FREE_FREE (s.rd F.QOS_FREE_FREE + 2 ^ c)

/-- QOS_ALLOC (R380): a write of the register. -/
def State.qosWrite (s : State) (v : Word) : State := if bit v 12 then s.qosAlloc (fget v 0 12) else s
/-- QOS_ALLOC (R380). -/
def execQosAlloc (v : Word) (s : State) : Res := .next (s.qosWrite v)

/-! Virtual machine reset (R381). -/

/-- The functions of virtual machine v. -/
def State.vmFns (s : State) (v : Nat) : List Nat :=
  (List.range 256).filter fun f => s.vrfHere f && s.rd (F.VRH_CTL_VMID f) == v

/-- The vectors of virtual machine v (v is not 0, so a vector that is not listed is none of them). -/
def State.vmVecs (s : State) (v : Nat) : List Nat := s.listedVecs.filter fun k => s.rd (F.CUEV_VMID k) == v

/-- Notices that only the given tables have set are withdrawn from a thread: the rest, and how many went (R381). -/
def noticesLeft (tabs : List Nat) (m : SMap (List Nat)) : SMap (List Nat) × Nat :=
  let left := m.filterMap fun c =>
    let l := c.2.filter fun p => !tabs.contains p
    if l == [] then none else some (c.1, if tabs.contains (c.2.headD 0) then c.2 else c.2.filter fun p => p == c.2.headD 0 || l.contains p)
  (left, m.length - left.length)

/-- Step 2 of R381, with the number of cues withdrawn. -/
def State.vmCues (s : State) (v : Nat) : State × Nat :=
  let vecs := s.vmVecs v
  let tabs := (vecs.filter fun k => s.flag (F.CUEV_VIRT k)).map fun k => s.rd (F.CUEV_TARGET k) / 2 ^ 13
  let pend := (vecs.filter fun k => !s.flag (F.CUEV_VIRT k) && s.flag (F.CUEV_PEND k)).length
  let s := vecs.foldl (fun s k => (s.wr (F.CUEV_PEND k) 0).wr (F.CUEV_V k) 0) s
  let n := s.threads.foldl (fun n c => n + (noticesLeft tabs c.2.notices).2) pend
  ({ s with threads := SMap.mapv (fun _ x => { x with notices := (noticesLeft tabs x.notices).1 }) s.threads }, n)

/-- A virtual machine reset (R381). -/
def State.vmReset (s : State) (v : Nat) : State :=
  let fns := s.vmFns v
  if v = 0 then s.wr F.VMRST_STAT_RESULT 3
  else if s.rnQuiesce && fns.any (fun f => s.vrfOn f && !s.flag (F.VRF_STAT_QUIESCED f)) then s.wr F.VMRST_STAT_RESULT 2
  else
    let s := fns.foldl (fun s f => if s.rnQuiesce then ((s.recordSent f).discardJobs f f).vrfClear f else s.vrfResetGen f) s
    let c := s.vmCues v
    let s := (c.1.inc F.CUE_STAT_PURGED c.2).qosReturn v
    let s := ((s.wr F.VMRST_STAT_CUES c.2).wr F.VMRST_STAT_VRFS fns.length).wr F.VMRST_STAT_VMID v
    s.wr F.VMRST_STAT_RESULT 1

/-- A write of VMRST_CMD (R381). -/
def State.vmrstWrite (s : State) (v : Word) : State :=
  if bit v 12 && !s.flag F.VMRST_STAT_BUSY then s.vmReset (fget v 0 12) else s
/-- VMRST_CMD (R381). -/
def execVmrstCmd (v : Word) (s : State) : Res := .next (s.vmrstWrite v)

/-! Cues (R376, R382). -/

/-- CUE_RAISE (R376). -/
def execCueRaise (v : Fin 8192) (s : State) : Res := .next (s.cueRaise v.val)

/-- A write of CUE_PTBASEi (R382): BASE holds while V is 1, and setting V validates the table. -/
def State.ptBase (s : State) (i : Nat) (v mask : Word) : State :=
  if s.flag (F.CUE_PTBASEi_V i) then s.regPut (A.CUE_PTBASEi i) v (mask &&& 3#64)
  else
    let s := s.regPut (A.CUE_PTBASEi i) v mask
    if !s.flag (F.CUE_PTBASEi_V i) then s
    else match s.regionOfRange (s.ptAddr i) 1088 with
      | some r => if r.mtype == mtVolatile then s else (s.wr (F.CUE_PTBASEi_V i) 0).wr (F.CUE_PTBASEi_REFUSE i) 1
      | none => (s.wr (F.CUE_PTBASEi_V i) 0).wr (F.CUE_PTBASEi_REFUSE i) 1
/-- CUE_PTBASE_VALIDATE (R382). -/
def execCuePtbaseValidate (i : Fin 1024) (v : Word) (s : State) : Res := .next (s.ptBase i.val v fullMask)

end Sys2Proof.Machine
end

