-- ==== Sys2Proof/Machine/Io.lean ====
section
/-!
DEFINITION. I/O space (R12 to R17, R93, R309, R340, R341, R359, R360, R523): the write and the read of a register at an
address with all that the register does, and IOLD and IOST.
-/
namespace Sys2Proof.Machine

/-! Writes. -/

/-- A write of DIE_RSTd (R459, R468): HOLD, then FENCE, then RESET. -/
def State.dieRstWrite (s : State) (d : Nat) (v mask : Word) : State :=
  let w := v &&& mask
  let s := if !bit mask 2 then s else if bit w 2 then s.wr (F.DIE_RSTd_HOLD d) 1 else s.holdRelease d
  let s := if bit w 0 then s.fence d else s
  if bit w 1 then s.dieRst d else s

/-- A write of CORE_SPARE (R426, R436). -/
def State.coreSpareWrite (s : State) (d : Nat) (v mask : Word) : State :=
  if s.flag (F.CORE_SPARE_BUSY d) then s
  else
    let s := s.regPut (A.CORE_SPARE d) v mask
    if bit (v &&& mask) 0 then s.coreSpare d (s.rd (F.CORE_SPARE_LOGICAL d)) else s

/-- A write of THR_START (R460). -/
def State.thrStartWrite (s : State) (d : Nat) (v : Word) : State :=
  if bit v 0 then s.thrStart d (fget v 2 5) (fget v 1 1) else s

/-- A write of TDn_CMD (R243). -/
def State.tdCmd (s : State) (d : Nat) (v : Word) : State :=
  if fget v 0 2 = 1 then s.cutTrigger d else if fget v 0 2 = 2 then s.rollStart d else s

/-- A write of GAF_LIMIT: a limit above the part's default is stored as that default (R466). -/
def State.gafLimit (s : State) (v mask : Word) : State :=
  let s := s.regPut A.GAF_LIMIT v mask
  let s := s.wr F.GAF_LIMIT_BURST_W (Nat.min (s.rd F.GAF_LIMIT_BURST_W) s.burstW)
  s.wr F.GAF_LIMIT_SUSTAIN_W (Nat.min (s.rd F.GAF_LIMIT_SUSTAIN_W) s.sustainW)

/-- A write of PART_MASKc: a value with a mask of zero is a reserved encoding (R403). -/
def State.partMask (s : State) (a : Nat) (v mask : Word) : State :=
  let mix := (s.rdw a &&& ~~~mask) ||| (v &&& mask)
  if fget mix 0 16 = 0 || fget mix 16 16 = 0 then s else s.regPut a v mask

/-- A write of DBG_CMD (R409, R411). -/
def State.dbgCmd (s : State) (v : Word) : State :=
  if bit v 0 then s.dbgCheck (Config.certOk ((List.range 16).map fun k => s.rdw (A.DBG_CERTk k))) else s

/-- A write of a W1C register whose bit clears more than itself. -/
def State.clearWrite (s : State) (v : Word) (i : Nat) (f : State → State) : State := if bit v i then f s else s

/-- A write of PKG_RST (R457, R468). -/
def State.pkgRst (s : State) (v : Word) : State := if bit v 0 then s.coldAct else if bit v 1 then s.warmReset else s

/-- Registers of the mirror block that root mode takes away (R346). -/
def mirOnly (a : Nat) : Bool := A.MWx_LOCAL 0 ≤ a && a < A.MIR_RCn 8

/-- Writes in the H-die's own blocks. -/
def State.regHub (s : State) (r : RegDesc) (i a : Nat) (v mask : Word) : Option State :=
  let b := r.base
  let w := v &&& mask
  if b = D.WRAP_CTL.base then some (s.wrapCtl v mask)
  else if b = D.IS_CTLs.base then some (s.isCtl i v mask)
  else if b = D.IS_PORTSs.base || b = D.IS_BASEs.base || b = D.IS_SIZEs.base then some (s.isOther i a v mask)
  else if b = D.PKG_RST.base then some (s.pkgRst w)
  else if b = D.DIE_RSTd.base then some (s.dieRstWrite i v mask)
  else if b = D.TDn_CFG.base then some (s.writeTdCfg i v mask)
  else if b = D.TDn_SEG1.base then some (s.writeTdSeg1 i v mask)
  else if b = D.TDn_CMD.base then some (s.tdCmd i w)
  else if b = D.SLATE_CTL.base then some (s.slateCtl v mask)
  else if b = D.SLATE_SET.base then some (s.slateSet w)
  else if b = D.SLATE_ADJ.base then some (if mask &&& 0xFFFFFFFF#64 = 0 then s else s.slateAdj w)
  else if b = D.SLATE_HOP.base || b = D.SLATE_ROOTUNC.base then some (s.regPut a v mask).uncFresh
  else if b = D.CUE_RAISE.base then some (if mask &&& 0x1FFF#64 = 0 then s else s.cueRaise (fget w 0 13))
  else if b = D.CUE_PTBASEi.base then some (s.ptBase i v mask)
  else if b = D.GAF_LIMIT.base then some (s.gafLimit v mask)
  else if b = D.QOS_ALLOC.base then some (s.qosWrite w)
  else if b = D.VMRST_CMD.base then some (s.vmrstWrite w)
  else if b = D.RN_CFG.base then some (s.rnCfg v mask)
  else if b = D.RN_ENGe.base then some (s.rnEng i v mask)
  else if b = D.MCb_STATUS.base then some (s.clearWrite w 63 fun s => s.bankClear i)
  else if b = D.MC_DIEBANKd.base then some (s.clearWrite w 9 fun s => s.recordClear i)
  else if b = D.BW_CTLp.base then some (s.bwCtl i v mask)
  else if b = D.CAL_SET.base then some (s.calSet w)
  else none

/-- Writes in the blocks of the ports, links, mirror and runner functions. -/
def State.regPort (s : State) (r : RegDesc) (i j a : Nat) (v mask : Word) : Option State :=
  let b := r.base
  if b = D.MPn_CTL.base then some (s.mpCtl i v mask)
  else if b = D.GP_CTLr.base then some (s.gpCtl i v mask)
  else if b = D.IW_ATTRrj.base then some (s.iwAttr i j v mask)
  else if b = D.IW_BASErj.base || b = D.IW_SIZErj.base || b = D.IW_PArj.base then some (s.winOther (iwRef i j) a v mask)
  else if b = D.GDW_TGTw.base then some (s.gdwTgt i v mask)
  else if b = D.GDW_BASEw.base || b = D.GDW_SIZEw.base || b = D.GDW_DEVBASEw.base then some (s.gdwOther i a v mask)
  else if b = D.PL_CTLk.base then some (s.plCtl i v mask)
  else if b = D.FW_TGTw.base then some (s.fwTgt i v mask)
  else if b = D.FW_BASEw.base || b = D.FW_SIZEw.base || b = D.FW_DEVBASEw.base then some (s.fwOther i a v mask)
  else if b = D.DL_CTL.base then some (s.dlCtl i v mask)
  else if b = D.MIR_CTL.base then some (s.mirCtl v mask)
  else if b = D.MIR_BARSZ.base then some (s.mirBarsz v mask)
  else if mirOnly a && !s.endpoint then some s
  else if b = D.MW_COMMIT.base then some (s.mwCommit v mask)
  else if A.VRF_SQBASE 0 ≤ a && a < A.VRH_CTL 256 && !s.vrfHere i then some s
  else if b = D.VRF_SQBASE.base || b = D.VRF_CQBASE.base then some (s.ringBase i a v mask)
  else if b = D.VRF_SQCFG.base then some (s.sqCfg i v mask)
  else if b = D.VRF_SQTAIL.base then some (s.sqTail i v mask)
  else if b = D.VRF_CTL.base then some (s.vrfCtl i v mask)
  else if b = D.VRH_CTL.base then some (s.vrhCtl i v mask)
  else if b = D.VRH_WIN_ATTR.base then some (s.vrhAttr i j v mask)
  else if b = D.VRH_WIN_BASE.base || b = D.VRH_WIN_SIZE.base || b = D.VRH_WIN_PA.base then
    some (s.winOther (vrhRef i j) a v mask)
  else none

/-- Writes in the secure block and the blocks of the C-dies. -/
def State.regSec (s : State) (r : RegDesc) (i a : Nat) (v mask : Word) : Option State :=
  let b := r.base
  let w := v &&& mask
  if b = D.PRT_ATTRn.base then some (s.prtAttr i v mask)
  else if b = D.PRT_BASEn.base || b = D.PRT_LIMITn.base || b = D.PRT_MONOn.base then some (s.prtOther i a v mask)
  else if b = D.ENCT_BASE.base then some (s.enctBase v mask)
  else if b = D.SEC_HOLD0.base || b = D.SEC_HOLD1.base then some (s.regPut a v mask).holdPoll
  else if b = D.DBG_AUTH.base then some (s.dbgAuth v mask)
  else if b = D.DBG_CMD.base then some (s.dbgCmd w)
  else if b = D.KS_CMD.base then some (s.ksCmd w)
  else if b = D.ENC_CMD.base then some (s.encWrite w)
  else if b = D.PART_MASKc.base then some (s.partMask a v mask)
  else if b = D.CORE_SPARE.base then some (s.coreSpareWrite i v mask)
  else if b = D.THR_START.base then some (s.thrStartWrite i w)
  else none

/-- Whether a write of a register takes effect at a level (R384, R433, R436, R449, R467, R468, R486, R495, R498). The
H-die global block and the C-die blocks ignore every write from below M (DEDUCED, log 17). -/
def regMay (r : RegDesc) (a lvl : Nat) : Bool :=
  lvl == 3 || !(r.mOnly || (A.PRT_BASEn 0 ≤ a && a ≤ A.ENC_MEASk 5) || a == A.PAD_RELEASE
    || (A.PKG_CAPS ≤ a && a < A.TK_CAPS) || A.COH_CTL 0 ≤ a)

/-- A write of the register at an address, of the bits in mask, by thread u at level lvl (R12, R523); nothing where no
register lies. -/
def State.regWrite (s : State) (u : Option Nat) (lvl a : Nat) (v mask : Word) : State :=
  match regAt regTable a with
  | none => s
  | some (r, i, j) =>
    if !regMay r a lvl then s
    else if r.base = D.GAF_REQt.base then
      (if u == some i && mask &&& 0xF#64 = 0 then s else s.gafWrite i u (v &&& mask))
    else (((s.regHub r i a v mask).or (s.regPort r i j a v mask)).or (s.regSec r i a v mask)).getD (s.regPut a v mask)

/-! Reads. -/

/-- The C-die of a bank of a C-die unit (R414). -/
def bankDie (b : Nat) : Option Nat := if b < 312 then some (ceTable b) else none
/-- The C-die of a counter group (R495). -/
def groupDie (g : Nat) : Option Nat := if g < 60 then some (g / 5) else if g < 72 then some (g - 60) else none

/-- Whether a register reads as zero because its unit is not there (R346, R358, R414, R495). -/
def State.regAbsent (s : State) (r : RegDesc) (i a : Nat) : Bool :=
  let off (d : Option Nat) : Bool := match d with | some d => !s.dieRunning d | none => false
  if A.MCb_STATUS 0 ≤ a && a < A.MCb_STATUS 354 then off (bankDie i)
  else if A.GCTLg 0 ≤ a && a < A.GCTLg 114 then off (groupDie i)
  else if A.VRF_SQBASE 0 ≤ a && a < A.VRH_CTL 256 then !s.vrfHere i
  else r.base ≥ A.MIR_CTL && mirOnly a && !s.endpoint

/-- A counter of a group that counts: its count is timing, a free value (DESIGN CHOICE, log 3). -/
def State.groupCounts (s : State) (r : RegDesc) (i j : Nat) : Bool :=
  r.base = D.GCNTgi.base && (s.rd (F.GCTLg_EN i)).testBit j

/-- MIR_STAT in root mode (R346). -/
def State.mirStat (s : State) : Word :=
  if s.endpoint then s.rdw A.MIR_STAT
  else
    let g := s.rdw (A.GP_STATr 3)
    fset (fset (fset 0 8 8 (fget g 8 8)) 0 2 (fget g 0 2)) 2 1 0

/-- What a read of the register at an address returns (R12). Where no register lies the spec states a value only for the
pages of the runner functions and for the counter block, zero; elsewhere it is free (DESIGN CHOICE, log 3; R17). -/
def State.regRead (s : State) (a : Nat) : Word × State :=
  match regAt regTable a with
  | none =>
    if A.VRF_SQBASE 0 ≤ a && a < A.VRH_CTL 256 || A.BW_CTLp 0 ≤ a && a < A.BW_CTLp 48 then (0, s)
    else (Config.freeWord s.freeCtr, s.tick)
  | some (r, i, j) =>
    if s.regAbsent r i a then (0, s)
    else if s.groupCounts r i j then (Config.freeWord s.freeCtr &&& BitVec.ofNat 64 (2 ^ 48 - 1), s.tick)
    else if a = A.SLATE_NOW then (s.slateRead, s)
    else if a = A.SLATE_UNC then (BitVec.ofNat 64 s.uncNow, s)
    else if a = A.MIR_STAT then (s.mirStat, s)
    else if r.base = D.ENC_MEASk.base then (s.encMeas i, s)
    else (fldsRead r.flds (s.rdw a), s)

/-! Where an I/O address goes (R309, R340, R359). -/

/-- What lies at an I/O address: a package register; configuration space or memory of root port r; the runners'
configuration space; configuration space or memory of the device behind memory port n. -/
inductive IoAt where
  | reg
  | ecam (r ofs : Nat)
  | bus (r : Nat)
  | rnEcam
  | dev (n : Nat)
deriving DecidableEq, Repr

/-- The owner of an I/O address. -/
def State.ioAt (s : State) (a : Nat) : IoAt :=
  let root (r : Nat) : Bool := r < 3 || !s.endpoint
  if a < 4 * 2 ^ 44 && root (a / 2 ^ 44) then .bus (a / 2 ^ 44)
  else if 0xFD0000000000 ≤ a && a < 0xFD0040000000 && root ((a - 0xFD0000000000) / 2 ^ 28) then
    .ecam ((a - 0xFD0000000000) / 2 ^ 28) (a % 2 ^ 28)
  else if 0xFD0040000000 ≤ a && a < 0xFD0050000000 then .rnEcam
  else if 0xFE8000000000 ≤ a && a < 0xFE8400000000 then .dev ((a - 0xFE8000000000) / 2 ^ 30)
  else if 0xFE0002000000 ≤ a && a < 0xFE0002100000 && 0x8000 ≤ a % 2 ^ 16 then .dev (a / 2 ^ 16 % 16)
  else .reg

/-- A write of n bytes to I/O space (R93, R340, R523): registers, or one posted or configuration write of a port. -/
def State.ioWrite (s : State) (u : Option Nat) (lvl a n : Nat) (v : Word) : State :=
  match s.ioAt a with
  | .reg => s.regWrite u lvl (a / 8 * 8) (BitVec.ofNat 64 (v.toNat * 2 ^ (8 * (a % 8)))) (byteMask (a % 8) n)
  | .bus r => if s.rootUp r then (s.linkAwake r).say (.post r a (bytesOf n v.toNat)) else s
  | .ecam r o =>
    if n = 8 then s.incSat (F.GP_ERRr_CPL_ERR r) 1
    else if o / 2 ^ 20 = 0 then (if o / 2 ^ 12 = 0 then s else s.incSat (F.GP_ERRr_CPL_ERR r) 1)
    else if s.rootUp r then (s.linkAwake r).say (.post r a (bytesOf n v.toNat))
    else s.incSat (F.GP_ERRr_CPL_ERR r) 1
  | .rnEcam => s
  | .dev m => s.say (.post (16 + m) a (bytesOf n v.toNat))

/-- What a read of n bytes of I/O space does: it returns them, or waits for port r (R341). -/
inductive IoRead where
  | now (v : Word) (s : State)
  | wait (r : Nat) (s : State)

/-- A read answered without a request to the device: all ones, counted (R340, R341). -/
def State.ioNone (s : State) (r : Nat) : IoRead := .now (BitVec.allOnes 64) (s.incSat (F.GP_ERRr_CPL_ERR r) 1)
/-- One read request leaves root port r. -/
def State.ioAsk (s : State) (t r : Nat) : IoRead :=
  let s := s.linkAwake r
  .wait r (s.setGpx r { s.gpx r with reads := (s.gpx r).reads ++ [some t] })
/-- A value the spec does not state (DESIGN CHOICE, log 3). -/
def State.ioFree (s : State) : IoRead := .now (Config.freeWord s.freeCtr) s.tick

/-- A read of n bytes of I/O space by a thread (R93, R309, R340, R341, R359). -/
def State.ioRead (s : State) (t a n : Nat) : IoRead :=
  match s.ioAt a with
  | .reg =>
    let v := s.regRead (a / 8 * 8)
    .now (BitVec.ofNat 64 (v.1.toNat / 2 ^ (8 * (a % 8)))) v.2
  | .bus r => if s.rootUp r then s.ioAsk t r else s.ioNone r
  | .ecam r o =>
    if n = 8 then s.ioNone r
    else if o / 2 ^ 20 = 0 then (if o / 2 ^ 12 = 0 then s.ioFree else s.ioNone r)
    else if s.rootUp r then s.ioAsk t r else s.ioNone r
  | .rnEcam => s.ioFree
  | .dev _ => s.ioFree

/-! IOLD and IOST (R73, R93). -/

/-- What IOLD does (R73, R93, R213, R341). -/
def bodyIold (t : Tid) (d a : Rn) (szk : Fin 16) (disp : BitVec 11) (s : State) : Out :=
  let n := szOf szk.val
  match s.addr t .iold (s.eaMd t a szk.val disp) n true with
  | .bad x => .trap s x
  | .ok pa _ => match s.ioRead t.val pa n with
    | .now v s => .done ((s.promote (dieOf t)).loadTo t d szk.val (bytesOf n v.toNat))
    | .wait r s => .hold (s.setThr t { s.thr t with run := .ioWait r d szk.val })
/-- IOLD (R93). -/
def execIold (t : Tid) (d a : Rn) (szk : Fin 16) (disp : BitVec 11) (s : State) : Res :=
  .next (s.issue t (.iold t d a szk disp) (bodyIold t d a szk disp))

/-- What IOST does (R73, R93): it waits until every earlier store is visible. Where the write resets the thread, nothing of
it is left to retire. -/
def bodyIost (t : Tid) (d a : Rn) (szk : Fin 16) (disp : BitVec 11) (s : State) : Out :=
  let n := szOf szk.val
  match s.addr t .iost (s.eaMd t a szk.val disp) n true with
  | .bad x => .trap s x
  | .ok pa _ => match s.drain t with
    | none => .hold (s.commitWait t)
    | some s =>
      let v : Word := BitVec.ofNat 64 (ofBytes (bytesOf n (s.g t d).toNat))
      let s := s.ioWrite (some t.val) (s.thr t).pl pa n v
      if (s.thr t).run = .halted then .go s else .done s
/-- IOST (R93). -/
def execIost (t : Tid) (d a : Rn) (szk : Fin 16) (disp : BitVec 11) (s : State) : Res :=
  .next (s.issue t (.iost t d a szk disp) (bodyIost t d a szk disp))

/-- REGISTER_WRITE (R12, R13, R15, R16, R523): a naturally aligned write from outside the threads, at a level. -/
def execRegisterWrite (addr size : Nat) (v : Word) (lvl : Lvl) (s : State) : Res :=
  .next (if (size == 1 || size == 2 || size == 4 || size == 8) && addr % size == 0 then
      s.ioWrite none lvl.val addr size v
    else s)

end Sys2Proof.Machine
end

