-- ==== Sys2Proof/Machine/Boot.lean ====
section
/-!
DEFINITION. The start of the package (R27, R261 to R263, R424, R461 to R465): the steps of the continuity processor, each taken
as time passes (DESIGN CHOICE, log 8), the ways into a reset (R253, R456, R457, R505), start slots, and the end of a domain's rollback
(R259, R260).
-/
namespace Sys2Proof.Machine

/-! Which copy of the call sheet boots (R462, R464). -/

/-- The UID of the package. -/
def State.uid (s : State) : Nat := (s.rdw A.DBG_UID0).toNat + (s.rdw A.DBG_UID1).toNat * 2 ^ 64

/-- The REASON that refuses a copy (R464, R468); 0 where it is valid. -/
def State.copyReason (s : State) : Option SheetCopy → Nat
  | none => 1
  | some c =>
    if !c.formatOk then 3
    else if !(c.keyHashOk && c.sigOk) then 1
    else if !(c.part == 0 || c.part == s.rd F.PKG_CAPS_PART) || (c.uidBind && c.uid.toNat != s.uid) then 4
    else if c.version < s.boot.minVer then 2
    else if !c.criticalOk then 5 else 0

/-- The copies that BOOT[1:0] names, with their COPY codes (R462). -/
def sources (b : BootInput) : List (Nat × Option SheetCopy) := match b.boot.val with
  | 0 => [(1, b.copyA), (2, b.copyB)]
  | 1 => [(1, b.copyA)]
  | 2 => [(3, b.uart)]
  | _ => []

/-- The valid copy of highest VERSION, the first of equal ones. -/
def State.pickCopy (s : State) (l : List (Nat × Option SheetCopy)) : Option (Nat × SheetCopy) :=
  l.foldl (fun best x =>
    if s.copyReason x.2 ≠ 0 then best
    else match x.2, best with
      | some c, some y => if y.2.version < c.version then some (x.1, c) else best
      | some c, none => some (x.1, c)
      | none, _ => best) none

/-- Change the step of BOOT_STAT. -/
def State.bootTo (s : State) (n : Nat) : State := s.wr F.BOOT_STAT_STEP n
/-- A boot hold (R461): no C-die runs. -/
def State.bootHold (s : State) (why : Nat) : State :=
  let s := (List.range 12).foldl (fun s d => if s.rd (F.PKG_DIEd_STATE d) = 5 then s else (s.dlinksDown d).setDie d 5) s
  ((s.setBoot { s.boot with slots := [], clusters := [], images := [] }).wr F.BOOT_STAT_REASON why).bootTo 0x80

/-- STEP 2 (R462, R464). A call sheet over the UART is waited for, also while UART_RXD is stuck (R514). -/
def State.bootPick (s : State) : State := match s.boot.input with
  | none => s
  | some b =>
    if b.boot.val = 3 then s.bootHold 8
    else if b.boot.val = 2 && (b.uart.isNone || s.pinStuck 7) then s
    else match s.pickCopy (sources b) with
      | some (k, c) =>
        let s := s.setBoot { s.boot with sheet := some c }
        ((s.wr F.BOOT_STAT_VERSION c.version).wr F.BOOT_STAT_COPY k).bootTo 3
      | none =>
        let rs := (sources b).map fun x => s.copyReason x.2
        s.bootHold ((rs.find? fun r => r != 1).getD 1)

/-! STEP 3: DLINK, DEAD, REPAIR, REGULATORS and GAFFER. -/

/-- The core map of a die with the given dead cores (R27, R425). -/
def State.buildMap (s : State) (d dead : Nat) : State :=
  let ok := (List.range 20).filter fun p => !dead.testBit p
  let s := (List.range 18).foldl (fun s l => s.wrw (A.CORE_MAPl d l) (match ok[l]? with
    | some p => BitVec.ofNat 64 (2 ^ 15 + p * 2 ^ 8)
    | none => 0)) s
  let s := s.wr (F.CORE_PHYS_DEAD d) dead
  s.wr (F.CORE_PHYS_SPARE d) ((ok.drop 18).foldl (fun m p => m + 2 ^ p) 0)

/-- One entry of the repair list (R424). Whether a spare row is left, and which way holds the row, the fuse map says: free
values (DESIGN CHOICE, log 3). -/
def State.repair (s : State) (x : Nat × Nat × Nat) : State :=
  let fits := Config.freeBool s.freeCtr
  let way := Config.freeNat (s.freeCtr + 1)
  let s := s.tick.tick
  if fits || 11 < x.1 then s
  else if 6 ≤ x.2.1 && x.2.1 ≤ 9 then
    let n := if x.2.1 ≤ 7 then 5 else 16
    s.wayDisable ⟨x.1, x.2.1, way / 16 % n, x.2.2, way % 16, false⟩
  else s.logAsyncFree (300 + x.1) x.2.1

/-- The repair list of die d. -/
def State.repairs (s : State) (d : Nat) : State := match s.boot.sheet with
  | some c => (c.repair.filter fun x => x.1 == d).foldl (fun s x => s.repair x) s
  | none => s

/-- The blocks that the images of a section may name (R465). -/
def inDlink (a : Nat) : Bool := A.DL_CTL 0 ≤ a && a < A.DL_CTL 24
/-- The gaffer block. -/
def inGaffer (a : Nat) : Bool := A.GAF_LIMIT ≤ a && a < A.GAF_REQt 432
/-- The blocks of MEMORY. -/
def inMemory (a : Nat) : Bool :=
  a == A.WRAP_CTL || (A.MPn_CAP 0 ≤ a && a < A.MPn_CAP 16) || (A.IS_CTLs 0 ≤ a && a < A.IS_CTLs 16)
    || (A.PRT_BASEn 0 ≤ a && a < A.PRT_LOCK) || (A.TDn_CFG 0 ≤ a && a < A.TDn_CFG 8) || (A.PL_CTLk 0 ≤ a && a < A.DL_CTL 0)
/-- The mirror block. -/
def inMirror (a : Nat) : Bool := A.MIR_CTL ≤ a && a < A.MIR_RCn 8

/-- A register image is written (R465). -/
def State.imagePut (s : State) (x : Nat × Word) : State := s.ioWrite none 3 x.1 8 x.2

/-- Images written in order; the boot is held at the first that lies outside its blocks. -/
def State.images (s : State) (ok : Nat → Bool) (l : List (Nat × Word)) : State :=
  if l.all fun x => ok x.1 then l.foldl (fun s x => s.imagePut x) s
  else ((l.takeWhile fun x => ok x.1).foldl (fun s x => s.imagePut x) s).bootHold 3

/-- The boot is held. -/
def State.held (s : State) : Bool := s.rd F.BOOT_STAT_STEP = 0x80

/-- The locality tables are filled (R336): memory ports 0 to 7 face C-dies 0 to 5, ports 8 to 15 the others; the package itself is
no hop away, a member of its group (DEDUCED, log 43). -/
def State.fillLocality (s : State) : State :=
  let s := (List.range 12).foldl (fun s d => s.wrw (A.LOC_PORTd d) (if d < 6 then 0x55550000 else 0x5555)) s
  let s := s.wr (locHops s.gpos) 0
  s.wr ⟨A.GRP_STAT, s.gpos, 1⟩ 1

/-- STEP 3. -/
def State.bootApply (s : State) : State := match s.boot.sheet with
  | none => s
  | some c =>
    let s := s.images inDlink c.dlink
    if s.held then s
    else
      let s := (List.range 12).foldl (fun s d => (s.buildMap d (c.dead.getD d 0 % 2 ^ 20)).repairs d) s
      let s := (s.images inGaffer c.gaffer).fillLocality
      if s.held then s else s.bootTo 4

/-! STEPS 4 to 7. -/

/-- A D-link trains. -/
def State.anyTraining (s : State) : Bool := (List.range 24).any fun j => s.dlState j == 1
/-- The lowest-numbered RUNNING C-die. -/
def State.lowDie (s : State) : Option Nat := (List.range 12).find? s.dieRunning

/-- STEP 4: every C-die has started or been left out (R326, R453). -/
def State.bootDies (s : State) : State :=
  if s.boot.slots != [] || s.anyTraining then s
  else
    let s := s.featNow
    if s.lowDie = none then s.bootHold 7
    else
      let l := match s.boot.sheet with | some c => c.memory ++ c.mirror | none => []
      (s.setBoot { s.boot with images := if s.boot.warm then [] else l }).bootTo 5

/-- A memory port is on its way up. -/
def State.portsBusy (s : State) : Bool :=
  (List.range 16).any fun n => (s.pt n).phase == .training || (s.pt n).phase == .waiting

/-- The sealed slots of the call sheet and of the ledger are loaded (R391). -/
def State.loadKeys (s : State) : State := match s.boot.sheet with
  | some c => (c.keys ++ s.sec.ledger).foldl (fun s x =>
      if x.1 = 0 || 1024 ≤ x.1 || s.ksValid x.1 then s else s.ksSealed x.1 x.2) s
  | none => s

/-- One domain has finished its restart (R251, R259). -/
def State.domDone (s : State) (d : Nat) (c : Option Nat) : State :=
  let late := (List.range 16).any fun n => (s.rd F.WRAP_STAT_GPF_LATE).testBit n && s.domOnPort d n
  let s := (s.restartDom d c).wr (F.RESTART_DOMn_GPFLATE d) (b2n late)
  s.setBoot { s.boot with rolls := s.boot.rolls.filter fun x => x != d, leadC := SMap.del s.boot.leadC d }

/-- STEP 5 ends: the key slots are re-created, and every domain begins its scan (R256, R260). -/
def State.bootScan (s : State) : State :=
  let s := if s.boot.warm then s else s.loadKeys
  let ids := match s.boot.sheet with | some c => c.mirrorIds | none => 0
  let s := { s with mir := { s.mir with ids := ids } }
  let ds := (List.range 8).filter s.domEn
  let s := ds.foldl (fun s d => (s.wrw (A.RESTART_DOMn d) 0).wr (F.TDn_STAT_ROLLING d) 1) s
  let s := (s.setBoot { s.boot with rolls := ds }).bootTo 6
  ds.foldl (fun s d => match SMap.find? s.boot.leadC d with
    | some c => if s.follows d then s.domDone d (some c.toNat) else s
    | none => s) s

/-- STEP 5: one register image of the MEMORY or MIRROR section, or its end. An image outside the memory port blocks waits until
no port is on its way up (R261, R296). -/
def State.bootImage (s : State) : State := match s.boot.images with
  | [] => if s.portsBusy then s else s.bootScan
  | x :: q =>
    if !(inMemory x.1 || inMirror x.1) then s.bootHold 3
    else if s.portsBusy && !(A.MPn_CAP 0 ≤ x.1 && x.1 < A.MPn_CAP 16) then s
    else (s.setBoot { s.boot with images := q }).imagePut x

/-- The monitor's image is copied into the local store of a die (R463). -/
def State.loadMonitor (s : State) (d : Nat) (m : MonitorImage) : State :=
  s.lsWrite d 0 (m.image.take lsSize) (some d)

/-- STEP 7: the dailies are updated (R261), the monitor is verified and loaded, LOCKS are written, and the boot thread starts
(R461, R463, R464). -/
def State.bootMonitor (s : State) : State := match s.boot.sheet, s.lowDie with
  | some c, some d => match c.monitor with
    | none => s.bootHold 3
    | some m =>
      if !s.boot.warm && !m.hashOk then s.bootHold 6
      else
        let s := if s.boot.warm then s.dlyStore else (s.dlyStore.loadMonitor d m).images (fun _ => true) c.locks
        let l := ((List.range 18).find? fun l => s.populated d l).getD 0
        let x := s.thrN (tidOf d l 0)
        let s := s.setThrN (tidOf d l 0) (x.setC (setBase 3) (m.mvbase &&& ~~~0xFFF#64))
        let s := s.startThread d l 0 m.entry
        let s := ((s.wrw A.RESTART_T0 (Config.freeWord s.freeCtr)).wrw A.RESTART_T1 (Config.freeWord (s.freeCtr + 1))).tick.tick
        let s := if c.commit then s.setBoot { s.boot with minVer := c.version } else s
        { s.bootTo 8 with power := .run }
  | _, _ => s

/-- What keeps the package in cold reset (R505, R512, R514). -/
def State.coldHeld (s : State) : Bool :=
  s.pinLocked 0 || s.pinLocked 2 || s.pinStuck 2
    || s.pins.rails.any fun r => r == .vio || r == .vhub || r == .vunc || r == .vserA || r == .vserB

/-- One step of the boot, where the package boots and the step's work can go on. -/
def State.bootStep (s : State) : State :=
  if s.power ≠ .boot then s
  else match s.rd F.BOOT_STAT_STEP with
    | 1 => if s.coldHeld then s else s.bootTo 2
    | 2 => s.bootPick
    | 3 => s.bootApply
    | 4 => s.bootDies
    | 5 => s.bootImage
    | 6 => if s.boot.rolls.all s.follows then s.bootTo 7 else s
    | 7 => s.bootMonitor
    | _ => s

/-! Start slots and rollback. -/

/-- DIE_START_SLOT (R453, R459, R505). -/
def execDieStartSlot (d : DieNo) (vcoreOk : Bool) (s : State) : Res :=
  .next (if s.nextSlot = some d.val && (s.power = .run || (s.power = .boot && s.rd F.BOOT_STAT_STEP ≥ 4)) then
      (if s.power = .boot && !s.boot.warm then s else s.repairs d.val).startDie d.val vcoreOk
    else s)

/-- RESTART_ROLLBACK_DONE (R257, R259). -/
def execRestartRollbackDone (dom : Dom) (s : State) : Res :=
  .next (if s.boot.rolls.contains dom.val && !s.follows dom.val then s.domDone dom.val none else s)

/-- LEAD_C (R260): the lead's C, kept until the member's scan where that has not begun. -/
def execLeadC (dom : Dom) (c : Word) (s : State) : Res :=
  .next (if s.boot.rolls.contains dom.val then
      (if s.follows dom.val then s.domDone dom.val (some c.toNat) else s)
    else if s.power = .boot then s.setBoot { s.boot with leadC := SMap.put s.boot.leadC dom.val c }
    else s)

/-- LEADWAIT_EXPIRY (R260). -/
def execLeadwaitExpiry (dom : Dom) (s : State) : Res :=
  .next (s.wrIf (s.boot.rolls.contains dom.val && s.follows dom.val) (F.RESTART_DOMn_LEADWAIT dom.val) 1)

/-! The ways into a reset. -/

/-- A rail's bit of PIN_EVT (R522). -/
def railBit : Rail → Nat
  | .vcore d => 16 + d.val
  | .vunc => 2
  | .vhub => 1
  | .vserA => 3
  | .vserB => 4
  | .vio => 0

/-- PIN_EVT records an event. -/
def State.pinEvt (s : State) (i : Nat) : State := s.wrw A.PIN_EVT (setBit (s.rdw A.PIN_EVT) i true)

/-- PWRGOOD_RISE (R456, R462, R505, R516): the straps are sampled and a cold reset begins. -/
def execPwrgoodRise (b : BootInput) (s : State) : Res :=
  .next (if s.pins.pwrgood || !s.aon.up then s
    else
      let s := b.railsBad.foldl (fun s r => s.pinEvt (railBit r)) s
      let s := if b.strapUnst then s.pinEvt 8 else s
      let s := s.pinLevel 0 true
      let s := (s.setBoot { s.boot with input := some b }).setSl { s.sl with tref := b.trefOk }
      ({ s with pins := { s.pins with pwrgood := true, rails := b.railsBad } }).coldReset)

/-- A wake from OFF (R448, R471, R475): GPIO[15] goes high, and with PWRGOOD present the package cold-starts. -/
def State.offWake (s : State) (src : Nat) : State :=
  let s := (s.wr F.AON_STAT_WAKESRC src).setAon { s.aon with woke := some s.calNow, wakeDue := false }
  let s := if s.flag F.GAF_PWR_OFFPIN then s.wrw A.PIN_LVL (setBit (s.rdw A.PIN_LVL) 31 true) else s
  if s.pins.pwrgood then s.coldReset else s

/-- A wake source arrives: WAKE_N and the alarm in the same XTAL period wake once, and WAKESRC reads 3 (R475). -/
def State.wakeSrc (s : State) (src : Nat) : State :=
  if s.aon.woke = some s.calNow && s.rd F.AON_STAT_WAKESRC ≠ src then s.wr F.AON_STAT_WAKESRC 3
  else if s.power = .off then s.offWake src else s

/-- What a park or OFF holds acts when it has been reached: a reset held during the wrap restarts the package (R248), and a
WAKE_N that came during OFF entry wakes it (R515). -/
def State.parkPoll (s : State) : State :=
  if s.power = .park && s.wrap.held != [] then s.coldReset
  else if s.power = .off && s.aon.wakeDue then s.offWake 1 else s

/-- RESET_N_ASSERT (R248, R253, R456, R457, R514). In OFF the package waits for WAKE_N or the alarm (R448). -/
def execResetNAssert (s : State) : Res :=
  .next (if !s.aon.up then s
    else
      let s := s.pinAssert 2 8
      match s.power with
      | .wrap => { s with wrap := { s.wrap with held := s.wrap.held ++ [1] } }
      | .off => s
      | .unpowered => s
      | _ => s.coldAct)

/-- WARM_N_ASSERT (R248, R456, R457, R514). -/
def execWarmNAssert (s : State) : Res :=
  .next (if s.vioOut || !s.aon.up then s
    else
      let off := s.pinLocked 3 || s.pinStuck 3
      let s := s.pinAssert 3 8
      if off then s
      else if s.running? then s.warmReset
      else if s.power = .wrap then { s with wrap := { s.wrap with held := s.wrap.held ++ [2] } }
      else s)

/-- PKG_RST_COLD (R457): from M. -/
def execPkgRstCold (lvl : Lvl) (s : State) : Res := .next (if lvl.val = 3 && s.running? then s.coldAct else s)
/-- PKG_RST_WARM (R457): from M. -/
def execPkgRstWarm (lvl : Lvl) (s : State) : Res := .next (if lvl.val = 3 && s.running? then s.warmReset else s)

/-- PWRFAIL_DEASSERT_HOLD (R253): 100 ms without interruption. -/
def execPwrfailDeassertHold (s : State) : Res :=
  .next (if s.power = .park && s.wrap.cause = 1 && !s.wrap.ignored && s.pins.pwrgood then s.coldReset else s)

/-- AUTORESTART (R253). -/
def execAutorestart (s : State) : Res :=
  .next (if s.power = .park && s.wrap.cause = 2 && s.flag F.WRAP_CTL_AUTORESTART && s.pins.pwrgood then s.coldReset else s)

end Sys2Proof.Machine
end

