-- ==== Sys2Proof/Machine/Pins.lean ====
section
/-!
DEFINITION. Pins, clocks and rails (R452, R470, R471, R475, R505 to R519).
-/
namespace Sys2Proof.Machine

/-- WAKE_N_ASSERT (R446, R471, R514, R515). -/
def execWakeNAssert (s : State) : Res :=
  .next (if !s.aon.up then s
    else
      let deaf := s.pinLocked 4 || s.pinStuck 4
      let s := s.pinAssert 4 8
      if deaf then s
      else
        let s := s.wakeSrc 1
        match s.power with
        | .deep => s.wake
        | .run =>
          let late := match s.gaf.deep with | some x => x.gpf.isSome | none => false
          let s := s.wr F.AON_STAT_WAKEPIN 1
          if late then s.setAon { s.aon with wakeDue := true } else s.wake
        | .park => s.wr F.AON_STAT_WAKEPIN 1
        | _ => s)

/-- CAL_ALARM_FIRE (R475): where the alarm is due. -/
def execCalAlarmFire (s : State) : Res :=
  .next (if s.aon.up && s.flag F.CAL_ALARM_EN && s.rd F.CAL_ALARM_SECONDS ≤ s.rd F.CAL_NOW_SECONDS then
      ((s.wr F.CAL_ALARM_EN 0).wr F.AON_STAT_ALARM 1).wakeSrc 2
    else s)

/-- PROCHOT_ASSERT (R452, R514, R515): in effect from the first sample of a start. -/
def execProchotAssert (s : State) : Res :=
  .next (if s.vioOut || !s.aon.up then s
    else
      let s := (s.pinAssert 5 100).pinLevel 5 false
      if s.running? then s.capDrop else s)

/-- An input is past its stuck limit no more. -/
def State.unstick (s : State) (i : Nat) : State :=
  { s with pins := { s.pins with stuck := s.pins.stuck.filter fun x => x != i } }

/-- PROCHOT_RELEASE (R452). -/
def execProchotRelease (s : State) : Res := .next (if s.vioOut || !s.aon.up then s else (s.pinLevel 5 true).unstick 5)

/-- THERMAL_TRIP (R518, R519): THERMTRIP_N is asserted and the package stops as at a PWRGOOD fall. -/
def execThermalTrip (s : State) : Res := .next ({ s with wrap := { s.wrap with thermOut := true } }.stopAct)

/-- JTAG_TRST (R514): the level of JTAG_TRST_N. -/
def execJtagTrst (asserted : Bool) (s : State) : Res := .next (if s.vioOut || !s.aon.up then s else s.pinLevel 6 !asserted)

/-- REFCLK_LOSS (R507). -/
def execRefclkLoss (s : State) : Res := .next ((s.pinEvt 6).stopAct)

/-- XTAL_LOSS (R507): the calendar stops, and with it a slate that advances from the crystal. -/
def execXtalLoss (s : State) : Res :=
  .next (if s.aon.up && s.sl.xtalRun then
      ((s.pinEvt 7).wr F.CAL_STAT_VALID 0).setSl { s.sl with xtalRun := false }
    else s)
/-- XTAL_RETURN (R507). -/
def execXtalReturn (s : State) : Res := .next (s.setSl { s.sl with xtalRun := true })

/-- RAIL_OUT_OF_RANGE (R505, R512): recorded; without VIO, PROCHOT_N reads asserted. -/
def execRailOutOfRange (r : Rail) (s : State) : Res :=
  .next (if !s.aon.up then s
    else
      let s := s.pinEvt (railBit r)
      let s := { s with pins := { s.pins with rails := if s.pins.rails.contains r then s.pins.rails else s.pins.rails ++ [r] } }
      if r = .vio && s.running? then s.capDrop else s)

/-- RAIL_IN_RANGE (R505, R512). -/
def execRailInRange (r : Rail) (s : State) : Res :=
  .next { s with pins := { s.pins with rails := s.pins.rails.filter fun x => x != r } }

/-- VAON_LOSS (R470): the well is lost but for the ferroelectric array, and nothing runs without it. -/
def execVaonLoss (s : State) : Res :=
  .next (if s.aon.up then
      let s := s.stopAct
      { s with
        power := .unpowered, aon := { s.aon with up := false }, pins := { s.pins with pwrgood := false } }
    else s)

/-- INPUT_UNLOCK (R513, R514): the unlock level has been held for the unlock time. -/
def execInputUnlock (i : Fin 10) (s : State) : Res :=
  .next ((s.wrw A.PIN_LOCK (setBit (s.rdw A.PIN_LOCK) i.val false)).unstick i.val)

/-- An input reaches its stuck limit (R514). -/
def State.stick (s : State) (i : Nat) : State :=
  let s := s.wrw A.PIN_STUCK (setBit (s.rdw A.PIN_STUCK) i true)
  { s with pins := { s.pins with stuck := if s.pins.stuck.contains i then s.pins.stuck else s.pins.stuck ++ [i] } }

/-- INPUT_STUCK (R253, R514): RESET_N keeps the package in cold reset; PWRGOOD and JTAG_TRST_N have no limit. -/
def execInputStuck (i : Fin 10) (s : State) : Res :=
  .next (match i.val with
    | 0 => s
    | 1 => s.pwrfailStuck
    | 2 =>
      let s := s.stick 2
      if s.running? || s.power = .boot then s.coldAct else s
    | 6 => s
    | n => s.stick n)

/-- I3C_BUS_RECOVERY (R514): 9 SCL pulses and a STOP. Whether they free the bus is free (DESIGN CHOICE, log 3). -/
def execI3cBusRecovery (bus : Fin 2) (s : State) : Res :=
  .next (if s.pinStuck (8 + bus.val) then
      (if Config.freeBool s.freeCtr then s.unstick (8 + bus.val) else s).tick
    else s)

end Sys2Proof.Machine
end

