-- ==== Sys2Proof/Machine/Jtag.lean ====
section
/-!
DEFINITION. The external debugger (R407 to R410, R514).
-/
namespace Sys2Proof.Machine

/-- The TAP works: JTAG_TRST_N is high, and the pads and the H-die have power (R512, R514). -/
def State.tapOn (s : State) : Bool := bit (s.rdw A.PIN_LVL) 6 && !s.vioOut && s.aon.up && s.powered

/-- Control of a world (R407). -/
def State.dbgControl (s : State) (secure : Bool) : Bool :=
  s.rd F.PKG_DBG_STATE ≥ 1 && (if secure then s.rd F.DBG_AUTH_SLEVEL else s.rd F.DBG_AUTH_NLEVEL) == 2

/-- Control of a thread, by the world it is in; of an enclave only with DEBUG (R383, R408). -/
def State.dbgThread (s : State) (t : Nat) : Bool :=
  let x := s.thrN t
  s.dbgControl (x.pl == 3 || x.enc) && (!x.enc || x.encDbg) && s.dieRunning (t / 36)

/-- The enclave whose memory lies at a physical address, none for other memory; and whether it belongs to the normal world
(R176, R177). -/
def State.memWorld (s : State) (pa : Nat) : Bool × Option Nat :=
  let mono := match s.regionOf pa with | some r => r.mono | none => false
  if mono || (s.lsOf pa).isSome then (true, none)
  else
    let e := s.ownEntry pa
    (ownType e == 1, if ownType e == 2 then some (ownEnc e) else none)

/-- Control of memory at a physical address. -/
def State.dbgMem (s : State) (secure : Bool) (pa : Nat) : Bool :=
  let w := s.memWorld pa
  s.dbgControl secure && (secure || w.1) && match w.2 with
    | some id => bit (s.entDw id 0) 2
    | none => true

/-- The registers that JTAG reaches in SEALED (R409, R411). -/
def dbgOpen (a : Nat) : Bool :=
  a == A.PKG_DBG || a == A.DBG_NONCE || a == A.DBG_UID0 || a == A.DBG_UID1 || a == A.DBG_CMD
    || (A.DBG_CERTk 0 ≤ a && a < A.DBG_CERTk 16)

/-- Whether JTAG reaches a register, and at which level. -/
def State.dbgReg (s : State) (a : Nat) : Option Nat :=
  if dbgOpen a || s.dbgControl true then some 3
  else if s.dbgControl false && !(A.PRT_BASEn 0 ≤ a && a < 0xFE0009000000) then some 2 else none

/-- A thread is halted for the debugger: not while an IOLD waits. -/
def State.dbgHalt (s : State) (t : Nat) : State :=
  let x := s.thrN t
  let go := match x.run with
    | .running => true
    | .waiting => true
    | .slateWait _ _ => true
    | _ => false
  if go then s.setThrN t { x with run := .debugHalt } else s

/-- A halted thread goes on, for one instruction or freely. -/
def State.dbgGo (s : State) (t : Nat) (one : Bool) : State :=
  let x := s.thrN t
  if x.run = .debugHalt then
    let s := s.setThrN t { x with run := .running }
    if one then { s with sec := { s.sec with stepping := s.sec.stepping ++ [t] } } else s
  else s

/-- JTAG_DEBUG_ACCESS (R407 to R411): what is not permitted has no effect. The boundary cells that a scan reads the spec does not
list: free (DESIGN CHOICE, log 3). -/
def execJtagDebugAccess (op : JtagOp) (s : State) : Res :=
  .next (if !s.tapOn then s
    else match op with
      | .halt t => if s.dbgThread t.val then s.dbgHalt t.val else s
      | .resume t => if s.dbgThread t.val then s.dbgGo t.val false else s
      | .step t => if s.dbgThread t.val then s.dbgGo t.val true else s
      | .readG t r => if s.dbgThread t.val && (s.thr t).run = .debugHalt then s.say (.value (s.g t r)) else s
      | .writeG t r v => if s.dbgThread t.val && (s.thr t).run = .debugHalt then s.setG t r v else s
      | .readMem secure pa =>
        if s.dbgMem secure pa then
          let v := s.homeReads hubAgent 2 pa 1 0
          v.2.2.say (.data v.1 v.2.1)
        else s
      | .writeMem secure pa b => if s.dbgMem secure pa then s.engWrite pa [b] 0 else s
      | .readReg a =>
        if (s.dbgReg a).isSome then
          let v := s.regRead a
          v.2.say (.value v.1)
        else s
      | .writeReg a v => match s.dbgReg a with
        | some l => s.regWrite none l a v fullMask
        | none => s
      | .boundaryScan => (s.say (.value (Config.freeWord s.freeCtr))).tick)

end Sys2Proof.Machine
end

