-- ==== Sys2Proof/Machine/Dispatch.lean ====
section
/-!
DEFINITION. One arm per command: a direct call of its meaning.
-/
namespace Sys2Proof.Machine

/-- The effect of a command on everything but the queue. -/
def exec (i : Instr) (s : State) : Host.Outcome State Fault Refusal :=
  match i with
  | .addi t d a imm => Sys2Proof.Machine.execAddi t d a imm s
  | .andi t d a imm => Sys2Proof.Machine.execAndi t d a imm s
  | .ori t d a imm => Sys2Proof.Machine.execOri t d a imm s
  | .xori t d a imm => Sys2Proof.Machine.execXori t d a imm s
  | .slti t d a imm => Sys2Proof.Machine.execSlti t d a imm s
  | .sltui t d a imm => Sys2Proof.Machine.execSltui t d a imm s
  | .lui t d imm => Sys2Proof.Machine.execLui t d imm s
  | .shori t d imm => Sys2Proof.Machine.execShori t d imm s
  | .addpc t d imm => Sys2Proof.Machine.execAddpc t d imm s
  | .slli t d a sh => Sys2Proof.Machine.execSlli t d a sh s
  | .srli t d a sh => Sys2Proof.Machine.execSrli t d a sh s
  | .srai t d a sh => Sys2Proof.Machine.execSrai t d a sh s
  | .rori t d a sh => Sys2Proof.Machine.execRori t d a sh s
  | .add t d a b => Sys2Proof.Machine.execAdd t d a b s
  | .sub t d a b => Sys2Proof.Machine.execSub t d a b s
  | .and t d a b => Sys2Proof.Machine.execAnd t d a b s
  | .or t d a b => Sys2Proof.Machine.execOr t d a b s
  | .xor t d a b => Sys2Proof.Machine.execXor t d a b s
  | .andn t d a b => Sys2Proof.Machine.execAndn t d a b s
  | .orn t d a b => Sys2Proof.Machine.execOrn t d a b s
  | .slt t d a b => Sys2Proof.Machine.execSlt t d a b s
  | .sltu t d a b => Sys2Proof.Machine.execSltu t d a b s
  | .min t d a b => Sys2Proof.Machine.execMin t d a b s
  | .max t d a b => Sys2Proof.Machine.execMax t d a b s
  | .minu t d a b => Sys2Proof.Machine.execMinu t d a b s
  | .maxu t d a b => Sys2Proof.Machine.execMaxu t d a b s
  | .sll t d a b => Sys2Proof.Machine.execSll t d a b s
  | .srl t d a b => Sys2Proof.Machine.execSrl t d a b s
  | .sra t d a b => Sys2Proof.Machine.execSra t d a b s
  | .ror t d a b => Sys2Proof.Machine.execRor t d a b s
  | .mul t d a b => Sys2Proof.Machine.execMul t d a b s
  | .mulh t d a b => Sys2Proof.Machine.execMulh t d a b s
  | .mulhu t d a b => Sys2Proof.Machine.execMulhu t d a b s
  | .div t d a b => Sys2Proof.Machine.execDiv t d a b s
  | .divu t d a b => Sys2Proof.Machine.execDivu t d a b s
  | .rem t d a b => Sys2Proof.Machine.execRem t d a b s
  | .remu t d a b => Sys2Proof.Machine.execRemu t d a b s
  | .clz t d a => Sys2Proof.Machine.execClz t d a s
  | .ctz t d a => Sys2Proof.Machine.execCtz t d a s
  | .popc t d a => Sys2Proof.Machine.execPopc t d a s
  | .bswap t d a => Sys2Proof.Machine.execBswap t d a s
  | .sextb t d a => Sys2Proof.Machine.execSextb t d a s
  | .sexth t d a => Sys2Proof.Machine.execSexth t d a s
  | .sextw t d a => Sys2Proof.Machine.execSextw t d a s
  | .zextw t d a => Sys2Proof.Machine.execZextw t d a s
  | .fadd t w d a b => Sys2Proof.Machine.execFadd t w d a b s
  | .fsub t w d a b => Sys2Proof.Machine.execFsub t w d a b s
  | .fmul t w d a b => Sys2Proof.Machine.execFmul t w d a b s
  | .fdiv t w d a b => Sys2Proof.Machine.execFdiv t w d a b s
  | .fsqrt t w d a => Sys2Proof.Machine.execFsqrt t w d a s
  | .fmin t w d a b => Sys2Proof.Machine.execFmin t w d a b s
  | .fmax t w d a b => Sys2Proof.Machine.execFmax t w d a b s
  | .fneg t w d a => Sys2Proof.Machine.execFneg t w d a s
  | .fabs t w d a => Sys2Proof.Machine.execFabs t w d a s
  | .fmov t w d a => Sys2Proof.Machine.execFmov t w d a s
  | .feq t w d a b => Sys2Proof.Machine.execFeq t w d a b s
  | .flt t w d a b => Sys2Proof.Machine.execFlt t w d a b s
  | .fle t w d a b => Sys2Proof.Machine.execFle t w d a b s
  | .fclass t w d a => Sys2Proof.Machine.execFclass t w d a s
  | .fcvti t w d a => Sys2Proof.Machine.execFcvti t w d a s
  | .fcvtiu t w d a => Sys2Proof.Machine.execFcvtiu t w d a s
  | .fcvtf t w d a => Sys2Proof.Machine.execFcvtf t w d a s
  | .fcvtfu t w d a => Sys2Proof.Machine.execFcvtfu t w d a s
  | .fcvtx t w d a => Sys2Proof.Machine.execFcvtx t w d a s
  | .fmvg t w d a => Sys2Proof.Machine.execFmvg t w d a s
  | .fmvf t w d a => Sys2Proof.Machine.execFmvf t w d a s
  | .fmadd t w d a b c => Sys2Proof.Machine.execFmadd t w d a b c s
  | .fmsub t w d a b c => Sys2Proof.Machine.execFmsub t w d a b c s
  | .fnmsub t w d a b c => Sys2Proof.Machine.execFnmsub t w d a b c s
  | .fnmadd t w d a b c => Sys2Proof.Machine.execFnmadd t w d a b c s
  | .beq t a b an disp => Sys2Proof.Machine.execBeq t a b an disp s
  | .bne t a b an disp => Sys2Proof.Machine.execBne t a b an disp s
  | .blt t a b an disp => Sys2Proof.Machine.execBlt t a b an disp s
  | .bge t a b an disp => Sys2Proof.Machine.execBge t a b an disp s
  | .bltu t a b an disp => Sys2Proof.Machine.execBltu t a b an disp s
  | .bgeu t a b an disp => Sys2Proof.Machine.execBgeu t a b an disp s
  | .j t disp => Sys2Proof.Machine.execJ t disp s
  | .call t disp => Sys2Proof.Machine.execCall t disp s
  | .jr t a => Sys2Proof.Machine.execJr t a s
  | .callr t a => Sys2Proof.Machine.execCallr t a s
  | .ret t => Sys2Proof.Machine.execRet t s
  | .load t d a szk ord disp => Sys2Proof.Machine.execLoad t d a szk ord disp s
  | .store t d a szk ord disp => Sys2Proof.Machine.execStore t d a szk ord disp s
  | .loadx t d a szk ord am amf => Sys2Proof.Machine.execLoadx t d a szk ord am amf s
  | .storex t d a szk ord am amf => Sys2Proof.Machine.execStorex t d a szk ord am amf s
  | .ldi t d a szk ord disp => Sys2Proof.Machine.execLdi t d a szk ord disp s
  | .iold t d a szk disp => Sys2Proof.Machine.execIold t d a szk disp s
  | .iost t d a szk disp => Sys2Proof.Machine.execIost t d a szk disp s
  | .swap t q d a b => Sys2Proof.Machine.execSwap t q d a b s
  | .cas t q d a b => Sys2Proof.Machine.execCas t q d a b s
  | .fetchAdd t q d a b => Sys2Proof.Machine.execFetchAdd t q d a b s
  | .fetchAnd t q d a b => Sys2Proof.Machine.execFetchAnd t q d a b s
  | .fetchOr t q d a b => Sys2Proof.Machine.execFetchOr t q d a b s
  | .fetchMax t q d a b => Sys2Proof.Machine.execFetchMax t q d a b s
  | .fetchMaxu t q d a b => Sys2Proof.Machine.execFetchMaxu t q d a b s
  | .fenceLl t => Sys2Proof.Machine.execFenceLl t s
  | .fenceLs t => Sys2Proof.Machine.execFenceLs t s
  | .fenceSl t => Sys2Proof.Machine.execFenceSl t s
  | .fenceSs t => Sys2Proof.Machine.execFenceSs t s
  | .fenceAll t => Sys2Proof.Machine.execFenceAll t s
  | .isync t => Sys2Proof.Machine.execIsync t s
  | .mfc t d num => Sys2Proof.Machine.execMfc t d num s
  | .mtc t a num => Sys2Proof.Machine.execMtc t a num s
  | .eret t => Sys2Proof.Machine.execEret t s
  | .wait t => Sys2Proof.Machine.execWait t s
  | .brk t code => Sys2Proof.Machine.execBrk t code s
  | .sysc t code => Sys2Proof.Machine.execSysc t code s
  | .hvc t code => Sys2Proof.Machine.execHvc t code s
  | .monc t code => Sys2Proof.Machine.execMonc t code s
  | .rdpmc t d a => Sys2Proof.Machine.execRdpmc t d a s
  | .keyset t a => Sys2Proof.Machine.execKeyset t a s
  | .keyget t d => Sys2Proof.Machine.execKeyget t d s
  | .tlbwRnd t => Sys2Proof.Machine.execTlbwRnd t s
  | .tlbwSlot t a => Sys2Proof.Machine.execTlbwSlot t a s
  | .tlbrd t a => Sys2Proof.Machine.execTlbrd t a s
  | .tlbfind t d => Sys2Proof.Machine.execTlbfind t d s
  | .tlbiVa t a b => Sys2Proof.Machine.execTlbiVa t a b s
  | .tlbiAsid t b => Sys2Proof.Machine.execTlbiAsid t b s
  | .tlbiVmid t b => Sys2Proof.Machine.execTlbiVmid t b s
  | .tlbiAll t => Sys2Proof.Machine.execTlbiAll t s
  | .gpmw t a => Sys2Proof.Machine.execGpmw t a s
  | .gpmr t a => Sys2Proof.Machine.execGpmr t a s
  | .gpmi t => Sys2Proof.Machine.execGpmi t s
  | .ownersync t => Sys2Proof.Machine.execOwnersync t s
  | .cutreq t d a => Sys2Proof.Machine.execCutreq t d a s
  | .cutwait t d a => Sys2Proof.Machine.execCutwait t d a s
  | .cutstat t d a => Sys2Proof.Machine.execCutstat t d a s
  | .rdslate t d => Sys2Proof.Machine.execRdslate t d s
  | .rdslateu t d b => Sys2Proof.Machine.execRdslateu t d b s
  | .slatewait t d a => Sys2Proof.Machine.execSlatewait t d a s
  | .slatewaitRelease t => Sys2Proof.Machine.execSlatewaitRelease t s
  | .rssave t a => Sys2Proof.Machine.execRssave t a s
  | .rsload t a => Sys2Proof.Machine.execRsload t a s
  | .dtload t a b => Sys2Proof.Machine.execDtload t a b s
  | .encrun t a b => Sys2Proof.Machine.execEncrun t a b s
  | .encdone t a => Sys2Proof.Machine.execEncdone t a s
  | .repN t nm1 next => Sys2Proof.Machine.execRepN t nm1 next s
  | .repG t g next => Sys2Proof.Machine.execRepG t g next s
  | .udi t sel f1 f2 f3 f4 => Sys2Proof.Machine.execUdi t sel f1 f2 f3 f4 s
  | .cust t func operands => Sys2Proof.Machine.execCust t func operands s
  | .vbcast t v g ew => Sys2Proof.Machine.execVbcast t v g ew s
  | .vins t v g x => Sys2Proof.Machine.execVins t v g x s
  | .vext t v g x => Sys2Proof.Machine.execVext t v g x s
  | .vmov t vd va => Sys2Proof.Machine.execVmov t vd va s
  | .pscan t g va vb ew pc => Sys2Proof.Machine.execPscan t g va vb ew pc s
  | .compress t v g h ew => Sys2Proof.Machine.execCompress t v g h ew s
  | .unpack t v g h ew => Sys2Proof.Machine.execUnpack t v g h ew s
  | .vhash t v g h => Sys2Proof.Machine.execVhash t v g h s
  | .vcrc t v g => Sys2Proof.Machine.execVcrc t v g s
  | .redmin t v g h ew x => Sys2Proof.Machine.execRedmin t v g h ew x s
  | .redmax t v g h ew x => Sys2Proof.Machine.execRedmax t v g h ew x s
  | .vcnt t v g => Sys2Proof.Machine.execVcnt t v g s
  | .sload t v g post => Sys2Proof.Machine.execSload t v g post s
  | .sscan t v g h ew pc => Sys2Proof.Machine.execSscan t v g h ew pc s
  | .sgather t v g h ew x => Sys2Proof.Machine.execSgather t v g h ew x s
  | .sdict t v g h ew x => Sys2Proof.Machine.execSdict t v g h ew x s
  | .saccadd t acc g => Sys2Proof.Machine.execSaccadd t acc g s
  | .aclr t acc => Sys2Proof.Machine.execAclr t acc s
  | .aaddf t acc v g ty x => Sys2Proof.Machine.execAaddf t acc v g ty x s
  | .amacf t acc v g ty x => Sys2Proof.Machine.execAmacf t acc v g ty x s
  | .aaddi t acc v g ty x => Sys2Proof.Machine.execAaddi t acc v g ty x s
  | .acnt t acc v => Sys2Proof.Machine.execAcnt t acc v s
  | .ardf t acc g => Sys2Proof.Machine.execArdf t acc g s
  | .ardi t acc g hi => Sys2Proof.Machine.execArdi t acc g hi s
  | .ardw t acc g x => Sys2Proof.Machine.execArdw t acc g x s
  | .awrw t acc g x => Sys2Proof.Machine.execAwrw t acc g x s
  | .cueTake t => Sys2Proof.Machine.execCueTake t s
  | .mcAsyncTake => Sys2Proof.Machine.execMcAsyncTake s
  | .storeCommit t => Sys2Proof.Machine.execStoreCommit t s
  | .rdS a line vict => Sys2Proof.Machine.execRdS a line vict s
  | .rdX a line vict => Sys2Proof.Machine.execRdX a line vict s
  | .upg a line vict => Sys2Proof.Machine.execUpg a line vict s
  | .rdNc a pa size => Sys2Proof.Machine.execRdNc a pa size s
  | .wrNc a view pa data => Sys2Proof.Machine.execWrNc a view pa data s
  | .lsr d pa size => Sys2Proof.Machine.execLsr d pa size s
  | .lsw d pa data => Sys2Proof.Machine.execLsw d pa data s
  | .snpS d line => Sys2Proof.Machine.execSnpS d line s
  | .snpX d line => Sys2Proof.Machine.execSnpX d line s
  | .snpCur d line => Sys2Proof.Machine.execSnpCur d line s
  | .snpBinv d line => Sys2Proof.Machine.execSnpBinv d line s
  | .snpLsr d pa size => Sys2Proof.Machine.execSnpLsr d pa size s
  | .snpLsw d pa data => Sys2Proof.Machine.execSnpLsw d pa data s
  | .rspI a line => Sys2Proof.Machine.execRspI a line s
  | .rspS a line => Sys2Proof.Machine.execRspS a line s
  | .rspEvx a line => Sys2Proof.Machine.execRspEvx a line s
  | .goE d line => Sys2Proof.Machine.execGoE d line s
  | .goF d line => Sys2Proof.Machine.execGoF d line s
  | .goS d line => Sys2Proof.Machine.execGoS d line s
  | .goNc d => Sys2Proof.Machine.execGoNc d s
  | .eva d line => Sys2Proof.Machine.execEva d line s
  | .dat d line dirty => Sys2Proof.Machine.execDat d line dirty s
  | .fwd a line dirty far => Sys2Proof.Machine.execFwd a line dirty far s
  | .wbd a line far => Sys2Proof.Machine.execWbd a line far s
  | .evc a line => Sys2Proof.Machine.execEvc a line s
  | .holdWindowEnd d line => Sys2Proof.Machine.execHoldWindowEnd d line s
  | .undo a e => Sys2Proof.Machine.execUndo a e s
  | .undoAcc d line => Sys2Proof.Machine.execUndoAcc d line s
  | .swb a dom m => Sys2Proof.Machine.execSwb a dom m s
  | .swbAcc d line => Sys2Proof.Machine.execSwbAcc d line s
  | .advance a dom => Sys2Proof.Machine.execAdvance a dom s
  | .advAck a dom => Sys2Proof.Machine.execAdvAck a dom s
  | .sweep u dom => Sys2Proof.Machine.execSweep u dom s
  | .swept u dom => Sys2Proof.Machine.execSwept u dom s
  | .purge u dom => Sys2Proof.Machine.execPurge u dom s
  | .purged u dom => Sys2Proof.Machine.execPurged u dom s
  | .gAdvance dom take => Sys2Proof.Machine.execGAdvance dom take s
  | .gSwept p dom => Sys2Proof.Machine.execGSwept p dom s
  | .gPrepare dom take => Sys2Proof.Machine.execGPrepare dom take s
  | .gPrepared p dom => Sys2Proof.Machine.execGPrepared p dom s
  | .gCommit dom take => Sys2Proof.Machine.execGCommit dom take s
  | .groupCutTimeout p dom => Sys2Proof.Machine.execGroupCutTimeout p dom s
  | .cutPeriodExpiry dom => Sys2Proof.Machine.execCutPeriodExpiry dom s
  | .reelBlockPersist dom seq => Sys2Proof.Machine.execReelBlockPersist dom seq s
  | .reelBlockError dom seq => Sys2Proof.Machine.execReelBlockError dom seq s
  | .persistenceMarkerDone port dom => Sys2Proof.Machine.execPersistenceMarkerDone port dom s
  | .cutRecordPersist dom => Sys2Proof.Machine.execCutRecordPersist dom s
  | .tdCmdCut dom => Sys2Proof.Machine.execTdCmdCut dom s
  | .tdCmdRollback dom => Sys2Proof.Machine.execTdCmdRollback dom s
  | .onlineRollbackDone e => Sys2Proof.Machine.execOnlineRollbackDone e s
  | .tdCfgEn dom val => Sys2Proof.Machine.execTdCfgEn dom val s
  | .tdSeg1Link dom val => Sys2Proof.Machine.execTdSeg1Link dom val s
  | .pwrfailAssert => Sys2Proof.Machine.execPwrfailAssert s
  | .fatalError bank struct type addr => Sys2Proof.Machine.execFatalError bank struct type addr s
  | .gpfPhase2Done port => Sys2Proof.Machine.execGpfPhase2Done port s
  | .gpfTimeoutExpiry => Sys2Proof.Machine.execGpfTimeoutExpiry s
  | .pwrfailDeassertHold => Sys2Proof.Machine.execPwrfailDeassertHold s
  | .pwrfailStuck => Sys2Proof.Machine.execPwrfailStuck s
  | .autorestart => Sys2Proof.Machine.execAutorestart s
  | .pwrgoodRise b => Sys2Proof.Machine.execPwrgoodRise b s
  | .pwrgoodFall => Sys2Proof.Machine.execPwrgoodFall s
  | .resetNAssert => Sys2Proof.Machine.execResetNAssert s
  | .warmNAssert => Sys2Proof.Machine.execWarmNAssert s
  | .pkgRstCold lvl => Sys2Proof.Machine.execPkgRstCold lvl s
  | .pkgRstWarm lvl => Sys2Proof.Machine.execPkgRstWarm lvl s
  | .dieStartSlot d vcoreOk => Sys2Proof.Machine.execDieStartSlot d vcoreOk s
  | .clusterStartSlot d k => Sys2Proof.Machine.execClusterStartSlot d k s
  | .restartRollbackDone dom => Sys2Proof.Machine.execRestartRollbackDone dom s
  | .leadC dom c => Sys2Proof.Machine.execLeadC dom c s
  | .leadwaitExpiry dom => Sys2Proof.Machine.execLeadwaitExpiry dom s
  | .wakeNAssert => Sys2Proof.Machine.execWakeNAssert s
  | .prochotAssert => Sys2Proof.Machine.execProchotAssert s
  | .prochotRelease => Sys2Proof.Machine.execProchotRelease s
  | .thermalTrip => Sys2Proof.Machine.execThermalTrip s
  | .jtagTrst asserted => Sys2Proof.Machine.execJtagTrst asserted s
  | .refclkLoss => Sys2Proof.Machine.execRefclkLoss s
  | .xtalLoss => Sys2Proof.Machine.execXtalLoss s
  | .railOutOfRange r => Sys2Proof.Machine.execRailOutOfRange r s
  | .vaonLoss => Sys2Proof.Machine.execVaonLoss s
  | .vaonReturn => Sys2Proof.Machine.execVaonReturn s
  | .inputUnlock i0 => Sys2Proof.Machine.execInputUnlock i0 s
  | .inputStuck i0 => Sys2Proof.Machine.execInputStuck i0 s
  | .i3cBusRecovery bus => Sys2Proof.Machine.execI3cBusRecovery bus s
  | .trefclkFault => Sys2Proof.Machine.execTrefclkFault s
  | .trefclkReturn => Sys2Proof.Machine.execTrefclkReturn s
  | .tsymSend d => Sys2Proof.Machine.execTsymSend d s
  | .tsym d => Sys2Proof.Machine.execTsym d s
  | .tret d => Sys2Proof.Machine.execTret d s
  | .slateCopySettled d => Sys2Proof.Machine.execSlateCopySettled d s
  | .ptsymSend k => Sys2Proof.Machine.execPtsymSend k s
  | .ptsym k m => Sys2Proof.Machine.execPtsym k m s
  | .clfSend => Sys2Proof.Machine.execClfSend s
  | .clf m => Sys2Proof.Machine.execClf m s
  | .clrSend => Sys2Proof.Machine.execClrSend s
  | .clr m => Sys2Proof.Machine.execClr m s
  | .slateSourceLost => Sys2Proof.Machine.execSlateSourceLost s
  | .slateSettled => Sys2Proof.Machine.execSlateSettled s
  | .slateSaturate => Sys2Proof.Machine.execSlateSaturate s
  | .slateAlarmFire t lvl => Sys2Proof.Machine.execSlateAlarmFire t lvl s
  | .slateSet v => Sys2Proof.Machine.execSlateSet v s
  | .slateAdj v => Sys2Proof.Machine.execSlateAdj v s
  | .slateRoleWrite v => Sys2Proof.Machine.execSlateRoleWrite v s
  | .slateEpochWrite v => Sys2Proof.Machine.execSlateEpochWrite v s
  | .slcmpWrite t lvl v => Sys2Proof.Machine.execSlcmpWrite t lvl v s
  | .mpEnable n v => Sys2Proof.Machine.execMpEnable n v s
  | .mpLinkUp n dev => Sys2Proof.Machine.execMpLinkUp n dev s
  | .mpTrainTimeout n => Sys2Proof.Machine.execMpTrainTimeout n s
  | .memoryActive n ideOk => Sys2Proof.Machine.execMemoryActive n ideOk s
  | .memoryActiveTimeout n => Sys2Proof.Machine.execMemoryActiveTimeout n s
  | .mpRetrain n => Sys2Proof.Machine.execMpRetrain n s
  | .mpLinkLoss n => Sys2Proof.Machine.execMpLinkLoss n s
  | .portWrite n line mask data => Sys2Proof.Machine.execPortWrite n line mask data s
  | .portRead n rq span cls => Sys2Proof.Machine.execPortRead n rq span cls s
  | .urgencyRise n rq ageNs => Sys2Proof.Machine.execUrgencyRise n rq ageNs s
  | .arbGrant n cycles => Sys2Proof.Machine.execArbGrant n cycles s
  | .deviceWriteCompletion n line => Sys2Proof.Machine.execDeviceWriteCompletion n line s
  | .deviceReadResponse n line poison overload => Sys2Proof.Machine.execDeviceReadResponse n line poison overload s
  | .isValidate s0 v => Sys2Proof.Machine.execIsValidate s0 v s
  | .isInvalidate s0 => Sys2Proof.Machine.execIsInvalidate s0 s
  | .prtValidate n v => Sys2Proof.Machine.execPrtValidate n v s
  | .prtInvalidate n => Sys2Proof.Machine.execPrtInvalidate n s
  | .gpfTimeoutWrite v => Sys2Proof.Machine.execGpfTimeoutWrite v s
  | .dlReset j => Sys2Proof.Machine.execDlReset j s
  | .laneCheckDone j up down => Sys2Proof.Machine.execLaneCheckDone j up down s
  | .trainingPacket j => Sys2Proof.Machine.execTrainingPacket j s
  | .trainingAnswer j pos step => Sys2Proof.Machine.execTrainingAnswer j pos step s
  | .dlinkTrainTimeout j => Sys2Proof.Machine.execDlinkTrainTimeout j s
  | .packetReceive l p => Sys2Proof.Machine.execPacketReceive l p s
  | .nak l seq => Sys2Proof.Machine.execNak l seq s
  | .failover j seq => Sys2Proof.Machine.execFailover j seq s
  | .dlFlush j => Sys2Proof.Machine.execDlFlush j s
  | .dlResume j => Sys2Proof.Machine.execDlResume j s
  | .heartbeatSend l => Sys2Proof.Machine.execHeartbeatSend l s
  | .heartbeat l => Sys2Proof.Machine.execHeartbeat l s
  | .heartbeatTimeout d atHub => Sys2Proof.Machine.execHeartbeatTimeout d atHub s
  | .plReset k => Sys2Proof.Machine.execPlReset k s
  | .plinkTrain k peer => Sys2Proof.Machine.execPlinkTrain k peer s
  | .plinkDown k => Sys2Proof.Machine.execPlinkDown k s
  | .linkStateNotice p up => Sys2Proof.Machine.execLinkStateNotice p up s
  | .fabIdAssign v => Sys2Proof.Machine.execFabIdAssign v s
  | .fwValidate w v => Sys2Proof.Machine.execFwValidate w v s
  | .gpInboundWrite r addr data => Sys2Proof.Machine.execGpInboundWrite r addr data s
  | .gpInboundRead r addr len => Sys2Proof.Machine.execGpInboundRead r addr len s
  | .inboundMsi r addr data => Sys2Proof.Machine.execInboundMsi r addr data s
  | .cxlCacheRequest r addr wantsCopy data => Sys2Proof.Machine.execCxlCacheRequest r addr wantsCopy data s
  | .pcieCompletion r ok v => Sys2Proof.Machine.execPcieCompletion r ok v s
  | .completionTimeout r => Sys2Proof.Machine.execCompletionTimeout r s
  | .gpLinkLoss r => Sys2Proof.Machine.execGpLinkLoss r s
  | .gpRetrain r => Sys2Proof.Machine.execGpRetrain r s
  | .iwValidate r j v => Sys2Proof.Machine.execIwValidate r j v s
  | .iwInvalidate r j => Sys2Proof.Machine.execIwInvalidate r j s
  | .gdwValidate w v => Sys2Proof.Machine.execGdwValidate w v s
  | .aspmL0sEntry p => Sys2Proof.Machine.execAspmL0sEntry p s
  | .aspmL1Entry p partner => Sys2Proof.Machine.execAspmL1Entry p partner s
  | .ptmRequest r => Sys2Proof.Machine.execPtmRequest r s
  | .mirrorInboundWrite winB ofs data => Sys2Proof.Machine.execMirrorInboundWrite winB ofs data s
  | .mirrorInboundRead win ofs len => Sys2Proof.Machine.execMirrorInboundRead win ofs len s
  | .cutDb v => Sys2Proof.Machine.execCutDb v s
  | .hostDb i0 => Sys2Proof.Machine.execHostDb i0 s
  | .mwCommit v => Sys2Proof.Machine.execMwCommit v s
  | .mirrorLinkDown => Sys2Proof.Machine.execMirrorLinkDown s
  | .mirRetrain => Sys2Proof.Machine.execMirRetrain s
  | .vrfSqtail f v => Sys2Proof.Machine.execVrfSqtail f v s
  | .descriptorFetch f => Sys2Proof.Machine.execDescriptorFetch f s
  | .runCopy f => Sys2Proof.Machine.execRunCopy f s
  | .runFill f => Sys2Proof.Machine.execRunFill f s
  | .runCrc f => Sys2Proof.Machine.execRunCrc f s
  | .runCsum f => Sys2Proof.Machine.execRunCsum f s
  | .runShip f => Sys2Proof.Machine.execRunShip f s
  | .runnerUnitDone e => Sys2Proof.Machine.execRunnerUnitDone e s
  | .completionRecord f => Sys2Proof.Machine.execCompletionRecord f s
  | .vrfEn f v => Sys2Proof.Machine.execVrfEn f v s
  | .vrfNlog2Write f v => Sys2Proof.Machine.execVrfNlog2Write f v s
  | .ringResize f => Sys2Proof.Machine.execRingResize f s
  | .vrfResetGen f => Sys2Proof.Machine.execVrfResetGen f s
  | .vrfResetQuiesce f => Sys2Proof.Machine.execVrfResetQuiesce f s
  | .vrfQuiesce f => Sys2Proof.Machine.execVrfQuiesce f s
  | .vrfQuiesced f => Sys2Proof.Machine.execVrfQuiesced f s
  | .lateResponse f => Sys2Proof.Machine.execLateResponse f s
  | .rnModeWrite v => Sys2Proof.Machine.execRnModeWrite v s
  | .rnCreditsWrite e v => Sys2Proof.Machine.execRnCreditsWrite e v s
  | .vrhWinValidate f i0 v => Sys2Proof.Machine.execVrhWinValidate f i0 v s
  | .vmrstCmd v => Sys2Proof.Machine.execVmrstCmd v s
  | .qosAlloc v => Sys2Proof.Machine.execQosAlloc v s
  | .cueRaise v => Sys2Proof.Machine.execCueRaise v s
  | .cuePtbaseValidate i0 v => Sys2Proof.Machine.execCuePtbaseValidate i0 v s
  | .enclaveCreate => Sys2Proof.Machine.execEnclaveCreate s
  | .enclaveAdd => Sys2Proof.Machine.execEnclaveAdd s
  | .enclaveFinal => Sys2Proof.Machine.execEnclaveFinal s
  | .enclaveRemove => Sys2Proof.Machine.execEnclaveRemove s
  | .enclaveDestroy => Sys2Proof.Machine.execEnclaveDestroy s
  | .enclaveSlotclr => Sys2Proof.Machine.execEnclaveSlotclr s
  | .enctBaseValidate v => Sys2Proof.Machine.execEnctBaseValidate v s
  | .loadRandom s0 => Sys2Proof.Machine.execLoadRandom s0 s
  | .loadSealed s0 => Sys2Proof.Machine.execLoadSealed s0 s
  | .ksClear s0 => Sys2Proof.Machine.execKsClear s0 s
  | .dbgCheck sigOk => Sys2Proof.Machine.execDbgCheck sigOk s
  | .thermalEmergency c => Sys2Proof.Machine.execThermalEmergency c s
  | .graceExpiry c => Sys2Proof.Machine.execGraceExpiry c s
  | .coreSpareGo d l lvl => Sys2Proof.Machine.execCoreSpareGo d l lvl s
  | .spareL1Answer d => Sys2Proof.Machine.execSpareL1Answer d s
  | .spareL1Timeout d l => Sys2Proof.Machine.execSpareL1Timeout d l s
  | .spareDrainDone d dropped => Sys2Proof.Machine.execSpareDrainDone d dropped s
  | .dieFence d lvl => Sys2Proof.Machine.execDieFence d lvl s
  | .fatalDieReport d bank => Sys2Proof.Machine.execFatalDieReport d bank s
  | .fenceReclaimDone d => Sys2Proof.Machine.execFenceReclaimDone d s
  | .mcBankClear b lvl => Sys2Proof.Machine.execMcBankClear b lvl s
  | .mcDiebankClear d lvl => Sys2Proof.Machine.execMcDiebankClear d lvl s
  | .watchdogExpiry bank => Sys2Proof.Machine.execWatchdogExpiry bank s
  | .gafferSample g => Sys2Proof.Machine.execGafferSample g s
  | .rootStep d => Sys2Proof.Machine.execRootStep d s
  | .setFreq t target arg tag => Sys2Proof.Machine.execSetFreq t target arg tag s
  | .gate t target tag => Sys2Proof.Machine.execGate t target tag s
  | .ungate t target tag => Sys2Proof.Machine.execUngate t target tag s
  | .deep t tag => Sys2Proof.Machine.execDeep t tag s
  | .off t tag => Sys2Proof.Machine.execOff t tag s
  | .withdraw t tag => Sys2Proof.Machine.execWithdraw t tag s
  | .deepIdleTimeout => Sys2Proof.Machine.execDeepIdleTimeout s
  | .deepExit => Sys2Proof.Machine.execDeepExit s
  | .sleepEntry c => Sys2Proof.Machine.execSleepEntry c s
  | .dieRstReset d lvl => Sys2Proof.Machine.execDieRstReset d lvl s
  | .dieRstHoldRelease d lvl => Sys2Proof.Machine.execDieRstHoldRelease d lvl s
  | .thrStart d l th lvl => Sys2Proof.Machine.execThrStart d l th lvl s
  | .padReleaseBus lvl => Sys2Proof.Machine.execPadReleaseBus lvl s
  | .padReleaseGpio lvl => Sys2Proof.Machine.execPadReleaseGpio lvl s
  | .dailiesUpdate => Sys2Proof.Machine.execDailiesUpdate s
  | .wearDay => Sys2Proof.Machine.execWearDay s
  | .calSet v lvl => Sys2Proof.Machine.execCalSet v lvl s
  | .calAlarmFire => Sys2Proof.Machine.execCalAlarmFire s
  | .bwWindowEnd p rd wr => Sys2Proof.Machine.execBwWindowEnd p rd wr s
  | .bwWinWrite p v lvl => Sys2Proof.Machine.execBwWinWrite p v lvl s
  | .bwPclr p lvl => Sys2Proof.Machine.execBwPclr p lvl s
  | .registerWrite addr size v lvl => Sys2Proof.Machine.execRegisterWrite addr size v lvl s
  | .mirrorConfigRequest wr reg v => Sys2Proof.Machine.execMirrorConfigRequest wr reg v s
  | .pcieLinkUp p width rate cxlm pbr => Sys2Proof.Machine.execPcieLinkUp p width rate cxlm pbr s
  | .trefclkWarn => Sys2Proof.Machine.execTrefclkWarn s
  | .xtalReturn => Sys2Proof.Machine.execXtalReturn s
  | .railInRange r => Sys2Proof.Machine.execRailInRange r s
  | .clapDnPresentLoss => Sys2Proof.Machine.execClapDnPresentLoss s
  | .cutTriggerForward p dom => Sys2Proof.Machine.execCutTriggerForward p dom s
  | .rollbackForward dom => Sys2Proof.Machine.execRollbackForward dom s
  | .domainSpoilForward dom => Sys2Proof.Machine.execDomainSpoilForward dom s
  | .jtagDebugAccess op => Sys2Proof.Machine.execJtagDebugAccess op s

end Sys2Proof.Machine
end

