-- ==== Sys2Proof/Machine/Tick.lean ====
section
/-!
DEFINITION. What passes with time where no command waits (DESIGN CHOICE, log 8), and a command put at the front of the queue.
-/
namespace Sys2Proof.Machine

/-- Whether an array error strikes a structure of R413 in a unit of its die (R414, R434). -/
def ArrayErr.placed (e : ArrayErr) : Bool :=
  if e.struct = 16 || e.struct = 19 then e.die == 12
  else if e.struct = 17 then e.die == 12 && e.unit < 16
  else e.die < 12 && 1 ≤ e.struct && e.struct ≤ 14
    && e.unit < (match e.struct with | 5 => 5 | 6 => 5 | 7 => 5 | 8 => 16 | 9 => 16 | 10 => 1 | 11 => 5 | 14 => 1 | _ => 20)

/-- An error strikes an array, as a free value decides, and stays until it is found (R413; DESIGN CHOICE, log 12). -/
def State.strike (s : State) : State :=
  match Config.strike s.now with
  | some (d, st, unit, line, way, ok) =>
    let e : ArrayErr := ⟨d, st, unit, line, way, ok⟩
    if s.works && e.placed then { s with latent := s.latent ++ [e] } else s
  | none => s

/-- One slate unit of 125 ps: the slate and the calendar advance, residency counts each microsecond, and what waits inside the
package goes on: die resets (R459), held gating (R405), DEEP and OFF entries (R446, R448), the end of a park (R248,
R515), and the next step of a start (R461). -/
def State.pass (s : State) : State :=
  let s := s.idle.calTick
  let s := if s.now % 8000 = 0 then s.resTick else s
  s.resetPoll.holdPoll.deepPoll.parkPoll.bootStep.strike

/-- The state with the command that a table word spells at the front of its queue. -/
def State.withFront (s : State) (c : Option Instr) : State := match c with
  | some c => { s with pending := c :: s.pending }
  | none => s

end Sys2Proof.Machine
end

