-- ==== Sys2Proof/Machine/Step.lean ====
section
/-!
DEFINITION. One step of the block: the command at the front of the queue, or the passing of time where none waits.
-/
namespace Sys2Proof.Machine

/-- One step: the front command's effect with the queue's rest; time passes where the queue is empty. -/
def step (s : State) : Host.Outcome State Fault Refusal :=
  match s.pending with
  | [] => .next s.pass
  | c :: rest => exec c { s with pending := rest }

/-- The state with the command a table word spells at the front of its queue. -/
def State.withFetchWord (s : State) (nbits w : Nat) : State := s.withFront (decodeTableWord nbits w)

end Sys2Proof.Machine
end

