-- ==== Sys2Proof/WellFormed.lean ====
section
/-!
DEFINITION. Which commands are well formed: the operands that the types of Syntax.lean leave too wide stay within what the
spec gives them (a line of the 52-bit physical space, R9; a datum within one line; an access of 1, 2, 4 or 8 bytes, R523).
-/
namespace Sys2Proof

/-- The lines that a command names. -/
def Instr.lines : Instr → List LineNo
  | .rdS _ l v => l :: v.toList
  | .rdX _ l v => l :: v.toList
  | .upg _ l v => l :: v.toList
  | .snpS _ l => [l]
  | .snpX _ l => [l]
  | .snpCur _ l => [l]
  | .snpBinv _ l => [l]
  | .rspI _ l => [l]
  | .rspS _ l => [l]
  | .rspEvx _ l => [l]
  | .goE _ l => [l]
  | .goF _ l => [l]
  | .goS _ l => [l]
  | .eva _ l => [l]
  | .dat _ l _ => [l]
  | .fwd _ l _ _ => [l]
  | .wbd _ l _ => [l]
  | .evc _ l => [l]
  | .holdWindowEnd _ l => [l]
  | .undo _ e => [e.line]
  | .undoAcc _ l => [l]
  | .swb _ _ m => [m.line]
  | .swbAcc _ l => [l]
  | .portWrite _ l _ _ => [l]
  | .portRead _ _ x _ => [x.line]
  | .deviceWriteCompletion _ l => [l]
  | .deviceReadResponse _ l _ _ => [l]
  | _ => []

/-- The bytes that a command moves, as address and length. -/
def Instr.spans : Instr → List (Nat × Nat)
  | .rdNc _ pa n => [(pa, n)]
  | .wrNc _ _ pa bs => [(pa, bs.length)]
  | .lsr _ pa n => [(pa, n)]
  | .lsw _ pa bs => [(pa, bs.length)]
  | .snpLsr _ pa n => [(pa, n)]
  | .snpLsw _ pa bs => [(pa, bs.length)]
  | _ => []

/-- The sizes and addresses of the register accesses of a command. -/
def Instr.regs : Instr → List (Nat × Nat)
  | .registerWrite a n _ _ => [(a, n)]
  | .mirrorConfigRequest _ r _ => [(r, 4)]
  | _ => []

/-- A span lies within one line of the physical space. -/
def spanOk (p : Nat × Nat) : Bool := decide (0 < p.2) && decide (p.1 % 64 + p.2 ≤ 64) && decide (p.1 < 2 ^ 52)

/-- A register access is of 1, 2, 4 or 8 bytes, naturally aligned. -/
def regOk (p : Nat × Nat) : Bool := [1, 2, 4, 8].contains p.2 && p.1 % p.2 == 0 && decide (p.1 < 2 ^ 52)

/-- The other operands: a gaffer sample names 13 dies, a link comes up at a width and rate the spec names. -/
def Instr.shapeOk : Instr → Bool
  | .gafferSample g => g.dies.length == 13
  | .pcieLinkUp _ w r _ _ => [1, 2, 4, 8, 16].contains w && decide (1 ≤ r) && decide (r ≤ 6)
  | .bwWindowEnd .. => true
  | _ => true

/-- A well-formed command. -/
def Instr.wf (i : Instr) : Bool :=
  i.lines.all (fun l => decide (l < 2 ^ 46)) && i.spans.all spanOk && i.regs.all regOk && i.shapeOk

end Sys2Proof
end

