-- ==== Sys2Proof/Safety.lean ====
section
/-!
DEFINITION. The terms of the statements: a safe step, the invariants that every step keeps, when an instruction has its own
effect, and what an instruction leaves unchanged.
-/
namespace Sys2Proof.Machine

/-- A step that stops neither with a fault nor with a refusal. -/
def State.safeStep (s : State) : Prop := ∃ t, step s = .next t

/-- The device memory and the local stores keep their one canonical form: addresses strictly rising, and no device byte
listed at the value 0, as which an unlisted byte reads (DESIGN CHOICE, log 2). -/
def State.memOk (s : State) : Prop := SMap.memWf 0 s.mem.dev = true ∧ SMap.sorted s.mem.ls = true

/-- The line that a thread's next fetch needs is in its instruction cache, or it needs none (R153, R187). -/
def State.fetchReady (s : State) (t : Tid) : Bool := match s.xlate t .fetch (s.thr t).pc with
  | .ok pa _ => s.fetchHit t pa
  | .fail _ _ => true

/-- Thread t issues instruction i, and nothing keeps it from its own effect: no error waits to be found in an array, no
debugger steps the thread, neither the fetch nor the decode checks raise a cause (R54, R78), the fetch has not to wait for its
line, and a command of the sift unit not for a credit (R124). -/
def State.ready (s : State) (t : Tid) (i : Instr) : Bool :=
  s.canIssue t && s.latent == [] && (s.core (coreKey t)).tlbBad == [] && !s.sec.stepping.contains t.val
    && ((s.running t).fetchTrap t).isNone && (s.running t).fetchReady t && !(s.running t).creditless t i
    && (s.running t).decodeCode t i == 0

/-- The address after an instruction that transfers nothing: the branch target in a delay slot (R59). -/
def State.nextPc (s : State) (t : Tid) : Word := (s.thr t).slot.getD ((s.thr t).pc + 4)

/-- A control register that a thread's counters write: PMC_OVF or PMC0 to PMC7 (R489, R491). -/
def isPmc (n : Nat) : Bool := n == 0x301 || (0x308 ≤ n && n ≤ 0x30F)

/-- CLU_CLKk of a thread's cluster, whose SLEEP an issuing thread clears (R445). -/
def State.cluClk (s : State) (t : Tid) : Nat := (F.CLU_CLKk_SLEEP (s.clusterOf t.val / 5) (s.clusterOf t.val % 5)).addr

/-- All of a state but its threads, its I/O registers, and what decides when a thread's instructions complete and never what
they give: the units' queues and homes and the home hints (R155). -/
def State.beside (s : State) : State := { s with threads := [], io := [], dec := [], hints := [] }

/-- All of a thread but its run state, pc, delay slot, general, floating-point and control registers, and REP count. -/
def Thread.beside (x : Thread) : Thread :=
  { x with run := .halted, pc := 0, slot := none, g := [], f := [], cr := [], repLeft := none }

/-- Between s and u nothing has changed but thread t's counters and what decides when its instructions complete. -/
def State.timed (s u : State) (t : Tid) : Prop :=
  u.beside = s.beside ∧ (∀ k, k ≠ t.val → u.thrN k = s.thrN k) ∧ (∀ a, u.rdw a = s.rdw a)
    ∧ ∃ y : SMap Word, u.thr t = { s.thr t with cr := y } ∧ ∀ n, isPmc n = false → SMap.get (crReset n) y n = (s.thr t).c n

/-- Between s and u nothing has changed but thread t's own registers, what decides when its instructions complete, and the clock
state of its cluster. -/
def State.onlyThread (s u : State) (t : Tid) : Prop :=
  u.beside = s.beside ∧ (∀ k, k ≠ t.val → u.thrN k = s.thrN k) ∧ ∀ a, a ≠ s.cluClk t → u.rdw a = s.rdw a

/-- Between s and u thread t has kept all but its general and floating-point registers, its pc and delay slot, its run
state, and its counters. -/
def State.keepsThread (s u : State) (t : Tid) : Prop :=
  (u.thr t).beside = (s.thr t).beside ∧ ∀ n, isPmc n = false → (u.thr t).c n = (s.thr t).c n

/-- Thread t has retired an instruction: it runs, at the next address, outside a delay slot. -/
def State.retired (s u : State) (t : Tid) : Prop :=
  (u.thr t).run = .running ∧ (u.thr t).pc = s.nextPc t ∧ (u.thr t).slot = none

/-- An instruction of thread t has retired and done nothing but write v to general register d; a write of register 0 is
discarded (R47). -/
def State.wroteG (s u : State) (t : Tid) (d : Rn) (v : Word) : Prop :=
  s.retired u t ∧ s.onlyThread u t ∧ s.keepsThread u t ∧ (∀ r, (u.thr t).fr r = (s.thr t).fr r)
    ∧ ∀ r, (u.thr t).gr r = if r = d.val ∧ r ≠ 0 then v else (s.thr t).gr r

/-- An instruction of thread t has retired and done nothing but write v to floating-point register d. -/
def State.wroteF (s u : State) (t : Tid) (d : Rn) (v : Word) : Prop :=
  s.retired u t ∧ s.onlyThread u t ∧ s.keepsThread u t ∧ (∀ r, (u.thr t).gr r = (s.thr t).gr r)
    ∧ ∀ r, (u.thr t).fr r = if r = d.val then v else (s.thr t).fr r

/-- An instruction of thread t has retired and left its thread's registers as x has them, pc and counters apart, and nothing
else changed. -/
def State.became (s u : State) (t : Tid) (x : Thread) : Prop :=
  s.retired u t ∧ s.onlyThread u t ∧ (u.thr t).beside = x.beside ∧ (∀ r, (u.thr t).gr r = x.gr r)
    ∧ (∀ r, (u.thr t).fr r = x.fr r) ∧ ∀ n, isPmc n = false → (u.thr t).c n = x.c n

/-- The bytes bs stand, written and not poisoned, in the local store of thread t's own die, at physical address pa. -/
def State.ownBytes (s : State) (t : Tid) (pa : Nat) (bs : List Byte) : Prop :=
  ∃ o, s.lsOf pa = some (dieOf t, o) ∧ o + bs.length ≤ lsSize ∧ ∀ i, i < bs.length →
    SMap.find? s.mem.ls (lsSize * dieOf t + o + i) = bs[i]? ∧ lsSize * dieOf t + o + i ∉ s.mem.lsPoison

/-- A read of n bytes at pa by thread t gives bs in one command: what earlier commands have read of it (R45), and the piece that is
left, from its own local store. -/
def State.atHand (s : State) (t : Tid) (pa n : Nat) (bs : List Byte) : Prop :=
  let p := (s.decOf t).part
  ∃ l, bs = p ++ l ∧ bs.length = n ∧ l.length = pieceLen (pa + p.length) (n - p.length) ∧ s.ownBytes t (pa + p.length) l

/-- No store of thread t that is not visible yet overlaps n bytes at pa. -/
def State.noStore (s : State) (t : Tid) (pa n : Nat) : Prop := ∀ q ∈ (s.thr t).storeQ, q.meets pa n = false

/-- The doublewords ws of a checked area stand in the thread's own local store, and no store to them waits. -/
def State.areaHolds (s : State) (t : Tid) (l : List (Nat × Nat × Nat)) (ws : List Word) : Prop :=
  ∀ i, i < ws.length → s.ownBytes t (areaAt l (8 * i)).1 (bytesOf 8 (ws.getD i 0).toNat) ∧ s.noStore t (areaAt l (8 * i)).1 8

/-- Between s and u the local stores have changed in nothing but the bytes bs, written at offset o of die d's, and no device has
changed. -/
def State.wroteLs (s u : State) (d o : Nat) (bs : List Byte) : Prop :=
  u.mem.dev = s.mem.dev ∧ (∀ i, i < bs.length → SMap.find? u.mem.ls (lsSize * d + o + i) = bs[i]?)
    ∧ ∀ i, i < lsSize * d + o ∨ lsSize * d + o + bs.length ≤ i → SMap.find? u.mem.ls i = SMap.find? s.mem.ls i

/-- A message by its kind, agent and line. -/
def Msg.key (m : Msg) : MsgKind × Agent × Nat := (m.kind, m.agent, m.line)

/-- Between s and u the messages of a list have been put on their way, in its order, and no other has come or gone. -/
def State.sent (s u : State) (l : List (MsgKind × Agent × Nat)) : Prop :=
  u.msgs.map Msg.key = s.msgs.map Msg.key ++ l

/-- The package stands at the first step of a cold start: no thread, line, region, queue or local store holds anything (R14,
R458, R461). -/
def State.coldStarted (u : State) : Prop :=
  u.power = .boot ∧ u.rd F.BOOT_STAT_STEP = 1 ∧ u.threads = [] ∧ u.lines = [] ∧ u.regions = [] ∧ u.mem.ls = [] ∧ u.mem.held = []
    ∧ u.mem.wq = [] ∧ u.boot.slots = List.range 12

/-- The answer of an outcome is a next state of which P holds. -/
def answers (r : Res) (P : State → Prop) : Prop := ∃ u, r = .next u ∧ P u

end Sys2Proof.Machine
end

