-- ==== Sys2Proof/Certificates/Slice0/Obligations.lean ====
section
/-!
DEFINITION. The statements for the provers. A statement about a command says when it completes and what the next state
holds; s.ready t i says that thread t issues i and that no fetch or decode check stops it; s.acting t i is the state in which an
instruction acts: its thread out of WAIT, its cluster out of SLEEP (R98, R445), the instruction routed (R138).
-/
section
open Sys2Proof Sys2Proof.Machine


/-- A step takes the command at the front of the queue and runs it on the state with the queue's rest. -/
def Obligations.StepRunsFrontCommand : Prop := ∀ (c : Instr) (rest : List Instr) (s : State),
  step { s with pending := c :: rest } = exec c { s with pending := rest }

/-- Retirement changes only its thread's pc, delay slot, REP count and counters (R52, R59): the next address is the one after
the instruction, or the branch target in a delay slot. -/
def Obligations.RetirementFrame : Prop := ∀ (s : State) (t : Tid),
  (s.retire t).beside = s.beside ∧ (∀ k, k ≠ t.val → (s.retire t).thrN k = s.thrN k)
    ∧ (∀ a, (s.retire t).rdw a = s.rdw a)
    ∧ ((s.retire t).thr t).pc = (match (s.thr t).slot with | some a => a | none => (s.thr t).pc + 4)
    ∧ ((s.retire t).thr t).slot = none ∧ ((s.retire t).thr t).run = (s.thr t).run
    ∧ ((s.retire t).thr t).beside = (s.thr t).beside
    ∧ (∀ r, ((s.retire t).thr t).gr r = (s.thr t).gr r) ∧ (∀ r, ((s.retire t).thr t).fr r = (s.thr t).fr r)
    ∧ ∀ n, isPmc n = false → ((s.retire t).thr t).c n = (s.thr t).c n

/-- R80, the immediate forms: each writes g[d] with the value of the table and does nothing else. -/
def Obligations.ImmediateForms : Prop := ∀ (s : State) (t : Tid) (d a : Rn) (imm : BitVec 16) (sh : BitVec 6),
  let A := s.g t a
  let S : Word := imm.signExtend 64
  let Z : Word := imm.zeroExtend 64
  ∀ p ∈ [(Instr.addi t d a imm, A + S), (.andi t d a imm, A &&& Z), (.ori t d a imm, A ||| Z), (.xori t d a imm, A ^^^ Z),
      (.slti t d a imm, if A.toInt < S.toInt then 1 else 0), (.sltui t d a imm, if A.toNat < S.toNat then 1 else 0),
      (.lui t d imm, S * 65536), (.shori t d imm, s.g t d * 65536 ||| Z), (.addpc t d imm, (s.thr t).pc + S * 4),
      (.slli t d a sh, A <<< sh.toNat), (.srli t d a sh, A >>> sh.toNat), (.srai t d a sh, A.sshiftRight sh.toNat),
      (.rori t d a sh, A >>> sh.toNat ||| A <<< ((64 - sh.toNat) % 64))],
    s.ready t p.1 = true → answers (exec p.1 s) fun u => s.wroteG u t d p.2

/-- R81, the register forms: each writes g[d] with the value of the table and does nothing else. -/
def Obligations.RegisterForms : Prop := ∀ (s : State) (t : Tid) (d a b : Rn),
  let A := s.g t a
  let B := s.g t b
  let n := B.toNat % 64
  ∀ p ∈ [(Instr.add t d a b, A + B), (.sub t d a b, A - B), (.and t d a b, A &&& B), (.or t d a b, A ||| B),
      (.xor t d a b, A ^^^ B), (.andn t d a b, A &&& ~~~B), (.orn t d a b, A ||| ~~~B),
      (.slt t d a b, if A.toInt < B.toInt then 1 else 0), (.sltu t d a b, if A.toNat < B.toNat then 1 else 0),
      (.min t d a b, BitVec.ofInt 64 (min A.toInt B.toInt)), (.max t d a b, BitVec.ofInt 64 (max A.toInt B.toInt)),
      (.minu t d a b, BitVec.ofNat 64 (min A.toNat B.toNat)), (.maxu t d a b, BitVec.ofNat 64 (max A.toNat B.toNat)),
      (.sll t d a b, A <<< n), (.srl t d a b, A >>> n), (.sra t d a b, A.sshiftRight n),
      (.ror t d a b, A >>> n ||| A <<< ((64 - n) % 64)), (.mul t d a b, BitVec.ofNat 64 (A.toNat * B.toNat)),
      (.mulh t d a b, BitVec.ofInt 64 (A.toInt * B.toInt / 2 ^ 64)),
      (.mulhu t d a b, BitVec.ofNat 64 (A.toNat * B.toNat / 2 ^ 64)),
      (.sextb t d a, (A.setWidth 8).signExtend 64), (.sexth t d a, (A.setWidth 16).signExtend 64),
      (.sextw t d a, (A.setWidth 32).signExtend 64), (.zextw t d a, BitVec.ofNat 64 (A.toNat % 2 ^ 32))],
    s.ready t p.1 = true → answers (exec p.1 s) fun u => s.wroteG u t d p.2

/-- R81, the counting forms and BSWAP: CLZ and CTZ count the zero bits before the first one bit from the top or the bottom, POPC
the one bits, and BSWAP reverses the eight bytes. -/
def Obligations.BitForms : Prop := ∀ (s : State) (t : Tid) (d a : Rn),
  let A := s.g t a
  (s.ready t (.clz t d a) = true → ∃ n, n ≤ 64 ∧ (∀ i, i < n → A.getLsbD (63 - i) = false) ∧ (n < 64 → A.getLsbD (63 - n) = true)
      ∧ answers (exec (.clz t d a) s) fun u => s.wroteG u t d (BitVec.ofNat 64 n))
  ∧ (s.ready t (.ctz t d a) = true → ∃ n, n ≤ 64 ∧ (∀ i, i < n → A.getLsbD i = false) ∧ (n < 64 → A.getLsbD n = true)
      ∧ answers (exec (.ctz t d a) s) fun u => s.wroteG u t d (BitVec.ofNat 64 n))
  ∧ (s.ready t (.popc t d a) = true → answers (exec (.popc t d a) s) fun u =>
      s.wroteG u t d (BitVec.ofNat 64 ((List.range 64).filter fun i => A.getLsbD i).length))
  ∧ (s.ready t (.bswap t d a) = true → ∃ v : Word, (∀ i, i < 8 → v.toNat / 2 ^ (8 * i) % 256 = A.toNat / 2 ^ (8 * (7 - i)) % 256)
      ∧ answers (exec (.bswap t d a) s) fun u => s.wroteG u t d v)

/-- R82: division raises nothing; by zero, quotients are all ones and remainders the dividend; the most negative number by -1
gives itself and 0; else the quotient is rounded toward zero and the remainder has the dividend's sign. -/
def Obligations.Division : Prop := ∀ (s : State) (t : Tid) (d a b : Rn),
  let A := s.g t a
  let B := s.g t b
  let corner := A.toInt = -2 ^ 63 ∧ B.toInt = -1
  ∀ p ∈ [(Instr.div t d a b, if B = 0 then 0xFFFFFFFFFFFFFFFF#64 else if corner then A else BitVec.ofInt 64 (A.toInt.tdiv B.toInt)),
      (.divu t d a b, if B = 0 then 0xFFFFFFFFFFFFFFFF#64 else BitVec.ofNat 64 (A.toNat / B.toNat)),
      (.rem t d a b, if B = 0 then A else if corner then 0 else BitVec.ofInt 64 (A.toInt.tmod B.toInt)),
      (.remu t d a b, if B = 0 then A else BitVec.ofNat 64 (A.toNat % B.toNat))],
    s.ready t p.1 = true → answers (exec p.1 s) fun u => s.wroteG u t d p.2

/-- R83 to R85, the forms that set no flag: FNEG inverts and FABS clears the sign of the format, FMOV copies, FMVG and FMVF move the
bits, zero-extended for binary32, and FCLASS gives exactly one class bit. -/
def Obligations.FloatMoves : Prop := ∀ (s : State) (t : Tid) (w : Bool) (d a : Rn),
  let A := s.f t a
  let X : Word := if w then BitVec.ofNat 64 (A.toNat % 2 ^ 32) else A
  let sign : Word := if w then 0x80000000 else 0x8000000000000000
  (∀ p ∈ [(Instr.fneg t w d a, X ^^^ sign), (.fabs t w d a, X &&& ~~~sign), (.fmov t w d a, X),
      (.fmvf t w d a, if w then BitVec.ofNat 64 ((s.g t a).toNat % 2 ^ 32) else s.g t a)],
    s.ready t p.1 = true → answers (exec p.1 s) fun u => s.wroteF u t d p.2)
  ∧ (s.ready t (.fmvg t w d a) = true → answers (exec (.fmvg t w d a) s) fun u => s.wroteG u t d X)
  ∧ (s.ready t (.fclass t w d a) = true → ∃ k, k < 10 ∧ answers (exec (.fclass t w d a) s) fun u => s.wroteG u t d (1 <<< k))

/-- R47, R83 to R86: with no trap enabled, or none of those that its flags would raise, an operation writes its result, rounded by FCSR.RM in the format of W, to f[d]
and sets the flags in FCSR. R53, R57: FP_TRAP sets the FCSR flags and leaves the destination unchanged; xEVAL holds the flags raised. -/
def Obligations.FloatArithmetic : Prop :=
  (∀ (s : State) (t : Tid) (w : Bool) (d a b c : Rn),
    let F := fmtOf w
    let rm := fget ((s.thr t).c 1) 0 2
    let va := s.fv t w a
    let vb := s.fv t w b
    let vc := s.fv t w c
    ∀ p ∈ [(Instr.fadd t w d a b, F.add rm va vb), (.fsub t w d a b, F.add rm va vb.neg), (.fmul t w d a b, F.mul rm va vb),
        (.fdiv t w d a b, F.div rm va vb), (.fsqrt t w d a, F.sqrt rm va),
        (.fmin t w d a b, F.minmax true (s.fb t w a) (s.fb t w b)), (.fmax t w d a b, F.minmax false (s.fb t w a) (s.fb t w b)),
        (.fcvtf t w d a, F.roundInt rm (s.g t a).toInt 0 false), (.fcvtfu t w d a, F.roundInt rm (s.g t a).toNat 0 false),
        (.fcvtx t w d a, F.ofFv rm (s.fv t (!w) a)), (.fmadd t w d a b c, F.fma rm va vb vc),
        (.fmsub t w d a b c, F.fma rm va vb vc.neg), (.fnmsub t w d a b c, F.fma rm va.neg vb vc),
        (.fnmadd t w d a b c, F.fma rm va.neg vb vc.neg)],
      s.ready t p.1 = true → (fget ((s.thr t).c 1) 5 7 = 0 ∨ fget ((s.thr t).c 1) 5 7 &&& p.2.2 = 0) → answers (exec p.1 s) fun u =>
        (u.f t d).toNat = p.2.1 % 2 ^ 64 ∧ s.retired u t ∧ s.onlyThread u t ∧ (u.thr t).c 1 = (s.thr t).c 1 ||| BitVec.ofNat 64 p.2.2
          ∧ (∀ r, (u.thr t).gr r = (s.thr t).gr r) ∧ (∀ r, r ≠ d.val → (u.thr t).fr r = (s.thr t).fr r)
          ∧ ∀ n, n ≠ 1 → isPmc n = false → (u.thr t).c n = (s.thr t).c n)
  ∧ (∀ (s : State) (t : Tid) (w : Bool) (d a b : Rn),
    let r := (fmtOf w).add (fget ((s.thr t).c 1) 0 2) (s.fv t w a) (s.fv t w b)
    s.ready t (.fadd t w d a b) = true → fget ((s.thr t).c 1) 5 7 &&& r.2 ≠ 0 → (s.thr t).enc = false
      → fget ((s.thr t).c 0) 0 2 = 1 → bit ((s.thr t).c 0x017) 0 = false → answers (exec (.fadd t w d a b) s) fun u =>
        (u.thr t).c 0x013 &&& 0xFF = 0x0D ∧ (u.thr t).c 0x014 = BitVec.ofNat 64 r.2 ∧ (u.thr t).c 0x011 = (s.thr t).pc
          ∧ (u.thr t).pc = (s.thr t).c 0x010 ∧ (u.thr t).c 1 = (s.thr t).c 1 ||| BitVec.ofNat 64 r.2 ∧ u.f t d = s.f t d)

/-- R84, R85, with no trap enabled or none that the flags would raise: FEQ, FLT and FLE give 0 with NaN operands, and set NV for a signalling NaN (FEQ) or any NaN (FLT, FLE); the conversions to
integers give the rounded value held to the target range. -/
def Obligations.FloatToInteger : Prop := ∀ (s : State) (t : Tid) (w : Bool) (d a b : Rn),
  let va := s.fv t w a
  let vb := s.fv t w b
  let rm := fget ((s.thr t).c 1) 0 2
  let nan := va.isNan || vb.isNan
  let sig := va.isSig || vb.isSig
  let ci := va.toInteger rm (-2 ^ 63) (2 ^ 63 - 1)
  let cu := va.toInteger rm 0 (2 ^ 64 - 1)
  ∀ p ∈ [(Instr.feq t w d a b, (if nan || va.lt vb || vb.lt va then 0 else 1, if sig then 64 else 0)),
      (.flt t w d a b, (if nan then 0 else if va.lt vb then 1 else 0, if nan then 64 else 0)),
      (.fle t w d a b, (if nan || vb.lt va then 0 else 1, if nan then 64 else 0)),
      (.fcvti t w d a, (BitVec.ofInt 64 ci.1, ci.2)), (.fcvtiu t w d a, (BitVec.ofInt 64 cu.1, cu.2))],
    s.ready t p.1 = true → (fget ((s.thr t).c 1) 5 7 = 0 ∨ fget ((s.thr t).c 1) 5 7 &&& (p.2.2 : Nat) = 0) →
    answers (exec p.1 s) fun u =>
      u.g t d = (if d = 0 then 0 else p.2.1) ∧ s.retired u t ∧ s.onlyThread u t
        ∧ (u.thr t).c 1 = (s.thr t).c 1 ||| BitVec.ofNat 64 p.2.2
        ∧ (∀ r, (u.thr t).fr r = (s.thr t).fr r) ∧ (∀ r, r ≠ d.val → (u.thr t).gr r = (s.thr t).gr r)

/-- R59, R87: a taken conditional branch runs its slot and then its target; one not taken goes on after its slot, or past it with the
suffix .A; nothing else of the thread changes. -/
def Obligations.ConditionalBranches : Prop := ∀ (s : State) (t : Tid) (a b : Rn) (an : Bool) (disp : BitVec 15),
  let A := s.g t a
  let B := s.g t b
  let pc := (s.thr t).pc
  ∀ p ∈ [(Instr.beq t a b an disp, decide (A = B)), (.bne t a b an disp, decide (A ≠ B)),
      (.blt t a b an disp, decide (A.toInt < B.toInt)), (.bge t a b an disp, decide (B.toInt ≤ A.toInt)),
      (.bltu t a b an disp, decide (A.toNat < B.toNat)), (.bgeu t a b an disp, decide (B.toNat ≤ A.toNat))],
    s.ready t p.1 = true → answers (exec p.1 s) fun u =>
      (u.thr t).pc = (if !p.2 && an then pc + 8 else pc + 4)
        ∧ (u.thr t).slot = (if p.2 then some (pc + disp.signExtend 64 * 4) else if an then none else some (pc + 8))
        ∧ s.onlyThread u t ∧ s.keepsThread u t ∧ (∀ r, (u.thr t).gr r = (s.thr t).gr r) ∧ ∀ r, (u.thr t).fr r = (s.thr t).fr r

/-- R64, R65, R87: jumps go to their target after the slot; a call with room pushes pc + 8 as RSE0, the entries moving up and DEPTH
rising by one; a return with an entry pops RSE0 as its target, the entries moving down. R65: a return that finds DEPTH = 0 raises RS_UNDERFLOW at the return and pops nothing; a call that finds 16 entries in wrap mode
discards the oldest and sets LOST. -/
def Obligations.JumpsAndCalls : Prop :=
  (∀ (s : State) (t : Tid) (a : Rn) (disp : BitVec 26),
    let x := s.thr t
    let rel := x.pc + disp.signExtend 64 * 4
    (∀ p ∈ [(Instr.j t disp, rel), (.jr t a, s.g t a)], s.ready t p.1 = true → answers (exec p.1 s) fun u =>
        (u.thr t).pc = x.pc + 4 ∧ (u.thr t).slot = some p.2 ∧ s.onlyThread u t ∧ s.keepsThread u t
          ∧ (∀ r, (u.thr t).gr r = x.gr r) ∧ ∀ r, (u.thr t).fr r = x.fr r)
    ∧ (∀ p ∈ [(Instr.call t disp, rel), (.callr t a, s.g t a)], s.ready t p.1 = true → fget (x.c 0x1C0) 4 5 < 16 →
        answers (exec p.1 s) fun u => (u.thr t).pc = x.pc + 4 ∧ (u.thr t).slot = some p.2 ∧ (u.thr t).c 0x1C1 = x.pc + 8
          ∧ fget ((u.thr t).c 0x1C0) 4 5 = fget (x.c 0x1C0) 4 5 + 1 ∧ (∀ i, i < 15 → (u.thr t).c (0x1C2 + i) = x.c (0x1C1 + i))
          ∧ ∀ r, (u.thr t).gr r = x.gr r)
    ∧ (s.ready t (.ret t) = true → 0 < fget (x.c 0x1C0) 4 5 → answers (exec (.ret t) s) fun u =>
        (u.thr t).pc = x.pc + 4 ∧ (u.thr t).slot = some (x.c 0x1C1) ∧ (u.thr t).c 0x1D0 = 0
          ∧ fget ((u.thr t).c 0x1C0) 4 5 = fget (x.c 0x1C0) 4 5 - 1 ∧ (∀ i, i < 15 → (u.thr t).c (0x1C1 + i) = x.c (0x1C2 + i))
          ∧ ∀ r, (u.thr t).gr r = x.gr r))
  ∧ (∀ (s : State) (t : Tid) (disp : BitVec 26),
    let x := s.thr t
    (s.ready t (.ret t) = true → fget (x.c 0x1C0) 4 5 = 0 → exec (.ret t) s = .next ((s.acting t (.ret t)).raise t (.mk1 0x0A 0) none))
    ∧ (s.ready t (.call t disp) = true → fget (x.c 0x1C0) 4 5 = 16 → bit (x.c 0x1C0) 0 = false →
        answers (exec (.call t disp) s) fun u => fget ((u.thr t).c 0x1C0) 4 5 = 16 ∧ bit ((u.thr t).c 0x1C0) 1 = true
          ∧ (u.thr t).c 0x1C1 = x.pc + 8 ∧ (∀ i, i < 15 → (u.thr t).c (0x1C2 + i) = x.c (0x1C1 + i))
          ∧ (u.thr t).slot = some (x.pc + disp.signExtend 64 * 4)))

/-- R45, R71, R88, R89, R92, R149: a load whose checks pass, whose bytes are in its own local store and to which no store waits, or which the
newest waiting store covers, writes them to its destination, and a mode that updates its base writes the base after; LDI reads instruction
space, at pc with the suffix .PC. A load of more than 8 bytes, or a misaligned one, ends with its last piece. Model choices: log 5, 21, 68. -/
def Obligations.LoadsComplete : Prop := ∀ (s : State) (t : Tid) (d a : Rn) (k : Fin 16) (ord : Bool) (disp : BitVec 11) (am : Fin 8)
    (amf : BitVec 8) (pa ks : Nat) (ea : Word) (upd : Option Word) (bs : List Byte),
  let n := szOf k.val
  let ends (i : Instr) (upd : Option Word) : Prop := answers (exec i s) fun u =>
    let y := (match upd with | some w => (s.loadTo t d k.val bs).setG t a w | none => s.loadTo t d k.val bs).thr t
    s.retired u t ∧ s.onlyThread u t ∧ s.keepsThread u t ∧ (∀ r, (u.thr t).gr r = y.gr r) ∧ ∀ r, (u.thr t).fr r = y.fr r
  let found : Prop := s.noStore t pa n ∧ s.atHand t pa n bs ∨ ∃ q p, (s.thr t).storeQ = q ++ [p] ∧ p.meets pa n = true ∧ p.pa ≤ pa
    ∧ pa + n ≤ p.pa + p.data.length ∧ bs = (p.data.drop (pa - p.pa)).take n
  let md : Word := s.g t a + disp.signExtend 64 * BitVec.ofNat 64 n
  (let i := Instr.load t d a k ord disp;
    s.ready t i = true → (s.acting t i).addr t .load md n false = .ok pa ks → found → ends i none)
  ∧ (let i := Instr.loadx t d a k ord am amf;
    s.ready t i = true → s.mode t a am amf n = .at ea upd → (s.acting t i).addr t .load ea n false = .ok pa ks → found → ends i upd)
  ∧ (let i := Instr.ldi t d a k ord disp;
    s.ready t i = true → (s.acting t i).addr t .ldi (if ord then (s.thr t).pc + disp.signExtend 64 * BitVec.ofNat 64 n else md) n false = .ok pa ks →
      s.atHand t pa n bs → ends i none)

/-- R88: the value a load of each SZK leaves in a general register: sign-extended for LB, LH, LW and zero-extended for LBU, LHU, LWU;
LD whole; LQ in d and d + 1; FLD.S and FLD in f[d]. Bytes lie little-endian (R9).
Model choices: log 5, 21. -/
def Obligations.LoadValues : Prop := ∀ (s : State) (t : Tid) (d : Rn) (k : Fin 16) (bs : List Byte), bs.length = szOf k.val → d.val ≠ 0 →
  let u := s.loadTo t d k.val bs
  let w := ofBytes bs
  (k.val = 0 → u.g t d = (BitVec.ofNat 8 w).signExtend 64) ∧ (k.val = 2 → u.g t d = (BitVec.ofNat 16 w).signExtend 64)
  ∧ (k.val = 4 → u.g t d = (BitVec.ofNat 32 w).signExtend 64)
  ∧ (k.val = 1 ∨ k.val = 3 ∨ k.val = 5 ∨ k.val = 6 → u.g t d = BitVec.ofNat 64 w)
  ∧ (k.val = 7 → (u.g t d).toNat = w % 2 ^ 64 ∧ ((u.thr t).gr (d.val + 1)).toNat = w / 2 ^ 64 ∧ w < 2 ^ 128)
  ∧ (k.val = 8 ∨ k.val = 9 → u.f t d = BitVec.ofNat 64 w ∧ ∀ r, (u.thr t).gr r = (s.thr t).gr r)

/-- R88, R89, R144, R148: a store whose checks pass and for which the store-address queue has room puts its bytes at the end of its thread's store queue and changes no memory, no line and no
other register; a mode that updates its base writes the base. Model choices: log 5. -/
def Obligations.StoresQueue : Prop := ∀ (s : State) (t : Tid) (d a : Rn) (k : Fin 16) (ord : Bool) (disp : BitVec 11) (am : Fin 8)
    (amf : BitVec 8) (pa ks : Nat) (ea : Word) (upd : Option Word),
  let n := szOf k.val
  let queued (u : State) : Prop := s.retired u t ∧ s.onlyThread u t
    ∧ (u.thr t).storeQ = (s.thr t).storeQ ++ [{ pa := pa, data := s.storeBytes t d k.val, kslot := ks }]
    ∧ (∀ r, (u.thr t).fr r = (s.thr t).fr r) ∧ ∀ m, isPmc m = false → (u.thr t).c m = (s.thr t).c m
  (let i := Instr.store t d a k ord disp;
    s.ready t i = true → (s.acting t i).addr t .store (s.g t a + disp.signExtend 64 * BitVec.ofNat 64 n) n false = .ok pa ks →
      (s.acting t i).saqRoom t 1 = true → answers (exec i s) fun u => queued u ∧ ∀ r, (u.thr t).gr r = (s.thr t).gr r)
  ∧ (let i := Instr.storex t d a k ord am amf;
    s.ready t i = true → s.mode t a am amf n = .at ea upd → (s.acting t i).addr t .store ea n false = .ok pa ks →
      (s.acting t i).saqRoom t 1 = true → answers (exec i s) fun u => queued u
        ∧ ∀ r, (u.thr t).gr r = (match upd with | some w => if r = a.val ∧ r ≠ 0 then w else (s.thr t).gr r | none => (s.thr t).gr r))

/-- R45, R71, R145, R148, R187: STORE_COMMIT makes the oldest queued store, or its next piece, visible: where it goes to a local store that
its die reaches, its bytes stand there and every other byte of every local store and of every device is as before; the entry leaves the queue
with the last piece. Model choices: log 5, 22, 68. -/
def Obligations.StoreCommit : Prop := ∀ (s : State) (t : Tid) (p : PendStore) (q : List PendStore) (x o : Nat),
  let k := pieceLen p.pa p.data.length
  (s.thr t).storeQ = p :: q → p.data ≠ [] → s.lsOf p.pa = some (x, o) → s.dieRunning (dieOf t) = true → s.lsReach x (some (dieOf t)) = true →
    answers (exec (.storeCommit t) s) fun u => s.wroteLs u x o (p.data.take k)
      ∧ (u.thr t).storeQ = (if p.data.drop k = [] then q else { p with pa := p.pa + k, data := p.data.drop k } :: q)
      ∧ u.lines = s.lines ∧ u.io = s.io ∧ ∀ r, (u.thr t).gr r = (s.thr t).gr r

/-- R94: an atomic of 8 or 16 bytes in its own local store, with no store of its thread waiting, leaves the old value in d (and d + 1) and
stores what the operation gives, nothing where a CAS finds another value, changing no other byte of memory. Model choices: log 21, 22. -/
def Obligations.AtomicsComplete : Prop := ∀ (s : State) (t : Tid) (q : Bool) (d a b : Rn) (pa ks o : Nat) (bs : List Byte),
  let n := if q then 16 else 8
  let old := ofBytes bs
  let reg (r : Rn) : Nat := if q then (s.g t r).toNat + 2 ^ 64 * ((s.thr t).gr (r.val + 1)).toNat else (s.g t r).toNat
  let D := reg d
  let B := reg b
  let sg (m : Nat) : Int := if q then (BitVec.ofNat 128 m).toInt else (BitVec.ofNat 64 m).toInt
  s.lsOf pa = some (dieOf t, o) → (s.thr t).storeQ = [] → bs.length = n → s.ownBytes t pa bs →
  ∀ p ∈ [(Instr.swap t q d a b, B), (.cas t q d a b, if old = D then B else old), (.fetchAdd t q d a b, old + B),
      (.fetchAnd t q d a b, old &&& B), (.fetchOr t q d a b, old ||| B),
      (.fetchMax t q d a b, if sg old < sg B then B else old), (.fetchMaxu t q d a b, max old B)],
    s.ready t p.1 = true → (s.acting t p.1).addr t .atomic (s.g t a) n true = .ok pa ks → answers (exec p.1 s) fun u => s.retired u t
      ∧ s.wroteLs u (dieOf t) o (bytesOf n p.2)
      ∧ (∀ r, (u.thr t).gr r = if r = 0 then 0 else if q ∧ r = d.val + 1 then BitVec.ofNat 64 (old / 2 ^ 64)
          else if r = d.val then BitVec.ofNat 64 old else (s.thr t).gr r)
      ∧ s.keepsThread u t ∧ u.lines = s.lines ∧ ∀ r, (u.thr t).fr r = (s.thr t).fr r

/-- R46, R72, R95: a fence and ISYNC retire and change nothing else; FENCE SL and FENCE ALL do so once no store of the thread is queued, and
where every queued store can become visible at once they make them so first. Model choices: log 5. -/
def Obligations.FencesComplete : Prop := ∀ (s : State) (t : Tid),
  (∀ i ∈ [Instr.fenceLl t, .fenceLs t, .fenceSs t, .isync t], s.ready t i = true → answers (exec i s) fun u => s.became u t (s.thr t))
  ∧ ∀ i ∈ [Instr.fenceSl t, .fenceAll t], s.ready t i = true →
      ((s.thr t).storeQ = [] → answers (exec i s) fun u => s.became u t (s.thr t))
      ∧ ∀ v, (s.acting t i).drain t = some v → exec i s = .next (v.ends t (s.thr t).pc i)

/-- R48, R96, R97: MFC gives the register's value as read; an MTC to a register that a lowest level may write leaves in it the value its
fields take, and one to a register that is read-only at every level changes nothing; KEYGET and KEYSET move KEYMASK; RDPMC gives a
counter that is not counting, and zero above 7. R49: STATUS as MTC writes it: CIE, FPE and SFE take the value written; PL, ENC and SECURE do not change.
Model choices: log 29. -/
def Obligations.ControlRegisterMoves : Prop :=
  (∀ (s : State) (t : Tid) (d a : Rn) (num : BitVec 12),
    let mtc := Instr.mtc t a num
    let s1 := s.acting t mtc
    (s.ready t (.mfc t d num) = true → answers (exec (.mfc t d num) s) fun u =>
        s.wroteG u t d ((s.acting t (.mfc t d num)).readCr t num.toNat))
    ∧ (s.ready t mtc = true → exec mtc s = .next ((s1.writeCr t num.toNat (s.g t a)).ends t (s.thr t).pc mtc))
    ∧ (∀ e : CrDesc, s.ready t mtc = true → crAt num.toNat = some e → e.wr = 4 → answers (exec mtc s) fun u => s.became u t (s.thr t))
    ∧ (s.ready t (.keyset t a) = true → answers (exec (.keyset t a) s) fun u => s.retired u t ∧ s.onlyThread u t
        ∧ ((u.thr t).c 0x180).toNat = (s.g t a).toNat % 2 ^ 32
        ∧ (∀ n, n ≠ 0x180 → isPmc n = false → (u.thr t).c n = (s.thr t).c n) ∧ ∀ r, (u.thr t).gr r = (s.thr t).gr r)
    ∧ (s.ready t (.keyget t d) = true → answers (exec (.keyget t d) s) fun u =>
        s.wroteG u t d (BitVec.ofNat 64 (((s.thr t).c 0x180).toNat % 2 ^ 32)))
    ∧ (s.ready t (.rdpmc t d a) = true → 8 ≤ (s.g t a).toNat → answers (exec (.rdpmc t d a) s) fun u => s.wroteG u t d 0)
    ∧ ∀ c, s.ready t (.rdpmc t d a) = true → (s.g t a).toNat = c → c < 8 → bit ((s.thr t).c 0x300) c = false →
        answers (exec (.rdpmc t d a) s) fun u => s.wroteG u t d ((s.thr t).c (0x308 + c)))
  ∧ (∀ (s : State) (t : Tid) (a : Rn), s.ready t (.mtc t a 0) = true →
    bit ((s.thr t).c 0) 3 = (fget ((s.thr t).c 0) 0 2 == 3 || bit ((s.thr t).c 0) 2) →
    answers (exec (.mtc t a 0) s) fun u => fget ((u.thr t).c 0) 4 3 = fget (s.g t a) 4 3
      ∧ fget ((u.thr t).c 0) 0 4 = fget ((s.thr t).c 0) 0 4 ∧ (∀ r, (u.thr t).gr r = (s.thr t).gr r) ∧ s.onlyThread u t)

/-- R53, R55 to R57, R96, R110: BRK, SYSC, HVC and MONC, and a coprocessor opcode, are taken at the higher of the routed level and the
current one: the primary set of that level holds the status before, the cause, the instruction word and the address, 4 past a trap
instruction; STATUS has the level and CIE 0, and pc is the vector. Model choices: log 25, 28. -/
def Obligations.TrapInstructions : Prop := ∀ (s : State) (t : Tid) (code : BitVec 12) (func : BitVec 6) (ops : BitVec 20),
  let x := s.thr t
  ∀ p ∈ [(Instr.brk t code, (0x0B, 1, 4)), (.sysc t code, (0x0C, 1, 4)), (.hvc t code, (0x10, 2, 4)), (.monc t code, (0x11, 3, 4)),
      (.cust t func ops, ((0x05 : Nat), (1 : Nat), (0 : Nat)))],
    let lvl := max p.2.2.1 (fget (x.c 0) 0 2)
    let b := 0x10 + (lvl - 1) * 0x20
    s.canIssue t = true → s.latent = [] → (s.core (coreKey t)).tlbBad = [] → s.sec.stepping.contains t.val = false →
    (s.running t).fetchTrap t = none → (s.running t).fetchReady t = true → (s.running t).decodeCode t p.1 = (if p.2.1 = 5 then 5 else 0) →
    x.enc = false → bit (x.c (b + 7)) 0 = false → x.slot = none →
    answers (exec p.1 s) fun u => (u.thr t).c (b + 5) = BitVec.ofNat 64 (fget (x.c 0) 0 7) ∧ fget ((u.thr t).c (b + 3)) 0 9 = p.2.1
      ∧ (u.thr t).c (b + 4) = (encode p.1).setWidth 64 ∧ (u.thr t).c (b + 1) = x.pc + BitVec.ofNat 64 p.2.2.2
      ∧ bit ((u.thr t).c (b + 7)) 0 = true ∧ fget ((u.thr t).c 0) 0 2 = lvl ∧ bit ((u.thr t).c 0) 4 = false
      ∧ (u.thr t).pc = x.c b ∧ (u.thr t).slot = none ∧ (∀ r, (u.thr t).gr r = x.gr r) ∧ ∀ r, (u.thr t).fr r = x.fr r

/-- R58: ERET from the primary set clears ACT, restores STATUS and resumes at xEPC: as a delay slot before xETGT where BD is 1; it
changes no general or floating-point register. Model choices: log 27. -/
def Obligations.ExceptionReturn : Prop := ∀ (s : State) (t : Tid),
  let x := s.thr t
  let lvl := fget (x.c 0) 0 2
  let b := 0x10 + (lvl - 1) * 0x20
  s.ready t (.eret t) = true → bit (x.c (b + 7)) 1 = false → s.mcPend = [] → answers (exec (.eret t) s) fun u =>
    (u.thr t).pc = x.c (b + 1) ∧ (u.thr t).slot = (if bit (x.c (b + 3)) 9 then some (x.c (b + 2)) else none)
      ∧ bit ((u.thr t).c (b + 7)) 0 = false ∧ fget ((u.thr t).c 0) 0 2 = fget (x.c (b + 5)) 0 2
      ∧ fget ((u.thr t).c 0) 4 3 = fget (x.c (b + 5)) 4 3 ∧ (u.thr t).repLeft = (if bit (x.c (b + 3)) 10 then some (fget (x.c (b + 6)) 0 7) else none)
      ∧ (∀ r, (u.thr t).gr r = x.gr r) ∧ (∀ r, (u.thr t).fr r = x.fr r) ∧ s.onlyThread u t

/-- R66 to R68, R108: REP #n runs the next instruction n times and REP gN as often as gN says, counting gN down to zero; the prefix and the
word are one command, and the thread goes on after both; a count of zero skips the word. Stated for ADD, whose g[d] gains n times g[b].
Model choices: log 16, 30. -/
def Obligations.RepeatPrefix : Prop := ∀ (s : State) (t : Tid) (d b g : Rn) (nm1 : BitVec 6) (next : BitVec 32) (c : Nat),
  let s1 := s.running t
  let x := s.thr t
  (s.ready t (.repN t nm1 next) = true → s1.repFetch t = none → s1.repTarget t next none = some (.add t d d b) → x.repLeft = none →
      b ≠ d → answers (exec (.repN t nm1 next) s) fun u => (u.thr t).pc = x.pc + 8
        ∧ u.g t d = (if d = 0 then 0 else s.g t d + BitVec.ofNat 64 (nm1.toNat + 1) * s.g t b)
        ∧ (∀ r, r ≠ d.val → (u.thr t).gr r = x.gr r) ∧ s.onlyThread u t)
  ∧ (s.ready t (.repG t g next) = true → s1.repFetch t = none → s1.repTarget t next (some g.val) = some (.add t d d b) →
      b ≠ d → g ≠ d → g ≠ b → (s.g t g).toNat = c → c ≤ 64 → answers (exec (.repG t g next) s) fun u =>
        (u.thr t).pc = x.pc + 8 ∧ u.g t g = 0 ∧ u.g t d = (if d = 0 then 0 else s.g t d + BitVec.ofNat 64 c * s.g t b)
        ∧ (∀ r, r ≠ d.val → r ≠ g.val → (u.thr t).gr r = x.gr r) ∧ s.onlyThread u t)

/-- R109, R118 to R121: an instruction of the decode table whose entry is one ADD micro-op writes the sum of the registers that its selectors
name to the register that its destination selector names. Model choices: log 35. -/
def Obligations.DecodeTableInstruction : Prop := ∀ (s : State) (t : Tid) (sel : Fin 64) (f1 f2 f3 f4 : Rn) (e : DtEntry) (w : BitVec 32),
  s.ready t (.udi t sel f1 f2 f3 f4) = true → SMap.find? (s.core (coreKey t)).dt sel.val = some e → fget e.hdr 2 4 = 0 →
  e.uops.head? = some w → uOp w = 0x01 → uDst w = 1 → uSa w = 2 → uSb w = 3 →
    answers (exec (.udi t sel f1 f2 f3 f4) s) fun u => s.wroteG u t f1 (s.g t f2 + s.g t f3)

/-- R104, R105, R115, R116: RSSAVE queues RSCTL and the sixteen entries as an MFC reads them, once the store-address queue has room; RSLOAD takes all
sixteen back from the thread's local store; DTLOAD puts a valid image from there into the entry it names and says in DTLSTAT what the checks found. Model choices: log 35. -/
def Obligations.ContextInstructions : Prop := ∀ (s : State) (t : Tid) (a b : Rn) (l : List (Nat × Nat × Nat)) (ws : List Word),
  let x := s.thr t
  let sv := s.acting t (.rssave t a)
  let ld := s.acting t (.rsload t a)
  let dt := s.acting t (.dtload t a b)
  (s.ready t (.rssave t a) = true → sv.areaCheck t .store (s.g t a) 136 = .inl l → sv.saqRoom t 17 = true →
      answers (exec (.rssave t a) s) fun u =>
      s.retired u t ∧ s.onlyThread u t ∧ (u.thr t).storeQ = x.storeQ ++ (List.range 17).map (fun i =>
        { pa := (areaAt l (8 * i)).1, kslot := (areaAt l (8 * i)).2,
          data := bytesOf 8 (if i = 0 then x.c 0x1C0 else if fget (x.c 0x1C0) 4 5 ≤ i - 1 then 0 else x.c (0x1C0 + i)).toNat }))
  ∧ (s.ready t (.rsload t a) = true → ld.areaCheck t .load (s.g t a) 136 = .inl l → ws.length = 17 → s.areaHolds t l ws →
      answers (exec (.rsload t a) s) fun u => s.retired u t ∧ s.onlyThread u t ∧ (∀ i, i < 16 → (u.thr t).c (0x1C1 + i) = ws.getD (i + 1) 0)
        ∧ fget ((u.thr t).c 0x1C0) 0 2 = fget (ws.getD 0 0) 0 2
        ∧ (fget (ws.getD 0 0) 4 5 ≤ 16 → fget ((u.thr t).c 0x1C0) 4 5 = fget (ws.getD 0 0) 4 5))
  ∧ (s.ready t (.dtload t a b) = true → dt.areaCheck t .load (s.g t a) 72 = .inl l → ws.length = 9 → s.areaHolds t l ws →
      answers (exec (.dtload t a b) s) fun u => s.retired u t ∧ fget ((u.thr t).c 0x205) 0 4 = (imageResult ws).1
        ∧ ((imageResult ws).1 = 0 → SMap.find? (u.core (coreKey t)).dt (fget (s.g t b) 0 6)
          = some { hdr := ws.getD 0 0, uops := imageUops ws }))

/-- R396, R398: ENCRUN of a FINAL enclave and a FREE slot enters it at its entry point with ENC 1, its ID and slot in ENCSTAT, an empty return
stack and KEYMASK 0; ENCDONE leaves it for the address given, with ENC 0 and ENCSTAT 0.
Model choices: log 37. -/
def Obligations.EnclaveEntryAndExit : Prop := ∀ (s : State) (t : Tid) (a b : Rn) (id slot : Nat) (dw0 entry save dw3 : Word) (v0 v1 v2 v3 : State),
  let s1 := (s.acting t (.encrun t a b)).pmEvent t 2
  let s2 := (s.acting t (.encdone t a)).pmEvent t 2
  (s.ready t (.encrun t a b) = true → fget ((s.thr t).c 0) 0 2 = 0 → fget (s.g t a) 0 12 = id → fget (s.g t a) 12 3 = slot → bit (s.g t a) 15 = false →
      s1.encDw (dieOf t) id 0 = (some dw0, v0) → v0.encDw (dieOf t) id 1 = (some entry, v1) → v1.encDw (dieOf t) id 2 = (some save, v2) →
      v2.encDw (dieOf t) id 3 = (some dw3, v3) → id ≠ 0 → fget dw0 0 2 = 2 → slot ≤ fget dw0 5 3 → fget dw0 18 12 = (v3.thr t).vmid →
      fget dw3 (2 * slot) 2 = 0 → (v3.slotSet t id slot 1).saveFault t (save.toNat + slot * 0x400) (fget dw0 8 10) = none →
      answers (exec (.encrun t a b) s) fun u => (u.thr t).pc = entry ∧ bit ((u.thr t).c 0) 2 = true
        ∧ fget ((u.thr t).c 0x500) 0 12 = id ∧ fget ((u.thr t).c 0x500) 12 3 = slot ∧ fget ((u.thr t).c 0x1C0) 4 5 = 0 ∧ (u.thr t).c 0x180 = 0)
  ∧ (s.ready t (.encdone t a) = true → s2.saveFault t (s.thr t).encSave (s.thr t).encKs = none →
      s2.encDw (dieOf t) (fget ((s.thr t).c 0x500) 0 12) 3 = (some dw3, v0) →
      answers (exec (.encdone t a) s) fun u => (u.thr t).pc = s.g t a ∧ bit ((u.thr t).c 0) 2 = false ∧ (u.thr t).c 0x500 = 0 ∧ (u.thr t).slot = none)

/-- R99, R160, R161, R164, R171, R178: TLBW at H or M puts an I/O entry that is well-formed into its slot; every TLBW puts the checked entry there and invalidates what overlaps it; TLBRD and GPMR stage a slot;
TLBFIND names a matching slot or none; the invalidations leave no valid entry of what they name; GPMW writes an aligned map slot; OWNERSYNC
empties every owner cache. Model choices: log 24. -/
def Obligations.TranslationInstructions : Prop := ∀ (s : State) (t : Tid) (d a b : Rn) (i lf : Nat) (e : TlbSlot) (v : State),
  let k := coreKey t
  let x := s.thr t
  let c0 := s.core k
  let io : TlbSlot := ⟨x.c 0x100, x.c 0x101, x.c 0x102⟩
  let ioOk : Prop := 2 ≤ fget (x.c 0) 0 2 ∧ io.type = 2 ∧ 12 ≤ io.size ∧ io.size ≤ 48 ∧ io.vpn % 2 ^ io.size = 0 ∧ io.ppn % 2 ^ io.size = 0
    ∧ io.ppn + 2 ^ io.size ≤ 0xFE0008000000 ∧ io.kslot = 0 ∧ io.mon = false ∧ io.encl = false
  (s.ready t (.tlbwRnd t) = true → ioOk → c0.rndSlot = some (i, lf) → answers (exec (.tlbwRnd t) s) fun u =>
      s.retired u t ∧ (u.core k).slot i = io ∧ ((u.core k).c 0x10B).toNat = lf)
  ∧ (s.ready t (.tlbwSlot t a) = true → ioOk → bit (c0.c 0x10C) (fget (s.g t a) 0 6) = false → answers (exec (.tlbwSlot t a) s) fun u =>
      s.retired u t ∧ (u.core k).slot (fget (s.g t a) 0 6) = io)
  ∧ (∀ c ∈ [(Instr.tlbwRnd t, none), (.tlbwSlot t a, some (fget (s.g t a) 0 6))], s.ready t c.1 = true →
      (s.acting t c.1).tlbw t c.2 = (.ok i e lf, v) → answers (exec c.1 s) fun u => (u.core k).slot i = e ∧ ∀ j f, j ≠ i → (j, f) ∈ (u.core k).tlb → f.overlaps e = false)
  ∧ (s.ready t (.tlbrd t a) = true → 2 ≤ fget (x.c 0) 0 2 → answers (exec (.tlbrd t a) s) fun u =>
      let q := (s.core k).slot (fget (s.g t a) 0 6)
      s.became u t (((x.setC 0x100 q.sv).setC 0x101 q.sp).setC 0x102 q.stg))
  ∧ (s.ready t (.tlbfind t d) = true → ∃ w : Word, answers (exec (.tlbfind t d) s) (fun u => s.wroteG u t d w)
      ∧ (w = 0xFFFFFFFFFFFFFFFF ∨ ∃ j f, (j, f) ∈ (s.core k).tlb ∧ w = BitVec.ofNat 64 j ∧ f.v = true
        ∧ f.vmid = fget (x.c 0x102) 16 12 ∧ (f.global = true ∨ f.asid = fget (x.c 0x102) 0 16)))
  ∧ (s.ready t (.tlbiVa t a b) = true → answers (exec (.tlbiVa t a b) s) fun u => ∀ c ∈ (u.core k).tlb, c.2.v = true → c.2.vmid = x.vmid →
      (c.2.global = true ∨ c.2.asid = fget (s.g t b) 0 16) → c.2.covers (s.g t a) = false)
  ∧ (s.ready t (.tlbiAsid t b) = true → answers (exec (.tlbiAsid t b) s) fun u => ∀ c ∈ (u.core k).tlb, c.2.v = true → c.2.vmid = x.vmid →
      c.2.asid = fget (s.g t b) 0 16 → c.2.global = true)
  ∧ (s.ready t (.tlbiVmid t b) = true → answers (exec (.tlbiVmid t b) s) fun u => ∀ c ∈ (u.core k).tlb, c.2.v = true →
      c.2.vmid ≠ fget (s.g t b) 0 12)
  ∧ (s.ready t (.tlbiAll t) = true → answers (exec (.tlbiAll t) s) fun u => ∀ c ∈ (u.core k).tlb, c.2.v = false)
  ∧ (s.ready t (.gpmw t a) = true → 12 ≤ fget (x.c 0x110) 5 6 → fget (x.c 0x110) 5 6 ≤ 48 →
      fget (x.c 0x110) 12 40 * 4096 % 2 ^ fget (x.c 0x110) 5 6 = 0 → fget (x.c 0x111) 12 40 * 4096 % 2 ^ fget (x.c 0x110) 5 6 = 0 →
      answers (exec (.gpmw t a) s) fun u => SMap.get GpmSlot.zero (u.core k).gpm (fget (s.g t a) 0 5) = ⟨x.c 0x110, x.c 0x111⟩)
  ∧ (s.ready t (.gpmr t a) = true → answers (exec (.gpmr t a) s) fun u =>
      let q := SMap.get GpmSlot.zero (s.core k).gpm (fget (s.g t a) 0 5)
      s.became u t ((x.setC 0x110 q.hi).setC 0x111 q.lo))
  ∧ (s.ready t (.gpmi t) = true → answers (exec (.gpmi t) s) fun u => ∀ c ∈ (u.core k).gpm, c.2.v = false)
  ∧ (s.ready t (.ownersync t) = true → answers (exec (.ownersync t) s) fun u => u.owners = [] ∧ s.retired u t)

/-- R162, R165, R169: a translation that no entry matches raises the miss of its space; with a matching entry the permission checks decide,
and a translation that passes gives the page's address with the offset kept. Model choices: log 23, 24. -/
def Obligations.TranslationOutcome : Prop := ∀ (s : State) (t : Tid) (u : Use) (va : Word) (i : Nat) (e : TlbSlot),
  (s.tlbMatch t u.space va = none → s.xlate t u va = .fail (0x20 + u.space) none)
  ∧ (s.tlbMatch t u.space va = some (i, e) → (u.reads = true ∧ e.r = false ∨ u.writes = true ∧ e.w = false) → s.xlate t u va = .fail 0x23 (some i))
  ∧ (s.tlbMatch t u.space va = some (i, e) → permCode e (s.thr t) u = 0 → ∃ pa, s.xlate t u va = .ok pa e.kslot
      ∧ pa % 2 ^ e.size = va.toNat % 2 ^ e.size ∧ pa / 2 ^ e.size = e.ppn / 2 ^ e.size)

/-- R100, R101, R227: CUTREQ with a credit gives the ticket of its die's view of the domain; CUTWAIT ends with the status of a ticket that is
not pending; CUTSTAT gives the status at once. R227: the status of a ticket follows the four rules in order.
Model choices: log 33. -/
def Obligations.CutInstructions : Prop :=
  (∀ (s : State) (t : Tid) (d a : Rn),
    let dom := fget (s.g t a) 0 3
    (s.ready t (.cutreq t d a) = true → s.domEn dom = true → (s.thr t).c 0x388 ≠ 0 → (s.thr t).storeQ = [] → d ≠ 0 →
        answers (exec (.cutreq t d a) s) fun u => fget (u.g t d) 0 3 = dom ∧ fget (u.g t d) 3 61 = (s.view (dieOf t) dom).toNat % 2 ^ 61)
    ∧ (s.ready t (.cutwait t d a) = true → (s.running t).ticketStatus (s.g t a) ≠ 2 → answers (exec (.cutwait t d a) s) fun u =>
        s.wroteG u t d (BitVec.ofNat 64 ((s.running t).ticketStatus (s.g t a))))
    ∧ (s.ready t (.cutstat t d a) = true → answers (exec (.cutstat t d a) s) fun u =>
        s.wroteG u t d (BitVec.ofNat 64 ((s.running t).ticketStatus (s.g t a)))))
  ∧ (∀ (s : State) (d k : Nat), d < 8 → k < 2 ^ 61 →
    let tk : Word := BitVec.ofNat 64 (k * 8 + d)
    let first := s.rd (F.TDn_SPOIL_FIRST d)
    let inSpoil := first ≠ 0 ∧ first % 2 ^ 61 ≤ k ∧ (k < s.rd (F.TDn_RESUME_TAKE d) % 2 ^ 61 ∨ s.rd (F.TDn_STAT_SPOILED d) = 1)
    ((s.rd (F.TDn_CFG_EN d) = 0 ∨ s.rd (F.TDn_TAKE_OPEN d) % 2 ^ 61 < k) → s.ticketStatus tk = 3)
    ∧ (s.rd (F.TDn_CFG_EN d) = 1 → k ≤ s.rd (F.TDn_TAKE_OPEN d) % 2 ^ 61 → inSpoil → s.ticketStatus tk = 1)
    ∧ (s.rd (F.TDn_CFG_EN d) = 1 → k ≤ s.rd (F.TDn_TAKE_OPEN d) % 2 ^ 61 → ¬ inSpoil → k ≤ s.rd (F.TDn_CUT_LAST d) % 2 ^ 61 → s.ticketStatus tk = 0)
    ∧ (s.rd (F.TDn_CFG_EN d) = 1 → k ≤ s.rd (F.TDn_TAKE_OPEN d) % 2 ^ 61 → ¬ inSpoil → s.rd (F.TDn_CUT_LAST d) % 2 ^ 61 < k → s.ticketStatus tk = 2))

/-- R98, R103, R270, R271: RDSLATE and RDSLATEU give the slate and its uncertainty, 0 and all ones while UNSET; SLATEWAIT completes, or is
released, once slate - U is above its bound; WAIT goes on at once where something is pending and else suspends its thread after itself.
Model choices: log 9, 32. -/
def Obligations.SlateAndWait : Prop := ∀ (s : State) (t : Tid) (d a b : Rn) (bound : Word),
  let s1 := s.acting t (.wait t)
  let unset := s.rd F.SLATE_STAT_STATE = 0
  let now : Word := if unset then 0 else s.slate
  let U : Word := if unset then 0xFFFFFFFFFFFFFFFF else BitVec.ofNat 64 ((s.rd F.SLATE_UNC_PS + 164) / 125 + 1)
  (s.ready t (.rdslate t d) = true → answers (exec (.rdslate t d) s) fun u => s.wroteG u t d now)
  ∧ (s.ready t (.rdslateu t d b) = true → d ≠ b → answers (exec (.rdslateu t d b) s) fun u =>
      (∀ r, (u.thr t).gr r = if r = 0 then 0 else if r = b.val then U else if r = d.val then now else (s.thr t).gr r) ∧ s.retired u t)
  ∧ (s.ready t (.slatewait t d a) = true → ¬ unset → (s.g t a).toNat < now.toNat - U.toNat → answers (exec (.slatewait t d a) s) fun u =>
      s.wroteG u t d now)
  ∧ ((s.thr t).run = .slateWait d bound → s.coreOn t = true → ¬ unset → bound.toNat < now.toNat - U.toNat →
      answers (exec (.slatewaitRelease t) s) fun u => s.wroteG u t d now)
  ∧ (s.ready t (.wait t) = true → s1.wakes t = true → answers (exec (.wait t) s) fun u => s.became u t (s.thr t))
  ∧ (s.ready t (.wait t) = true → s1.wakes t = false → answers (exec (.wait t) s) fun u => (u.thr t).run = .waiting
      ∧ (u.thr t).pc = s.nextPc t ∧ s.onlyThread u t ∧ ∀ r, (u.thr t).gr r = (s.thr t).gr r)

/-- R123, R127 to R129: the vector operations lane by lane: each writes its vector or general register and does nothing else. R127, R128: REDMIN and REDMAX give the least or greatest of the selected lanes, signed or unsigned, and the largest or smallest value
of the lane type where no lane counts; in floating point NaN lanes are left out and the result goes to f[G].
Model choices: log 35. -/
def Obligations.VectorOperations : Prop :=
  (∀ (s : State) (t : Tid) (v h h2 : Fin 16) (g : Rn) (ew : Fin 4) (x : Fin 8) (pc : Fin 16),
    let n := laneN ew
    let L (r : Fin 16) (i : Nat) : Nat := lane (s.v t r) (laneW ew) i
    let G := s.g t g
    (∀ p ∈ [((Instr.vbcast t v g ew, laneW ew, n), fun _ => G.toNat % 2 ^ laneW ew),
        ((.vins t v g x, 64, 8), fun i => if i = x.val then G.toNat else lane (s.v t v) 64 i),
        ((.vmov t v h, 64, 8), fun i => lane (s.v t h) 64 i),
        ((.compress t v g h ew, laneW ew, n), fun k => match ((List.range n).filter fun i => G.getLsbD i)[k]? with | some i => L h i | none => 0),
        ((.unpack t v g h ew, laneW ew, n), fun i => (s.v t h).toNat / 2 ^ (i * (g.val + 1)) % 2 ^ (g.val + 1)),
        ((.vhash t v g h, 64, 8), fun i => (mix (G ^^^ BitVec.ofNat 64 (lane (s.v t h) 64 i))).toNat)],
      s.ready t p.1.1 = true → ∃ X : BitVec 512, (∀ i, i < p.1.2.2 → lane X p.1.2.1 i = p.2 i)
        ∧ answers (exec p.1.1 s) fun u => s.became u t ((s.thr t).setVr v.val X))
    ∧ (s.ready t (.vext t v g x) = true → answers (exec (.vext t v g x) s) fun u => s.wroteG u t g (BitVec.ofNat 64 (lane (s.v t v) 64 x.val)))
    ∧ (s.ready t (.pscan t g h h2 ew pc) = true → ∃ w : Word,
        (∀ i, i < 64 → w.getLsbD i = (decide (i < n) && predicate pc.val ew (L h i) (L h2 i) (lane ((s.thr t).vr (h2.val + 1)) (laneW ew) i)))
        ∧ answers (exec (.pscan t g h h2 ew pc) s) fun u => s.wroteG u t g w)
    ∧ (s.ready t (.vcrc t v g) = true → answers (exec (.vcrc t v g) s) fun u =>
        s.wroteG u t g ((crc32c (G.setWidth 32) (bytesOf 64 (s.v t v).toNat)).setWidth 64))
    ∧ (s.ready t (.vcnt t v g) = true → answers (exec (.vcnt t v g) s) fun u =>
        s.wroteG u t g (BitVec.ofNat 64 ((List.range 512).filter fun i => (s.v t v).getLsbD i).length)))
  ∧ (∀ (s : State) (t : Tid) (v : Fin 16) (g h : Rn) (ew : Fin 4) (x : Fin 16) (mn : Bool),
    let i : Instr := if mn then .redmin t v g h ew x else .redmax t v g h ew x
    let w := laneW ew
    let ls := ((List.range (laneN ew)).filter fun i => h.val == 0 || (s.g t h).getLsbD i).map (lane (s.v t v) w)
    s.ready t i = true →
    (x.val = 0 → ∃ m : Int, answers (exec i s) (fun u => s.wroteG u t g (BitVec.ofInt 64 m))
        ∧ (ls = [] → m = if mn then 2 ^ (w - 1) - 1 else -2 ^ (w - 1))
        ∧ (ls ≠ [] → (∃ y ∈ ls, m = laneS w y) ∧ ∀ y ∈ ls, if mn then m ≤ laneS w y else laneS w y ≤ m))
    ∧ (x.val = 1 → ∃ m : Nat, answers (exec i s) (fun u => s.wroteG u t g (BitVec.ofNat 64 m))
        ∧ (ls = [] → m = if mn then 2 ^ w - 1 else 0) ∧ (ls ≠ [] → m ∈ ls ∧ ∀ y ∈ ls, if mn then m ≤ y else y ≤ m))
    ∧ (2 ≤ x.val → ∃ m : Nat, answers (exec i s) (fun u => s.wroteF u t g (BitVec.ofNat 64 m))
        ∧ (m ∈ ls ∧ ((laneFmt ew).unpack m).isNan = false ∨ m = (laneFmt ew).infBits (!mn))))

/-- R125, R130: a stream operation whose range is canonical, aligned and within one 4 KiB block, and whose bytes are in the thread's own local
store with no store to them waiting, writes its vector register from them, and the general register that its row names; SACCADD adds the image
to its accumulator (R133). Model choices: log 35, 36. -/
def Obligations.StreamOperations : Prop := ∀ (s : State) (t : Tid) (v : Fin 16) (g h : Rn) (ew : Fin 4) (x : Fin 16) (post : Bool) (acc : Fin 4)
    (pa ks : Nat) (bs : List Byte),
  let n := 2 ^ ew.val
  let m := ofBytes bs
  let w := laneW ew
  let y := s.thr t
  let streams (i : Instr) (va : Word) (len align : Nat) : Prop := s.ready t i = true ∧ canonical va = true ∧ va.toNat % align = 0
    ∧ va.toNat % 4096 + len ≤ 4096 ∧ (s.acting t i).xlate t .load va = .ok pa ks ∧ bs.length = len ∧ s.ownBytes t pa bs ∧ s.noStore t pa len
  (streams (.sload t v g post) (s.g t g) 64 1 → answers (exec (.sload t v g post) s) fun u =>
      let z := y.setVr v.val (BitVec.ofNat 512 m)
      s.became u t (if post then z.setGr g.val (s.g t g + 64) else z))
  ∧ (streams (.sscan t v g h ew x) (s.g t g) (512 * n) n → ∃ X : BitVec 512,
      (∀ i, i < 512 → X.getLsbD i = predicate x.val ew (m / 2 ^ (w * i) % 2 ^ w) ((s.g t h).toNat % 2 ^ w) ((y.gr (h.val + 1)).toNat % 2 ^ w))
      ∧ answers (exec (.sscan t v g h ew x) s) fun u => s.became u t (y.setVr v.val X))
  ∧ (streams (.sgather t v g h ew x) (block4k (s.g t g)) 4096 1 →
      let left := (List.range 512).filter fun i => decide ((s.g t h).toNat ≤ i) && (s.v t x).getLsbD i
      answers (exec (.sgather t v g h ew x) s) fun u => s.retired u t
        ∧ (∀ k, k < laneN ew → match left[k]? with
          | some i => (s.g t g).toNat % 4096 + i * n + n ≤ 4096 → lane (u.v t v) w k = m / 2 ^ (8 * ((s.g t g).toNat % 4096 + i * n)) % 2 ^ w
          | none => lane (u.v t v) w k = 0)
        ∧ (∀ r, r ≠ v → u.v t r = s.v t r) ∧ ∀ r, (u.thr t).gr r = if r = h.val ∧ r ≠ 0 then
          (if left.length ≤ laneN ew then 512 else BitVec.ofNat 64 (left.getD (laneN ew - 1) 0 + 1)) else y.gr r)
  ∧ (streams (.sdict t v g h ew x) (block4k (s.g t g)) 4096 1 → ∃ (X : BitVec 512) (G : Word),
      (∀ i, i < laneN ew → let o := (s.g t g).toNat % 4096 + lane (s.v t x) 32 i * n
        lane X w i = (if o + n ≤ 4096 then m / 2 ^ (8 * o) % 2 ^ w else 0) ∧ G.getLsbD i = decide (4096 < o + n))
      ∧ answers (exec (.sdict t v g h ew x) s) fun u => s.became u t ((y.setVr v.val X).setGr h.val G))
  ∧ (streams (.saccadd t acc g) (s.g t g) 576 64 → answers (exec (.saccadd t acc g) s) fun u =>
      let a := SumAcc.ofImage bs
      let b := s.ac t acc
      let c : SumAcc := { fx := b.fx + a.fx, pinf := b.pinf || a.pinf, ninf := b.ninf || a.ninf, nan := b.nan || a.nan, int := b.int + a.int }
      s.became u t { y with acc := SMap.put y.acc acc.val c })

/-- R131 to R133: the accumulator operations: AADDF adds each selected lane, and AMACF each product, to FX exactly with weight 2^-2148, or
sets its flag; AADDI and ACNT add to the integer lane; the readouts leave the accumulators as they are. -/
def Obligations.AccumulatorOperations : Prop := ∀ (s : State) (t : Tid) (acc : Fin 4) (v : Fin 16) (g : Rn) (ty : Fin 4) (x : BitVec 7) (hi : Bool),
  let A := s.ac t acc
  let w := laneW ty
  let sel (n : Nat) : List Nat := (List.range n).filter fun i => g.val == 0 || (x.toNat % 64 + i ≤ 63 && (s.g t g).getLsbD (x.toNat % 64 + i))
  let val (i : Nat) : Int := if x.getLsbD 6 then lane (s.v t v) w i else laneS w (lane (s.v t v) w i)
  let image : Nat := A.fx.toNat + (b2n A.pinf + 2 * b2n A.ninf + 4 * b2n A.nan) * 2 ^ 4224 + A.int.toNat * 2 ^ 4288
  let put (a : SumAcc) : Thread := { s.thr t with acc := SMap.put (s.thr t).acc acc.val a }
  let scaled (f : Fv) : Int := match f with | .fin neg m e => sgn neg m * 2 ^ (e + 2148).toNat | _ => 0
  (∀ p ∈ [(Instr.aclr t acc, SumAcc.zero),
      (.aaddi t acc v g ty x, { A with int := A.int + BitVec.ofInt 128 ((sel (laneN ty)).map val).sum }),
      (.acnt t acc v, { A with int := A.int + BitVec.ofNat 128 ((List.range 512).filter fun i => (s.v t v).getLsbD i).length })],
    s.ready t p.1 = true → answers (exec p.1 s) fun u => s.became u t (put p.2))
  ∧ (∀ p ∈ [(Instr.aaddf t acc v g ty x, fun i => (accFmt ty).unpack (lane (s.v t v) (accW ty) i)),
      (.amacf t acc v g ty x, fun i => ((accFmt ty).unpack (lane (s.v t v) (accW ty) i)).times
        ((accFmt ty).unpack (lane ((s.thr t).vr (v.val + 1)) (accW ty) i)))],
    s.ready t p.1 = true →
      let fs := (sel (512 / accW ty)).map p.2
      answers (exec p.1 s) fun u => s.became u t (put { A with
        fx := A.fx + BitVec.ofInt 4224 (fs.map scaled).sum, nan := A.nan || fs.any Fv.isNan,
        pinf := A.pinf || fs.any (fun f => match f with | .inf neg => !neg | _ => false),
        ninf := A.ninf || fs.any (fun f => match f with | .inf neg => neg | _ => false) }))
  ∧ (∀ p ∈ [(Instr.ardi t acc g hi, if hi then 68 else 67), (.ardw t acc g x, x.toNat)],
    s.ready t p.1 = true → answers (exec p.1 s) fun u => s.wroteG u t g (BitVec.ofNat 64 (image / 2 ^ (64 * p.2))))
  ∧ (s.ready t (.awrw t acc g x) = true → ∃ a : SumAcc, answers (exec (.awrw t acc g x) s) (fun u => s.became u t (put a))
      ∧ (x.toNat < 66 → a.dw x.toNat = s.g t g) ∧ (69 ≤ x.toNat → a = A) ∧ ∀ y, y < 69 → y ≠ x.toNat → a.dw y = A.dw y)

/-- R134, with no trap enabled or none that the flags would raise: ARDF rounds once, to nearest-even whatever FCSR.RM holds: an accumulator with NAN, or with both PINF and NINF, gives the default
NaN with NV; PINF alone plus and NINF alone minus infinity; FX = 0 gives +0; else FX, of weight 2^-2148, rounded to binary64 with its flags. -/
def Obligations.AccumulatorReadout : Prop := ∀ (s : State) (t : Tid) (acc : Fin 4) (g : Rn),
  let A := s.ac t acc
  let NV : Nat := 64
  let r : Nat × Nat := if A.nan = true ∨ (A.pinf = true ∧ A.ninf = true) then (0x7FF8000000000000, NV)
    else if A.pinf = true then (0x7FF0000000000000, 0) else if A.ninf = true then (0xFFF0000000000000, 0)
    else if A.fx = 0 then (0, 0) else fmt64.roundInt 0 A.fx.toInt (-2148) false
  s.ready t (.ardf t acc g) = true → (fget ((s.thr t).c 1) 5 7 = 0 ∨ fget ((s.thr t).c 1) 5 7 &&& r.2 = 0) → answers (exec (.ardf t acc g) s) fun u =>
    u.f t g = BitVec.ofNat 64 r.1 ∧ (u.thr t).c 1 = (s.thr t).c 1 ||| BitVec.ofNat 64 r.2 ∧ s.retired u t ∧ s.onlyThread u t
      ∧ u.ac t acc = A ∧ (∀ y, (u.thr t).gr y = (s.thr t).gr y) ∧ (∀ y, y ≠ g.val → (u.thr t).fr y = (s.thr t).fr y)
      ∧ ∀ n, n ≠ 1 → isPmc n = false → (u.thr t).c n = (s.thr t).c n

/-- R93, R213: IOLD of a package register writes what the register reads to g[d], after the die has been promoted; IOST waits until the
thread's stores are visible, writes the register at the level of its thread and retires. Stated also for one register, THR_PC, which IOLD
reads and IOST at M writes, and for an IOST that retires whatever it writes. Model choices: log 57. -/
def Obligations.IoAccesses : Prop := ∀ (s : State) (t : Tid) (d a : Rn) (k : Fin 16) (disp : BitVec 11) (pa ks : Nat) (c : DieNo),
  let n := szOf k.val
  let ea := s.g t a + disp.signExtend 64 * BitVec.ofNat 64 n
  let ld := Instr.iold t d a k disp
  let st := Instr.iost t d a k disp
  let s1 := s.acting t ld
  let s2 := s.acting t st
  (s.ready t ld = true → s1.addr t .iold ea n true = .ok pa ks → s1.ioAt pa = .reg →
      let v := s1.regRead (pa / 8 * 8)
      exec ld s = .next (((v.2.promote (dieOf t)).loadTo t d k.val (bytesOf n (v.1.toNat / 2 ^ (8 * (pa % 8))))).ends t (s.thr t).pc ld))
  ∧ (s.ready t ld = true → s1.addr t .iold ea n true = .ok (A.THR_PC c.val) ks → k.val = 6 → d.val ≠ 0 →
      answers (exec ld s) fun u => s.retired u t ∧ u.g t d = s.rdw (A.THR_PC c.val))
  ∧ (s.ready t st = true → s2.addr t .iost ea n true = .ok pa ks → (s.thr t).storeQ = [] →
      let z := s2.ioWrite (some t.val) (s2.thr t).pl pa n (BitVec.ofNat 64 (ofBytes (bytesOf n (s.g t d).toNat)))
      (z.thr t).run ≠ .halted → exec st s = .next (z.ends t (s.thr t).pc st))
  ∧ (s.ready t st = true → s2.addr t .iost ea n true = .ok (A.THR_PC c.val) ks → (s.thr t).storeQ = [] → k.val = 6 → fget ((s.thr t).c 0) 0 2 = 3 →
      answers (exec st s) fun u => s.retired u t ∧ u.rdw (A.THR_PC c.val) = s.g t d
        ∧ (∀ b, b ≠ A.THR_PC c.val → b ≠ s.cluClk t → u.rdw b = s.rdw b) ∧ u.mem = s.mem ∧ ∀ r, (u.thr t).gr r = (s.thr t).gr r)

/-- R190, R191, R193 to R195: what the home does on a request that its agent has a credit for: it grants a free line, or the line of a
holder that is alone, with DAT and a GO; it snoops the forwarder or every other holder and waits; a request for a line in transaction
waits behind it. Model choices: log 5, 14, 66. -/
def Obligations.CoherenceRequests : Prop := ∀ (s : State) (a : Agent) (line pa size : Nat) (x : HomeTxn),
  let r := s.line line
  let others := r.holders.filter fun h => h != a
  let granted (u : State) (ks : List MsgKind) : Prop := (u.line line).dir = .owned ∧ (u.line line).present a = true
    ∧ (u.line line).txn = none ∧ s.sent u (ks.map fun k => (k, a, line))
  let waits (u : State) (q : HomeReq) (k : MsgKind) (as : List Agent) : Prop := (u.line line).txn = some ⟨q, as, [], false⟩
    ∧ (u.line line).dir = r.dir ∧ s.sent u (as.map fun h => (k, h, line))
  let asks : Prop := ∀ d, agentDie a = some d → SMap.find? r.evict d = none
    ∧ (s.demand d line = true ∨ l2MissRoom (SMap.get [] s.miss (s.prefetcher d)) 5 = true)
  let miss : Prop := asks ∧ ∀ d, agentDie a = some d → r.stOf d = .i
  s.hears a = true → s.reaches a = true → s.hasCredit a = true → a ≠ .hub → s.homedHere (line * 64) = true →
  s.cacheable (line * 64) = true →
  (miss → r.txn = some x → ∀ p ∈ [(Instr.rdS a line none, HomeReq.rdS a), (.rdX a line none, .rdX a), (.upg a line none, .upg a)],
      answers (exec p.1 s) fun u => (u.line line).queue = r.queue ++ [p.2] ∧ s.sent u [])
  ∧ (miss → r.txn = none → r.queue = [] → r.dir = .free → s.dirFull line = false → answers (exec (.rdS a line none) s) fun u => granted u [.dat false, .goE])
  ∧ (miss → r.txn = none → r.queue = [] → r.dir = .owned → answers (exec (.rdS a line none) s) fun u => waits u (.rdS a) .snpS others)
  ∧ (miss → r.txn = none → r.queue = [] → r.dir = .shared → answers (exec (.rdS a line none) s) fun u => match r.fh, agentDie a with
      | some f, some _ => waits u (.rdS a) .snpS [.die (Fin.ofNat 12 f)]
      | some f, none => waits u (.rdS a) .snpCur [.die (Fin.ofNat 12 f)]
      | none, some d => (u.line line).fh = some d ∧ (u.line line).present a = true ∧ s.sent u [(.dat false, a, line), (.goF, a, line)]
      | none, none => (u.line line).present a = true ∧ s.sent u [(.dat false, a, line), (.goS, a, line)])
  ∧ (miss → r.txn = none → r.queue = [] → s.dirFull line = false → answers (exec (.rdX a line none) s) fun u =>
      if others = [] then granted u [.dat false, .goE] else waits u (.rdX a) .snpX others)
  ∧ (asks → r.txn = none → r.queue = [] → r.dir = .shared → r.present a = true → (∀ d, agentDie a = some d → r.stOf d ≠ .m ∧ r.stOf d ≠ .e) →
      answers (exec (.upg a line none) s) fun u => if others = [] then granted u [.goE] else waits u (.upg a) .snpX others)
  ∧ (s.cacheable pa = true → s.homedHere pa = true → s.lsOf pa = none → pa / 64 = line → r.txn = none → r.queue = [] → answers (exec (.rdNc a pa size) s) fun u =>
      match r.dir, r.holders with
      | .owned, o :: _ => waits u (.cur a) .snpCur [o]
      | _, _ => (u.line line).dir = r.dir ∧ s.sent u [(.dat false, a, line), (.goNc, a, line)])

/-- R187, R195, R421: an uncached write or a local-store access passes through the H-die to the store's die, a write leaves its bytes in the
store, and a completion goes to the requester; a store whose die is not RUNNING answers at once, and a package's write does not reach it.
Model choices: log 6. -/
def Obligations.UncachedAccesses : Prop := ∀ (s : State) (a : DieNo) (p : Fin 16) (view : ViewAgent) (d : DieNo) (pa size x o : Nat) (data : List Byte) (m : Msg),
  let stored (u : State) : Prop := u.mem.dev = s.mem.dev
    ∧ (∀ i, i < data.length → SMap.find? u.mem.ls (x * lsSize + o + i) = some (data.getD i 0))
    ∧ ∀ i, i < x * lsSize + o ∨ x * lsSize + o + data.length ≤ i → SMap.find? u.mem.ls i = SMap.find? s.mem.ls i
  let at_ (q : Nat) : Agent := .die (Fin.ofNat 12 q)
  (s.lsOf pa = some (x, o) →
    (s.dieRunning a = true → s.linked a = true → s.dieRunning x = true → data.length ≤ 64 - pa % 64 →
      answers (exec (.wrNc (.die a) view pa data) s) fun u => stored u ∧ s.sent u [(.goNc, .die a, pa / 64)])
    ∧ (s.member p = true →
      answers (exec (.wrNc (.pkg p) view pa data) s) fun u => u.mem = s.mem ∧ s.sent u [(.goNc, .pkg p, pa / 64)])
    ∧ (s.dieRunning d = true → s.linked d = true → s.dieRunning x = true →
      answers (exec (.lsr d pa size) s) (fun u => u.mem = s.mem
        ∧ u.msgs = s.msgs ++ [⟨.snpLsr, at_ x, pa, s.marks (at_ x), d, List.replicate size 0, false, true⟩])
      ∧ answers (exec (.lsw d pa data) s) fun u => u.mem = s.mem
        ∧ u.msgs = s.msgs ++ [⟨.snpLsw, at_ x, pa, s.marks (at_ x), d, data, false, true⟩])
    ∧ (s.dieRunning d = true → s.linked d = true → s.dieRunning x = false →
      answers (exec (.lsr d pa size) s) (fun u => s.sent u [(.dat false, .die d, pa / 64), (.goNc, .die d, pa / 64)] ∧ u.mem = s.mem)
      ∧ answers (exec (.lsw d pa data) s) fun u => s.sent u [(.goNc, .die d, pa / 64)] ∧ u.mem = s.mem)
    ∧ (s.lsMsg .snpLsw d pa (fun b => b == data) = some m → s.dieRunning x = true →
      answers (exec (.snpLsw d pa data) s) fun u => stored u
        ∧ State.sent { s with msgs := s.msgs.erase m } u [(.goNc, at_ m.req, pa / 64)])
    ∧ (s.lsMsg .snpLsr d pa (fun b => b.length == size) = some m → answers (exec (.snpLsr d pa size) s) fun u => u.mem = s.mem
      ∧ State.sent { s with msgs := s.msgs.erase m } u [(.dat false, at_ m.req, pa / 64), (.goNc, at_ m.req, pa / 64)]))
  ∧ ((∃ m ∈ s.msgs, m.kind = .goNc ∧ m.agent = .die d) → s.dieRunning d = true → s.linked d = true → answers (exec (.goNc d) s) fun u => u.msgs.length + 1 = s.msgs.length
      ∧ u.lines = s.lines ∧ u.mem = s.mem)

/-- R190, R193, R195, R198, R200, R201: a die answers a snoop by its state, which becomes what the table says, or with RSP_EVX for a line in
its eviction buffer, or lets it wait; the last answer to an RD_X makes its requester the sole owner.
Model choices: log 5. -/
def Obligations.SnoopsAndAnswers : Prop := ∀ (s : State) (d : DieNo) (line : Nat) (b : Agent) (dirty : Bool),
  let r := s.line line
  let x := r.stOf d
  let me : Agent := .die d
  let data : MsgKind := match x with | .m => .fwd true | .e => .fwd false | .f => .fwd false | .s => .rspS | .i => .rspI
  let gone : MsgKind := match x with | .m => .fwd true | .e => .fwd false | .f => .fwd false | _ => .rspI
  s.dieRunning d = true → s.linked d = true → s.homedHere (line * 64) = true →
  (∀ p ∈ [(Instr.snpS d line, MsgKind.snpS, if x = .i then LineSt.i else .s, data), (.snpX d line, .snpX, .i, gone),
      (.snpCur d line, .snpCur, x, data), (.snpBinv d line, .snpBinv, .i, if x = .m then .wbd else .rspI)],
    s.hasMsg p.2.1 me line = true →
      (r.snoopWaits d = true → exec p.1 s = .next s)
      ∧ (r.snoopWaits d = false → SMap.find? r.evict d = none → answers (exec p.1 s) fun u => (u.line line).stOf d = p.2.2.1
          ∧ u.hasMsg p.2.2.2 me line = true ∧ (∀ e, e ≠ d.val → (u.line line).stOf e = r.stOf e) ∧ (∀ l, l ≠ line → u.line l = s.line l)
          ∧ u.mem = s.mem)
      ∧ (r.snoopWaits d = false → SMap.find? r.evict d ≠ none → answers (exec p.1 s) fun u => u.line line = r
          ∧ u.hasMsg .rspEvx me line = true ∧ u.mem = s.mem))
  ∧ (r.txn = some ⟨.rdX b, [me], [], false⟩ → b ≠ .hub → r.queue = [] → (∀ c ∈ r.evict, c.2.consumed = false) →
      (∀ m ∈ s.msgs, m.agent = b → m.line = line → m.nc = false → m.kind.ordered = false) →
      (∀ p ∈ [(Instr.rspI me line, MsgKind.rspI, false), (.rspS me line, .rspS, false), (.fwd me line dirty ⟨none, none⟩, .fwd dirty, dirty)],
        s.hasMsg p.2.1 me line = true → answers (exec p.1 s) fun u => (u.line line).txn = none ∧ (u.line line).dir = .owned
          ∧ (u.line line).holders = [b] ∧ u.hasMsg (.dat p.2.2) b line = true ∧ u.hasMsg .goE b line = true)
      ∧ (s.hasMsg .rspEvx me line = true → answers (exec (.rspEvx me line) s) fun u =>
        (u.line line).txn = some ⟨.rdX b, [], [me], false⟩ ∧ (u.line line).dir = r.dir))

/-- R190, R195, R197, R198, R200 to R202: a miss completes with its GO and DAT, dirty data making an E grant M, and the hold window of a line
that a thread waits for begins; a held copy needs no DAT; a victim leaves the die, dirty data of an uncut take being held at its home,
and EVA frees the buffer. Model choices: log 5, 14. -/
def Obligations.GrantsAndEvictions : Prop := ∀ (s : State) (d : DieNo) (line : Nat) (dirty : Bool) (g : LineSt) (v : LineData),
  let r := s.line line
  let me : Agent := .die d
  let held (u : State) : Prop := s.demand d line = true → d.val ∈ (u.line line).hold
  let filled (u : State) (x : LineSt) : Prop := (u.line line).stOf d = x ∧ held u
    ∧ SMap.find? (u.line line).gotGo d = none ∧ SMap.find? (u.line line).gotDat d = none ∧ u.mem = s.mem
  s.dieRunning d = true → s.linked d = true → s.homedHere (line * 64) = true → r.queue = [] →
  (∀ p ∈ [(Instr.goE d line, MsgKind.goE, LineSt.e), (.goF d line, .goF, .f), (.goS d line, .goS, .s)],
    s.hasMsg p.2.1 me line = true → (p.2.2 = .e → r.stOf d = .i) →
      (SMap.find? r.gotDat d = some dirty → r.pd = false → answers (exec p.1 s) fun u => filled u (if p.2.2 = .e && dirty then .m else p.2.2))
      ∧ (SMap.find? r.gotDat d = none → answers (exec p.1 s) fun u => SMap.find? (u.line line).gotGo d = some p.2.2 ∧ (u.line line).st = r.st))
  ∧ (s.hasMsg .goE me line = true → r.stOf d = .s ∨ r.stOf d = .f → answers (exec (.goE d line) s) fun u => (u.line line).stOf d = .m
      ∧ held u)
  ∧ (s.hasMsg (.dat dirty) me line = true →
      (SMap.find? r.gotGo d = some g → r.pd = false → answers (exec (.dat d line dirty) s) fun u => filled u (if g = .e && dirty then .m else g))
      ∧ (SMap.find? r.gotGo d = none → answers (exec (.dat d line dirty) s) fun u => SMap.find? (u.line line).gotDat d = some dirty
          ∧ (u.line line).st = r.st))
  ∧ answers (exec (.holdWindowEnd d line) s) (fun u => d.val ∉ (u.line line).hold ∧ (u.line line).st = r.st ∧ s.sent u [])
  ∧ (s.hasMsg .eva me line = true → answers (exec (.eva d line) s) fun u => SMap.find? (u.line line).evict d = none ∧ (u.line line).st = r.st)
  ∧ (∀ p ∈ [(Instr.wbd me line ⟨none, none⟩, [LineSt.m]), (.evc me line, [.e, .f, .s])],
      r.stOf d ∈ p.2 → d.val ∉ r.undoP → s.evictCount d < 64 → r.txn = none → s.hasMsg .wbd me line = false →
      (∀ m ∈ s.msgs, m.agent = me → m.line = line → m.nc = false → m.kind.ordered = false) →
      answers (exec p.1 s) fun u => (u.line line).stOf d = .i ∧ (u.line line).present me = false ∧ u.hasMsg .eva me line = true
        ∧ (p.2 = [.m] → r.data = some v → r.pd = true → (∀ k, s.domOf (line * 64) = some k → s.rolling k = false) →
          s.persisted < s.accepted → (∀ h ∈ s.mem.held, s.persisted < h.mark) → ∃ h, u.heldOf line = some h ∧ h.data = v))

/-- R212, R213, R217 to R220, R224, R225, R237: undo entries, write-backs and views: the controller numbers an entry it accepts and answers
UNDO_ACC; a home holds an SWB; an agent advances and answers; the last answer starts the sweep; a sweep leaves no line of the cutting take
in its structure and a purge none of the domain; the last answers start step 4, or discard the domain's held writes.
Model choices: log 7. -/
def Obligations.UndoAndSweep : Prop := ∀ (s : State) (die : DieNo) (q : Fin 16) (dom : Dom) (e : UndoEntry) (line : Nat) (a : ViewAgent) (c : Fin 60)
    (m : SwbOut),
  let d := dom.val
  let speaks : Prop := s.dieRunning die = true ∧ s.linked die = true
  let x := s.dom d
  let dies := (List.range 12).filter s.dieRunning
  let par := s.openTake d % 2 == 0
  let mine (l : Nat × LineRec) : Prop := l.2.dirtyIn d par = true ∧ l.2.stOf (c.val / 5) ≠ .i ∧ s.l2Holds c.val l.1 = true
  (speaks → (die.val, e) ∈ s.undoOut → (s.swbOut.any fun w => w.line == e.line && !w.sent) = false → s.homedHere (e.line * 64) = true →
      s.undoRoom e.dom e.take = true →
      answers (exec (.undo (.die die) e) s) fun u => u.accepted = s.accepted + 1 ∧ u.hasMsg .undoAcc (.die die) e.line = true)
  ∧ (speaks → (die.val, e) ∈ s.undoOut → (s.swbOut.any fun w => w.line == e.line && !w.sent) = false → s.homedHere (e.line * 64) = false →
      answers (exec (.undo (.die die) e) s) fun u => u.accepted = s.accepted ∧ u.undoOut = s.undoOut.erase (die.val, e))
  ∧ (speaks → s.homedHere (e.line * 64) = true → s.undoRoom e.dom e.take = false → exec (.undo (.die die) e) s = .next s)
  ∧ (s.member q = true → s.spansHere e.dom e.line = true → s.undoRoom e.dom e.take = true →
      answers (exec (.undo (.pkg q) e) s) fun u => u.accepted = s.accepted + 1 ∧ u.hasMsg .undoAcc (.pkg q) e.line = true)
  ∧ (speaks → s.hasMsg .undoAcc (.die die) line = true → (s.line line).queue = [] →
      answers (exec (.undoAcc die line) s) fun u => (u.line line).undoP = (s.line line).undoP.erase die.val)
  ∧ (speaks → List.find? (fun w => w.die == die.val && w.dom == d && w.line == line && !w.sent) s.swbOut = some m →
      s.homedHere (line * 64) = true →
      answers (exec (.swb (.die die) dom ⟨line, none⟩) s) fun u => u.swbOut = s.swbOut.erase m ∧ u.hasMsg .swbAcc (.die die) line = true
        ∧ (s.rolling d = true → u.mem = s.mem)
        ∧ (s.rolling d = false → s.persisted < s.accepted → (∀ h ∈ s.mem.held, s.persisted < h.mark) →
          ∃ h, u.heldOf line = some h ∧ h.data = m.data ∧ h.poison = m.poison ∧ h.kslot = m.kslot))
  ∧ (speaks → s.homedHere (line * 64) = true → s.hasMsg .swbAcc (.die die) line = true → answers (exec (.swbAcc die line) s) fun u => u.msgs.length + 1 = s.msgs.length ∧ u.mem = s.mem)
  ∧ (a.val ∈ x.acks → answers (exec (.advance a dom) s) fun u => u.view a d = BitVec.ofNat 64 (s.openTake d)
      ∧ ∀ b k, b < 52 → k < 8 → (b, k) ≠ (a.val, d) → u.view b k = s.view b k)
  ∧ (x.acks = [a.val] → x.step = .advance → (s.view a d).toNat = s.openTake d → s.writing a d = false → answers (exec (.advAck a dom) s) fun u =>
      (u.dom d).acks = [] ∧ (u.dom d).step = .sweep ∧ (u.dom d).l2Left = dies.flatMap (fun y => (List.range 5).map fun k => 5 * y + k)
        ∧ (u.dom d).l3Left = dies.flatMap fun y => (List.range 16).map fun k => 16 * y + k)
  ∧ (x.step = .sweep → c.val ∈ x.l2Left → c.val ∉ x.did → (∀ l ∈ s.lines, mine l → c.val / 5 ∉ l.2.undoP) →
      answers (exec (.sweep (.l2 c) dom) s) fun u => c.val ∈ (u.dom d).did ∧ ∀ l ∈ s.lines, mine l →
        (u.line l.1).pd = false ∧ (u.line l.1).stOf (c.val / 5) ≠ .m ∧ ∃ w ∈ u.swbOut, w.line = l.1 ∧ w.die = c.val / 5 ∧ w.dom = d)
  ∧ (x.step = .sweep → x.did = [c.val] → x.l2Left = [c.val] → x.l3Left = [] → x.pkgLeft = [] → s.rd (F.TDn_CFG_SPAN d) = 0 →
      s.rd (F.TDn_STAT_CUTTING d) = 1 → (s.swbOut.any fun w => w.die == c.val / 5 && w.dom == d) = false →
      answers (exec (.swept (.l2 c) dom) s) fun u => (u.dom d).l2Left = [] ∧ ((u.dom d).step = .marker ∨ (u.dom d).step = .record))
  ∧ (s.rolling d = true → c.val ∈ x.purgeL2 → c.val ∉ x.did → answers (exec (.purge (.l2 c) dom) s) fun u => c.val ∈ (u.dom d).did
      ∧ ∀ l ∈ s.lines, s.domOf (l.1 * 64) = some d → s.l2Holds c.val l.1 = true → (u.line l.1).stOf (c.val / 5) = .i ∧ (u.line l.1).pd = false)
  ∧ (s.rolling d = true → x.did = [c.val] → x.purgeL2 = [c.val] → x.purgeL3 = [] → x.rollRun = false →
      answers (exec (.purged (.l2 c) dom) s) fun u => (u.dom d).purgeL2 = [] ∧ (u.dom d).rollRun = true ∧ ∀ h ∈ u.mem.held, h.dom ≠ d)

/-- R223, R224, R234 to R238: a trigger opens the next take and starts the cut, waits as PENDING for one that runs, and does nothing while the
domain is spoiled or rolling back; the group messages move the two phases on; a spoiled domain's cut is abandoned.
Model choices: log 18. -/
def Obligations.CutsAndGroups : Prop := ∀ (s : State) (dom : Dom) (p : Fin 16) (take : Word) (seq : BitVec 32),
  let d := dom.val
  let x := s.dom d
  let dies := (List.range 12).filter s.dieRunning
  let started (u : State) : Prop := u.rd (F.TDn_TAKE_OPEN d) = (s.openTake d + 1) % 2 ^ 64 ∧ u.rd (F.TDn_STAT_CUTTING d) = 1
    ∧ u.rd (F.TDn_STAT_PENDING d) = 0 ∧ (u.dom d).step = .advance ∧ (u.dom d).acks = s.viewAgents
  let spoilt (u : State) : Prop := u.rd (F.TDn_STAT_SPOILED d) = 1 ∧ u.rd (F.TDn_STAT_CUTTING d) = 0 ∧ u.rd (F.TDn_STAT_PENDING d) = 0
    ∧ u.rd (F.TDn_SPOIL_FIRST d) = (if s.spoiled d then s.rd (F.TDn_SPOIL_FIRST d) else (s.cutTake d + 1) % 2 ^ 64)
    ∧ (u.dom d).step = .idle ∧ (u.dom d).tickets = []
  s.domEn d = true → s.works = true →
  (∀ i ∈ [(Instr.tdCmdCut dom, s.follows d = false), (.cutPeriodExpiry dom, s.follows d = false ∧ s.rd (F.TDn_CFG_PERIOD d) ≠ 0 ∧ x.openUndo = true),
      (.cutTriggerForward p dom, s.leads d = true ∧ s.member p = true)], i.2 →
    (s.spoiled d = true ∨ s.rolling d = true → exec i.1 s = .next s)
    ∧ (s.spoiled d = false → s.rolling d = false → s.rd (F.TDn_STAT_CUTTING d) = 1 → exec i.1 s = .next (s.wr (F.TDn_STAT_PENDING d) 1))
    ∧ (s.spoiled d = false → s.rolling d = false → s.rd (F.TDn_STAT_CUTTING d) = 0 → answers (exec i.1 s) started))
  ∧ (s.follows d = true → x.step = .idle → s.spoiled d = false → s.rolling d = false → s.openTake d = take.toNat →
      answers (exec (.gAdvance dom take) s) started)
  ∧ (s.leads d = true → p.val ∈ x.pkgLeft → answers (exec (.groupCutTimeout p dom) s) spoilt)
  ∧ (s.follows d = true → answers (exec (.domainSpoilForward dom) s) spoilt)
  ∧ ((∃ b ∈ x.blocksOut, b.seq = seq.toNat) → answers (exec (.reelBlockError dom seq) s) spoilt)
  ∧ (s.follows d = true → exec (.tdCmdRollback dom) s = .next s)
  ∧ (∀ i ∈ [(Instr.tdCmdRollback dom, s.follows d = false), (.rollbackForward dom, s.follows d = true)], i.2 →
    (s.spoiled d = false → exec i.1 s = .next s)
    ∧ (s.spoiled d = true → s.rolling d = false → answers (exec i.1 s) fun u => u.rd (F.TDn_STAT_ROLLING d) = 1
      ∧ (u.dom d).purgeL2 = dies.flatMap (fun y => (List.range 5).map fun k => 5 * y + k)
      ∧ (u.dom d).purgeL3 = dies.flatMap fun y => (List.range 16).map fun k => 16 * y + k))
  ∧ (s.leads d = true → p.val ∈ x.pkgLeft → x.step = .sweep → answers (exec (.gSwept p dom) s) fun u =>
      (u.dom d).pkgLeft = x.pkgLeft.filter (fun y => y != p.val) ∧ (u.dom d).step = .sweep)
  ∧ (s.leads d = true → x.pkgLeft = [p.val] → x.step = .gWaitSwept → s.others ≠ [] → answers (exec (.gSwept p dom) s) fun u =>
      (u.dom d).pkgLeft = s.others ∧ (u.dom d).step = .marker)
  ∧ (s.follows d = true → x.step = .gSwept → s.openTake d = take.toNat + 1 → answers (exec (.gPrepare dom take) s) fun u =>
      (u.dom d).step = .marker ∨ (u.dom d).step = .gPrepare)
  ∧ (s.leads d = true → x.pkgLeft = [p.val] → x.step = .marker → s.markerDone d = true → s.rd (F.TDn_STAT_CUTTING d) = 1 →
      answers (exec (.gPrepared p dom) s) fun u =>
      (u.dom d).step = .record ∧ ∃ b ∈ (u.dom d).blocksOut, b.kind = .cut ∧ b.take = s.openTake d - 1)
  ∧ (s.follows d = true → x.step = .gPrepared → s.openTake d = take.toNat + 1 → answers (exec (.gCommit dom take) s) fun u =>
      (u.dom d).step = .gCommit ∧ ∃ b ∈ (u.dom d).blocksOut, b.kind = .commit ∧ b.take = take.toNat)

/-- R208 to R210, R219, R224, R237, R302: a block whose write completes lies in the reel; a marker is answered once its port has completed
what came before; the persistent cut record makes its take the last cut; the end of a rollback opens the resume take; a domain or a
second segment comes to exist only when its reel validates. Model choices: log 15, 19. -/
def Obligations.RecordsAndDomains : Prop := ∀ (s : State) (dom : Dom) (seq : BitVec 32) (b : ReelBlock) (rest : List ReelBlock) (port p : Fin 16)
    (mk : Nat × Nat) (val : Word),
  let d := dom.val
  let x := s.dom d
  let cfg := fldsWrite D.TDn_CFG.flds (s.rdw (A.TDn_CFG d)) val (BitVec.allOnes 64) (s.flag F.TK_LOCK_LOCK)
  let s1 := s.wrw (A.TDn_CFG d) (setBit cfg 0 false)
  let seg := fldsWrite D.TDn_SEG1.flds (s.rdw (A.TDn_SEG1 d)) val (BitVec.allOnes 64) false
  let s2 := s.wrw (A.TDn_SEG1 d) (setBit seg 11 false)
  (List.find? (fun r => r.seq == seq.toNat) x.blocksOut = some b → x.mayPersist b = true → b.kind ≠ .cut → (∀ l ∈ s.lines, l.2.queue = []) →
      answers (exec (.reelBlockPersist dom seq) s) fun u => b ∈ (u.dom d).reel
        ∧ (b.kind = .prepare → x.step = .gPrepare → s.follows d = true → (u.dom d).step = .gPrepared)
        ∧ (b.kind = .commit → x.step = .gCommit → s.follows d = true → u.rd (F.TDn_CUT_LAST d) = b.take % 2 ^ 64))
  ∧ (List.find? (fun m => m.1 == port.val) x.portsLeft = some mk → x.step = .marker →
      (s.markerMet port mk.2 d = true → answers (exec (.persistenceMarkerDone port dom) s) fun u =>
        (u.dom d).portsLeft = x.portsLeft.filter fun y => y.1 != port.val)
      ∧ (s.markerMet port mk.2 d = false → exec (.persistenceMarkerDone port dom) s = .next s))
  ∧ (x.blocksOut = b :: rest → b.kind = .cut → x.step = .record → answers (exec (.cutRecordPersist dom) s) fun u =>
      u.rd (F.TDn_CUT_LAST d) = b.take % 2 ^ 64 ∧ u.rd (F.TDn_CUTSLATE_SLATE d) = b.slate.toNat)
  ∧ (s.rolling d = true → x.rollRun = true → x.blocksOut = [] → x.pkgLeft = [] → (s.swbOut.any fun m => m.dom == d) = false →
      answers (exec (.onlineRollbackDone ⟨dom, none⟩) s) fun u =>
      u.rd (F.TDn_STAT_SPOILED d) = 0 ∧ u.rd (F.TDn_STAT_ROLLING d) = 0 ∧ u.rd (F.TDn_TAKE_OPEN d) = (s.openTake d + 1) % 2 ^ 64
        ∧ u.rd (F.TDn_RESUME_TAKE d) = (s.openTake d + 1) % 2 ^ 64 ∧ (u.dom d).acks = s.viewAgents)
  ∧ (s.rolling d = true → s.leads d = true → answers (exec (.onlineRollbackDone ⟨dom, some p⟩) s) fun u =>
      (u.dom d).pkgLeft = x.pkgLeft.filter fun y => y != p.val)
  ∧ (bit (s.rdw (A.TDn_CFG d)) 0 = false → bit cfg 0 = true →
      let why := s1.reelReason d (s1.flag (F.TDn_SEG1_LINK d))
      answers (exec (.tdCfgEn dom val) s) fun u => if why = 0 then u.domEn d = true
          ∧ (x.anchor = none → u.openTake d = 1 ∧ u.cutTake d = 0 ∧ ∀ a, a < 52 → u.view a d = 1)
        else u.domEn d = false ∧ u.rd (F.TDn_STAT_CFGERR d) = 1 ∧ u.rd (F.TDn_STAT_CFGREASON d) = why)
  ∧ (bit (s.rdw (A.TDn_SEG1 d)) 11 = false → bit seg 11 = true →
      let why := s2.reelReason d true
      answers (exec (.tdSeg1Link dom val) s) fun u => if why = 0 then u.rd (F.TDn_SEG1_LINK d) = 1
        else u.rd (F.TDn_SEG1_LINK d) = 0 ∧ u.rd (F.TDn_STAT_CFGERR d) = 1 ∧ u.rd (F.TDn_STAT_CFGREASON d) = why)

/-- R246 to R253, R412, R413, R418, R507, R518: a power failure or a fatal error stops the package: caches, threads and local stores are lost,
the ports that are up flush, and the package parks; PWRGOOD, REFCLK or VAON lost stops it at once with no wrap.
Model choices: log 20. -/
def Obligations.PowerFailure : Prop := ∀ (s : State) (port : Fin 16) (bank : Fin 354) (st ty : BitVec 8) (addr : BitVec 52),
  let up := (List.range 16).filter fun n => s.flag (F.MPn_STAT_UP n)
  let lost (u : State) : Prop := u.threads = [] ∧ u.lines = [] ∧ u.mem.ls = [] ∧ u.mem.held = []
  let wrapped (u : State) (cause : Nat) : Prop := u.wrap.cause = cause ∧ u.wrap.slate = s.slate ∧ lost u
    ∧ (if up = [] then u.power = .park ∧ u.wrap.done = true else u.power = .wrap ∧ u.wrap.gpfLeft = up)
  (s.power = .run →
    (s.aon.up = true → s.wrap.ignored = false → s.wrap.times.length ≤ 1 → answers (exec .pwrfailAssert s) fun u => wrapped u 1)
    ∧ answers (exec (.fatalError bank st ty addr) s) (fun u => wrapped u 2 ∧ u.rd F.MC_FATALIDX_BANK = bank)
    ∧ answers (exec (.watchdogExpiry bank) s) (fun u => wrapped u 2 ∧ u.rd F.MC_FATALIDX_BANK = bank)
    ∧ (s.pins.pwrgood = true → answers (exec .pwrgoodFall s) fun u => u.power = .unpowered ∧ u.wrap.missing = true ∧ u.pins.pwrgood = false ∧ lost u)
    ∧ answers (exec .thermalTrip s) (fun u => u.power = .unpowered ∧ u.wrap.missing = true ∧ u.wrap.thermOut = true ∧ lost u)
    ∧ answers (exec .refclkLoss s) (fun u => u.power = .unpowered ∧ u.wrap.missing = true ∧ bit (u.rdw A.PIN_EVT) 6 = true ∧ lost u)
    ∧ (s.aon.up = true → answers (exec .vaonLoss s) fun u => u.power = .unpowered ∧ u.aon.up = false ∧ u.aon.array = s.aon.array ∧ lost u))
  ∧ (s.aon.up = false → answers (exec .vaonReturn s) fun u => u.aon.up = true ∧ u.rd F.AON_STAT_VAONLOST = 1 ∧ u.pins.stuck = [])
  ∧ (s.power = .wrap →
    (s.wrap.gpfLeft = [port.val] → answers (exec (.gpfPhase2Done port) s) fun u => u.power = .park ∧ u.wrap.done = true ∧ u.wrap.late = s.wrap.late)
    ∧ answers (exec .gpfTimeoutExpiry s) (fun u => u.power = .park ∧ u.wrap.done = true ∧ u.wrap.gpfLeft = []
      ∧ ∀ n, u.wrap.late.testBit n = decide (n ∈ s.wrap.gpfLeft)))
  ∧ (s.power = .park → s.wrap.done = true →
    let back (u : State) : Prop := u.coldStarted ∧ u.rd F.WRAP_STAT_VALID = 1 ∧ u.rd F.WRAP_STAT_CAUSE = s.wrap.cause
    (s.wrap.cause = 1 → s.wrap.ignored = false → s.pins.pwrgood = true → answers (exec .pwrfailDeassertHold s) back)
    ∧ (s.wrap.cause = 1 → s.wrap.stuck = false → s.wrap.ignored = false →
      answers (exec .pwrfailStuck s) fun u => u.rd F.WRAP_STAT_STUCK = 1 ∧ u.power = .park ∧ u.wrap.stuck = true)
    ∧ (s.wrap.cause = 1 → s.wrap.ignored = false → s.aon.up = true → 2 ≤ (s.wrap.times.filter fun t => s.now ≤ t + secUnits).length →
      answers (exec .pwrfailAssert s) fun u => u.rd F.WRAP_STAT_CHATTER = 1 ∧ u.power = .park ∧ u.wrap.ignored = true)
    ∧ (s.wrap.cause = 2 → s.rd F.WRAP_CTL_AUTORESTART = 1 → s.pins.pwrgood = true → answers (exec .autorestart s) back))

/-- R259, R260, R453, R456 to R461, R505: a cold start begins at STEP 1 with the registers outside the well at their reset values, a warm one
at STEP 4 with the local stores kept; a die is reset once reclaimed and not held, and dies, clusters and threads start in their slots.
Model choices: log 8, 52, 53, 56. -/
def Obligations.ResetsAndStarts : Prop := ∀ (s : State) (b : BootInput) (d : DieNo) (k : Fin 5) (l : Fin 18) (th : Fin 2) (dom : Dom) (c : Word) (ok : Bool),
  let m : Lvl := 3
  let warm (u : State) : Prop := u.power = .boot ∧ u.rd F.BOOT_STAT_STEP = 4 ∧ u.threads = [] ∧ u.lines = [] ∧ u.mem.ls = s.mem.ls
    ∧ u.boot.slots = (List.range 12).filter fun e => !s.flag (F.DIE_RSTd_HOLD e)
  let t := tidOf d l th
  (s.pins.pwrgood = false → s.aon.up = true → answers (exec (.pwrgoodRise b) s) fun u => u.coldStarted ∧ u.pins.pwrgood = true ∧ u.gpos = b.gpos
      ∧ u.rd F.MIR_STAT_ENDPOINT = b2n b.mirmode)
  ∧ (s.aon.up = true → s.power = .run → answers (exec .resetNAssert s) fun u => u.coldStarted ∧ u.pins.pwrgood = s.pins.pwrgood)
  ∧ (s.power = .run → s.vioOut = false → s.aon.up = true → s.pinLocked 3 = false → s.pinStuck 3 = false →
      answers (exec .warmNAssert s) warm)
  ∧ (∀ r ∈ [(Instr.resetNAssert, 1), (.warmNAssert, 2)], s.aon.up = true → s.vioOut = false → s.pinLocked 3 = false → s.pinStuck 3 = false → s.power = .wrap →
      answers (exec r.1 s) fun u => u.power = .wrap ∧ u.wrap.held = s.wrap.held ++ [r.2])
  ∧ (s.power = .run → answers (exec (.pkgRstCold m) s) State.coldStarted ∧ answers (exec (.pkgRstWarm m) s) warm)
  ∧ (∀ lvl : Lvl, lvl ≠ m → ∀ i ∈ [Instr.pkgRstCold lvl, .pkgRstWarm lvl, .dieRstReset d lvl, .dieRstHoldRelease d lvl, .thrStart d l th lvl],
      exec i s = .next s)
  ∧ (s.boot.resets = [] →
      (s.dieRunning d = true → answers (exec (.dieRstReset d m) s) fun u => u.rd (F.PKG_DIEd_STATE d) = 3 ∧ u.boot.resets = [d.val] ∧ d.val ∈ u.reclaims)
      ∧ (∀ i ∈ [(Instr.dieRstReset d m, s.rd (F.DIE_RSTd_HOLD d) = 0), (.dieRstHoldRelease d m, s.rd (F.DIE_RSTd_HOLD d) = 1 ∧ s.rd (F.PKG_DIEd_STATE d) = 5)],
        i.2 → s.dieRunning d = false → d.val ∉ s.reclaims → answers (exec i.1 s) fun u => u.rd (F.PKG_DIEd_STATE d) = 5 ∧ u.rd (F.DIE_RSTd_HOLD d) = 0
          ∧ d.val ∈ u.boot.slots ∧ (∀ x ∈ u.threads, x.1 / 36 ≠ d.val) ∧ ∀ x ∈ u.mem.ls, x.1 / lsSize ≠ d.val))
  ∧ (s.nextSlot = some d.val → s.power = .run → s.boot.sheet = none → s.dieRunning d = false → answers (exec (.dieStartSlot d ok) s) fun u =>
      u.boot.slots = s.boot.slots.filter (fun x => x != d.val) ∧ if ok then u.rd (F.CLK_CTL_LOCKED d) = 1 ∧ u.rd (F.CLK_CTL_ROOT_MHZ d) = 4800
        else bit (u.rdw A.PIN_EVT) (16 + d.val) = true)
  ∧ (s.clusterDue d k = true → answers (exec (.clusterStartSlot d k) s) fun u =>
      u.boot.clusters = s.boot.clusters.filter (fun x => x != 5 * d.val + k.val) ∧ u.threads = s.threads)
  ∧ (s.dieRunning d = true → s.populated d l = true → (s.thrN t).run = .halted → answers (exec (.thrStart d l th m) s) fun u => (u.thrN t).run = .running
      ∧ (u.thrN t).pc = s.rdw (A.THR_PC d) ∧ (∀ r, (u.thrN t).gr r = 0) ∧ (∀ r, (u.thrN t).fr r = 0) ∧ (u.thrN t).c 0 = crReset 0
      ∧ bit (u.rdw (A.THR_STAT d)) (2 * l.val + th.val) = true)
  ∧ (dom.val ∈ s.boot.rolls →
      (s.follows dom = false → answers (exec (.restartRollbackDone dom) s) fun u => dom.val ∉ u.boot.rolls)
      ∧ (s.follows dom = true → answers (exec (.leadC dom c) s) (fun u => dom.val ∉ u.boot.rolls)
        ∧ answers (exec (.leadwaitExpiry dom) s) fun u => u.rd (F.RESTART_DOMn_LEADWAIT dom) = 1 ∧ u.boot = s.boot))

/-- R446, R452, R471, R505, R507, R512 to R515, R522: events on pins, rails and clocks: what each leaves in the input registers, the rails and
the cap, and WAKE_N ending DEEP or OFF; an input past its stuck limit, or without its rail, has no other effect.
Model choices: log 50, 58. -/
def Obligations.PinsAndClocks : Prop := ∀ (s : State) (i : Fin 10) (bus : Fin 2) (r : Rail) (low : Bool),
  let quiet : Prop := s.pinLocked 4 = false ∧ s.pinStuck 4 = false
  (s.aon.up = true →
    (quiet → s.aon.woke = none →
      (s.power = .deep → answers (exec .wakeNAssert s) fun u => u.power = .run ∧ u.gaf.deep = none ∧ u.sl.settled = [])
      ∧ (s.power = .run → s.gaf.deep = none → answers (exec .wakeNAssert s) fun u => u.power = .run ∧ u.rd F.AON_STAT_WAKEPIN = 1 ∧ u.threads = s.threads)
      ∧ (s.power = .off → s.pins.pwrgood = true → answers (exec .wakeNAssert s) fun u => u.coldStarted ∧ u.rd F.AON_STAT_WAKESRC = 1))
    ∧ (s.vioOut = false → s.power = .run → answers (exec .prochotAssert s) fun u => 5 ∈ u.pins.low ∧ u.capMhz = min s.capMhz 600
        ∧ (u.rd F.GAF_STAT_WHY).testBit 1 = true)
    ∧ (s.vioOut = false → answers (exec .prochotRelease s) (fun u => 5 ∉ u.pins.low ∧ 5 ∉ u.pins.stuck)
      ∧ answers (exec (.jtagTrst low) s) fun u => bit (u.rdw A.PIN_LVL) 6 = !low ∧ u.power = s.power)
    ∧ (s.vioOut = true → ∀ c ∈ [Instr.prochotAssert, .prochotRelease, .jtagTrst low, .warmNAssert], exec c s = .next s)
    ∧ (s.sl.xtalRun = true → answers (exec .xtalLoss s) fun u => u.sl.xtalRun = false ∧ u.rd F.CAL_STAT_VALID = 0 ∧ bit (u.rdw A.PIN_EVT) 7 = true)
    ∧ answers (exec (.railOutOfRange r) s) (fun u => r ∈ u.pins.rails ∧ bit (u.rdw A.PIN_EVT) (railBit r) = true))
  ∧ answers (exec .xtalReturn s) (fun u => u.sl.xtalRun = true ∧ u.threads = s.threads)
  ∧ answers (exec (.railInRange r) s) (fun u => r ∉ u.pins.rails ∧ u.io = s.io)
  ∧ answers (exec (.inputUnlock i) s) (fun u => u.pinLocked i = false ∧ u.pinStuck i = false ∧ ∀ k, k ≠ i.val → u.pinLocked k = s.pinLocked k)
  ∧ (i.val ∉ [0, 1, 2, 6] → answers (exec (.inputStuck i) s) fun u => u.pinStuck i = true ∧ bit (u.rdw A.PIN_STUCK) i = true ∧ u.power = s.power)
  ∧ (s.power = .run → answers (exec (.inputStuck 2) s) fun u => u.coldStarted ∧ u.pinStuck 2 = true)
  ∧ (exec (.inputStuck 0) s = .next s ∧ exec (.inputStuck 6) s = .next s ∧ exec (.inputStuck 1) s = exec .pwrfailStuck s)
  ∧ (s.pinStuck (8 + bus.val) = false → exec (.i3cBusRecovery bus) s = .next s)
  ∧ (s.pinStuck (8 + bus.val) = true → answers (exec (.i3cBusRecovery bus) s) fun u => u.freeCtr = s.freeCtr + 1 ∧ u.io = s.io
      ∧ (u.pins = s.pins ∨ u.pins = { s.pins with stuck := s.pins.stuck.filter fun k => k != 8 + bus.val }))

/-- R12, R449, R468, R473 to R475, R478, R484, R495 to R498, R523: register writes replace the bytes they cover, from M where the register
says so; the calendar, its alarm, the pads, the dailies and the bandwidth windows change as their commands say.
Model choices: log 51, 57. -/
def Obligations.WellAndRegisters : Prop := ∀ (s : State) (d : DieNo) (p : Fin 48) (rb wb : BitVec 48) (o n : Nat) (v : Word),
  let m : Lvl := 3
  (∀ lvl : Lvl, lvl ≠ m → ∀ c ∈ [Instr.calSet v lvl, .padReleaseBus lvl, .padReleaseGpio lvl, .bwWinWrite p v lvl, .bwPclr p lvl,
      .registerWrite (A.THR_PC d) 8 v lvl, .registerWrite A.PKG_RST 8 v lvl], exec c s = .next s)
  ∧ (n ∈ [1, 2, 4, 8] → o % n = 0 → o + n ≤ 8 → answers (exec (.registerWrite (A.THR_PC d + o) n v m) s) fun u =>
      (∀ i, i < 8 → (u.rdw (A.THR_PC d)).toNat / 256 ^ i % 256
        = if o ≤ i ∧ i < o + n then v.toNat / 256 ^ (i - o) % 256 else (s.rdw (A.THR_PC d)).toNat / 256 ^ i % 256)
      ∧ (∀ a, a ≠ A.THR_PC d → u.rdw a = s.rdw a) ∧ u.threads = s.threads)
  ∧ (∀ a, n ∉ [1, 2, 4, 8] ∨ a % n ≠ 0 → exec (.registerWrite a n v m) s = .next s)
  ∧ (s.power = .run → bit v 0 = true → answers (exec (.registerWrite A.PKG_RST 8 v m) s) State.coldStarted)
  ∧ (s.slateState ≠ 3 → answers (exec (.calSet v m) s) fun u => u.rdw A.CAL_NOW = v ∧ u.rd F.CAL_STAT_VALID = 1 ∧ u.rd F.CAL_STAT_DISC = 1)
  ∧ (s.slateState = 3 → exec (.calSet v m) s = .next s)
  ∧ (s.aon.up = true → s.power = .run → s.rd F.CAL_ALARM_EN = 1 → s.rd F.CAL_ALARM_SECONDS ≤ s.rd F.CAL_NOW_SECONDS →
      answers (exec .calAlarmFire s) fun u => u.rd F.CAL_ALARM_EN = 0 ∧ u.rd F.AON_STAT_ALARM = 1 ∧ u.power = .run)
  ∧ answers (exec (.padReleaseBus m) s) (fun u => u.rd F.PAD_RELEASE_BUS = 0 ∧ u.rd F.PAD_RELEASE_GPIO = s.rd F.PAD_RELEASE_GPIO)
  ∧ answers (exec (.padReleaseGpio m) s) (fun u => u.rd F.PAD_RELEASE_GPIO = 0 ∧ u.rd F.PAD_RELEASE_BUS = s.rd F.PAD_RELEASE_BUS)
  ∧ (s.powered = true → answers (exec .dailiesUpdate s) fun u => u.rd F.DLY_POWERON_SECONDS = min (s.rd F.DLY_POWERON_SECONDS + 64) (2 ^ 32 - 1)
      ∧ SMap.find? u.aon.array A.DLY_POWERON = some (u.rdw A.DLY_POWERON))
  ∧ answers (exec .wearDay s) (fun u => ∀ i, i < 13 → SMap.get 0 u.aon.wearDay i = s.rd (F.DLY_WEARi_UNITS i)
      ∧ ∃ h, SMap.get [] u.aon.hist i = (s.rd (F.DLY_WEARi_UNITS i) - SMap.get 0 s.aon.wearDay i) :: h)
  ∧ answers (exec (.bwWindowEnd p rb wb) s) (fun u => u.rd (F.BW_LASTRp_BYTES p) = rb.toNat ∧ u.rd (F.BW_LASTWp_BYTES p) = wb.toNat
      ∧ u.rd (F.BW_PEAKRp_BYTES p) = max (s.rd (F.BW_PEAKRp_BYTES p)) rb.toNat ∧ u.rd (F.BW_PEAKWp_BYTES p) = max (s.rd (F.BW_PEAKWp_BYTES p)) wb.toNat
      ∧ u.rd (F.BW_CTLp_SEQ p) = (s.rd (F.BW_CTLp_SEQ p) + 1) % 2 ^ 32)
  ∧ answers (exec (.bwPclr p m) s) (fun u => u.rd (F.BW_PEAKRp_BYTES p) = 0 ∧ u.rd (F.BW_PEAKWp_BYTES p) = 0)
  ∧ answers (exec (.bwWinWrite p v m) s) (fun u => bit v 20 = true → u.rd (F.BW_PEAKRp_BYTES p) = 0 ∧ u.rd (F.BW_PEAKWp_BYTES p) = 0)

/-- R265, R267, R273, R274, R282 to R284, R289: the slate's states move as the table says; SLATE_SET steps forward only, and only at the ROOT;
SLATE_ADJ adds whole units to the slew; an alarm fires once until it is rearmed. Model choices: log 38, 39. -/
def Obligations.SlateStates : Prop := ∀ (s : State) (t : Tid) (lvl : Lvl) (v : Word),
  let st := s.slateState
  let src := s.rd F.SLATE_STAT_SOURCE
  let ctl := s.regPut A.SLATE_CTL v fullMask
  let x := s.thr t
  let due : Prop := bit (x.c (slctlNo lvl)) 0 = true ∧ x.armed.getLsbD lvl = true ∧ s.alarmDue x lvl = true
  (s.sl.xtal = false → s.works = true → answers (exec .trefclkFault s) fun u => u.rd F.SLATE_STAT_REFFAULT = 1 ∧ u.sl.xtal = true ∧ u.slate = s.slate
      ∧ u.slateState = if st = 0 then 0 else 1)
  ∧ (s.works = false → answers (exec .trefclkFault s) fun u => u.sl.tref = false ∧ u.io = s.io ∧ u.slate = s.slate)
  ∧ (s.sl.xtal = true → answers (exec .trefclkReturn s) fun u => u.sl.xtal = false ∧ u.slate = s.slate
      ∧ u.slateState = if st = 0 then 0 else if s.isRoot then 3 else if src ≠ 0 then 2 else 1)
  ∧ answers (exec .trefclkWarn s) (fun u => u.rd F.SLATE_STAT_REFWARN = 1 ∧ u.slate = s.slate)
  ∧ (s.slate.toNat = 2 ^ 64 - 1 → st ≠ 0 → s.rd F.SLATE_STAT_SATURATED = 0 → answers (exec .slateSaturate s) fun u =>
      u.rd F.SLATE_STAT_SATURATED = 1 ∧ u.slate = s.slate)
  ∧ (src ≠ 0 → s.isRoot = false → st = 2 ∨ st = 3 → answers (exec .slateSourceLost s) fun u => u.slateState = 4
      ∧ u.rd F.SLATE_STAT_SOURCE = 0 ∧ u.sl.entry = s.uncNow ∧ u.slate = s.slate)
  ∧ (st = 2 → s.sl.good = 16 → answers (exec .slateSettled s) fun u => u.slateState = 3 ∧ u.slate = s.slate)
  ∧ (s.sl.good < 16 → exec .slateSettled s = .next s)
  ∧ (s.isRoot = true → st ≠ 0 →
      (s.slate.toNat ≤ v.toNat → answers (exec (.slateSet v) s) fun u => u.slate = v ∧ u.io = s.io)
      ∧ answers (exec (.slateAdj v) s) fun u => u.slate = s.slate ∧ ∃ n : Int, u.sl.slew = s.sl.slew + n
        ∧ (125 * n - (v.setWidth 32).toInt).natAbs ≤ 62)
  ∧ ((s.isRoot = false ∨ v.toNat < s.slate.toNat) → answers (exec (.slateSet v) s) fun u => u.slate = s.slate ∧ u.rd F.SLATE_STAT_SETREF = 1)
  ∧ (s.isRoot = false → answers (exec (.slateAdj v) s) fun u => u.sl = s.sl ∧ u.rd F.SLATE_STAT_SETREF = 1)
  ∧ (st ≠ 0 → s.sl.xtal = false →
      (s.isRoot = false → ctl.isRoot = true → answers (exec (.slateRoleWrite v) s) fun u => u.slateState = 3
        ∧ u.rd F.SLATE_STAT_SOURCE = 0 ∧ u.slate = s.slate)
      ∧ (s.isRoot = true → ctl.isRoot = false → answers (exec (.slateRoleWrite v) s) fun u => u.slateState = 4 ∧ u.sl.entry = s.uncNow ∧ u.slate = s.slate))
  ∧ answers (exec (.slateEpochWrite v) s) (fun u => u.sl = s.sl ∧ u.slate = s.slate
      ∧ (s.rd F.SLATE_LOCK_LOCK = 0 → u.rd F.SLATE_EPOCH_SECONDS = v.toNat % 2 ^ 32))
  ∧ (lvl.val ≠ 0 → answers (exec (.slcmpWrite t lvl v) s) (fun u => (u.thr t).c (slcmpNo lvl) = v
        ∧ bit ((u.thr t).c (slctlNo lvl)) 2 = false ∧ (u.thr t).armed.getLsbD lvl = true)
      ∧ (due → answers (exec (.slateAlarmFire t lvl) s) fun u => bit ((u.thr t).c (slctlNo lvl)) 2 = true
        ∧ (u.thr t).armed.getLsbD lvl = false ∧ SMap.find? (u.thr t).pendSlate lvl = some s.slateRead)
      ∧ (¬ due → exec (.slateAlarmFire t lvl) s = .next s))

/-- R268, R276 to R282: the time links: what each symbol and frame carries; a valid one from the source is measured and becomes the source's;
one whose check fails is counted and otherwise ignored. Model choices: log 9, 38. -/
def Obligations.TimeLinks : Prop := ∀ (s : State) (d : DieNo) (k : Fin 4) (m : PtSym) (f : ClfFrame) (r : ClrFrame) (w : Word) (l : Nat),
  let asym := (BitVec.ofNat 16 (s.rd (F.PLT_ASYMk_PS k))).toInt
  let rest := s.sl.ptOk.filter fun j => j != k.val
  let s2 := s.setSl { s.sl with ptIn := SMap.put s.sl.ptIn k m, ptAt := SMap.put s.sl.ptAt k s.slate, ptSince := SMap.put s.sl.ptSince k s.now, ptOk := k.val :: rest }
  let forward : Nat := if s.slateState = 1 ∨ s.slateState = 4 then 2 else s.slateState
  let sat (n : Nat) : Nat := min (n + 1) (2 ^ 16 - 1)
  (s.timeLink d = some l →
    (s.dieRunning d = true → answers (exec (.tsymSend d) s) fun u => SMap.find? u.sl.tsymOut d = some s.slate)
    ∧ (SMap.find? s.sl.tsymOut d = some w → answers (exec (.tsym d) s) fun u => SMap.find? u.sl.tsymIn d = some w
      ∧ SMap.find? u.sl.tsymAt d = some s.slate ∧ SMap.find? u.sl.tsymOut d = none)
    ∧ (SMap.find? s.sl.tsymIn d = some w →
      let t2 : Int := ((SMap.get 0 s.sl.tsymAt d).toNat * 125 : Nat)
      answers (exec (.tret d) s) fun u => SMap.find? u.sl.tsymIn d = none ∧ u.slate = s.slate
        ∧ SMap.find? u.sl.copies d = some (measure2 (w.toNat * 125 : Nat) t2 t2 (s.slate.toNat * 125 : Nat) (Config.linkAsym l)))
    ∧ (s.dieRunning d = true → answers (exec (.slateCopySettled d) s) fun u => d.val ∈ u.sl.settled ∧ u.io = s.io))
  ∧ (s.assigned = false → ∀ c ∈ [Instr.clf f, .clr r, .clfSend, .clrSend], exec c s = .next s)
  ∧ (s.plinkUp k = true → answers (exec (.ptsymSend k) s) fun u => ∃ q, SMap.find? u.sl.ptOut k = some q ∧ q.slate = s.slate
      ∧ q.t1 = s.slate.toNat * 125 ∧ q.unc = s.rd F.SLATE_UNC_PS ∧ q.state = s.slateState ∧ q.depth = s.rd F.SLATE_STAT_DEPTH)
  ∧ (m.checkOk = false → exec (.ptsym k m) s = .next s)
  ∧ (s.plinkUp k = true → m.checkOk = true → m.leadp.val = s.rd F.SLATE_CTL_LEADP → 2 ≤ m.state → m.state ≤ 4 → s.slateRole = 0 →
      s2.ptSource = some k.val → s.sl.xtal = false → s.slateState ≠ 0 → answers (exec (.ptsym k m) s) fun u =>
        u.rd F.SLATE_STAT_SOURCE = 2 ∧ u.rd F.SLATE_STAT_DEPTH = (m.depth + 1) % 16 ∧ u.slateState = forward ∧ s.slate.toNat ≤ u.slate.toNat
        ∧ u.rd F.SLATE_OFS_DELAY = (BitVec.ofInt 32 ((m.t2 - m.t1 + (m.t4 - m.t3)) / 2)).toNat
        ∧ u.rd F.SLATE_OFS_OFFSET = (BitVec.ofInt 32 ((m.t2 - m.t1 - (m.t4 - m.t3) - asym) / 2)).toNat)
  ∧ (s.rd F.SLATE_CTL_DN_EN = 1 → s.assigned = true → answers (exec .clfSend s) fun u => ∃ q, u.sl.clfOut = some q ∧ q.slate = s.slate
      ∧ q.seq = s.sl.clfSeq ∧ q.state = s.slateState ∧ q.epoch = s.sl.epoch ∧ (s.isRoot = true → q.root = s.nodeId) ∧ u.sl.clfSeq = s.sl.clfSeq + 1)
  ∧ (f.checkOk = false → s.assigned = true → answers (exec (.clf f) s) fun u => u.rd F.CLAP_UP_CRCERR = sat (s.rd F.CLAP_UP_CRCERR) ∧ u.sl = s.sl ∧ u.slate = s.slate)
  ∧ (f.checkOk = true → f.root = s.nodeId → s.assigned = true → answers (exec (.clf f) s) fun u => u.rd F.SLATE_STAT_LOOP = 1
      ∧ u.rd F.CLAP_UP_CRCERR = sat (s.rd F.CLAP_UP_CRCERR) ∧ u.sl = s.sl ∧ u.slate = s.slate)
  ∧ (f.checkOk = true → s.clfRefused f = false → s.slateRole = 1 → s.rd F.SLATE_CTL_UP_EN = 1 → s.assigned = true → 2 ≤ f.state → s.sl.xtal = false →
      s.slateState ≠ 0 → answers (exec (.clf f) s) fun u => u.rd F.SLATE_STAT_SOURCE = 1 ∧ u.rd F.SLATE_STAT_DEPTH = (f.depth + 1) % 16
        ∧ u.rd F.CLAP_UP_PRESENT = 1 ∧ u.slateState = forward ∧ u.sl.clfIn = some f ∧ u.sl.rootId = some f.root ∧ s.slate.toNat ≤ u.slate.toNat)
  ∧ (s.sl.clfIn = some f → s.assigned = true → answers (exec .clrSend s) fun u => ∃ q, u.sl.clrOut = some q ∧ q.echo = f.seq ∧ q.seq = s.sl.clrSeq
      ∧ q.state = s.slateState ∧ u.sl.clrSeq = s.sl.clrSeq + 1)
  ∧ (s.assigned = true → answers (exec (.clr r) s) fun u => if r.checkOk && r.depth != 15 && r.unc != 0xFFFFFFFF then u.rd F.CLAP_DN_PRESENT = 1 ∧ u.sl.clrIn = some (r.seq, s.slate)
        ∧ u.rd F.CLAP_DN_FRAMES = (s.rd F.CLAP_DN_FRAMES + 1) % 2 ^ 32
      else u.rd F.CLAP_DN_CRCERR = sat (s.rd F.CLAP_DN_CRCERR) ∧ u.sl = s.sl)
  ∧ answers (exec .clapDnPresentLoss s) (fun u => u.rd F.CLAP_DN_PRESENT = 0 ∧ u.slate = s.slate)

/-- R195, R292, R293, R295, R299 to R305, R307, R309: a memory port: training and its refusals by code, MEM_ACTIVE, and the loss of its
link; a write joins the port's queue, a read is forwarded, accepted or waits, the arbiter grants, and the device completes.
Model choices: log 20, 40. -/
def Obligations.MemoryPorts : Prop := ∀ (s : State) (n : Fin 16) (v : Word) (dev : DevInfo) (line : LineNo) (mask : BitVec 64) (data : LineData)
    (rq : Fin 32) (cls : Fin 64) (lines : Fin 4096) (age cycles a : Nat) (e : WqEnt) (q : PortReq) (pois ovl : Bool),
  let x := s.pt n
  let fresh : Prop := s.rd (F.MPn_STAT_UP n) = 0 → s.rd (F.MPn_STAT_READY n) = 0
  let hits (l : Nat) : Bool := (s.portOf n l).any fun y => s.wqHit n y == some true
  let asked (y : PortReq) : List PortReq := ((List.range (s.burstNow n y)).filter fun i => (s.portOf n (y.line + i)).isSome && !hits (y.line + i)).map
    fun i => { y with line := y.line + i, left := 1 }
  let en := s.rd (F.MPn_CTL_EN n)
  let named : Prop := ∃ i, i < 16 ∧ s.setNames i n = true
  let down (u : State) : Prop := u.rd (F.MPn_STAT_UP n) = 0 ∧ u.rd (F.MPn_STAT_READY n) = 0
  let refused (u : State) (code : Nat) : Prop := u.rd (F.MPn_STAT_REFUSE n) = code ∧ (u.pt n).phase = .off
  let code := if dev.isSwitch then 6 else if !dev.type3 then 1 else if !dev.cxlMem then 3 else if !dev.hdmH then 2 else 0
  let here : Prop := s.route (line * 64) = .port n a
  (s.rd (F.MPn_CTL_LOCK n) = 0 →
    (en = 0 → bit v 0 = true → fresh → answers (exec (.mpEnable n v) s) fun u => u.rd (F.MPn_CTL_EN n) = 1 ∧ (u.pt n).phase = .training ∧ down u)
    ∧ (en = 1 → bit v 0 = false → ¬ named → answers (exec (.mpEnable n v) s) fun u => u.rd (F.MPn_CTL_EN n) = 0 ∧ (u.pt n).phase = .off ∧ down u)
    ∧ (en = 1 → named → answers (exec (.mpEnable n v) s) fun u => u.rd (F.MPn_CTL_EN n) = 1))
  ∧ (en = 1 → fresh → answers (exec (.mpRetrain n) s) fun u => (u.pt n).phase = .training ∧ down u)
  ∧ (x.phase = .training →
    answers (exec (.mpLinkUp n dev) s) (fun u => u.rd (F.MPn_STAT_UP n) = 1 ∧ (u.pt n).dev = some dev
      ∧ u.rd (F.MPn_CAP_CAP_GIB n) = min dev.capGib 2048 ∧ if code = 0 then (u.pt n).phase = .waiting else refused u code)
    ∧ answers (exec (.mpTrainTimeout n) s) fun u => refused u 7)
  ∧ (x.phase = .waiting → answers (exec (.memoryActive n true) s) (fun u => (u.pt n).phase = .ready ∧ u.rd (F.MPn_STAT_READY n) = 1
      ∧ u.rd (F.MPn_STAT_REFUSE n) = 0 ∧ u.rd (F.MPn_CAP_PERSIST n) = match x.dev with
        | some d => if d.psizeGib ≠ 0 ∧ d.gpfDvsec = true ∧ d.gpf2Us ≤ s.rd F.WRAP_CTL_GPF_TIMEOUT then 1 else 0
        | none => 0)
    ∧ answers (exec (.memoryActive n false) s) (fun u => refused u 5) ∧ answers (exec (.memoryActiveTimeout n) s) fun u => refused u 4)
  ∧ (en = 1 → s.rd (F.MPn_STAT_UP n) = 1 → s.power = .run → answers (exec (.mpLinkLoss n) s) fun u => down u ∧ u.rd (F.MPn_STAT_LOST n) = 1
      ∧ u.wq n = [] ∧ (u.pt n).reads = [] ∧ u.rd (F.MPn_ERR_DISCARD n) = (s.rd (F.MPn_ERR_DISCARD n) + (s.wq n).length) % 2 ^ 32
      ∧ ∀ d, d < 8 → s.domEn d = true → s.domOnPort d n = true → u.rd (F.TDn_STAT_SPOILED d) = 1)
  ∧ (here → s.works = true → s.keyOk (s.line line).kslot = true → (∀ y ∈ s.wq n, y.dev ≠ a) → answers (exec (.portWrite n line mask data) s) fun u =>
      u.wq n = s.wq n ++ [⟨a, mask, data, false, s.keyOf (s.line line).kslot, false, false, s.nextId⟩] ∧ u.ports = s.ports)
  ∧ (here → rq.val < 30 → SMap.find? x.waits rq = none → (∀ y, x.burst = some y → y.rq ≠ rq.val) → s.heldOf line = none →
    let me : PortReq := ⟨line, s.burstLen n line (lines.val + 1), rq, cls, if rq = 20 then 3 else 0⟩
    let all : Bool := (List.range me.left).all fun i => hits (line + i)
    let free : Prop := x.waits = [] ∧ x.burst = none ∧ x.owner = rq.val
    (all = true → answers (exec (.portRead n rq ⟨line, lines⟩ cls) s) fun u => u.ports = s.ports
      ∧ u.rd (F.MPn_WQ_FWD_HITS n) = (s.rd (F.MPn_WQ_FWD_HITS n) + me.left) % 2 ^ 32)
    ∧ (all = false → free → answers (exec (.portRead n rq ⟨line, lines⟩ cls) s) fun u =>
      (u.pt n).reads = x.reads ++ asked me ∧ (s.burstNow n me = me.unit → (u.pt n).waits = []) ∧ u.mem = s.mem)
    ∧ (all = false → ¬ free → answers (exec (.portRead n rq ⟨line, lines⟩ cls) s) fun u =>
      SMap.find? (u.pt n).waits rq = some me ∧ (u.pt n).reads = x.reads))
  ∧ (SMap.find? x.waits rq = some q →
      let goal := s.rd (F.MPn_QOSc_TARGET_NS n q.cls)
      let urg := max q.urg (if goal = 0 then 0 else if goal ≤ age then 3 else if 3 * goal ≤ 4 * age then 2 else if goal ≤ 2 * age then 1 else 0)
      answers (exec (.urgencyRise n rq age) s) fun u => SMap.find? (u.pt n).waits rq = some { q with urg := urg }
        ∧ u.rd (F.MPn_URG_OVERRUN n) = if urg = 3 ∧ q.urg < 3 then (s.rd (F.MPn_URG_OVERRUN n) + 1) % 2 ^ 32 else s.rd (F.MPn_URG_OVERRUN n))
  ∧ (x.burst = none → s.arbReady n ≠ [] → (∀ y ∈ s.arbReady n, y.rq < 32) →
      ∃ w ∈ s.arbReady n, (∀ y ∈ s.arbReady n, y.urg ≤ w.urg) ∧ answers (exec (.arbGrant n cycles) s) fun u =>
        (u.pt n).reads = x.reads ++ asked w ∧ (u.pt n).owner = w.rq
          ∧ (s.burstNow n w = w.unit → SMap.find? (u.pt n).waits w.rq = none)
          ∧ u.rd (F.MPn_ARBr_GRANTS_COUNT n w.rq) = (s.rd (F.MPn_ARBr_GRANTS_COUNT n w.rq) + 1) % 2 ^ 48)
  ∧ (x.burst = some q → (∀ y ∈ s.arbReady n, y.urg ≤ q.urg) → answers (exec (.arbGrant n cycles) s) fun u =>
      (u.pt n).reads = x.reads ++ asked q ∧ (u.pt n).owner = q.rq)
  ∧ (here → s.works = true → List.find? (fun y => y.dev == a) (s.wq n) = some e → answers (exec (.deviceWriteCompletion n line) s) fun u =>
      u.wq n = (s.wq n).filter (fun y => y.id != e.id)
      ∧ ∀ i, u.mem.devByte (devNo n a + i) = if i < 64 ∧ e.mask.getLsbD i = true then lineByte e.data i else s.mem.devByte (devNo n a + i))
  ∧ (List.find? (fun y => y.line == line) x.reads = some q → answers (exec (.deviceReadResponse n line pois ovl) s) fun u =>
      (u.pt n).reads = x.reads.erase q ∧ (u.pt n).overload = ovl
        ∧ u.rd (F.MPn_ERR_POISON_RD n) = (s.rd (F.MPn_ERR_POISON_RD n) + if pois then 1 else 0) % 2 ^ 32)

/-- R174, R293, R296, R335, R342, R344, R358, R365, R367, R382, R393: a write that would make a table entry valid stores it, and keeps it valid
only where its checks find no reason against it; a valid entry is cleared by its invalidation, unless it is in use.
Model choices: log 10. -/
def Obligations.Validations : Prop := ∀ (s : State) (k : Fin 16) (n : Fin 64) (r : Fin 4) (j : Fin 32) (w : Fin 8) (f : Fin 256) (i : Fin 1024) (v : Word),
  let put (a : Nat) : State := s.regPut a v fullMask
  let is1 := (put (A.IS_CTLs k)).wr (F.IS_CTLs_V k) 0
  let rg1 := (put (A.PRT_ATTRn n)).wr (F.PRT_ATTRn_V n) 0
  let gpf := put A.WRAP_CTL
  let en1 := put (A.RN_ENGe j)
  let keeps (port : Nat) : Bool := s.persistOk port (gpf.rd F.WRAP_CTL_GPF_TIMEOUT)
  let bad (port : Nat) : Prop := port < 16 ∧ s.rd (F.MPn_STAT_READY port) = 1 ∧ s.rd (F.MPn_CAP_PERSIST port) = 1 ∧ keeps port = false ∧ s.portPersistent port = true
  (s.flag (F.IS_CTLs_V k) = false → bit v 0 = true → answers (exec (.isValidate k v) s) fun u =>
      if is1.setReason k = 0 then u.flag (F.IS_CTLs_V k) = true
      else u.flag (F.IS_CTLs_V k) = false ∧ u.rd F.IS_REFUSE_VALID = 1 ∧ u.rd F.IS_REFUSE_REASON = is1.setReason k ∧ u.rd F.IS_REFUSE_SET = k)
  ∧ (s.flag (F.IS_CTLs_V k) = true →
      let used : Bool := s.regions.any fun y => y.iset == k.val && (y.mtype == 2 || (y.mtype != 3 && s.homedHere y.base))
      answers (exec (.isInvalidate k) s) fun u => u.flag (F.IS_CTLs_V k) = used)
  ∧ (s.regionV n = false → bit v 0 = true → answers (exec (.prtValidate n v) s) fun u =>
      if rg1.regionReason n = 0 then u.regionV n = true
      else u.regionV n = false ∧ u.rd F.PRT_REFUSE_VALID = 1 ∧ u.rd F.PRT_REFUSE_REASON = rg1.regionReason n ∧ u.rd F.PRT_REFUSE_REGION = n)
  ∧ (s.regionV n = true → answers (exec (.prtInvalidate n) s) fun u => u.regionV n = false)
  ∧ ((∃ p, bad p) → answers (exec (.gpfTimeoutWrite v) s) fun u => u.rd F.WRAP_CTL_GPF_TIMEOUT = s.rd F.WRAP_CTL_GPF_TIMEOUT ∧ u.rd F.WRAP_CTL_TOREF = 1)
  ∧ ((¬ ∃ p, bad p) → answers (exec (.gpfTimeoutWrite v) s) fun u => u.rd F.WRAP_CTL_GPF_TIMEOUT = gpf.rd F.WRAP_CTL_GPF_TIMEOUT
      ∧ ∀ p, p < 16 → s.rd (F.MPn_STAT_READY p) = 1 → u.rd (F.MPn_CAP_PERSIST p) = b2n (keeps p))
  ∧ (s.flag (F.FW_TGTw_V k) = false → bit v 0 = true → answers (exec (.fwValidate k v) s) fun u => u.flag (F.FW_TGTw_V k) = (put (A.FW_TGTw k)).fwOk k
      ∧ ((put (A.FW_TGTw k)).fwOk k = false → u.flag (F.FW_TGTw_REFUSE k) = true))
  ∧ (s.flag (F.GDW_TGTw_V w) = false → bit v 0 = true → answers (exec (.gdwValidate w v) s) fun u => u.flag (F.GDW_TGTw_V w) = (put (A.GDW_TGTw w)).gdwOk w
      ∧ ((put (A.GDW_TGTw w)).gdwOk w = false → u.flag (F.GDW_TGTw_REFUSE w) = true))
  ∧ (s.winV (iwRef r j) = false → bit v 0 = true →
      let why := (put (A.IW_ATTRrj r j)).winReason (iwRef r j) (iwAll r) (fget v 10 12) (fget v 22 10)
      answers (exec (.iwValidate r j v) s) fun u => u.winV (iwRef r j) = (why == 0) ∧ (why ≠ 0 → u.rd (F.IW_ATTRrj_REASON r j) = why))
  ∧ answers (exec (.iwInvalidate r j) s) (fun u => u.winV (iwRef r j) = false)
  ∧ (s.vrfHere f = true → s.winV (vrhRef f w) = false → bit v 0 = true →
      let s1 := put (A.VRH_WIN_ATTR f w)
      let why := s1.winReason (vrhRef f w) (vrhAll f) (s.rd (F.VRH_CTL_VMID f)) (s.rd (F.VRH_CTL_KSLOT f))
      answers (exec (.vrhWinValidate f w v) s) fun u => u.winV (vrhRef f w) = (why == 0) ∧ (why ≠ 0 → u.rd (F.VRH_WIN_ATTR_REASON f w) = why))
  ∧ (s.flag (F.CUE_PTBASEi_V i) = false → bit v 0 = true →
      let ok : Bool := match s.regionOfRange (fget v 6 46 * 64) 1088 with | some y => y.mtype == 0 | none => false
      answers (exec (.cuePtbaseValidate i v) s) fun u => u.flag (F.CUE_PTBASEi_V i) = ok ∧ (ok = false → u.flag (F.CUE_PTBASEi_REFUSE i) = true))
  ∧ (s.flag F.ENCT_BASE_V = false → (put A.ENCT_BASE).flag F.ENCT_BASE_V = true →
      let ok : Bool := match s.regionOfRange ((put A.ENCT_BASE).rd F.ENCT_BASE_BASE * 2 ^ 19) (2 ^ 19) with | some y => y.mtype == 0 | none => false
      answers (exec (.enctBaseValidate v) s) fun u => u.flag F.ENCT_BASE_V = ok)
  ∧ ((∃ g, g < 256 ∧ s.vrfOn g = true) → exec (.rnModeWrite v) s = .next s)
  ∧ ((∀ g, g < 256 → s.vrfOn g = false ∧ s.flag (F.VRH_STAT_RSTBUSY g) = false) → s.rnQuiesce ≠ bit v 0 → answers (exec (.rnModeWrite v) s) fun u =>
      u.rnQuiesce = bit v 0 ∧ u.rd F.RN_CFG_NVRF = (if bit v 0 then 256 else 64) ∧ u.vrfs = [] ∧ ∀ a, A.VRF_SQBASE 0 ≤ a → a < A.VRH_CTL 256 → u.rdw a = ioReset a)
  ∧ answers (exec (.rnCreditsWrite j v) s) (fun u =>
      if (List.range 32).foldl (fun a y => a + en1.rd (F.RN_ENGe_CREDITS y)) 0 ≤ 32768 then u.rd (F.RN_ENGe_CREDITS j) = fget v 16 11 ∧ u.rd (F.RN_ENGe_REFUSED j) = 0
      else u.rd (F.RN_ENGe_CREDITS j) = s.rd (F.RN_ENGe_CREDITS j) ∧ u.rd (F.RN_ENGe_REFUSED j) = 1)

/-- R313 to R317, R322, R324, R326, R337: a D-link trains in its steps and fails by its rules; a flush, a resumption and a heartbeat act on
the link named; a die whose heartbeats stop is fenced with a record, or stops its own cores.
Model choices: log 42. -/
def Obligations.DieLinks : Prop := ∀ (s : State) (j : Fin 24) (l : Fin 28) (d : DieNo) (up down : BitVec 34) (pos : Nat) (step : BitVec 8) (cu cd : Nat)
    (eu ed : List Word),
  let x := s.lk j
  let st := s.dlState j
  let die := j.val / 2
  let mate := if j.val % 2 = 0 then j.val + 1 else j.val - 1
  let c := s.rd (F.DL_CTL_WIDTH j)
  let mu := s.mapWords (A.DL_MAPUj j)
  let md := s.mapWords (A.DL_MAPDj j)
  (st = 0 ∨ st = 3 → answers (exec (.dlReset j) s) fun u => u.dlState j = 1 ∧ u.rd (F.DL_STAT_FLUSHED j) = 0 ∧ u.lk j = { LinkSt.reset with cEnd := x.cEnd, cDelay := x.cDelay })
  ∧ (st = 1 ∨ st = 2 → exec (.dlReset j) s = .next s)
  ∧ (st = 1 → x.checked = false →
    (effWidth up mu c = some cu → effWidth down md c = some cd → 8 ≤ passing up → 8 ≤ passing down →
      effMap up mu (max cu cd) = some eu → effMap down md (max cu cd) = some ed →
      answers (exec (.laneCheckDone j up down) s) fun u => u.rd (F.DL_STAT_EWIDTH j) = max cu cd ∧ (u.lk j).checked = true ∧ u.dlState j = 1
        ∧ u.mapWords (A.DL_EMAPUj j) = eu ∧ u.mapWords (A.DL_EMAPDj j) = ed
        ∧ u.rd (F.DL_LANEFAIL_UP j) = up.toNat ∧ u.rd (F.DL_LANEFAILD_DOWN j) = down.toNat)
    ∧ (effWidth up mu c = none ∨ passing down < 8 → answers (exec (.laneCheckDone j up down) s) fun u => u.dlState j = 3))
  ∧ (st = 1 → x.checked = true → answers (exec (.trainingPacket j) s) fun u => (u.lk j).adopted = true
      ∧ (u.lk j).cEnd = some (s.rd (F.DL_STAT_EWIDTH j), s.mapWords (A.DL_EMAPUj j) ++ s.mapWords (A.DL_EMAPDj j)) ∧ u.io = s.io)
  ∧ (st = 1 → x.adopted = true →
    (pos ≠ die → answers (exec (.trainingAnswer j pos step) s) fun u => u.rd (F.PKG_DIEd_STATE die) = 2 ∧ u.dlState j = 0)
    ∧ (pos = die → step ≠ 0x01 → step ≠ 0x10 → answers (exec (.trainingAnswer j pos step) s) fun u => u.rd (F.PKG_DIEd_STATE die) = 1 ∧ u.dlState j = 0)
    ∧ (pos = die → step = 0x01 ∨ step = 0x10 → answers (exec (.trainingAnswer j pos step) s) fun u => u.dlState j = 2
      ∧ u.rd (F.PKG_DIEd_STEP die) = step.toNat ∧ u.rd (F.PKG_DIEd_DFEAT die) = (if step = 0x01 then 1 else 3)
      ∧ (s.rd (F.PKG_DIEd_STATE die) = 5 → s.dlState mate ≠ 1 → u.dieRunning die = true)))
  ∧ (st = 1 → answers (exec (.dlinkTrainTimeout j) s) fun u => u.dlState j = 3 ∧ u.rd (F.MCb_STATUS_VAL (341 + die)) = 1)
  ∧ answers (exec (.dlFlush j) s) (fun u => u.lk j = { x with flush := true } ∧ (x.out = [] → u.rd (F.DL_STAT_FLUSHED j) = 1))
  ∧ answers (exec (.dlResume j) s) (fun u => u.lk j = { x with flush := false } ∧ u.rd (F.DL_STAT_FLUSHED j) = 0)
  ∧ ((l.val < 24 ∧ s.dlState l = 2 ∨ 24 ≤ l.val ∧ s.plinkUp (l.val - 24) = true) → (s.lk l).out.length < 1024 →
      answers (exec (.heartbeatSend l) s) fun u => (u.lk l).out = (s.lk l).out ++ [⟨(s.lk l).seqNext, 0⟩]
        ∧ (u.lk l).seqNext = ((s.lk l).seqNext + 1) % 4096)
  ∧ (s.linkOn l = true → (24 ≤ l.val ∨ s.rd (F.PKG_DIEd_STATE (l.val / 2)) ≠ 3) → (s.lk l).rewound = false →
      answers (exec (.heartbeat l) s) fun u => u.lk l = { s.lk l with good := (s.lk l).good.map fun g => (g + 1) % 4096 })
  ∧ answers (exec (.heartbeatTimeout d false) s) (fun u => ∀ k, k < 18 → (u.core (18 * d.val + k)).stopped = true)
  ∧ (s.dieRunning d = true → answers (exec (.heartbeatTimeout d true) s) fun u => u.rd (F.PKG_DIEd_STATE d) = 3 ∧ d.val ∈ u.reclaims
      ∧ u.rd (F.MC_DIEBANKd_V d) = 1 ∧ u.rd (F.MC_DIEBANKd_BANK d) = 341 + d.val)

/-- R319, R320, R323, R328, R330 to R333: packets commit in order and release what they acknowledge, a bad one is rewound, a NAK resends or
takes the link down, and a lost D-link's traffic moves; a P-link trains, holds or goes down, and membership follows the routes.
Model choices: log 42, 43. -/
def Obligations.PacketsAndMembers : Prop := ∀ (s : State) (l : Fin 28) (p : LinkPacket) (seq : BitVec 12) (j : Fin 24) (k : Fin 4) (m : PlPeer) (q : Fin 16)
    (ups : BitVec 4) (v : Word),
  let x := s.lk l
  let acked := if (x.out.any fun o => o.seq == p.ack.toNat) then (x.out.dropWhile fun o => o.seq != p.ack.toNat).drop 1 else x.out
  let left := ackOut seq.toNat x.out
  let lim := if l.val < 24 then s.rd (F.DL_CTL_REPLAY_LIMIT l) else s.rd (F.PL_CTLk_REPLAY_LIMIT (l.val - 24))
  let live : Prop := s.linkOn l = true ∧ (24 ≤ l.val ∨ s.rd (F.PKG_DIEd_STATE (l.val / 2)) ≠ 3)
  let due : Prop := ∀ g, x.good = some g → p.seq.toNat = (g + 1) % 4096
  let o := if j.val % 2 = 0 then j.val + 1 else j.val - 1
  let st := s.rd (F.PL_STATk_STATE k)
  let near := s.neighbour k
  (live → due → p.crcOk = true → p.chan.val = 7 → answers (exec (.packetReceive l p) s) fun u =>
      (u.lk l).good = some p.seq.toNat ∧ (u.lk l).rewound = false ∧ (u.lk l).out = acked)
  ∧ (live → p.crcOk = false ∧ due ∨ ¬ due ∧ x.rewound = false → answers (exec (.packetReceive l p) s) fun u =>
      u.lk l = { x with rewound := true } ∧ (l.val < 24 → u.rd (F.DL_ERR_CRCERR l) = (s.rd (F.DL_ERR_CRCERR l) + 1) % 2 ^ 32))
  ∧ (live → ¬ due → x.rewound = true → exec (.packetReceive l p) s = .next s)
  ∧ (s.linkOn l = true → (∀ y ∈ left, y.resent < lim) → answers (exec (.nak l seq) s) fun u =>
      (u.lk l).out = left.map (fun y => { y with resent := y.resent + 1 })
        ∧ (l.val < 24 → u.rd (F.DL_ERR_REPLAYS l) = (s.rd (F.DL_ERR_REPLAYS l) + left.length) % 2 ^ 32))
  ∧ (s.linkOn l = true → (∃ y ∈ left, lim ≤ y.resent) → answers (exec (.nak l seq) s) fun u => u.linkOn l = false)
  ∧ (s.dieRunning (j.val / 2) = true → s.dlState o = 2 → s.rd (F.DL_STAT_MOVED j) = 0 → s.dlState j = 2 → answers (exec (.failover j seq) s) fun u =>
      u.dlState j = 0 ∧ u.rd (F.DL_STAT_MOVED j) = 1 ∧ (u.lk j).out = [] ∧ SMap.find? u.group.bound (j.val / 2) = some (if o % 2 = 0 then 1 else 2))
  ∧ (s.gpos < s.groupSize → 2 ^ k.val < s.groupSize → answers (exec (.plReset k) s) fun u => u.rd (F.PL_STATk_STATE k) = 1 ∧ u.rd (F.PL_STATk_REASON k) = 0)
  ∧ (s.groupSize ≤ s.gpos → answers (exec (.plReset k) s) fun u => u.rd (F.PL_STATk_STATE k) = 3 ∧ u.rd (F.PL_STATk_REASON k) = 6)
  ∧ (st = 1 →
    (m.trained = false → answers (exec (.plinkTrain k m) s) fun u => u.rd (F.PL_STATk_STATE k) = 4)
    ∧ (m.trained = true → answers (exec (.plinkTrain k m) s) fun u => u.rd (F.PL_STATk_PEERP k) = m.p
      ∧ u.rd (F.PL_STATk_REASON k) = s.plReason k m ∧ u.rd (F.PL_STATk_STATE k) = if s.plReason k m = 0 then 2 else 3))
  ∧ (st ≠ 0 → st ≠ 4 → answers (exec (.plinkDown k) s) fun u => u.rd (F.PL_STATk_STATE k) = 0 ∧ u.rd (F.PL_STATk_WIDTH k) = 0
      ∧ (st = 2 → s.gpos < 16 → s.member near = true → u.member near = false ∧ (u.rd F.GRP_STAT_LOST).testBit near = true))
  ∧ (q.val ≠ s.gpos → answers (exec (.linkStateNotice q ups) s) fun u => SMap.find? u.group.notices q = some ups.toNat)
  ∧ answers (exec (.fabIdAssign v) s) (fun u => if s.assigned then u.rd F.FAB_ID_G = s.rd F.FAB_ID_G ∧ u.assigned = true
      else u.rd F.FAB_ID_G = fget v 1 8 ∧ u.assigned = bit v 0)

/-- R339, R341 to R346, R355: a general root port: its link comes up, drops and retrains; inbound accesses pass through a window or are
refused and counted; a waiting read takes its completion, or all ones; link power states and the time answer.
Model choices: log 44. -/
def Obligations.RootPorts : Prop := ∀ (s : State) (r p : Fin 4) (c : Fin 3) (addr pa width rate : Nat) (data : List Byte) (line : LineData) (w : WinRef) (cxl pbr : Bool)
    (v : Word) (t : Tid) (d : Rn) (k : Fin 16) (lane : Nat) (rest : List (Option Nat)),
  let s1 := s.wakeLink r
  let x := s.gpx r
  let ends (u : State) (err : FRef) (to_ : Bool) : Prop := u.rd err = min (s.rd err + 1) (2 ^ 16 - 1) ∧ (u.thr t).run = .running
    ∧ (u.thr t).gr d = (if d = 0 then 0 else BitVec.allOnes 64) ∧ (u.gpx r).reads = if to_ then none :: rest else rest
  (s.rootUp r = true →
    (s1.inMsi r addr = false → s1.winMap (iwAll r) addr data.length true = some (pa, w) → s1.targetOk pa data.length = true → s1.portMay r = true →
      exec (.gpInboundWrite r addr data) s = .next (s1.homeWrites (portAgent r) (data.length + 1) pa data (fget (s1.rdw w.attr) 22 10)))
    ∧ (s1.inMsi r addr = false → s1.winMap (iwAll r) addr data.length true = none → answers (exec (.gpInboundWrite r addr data) s) fun u =>
      u.rd (F.GP_ERRr_IN_DROP r) = min (s.rd (F.GP_ERRr_IN_DROP r) + 1) (2 ^ 16 - 1) ∧ (u.rdw (A.GP_LOGr r)).toNat = addr % 2 ^ 64
        ∧ u.rd (F.GP_LOGSr_VALID r) = 1 ∧ u.rd (F.GP_LOGSr_NP r) = 0 ∧ u.mem = s.mem)
    ∧ (s.streamClear r = true → s1.winMap (iwAll r) addr width false = some (pa, w) → s1.targetOk pa width = true →
      let v := s1.homeReads (portAgent r) (width + 1) pa width (fget (s1.rdw w.attr) 22 10)
      answers (exec (.gpInboundRead r addr width) s) fun u => u.answer = some (.data v.1 v.2.1))
    ∧ (s.streamClear r = false → exec (.gpInboundRead r addr width) s = .next s)
    ∧ (s.streamClear r = true → s1.winMap (iwAll r) addr width false = none → answers (exec (.gpInboundRead r addr width) s) fun u => u.answer = some .unsupported
      ∧ u.rd (F.GP_ERRr_IN_UR r) = min (s.rd (F.GP_ERRr_IN_UR r) + 1) (2 ^ 16 - 1) ∧ u.rd (F.GP_LOGSr_NP r) = 1)
    ∧ (s.streamClear r = true → s1.inMsi r addr = true → lane < 8192 → (s1.rd (F.CUEV_MSIM lane)).testBit r = true →
      exec (.inboundMsi r addr (BitVec.ofNat 32 lane)) s = .next (s1.cueRaise lane))
    ∧ (x.reads = some t.val :: rest → (s.thr t).run = .ioWait addr d k → szOf k.val = 8 → k.val = 6 → t.val ∉ s.sec.stepping →
      answers (exec (.pcieCompletion r false v) s) (fun u => ends u (F.GP_ERRr_CPL_ERR r) false)
      ∧ answers (exec (.completionTimeout r) s) (fun u => ends u (F.GP_ERRr_CPL_TO r) true)
      ∧ answers (exec (.pcieCompletion r true v) s) fun u => (u.thr t).gr d = (if d = 0 then 0 else v) ∧ (u.gpx r).reads = rest)
    ∧ answers (exec (.gpLinkLoss r) s) (fun u => u.gpUp r = false ∧ u.rd (F.GP_STATr_LOST r) = 1 ∧ (u.gpx r).reads = [])
    ∧ (s.power = .run → s.gaf.deep = none → answers (exec (.ptmRequest r) s) fun u => u.answer = some (.time (BitVec.ofNat 64 (s.slate.toNat / 8))) ∧ (u.gpx r).aspm = 0))
  ∧ (s.rootUp c = true → s.flag (F.GP_STATr_CXLM c) = true → s.power = .run → s.gaf.deep = none →
    (answers (exec (.cxlCacheRequest c addr true (some line)) s) (fun u => u.answer = some .goErr ∧ u.mem = s.mem)
    ∧ (s.streamClear c = true → exec (.cxlCacheRequest c addr false none) s = exec (.gpInboundRead (Fin.ofNat 4 c) addr 64) s)
    ∧ exec (.cxlCacheRequest c addr false (some line)) s = exec (.gpInboundWrite (Fin.ofNat 4 c) addr (bytesOf 64 line.toNat)) s))
  ∧ (s.endpoint = false →
    (s.rd (F.GP_CTLr_EN r) = 1 → answers (exec (.gpRetrain r) s) fun u => (u.gpx r).training = true ∧ u.gpUp r = false)
    ∧ (x.training = true → width < 16 → answers (exec (.pcieLinkUp r width rate cxl pbr) s) fun u => u.gpUp r = true
      ∧ u.rd (F.GP_STATr_WIDTH r) = width ∧ u.rd (F.GP_STATr_RATE r) = rate % 16 ∧ (u.gpx r).training = false
      ∧ u.rd (F.GP_STATr_CXLM r) = b2n (cxl && r != 3 && s.flag (F.GP_CTLr_CXL r))
      ∧ u.rd (F.GP_STATr_PBR r) = b2n (cxl && r != 3 && s.flag (F.GP_CTLr_CXL r) && pbr)))
  ∧ (s.portUp p = true → (s.gpx p).reads = [] →
    ((s.gpx p).aspm = 0 → s.l0sUs p ≠ 0 → answers (exec (.aspmL0sEntry p) s) fun u => (u.gpx p).aspm = 1 ∧ u.io = s.io)
    ∧ (s.l1Us p ≠ 0 → answers (exec (.aspmL1Entry p true) s) fun u => (u.gpx p).aspm = 2 ∧ u.io = s.io)
    ∧ exec (.aspmL1Entry p false) s = .next s)

/-- R346 to R352, R354: the mirror port: accesses through the active windows and refused ones, commits of new sets, doorbells, remote cuts, the
function's BARs, and its link going down or training again. Model choices: log 45. -/
def Obligations.MirrorPort : Prop := ∀ (s : State) (b : Bool) (win : Fin 3) (i : Fin 16) (ofs len pa : Nat) (data : List Byte) (v : Word),
  let s1 := s.tlp
  let w := b2n b
  let d := fget v 16 3
  let chosen := (if bit v 0 then [0] else []) ++ (if bit v 1 then [1] else [])
  let bad : Prop := ∃ x ∈ chosen, s.setCode x (s.rdw (A.MWx_NLOCAL x)) (s.rdw (A.MWx_NLEN x)) (s.rdw (A.MWx_NATTR x)) ≠ 0
  s.endpoint = true →
  (s.mirUp = true → s.power = .run → s.gaf.deep = none →
    (s1.mwMap w ofs data.length true = some pa → s1.portMay 3 = true → exec (.mirrorInboundWrite b ofs data) s
        = .next (s1.homeWrites (portAgent 3) (data.length + 1) pa data (fget (s1.rdw (A.MWx_ATTR w)) 22 10)))
    ∧ (s1.mwMap w ofs data.length true = none → answers (exec (.mirrorInboundWrite b ofs data) s) fun u => u.mem = s.mem
        ∧ u.rd F.MW_DROP_COUNT = (s.rd F.MW_DROP_COUNT + 1) % 2 ^ 32 ∧ u.rd F.MW_DROP_VALID = 1 ∧ u.rd F.MW_DROP_WIN = w ∧ u.rd F.MW_DROP_NP = 0)
    ∧ (s.streamClear 3 = false → ∀ c ∈ [Instr.mirrorInboundRead win ofs len, .cutDb v, .hostDb i], exec c s = .next s)
    ∧ (s.streamClear 3 = true →
    (win.val ≠ 2 → s1.mwMap win ofs len false = some pa → answers (exec (.mirrorInboundRead win ofs len) s) fun u =>
        let q := s1.homeReads (portAgent 3) (len + 1) pa len (fget (s1.rdw (A.MWx_ATTR win)) 22 10)
        u.answer = some (.data q.1 q.2.1))
    ∧ (win.val ≠ 2 → s1.mwMap win ofs len false = none → answers (exec (.mirrorInboundRead win ofs len) s) fun u => u.answer = some .unsupported
        ∧ u.rd F.MW_DROP_COUNT = (s.rd F.MW_DROP_COUNT + 1) % 2 ^ 32 ∧ u.rd F.MW_DROP_NP = 1)
    ∧ (win.val = 2 → answers (exec (.mirrorInboundRead win ofs len) s) fun u => ∃ bs, u.answer = some (.data bs false) ∧ bs.length = len)
    ∧ (s.domEn d = true → s.flag (F.TDn_CFG_MIRTRIG d) = true → s.spoiled d = true → answers (exec (.cutDb v) s) fun u =>
        u.rd (F.MIR_RCn_STATE d) = 3 ∧ u.rd (F.MIR_RCn_SEQ d) = fget v 0 16 ∧ u.rdw (A.MIR_RCTn d) = s.view 47 d)
    ∧ (s.domEn d = true → s.flag (F.TDn_CFG_MIRTRIG d) = true → s.spoiled d = false → s.rolling d = false → s.follows d = false →
        s.rd (F.TDn_STAT_CUTTING d) = 0 → s.cutTake d < (s.view 47 d).toNat → answers (exec (.cutDb v) s) fun u => u.rd (F.MIR_RCn_STATE d) = 1
        ∧ u.rd (F.MIR_RCn_SEQ d) = fget v 0 16 ∧ u.rdw (A.MIR_RCTn d) = s.view 47 d ∧ u.rd (F.TDn_STAT_CUTTING d) = 1
        ∧ u.rd (F.TDn_TAKE_OPEN d) = (s.openTake d + 1) % 2 ^ 64)
    ∧ (s.domEn d = false ∨ s.flag (F.TDn_CFG_MIRTRIG d) = false → answers (exec (.cutDb v) s) fun u =>
        u.rd (F.MIR_RCn_STATE d) = 4 ∧ u.rd (F.MIR_RCn_SEQ d) = fget v 0 16 ∧ u.rdw (A.MIR_RCTn d) = 0)
    ∧ ((s.rd F.MIR_DB_PEND).testBit i = false → answers (exec (.hostDb i) s) fun u => (u.rd F.MIR_DB_PEND).testBit i = true))
    ∧ answers (exec (.mirrorConfigRequest true 0x14 v) s) (fun u => fget u.mir.bar0 32 32 = fget v 0 32 ∧ u.mir.bar2 = s.mir.bar2 ∧ u.mir.bar4 = s.mir.bar4)
    ∧ answers (exec (.mirrorConfigRequest false 0x14 v) s) (fun u => u.answer = some (.value (BitVec.ofNat 64 (fget s.mir.bar0 32 32))) ∧ u.mir.bar0 = s.mir.bar0)
    ∧ answers (exec .mirrorLinkDown s) (fun u => s.rd F.MIR_CTL_EN = 1 → u.rd F.MIR_STAT_UP = 0 ∧ u.rd F.MIR_STAT_LOST = 1
        ∧ u.mir.bar0 = 0 ∧ u.mir.bar2 = 0 ∧ u.mir.bar4 = 0 ∧ u.mir.commit = []
        ∧ ∀ k, k < 8 → u.rd (F.MIR_RCn_STATE k) = if s.rd (F.MIR_RCn_STATE k) = 1 then 5 else s.rd (F.MIR_RCn_STATE k)))
  ∧ (s.rd F.MIR_CTL_EN = 1 → answers (exec .mirRetrain s) fun u => (u.gpx 3).training = true ∧ u.rd F.MIR_STAT_UP = 0)
  ∧ (chosen ≠ [] → s.rd F.MW_COMMIT_BUSY = 0 →
    (bad → answers (exec (.mwCommit v) s) fun u => u.rd F.MW_COMMIT_REFUSED = 1 ∧ u.rd F.MW_COMMIT_REASON ≠ 0 ∧ u.rd F.MW_COMMIT_BUSY = 0)
    ∧ (¬ bad → s.mirUp = true → answers (exec (.mwCommit v) s) fun u => u.rd F.MW_COMMIT_BUSY = 1
        ∧ u.mir.commit = chosen.map fun x => (x, s.rdw (A.MWx_NLOCAL x), s.rdw (A.MWx_NLEN x), s.rdw (A.MWx_NATTR x)))
    ∧ (¬ bad → s.mirUp = false → answers (exec (.mwCommit v) s) fun u => u.rd F.MW_COMMIT_BUSY = 0 ∧ ∀ x ∈ chosen,
        u.rdw (A.MWx_LOCAL x) = s.rdw (A.MWx_NLOCAL x) ∧ u.rdw (A.MWx_LEN x) = s.rdw (A.MWx_NLEN x) ∧ u.rdw (A.MWx_ATTR x) = s.rdw (A.MWx_NATTR x)))

/-- R361 to R366, R368, R369, R371, R373, R374: a runner function: its tail, enable and depth, the fetch of a descriptor, its operations, stated
whole for data of one line (COPY, CRC, CSUM), one unit (FILL) or one posted write (SHIP), its record, and its resets.
Model choices: log 46. -/
def Obligations.Runners : Prop := ∀ (s : State) (f : Fin 256) (e : Fin 32) (v : Word) (j : Job) (rest : List Job) (src dst pa n st res left k : Nat) (bs : List Byte) (q : State)
    (g : Nat) (pois : Bool),
  let x := s.vrf f
  let ks := s.vrfKs f
  let head := s.rd (F.VRF_SQHEAD_HEAD f)
  let stopped (u : State) (why : Nat) : Prop := u.rd (F.VRF_STAT_STOPPED f) = 1 ∧ u.rd (F.VRF_STAT_ERR f) = why
  let goes (op : Nat) : Prop := x.jobs = j :: rest ∧ j.engine = none ∧ j.ended = none ∧ j.pos = 0 ∧ j.op = op ∧ j.len = n ∧ 0 < n
    ∧ s.flag (F.VRH_CTL_QUIESCE f) = false ∧ (s.engines f)[Config.freeNat s.freeCtr % (s.engines f).length]? = some e.val
  let port := s.rd (F.VRH_CTL_SHIPPORT f)
  let j' : Job := { j with engine := some e.val, port := port, cls := s.vmClass (s.rd (F.VRH_CTL_VMID f)) }
  let ended (z : State) (acc r : Nat) : State := (z.setJob f 0 { j' with pos := n, acc := acc, ended := some (0, r) }).vrfActive f
  let reads : Prop := s.vrfMap f (j.w 1).toNat n false = some src ∧ n ≤ 64 - src % 64 ∧ s.tick.homeReads (rnAgent e f) 2 src n ks = (bs, false, q)
  let gone (u : State) : Prop := (u.vrf f).jobs = [] ∧ (u.vrf f).next = none ∧ u.vrfOn f = false ∧ u.flag (F.VRH_CTL_QUIESCE f) = false
  (s.vrfHere f = true →
    answers (exec (.vrfSqtail f v) s) (fun u => u.rd (F.VRF_SQTAIL_TAIL f) = fget v 0 16
      ∧ (s.vrfOn f = true → s.vrfDepth f < (fget v 0 16 + 65536 - head) % 65536 → stopped u 1))
    ∧ (s.rd (F.VRH_CTL_ALLOW f) = 1 → answers (exec (.vrfEn f v) s) fun u => u.vrfOn f = bit v 0)
    ∧ (s.rd (F.VRH_CTL_ALLOW f) = 0 → exec (.vrfEn f v) s = .next s)
    ∧ (4 ≤ fget v 8 5 → fget v 8 5 ≤ 15 → answers (exec (.vrfNlog2Write f v) s) fun u =>
        if s.vrfOn f then (u.vrf f).next = some (fget v 8 5) ∧ u.vrfDepth f = s.vrfDepth f else u.vrfDepth f = 2 ^ fget v 8 5)
    ∧ (s.rnQuiesce = false → s.rd (F.VRH_STAT_RSTBUSY f) = 0 → answers (exec (.vrfResetGen f) s) fun u => gone u
        ∧ u.rd (F.VRF_STAT_GEN f) = (s.rd (F.VRF_STAT_GEN f) + 1) % 256)
    ∧ (s.flag (F.VRH_CTL_QUIESCE f) = false → answers (exec (.vrfQuiesce f) s) fun u => u.flag (F.VRH_CTL_QUIESCE f) = true
        ∧ (u.vrf f).jobs = x.jobs.map fun y => if y.engine.isSome && y.ended.isNone then { y with ended := some (1, 0) } else y))
  ∧ (x.next = some k → k < 32 → s.vrfOn f = true → head = s.rd (F.VRF_SQTAIL_TAIL f) → s.rd (F.VRF_CQHEAD_HEAD f) = s.rd (F.VRF_CQTAIL_TAIL f) → x.jobs = [] →
      answers (exec (.ringResize f) s) fun u => u.vrfDepth f = 2 ^ k ∧ u.rd (F.VRF_SQHEAD_HEAD f) = 0 ∧ u.rd (F.VRF_SQTAIL_TAIL f) = 0
        ∧ u.rd (F.VRF_CQHEAD_HEAD f) = 0 ∧ u.rd (F.VRF_CQTAIL_TAIL f) = 0 ∧ u.rd (F.VRF_STAT_RESIZED f) = 1 ∧ (u.vrf f).next = none)
  ∧ (s.vrfFetches f = true →
      let at_ := s.vrfMap f (s.rd (F.VRF_SQBASE_BASE f) * 4096 + head % s.vrfDepth f * 64) 64 false
      (at_ = none → answers (exec (.descriptorFetch f) s) fun u => stopped u 2)
      ∧ (at_ = some pa → s.homeReads hubAgent 65 pa 64 ks = (bs, pois, q) → answers (exec (.descriptorFetch f) s) fun u =>
        if pois then stopped u 3
        else u.rd (F.VRF_SQHEAD_HEAD f) = (head + 1) % 65536 ∧ ∃ y : Job, (u.vrf f).jobs = x.jobs ++ [y] ∧ y.index = head ∧ y.dw = dwsOf bs
          ∧ y.engine = none ∧ y.ended = if y.bad then some (4, 0) else none))
  ∧ (goes 1 → reads → s.vrfMap f (j.w 2).toNat n true = some dst → exec (.runCopy f) s = .next (ended (q.homeWrites (rnAgent e f) 3 dst bs ks) j.acc 0))
  ∧ (goes 1 → s.vrfMap f (j.w 2).toNat n true = none → exec (.runCopy f) s
      = .next ((s.tick.setJob f 0 { j' with ended := some (2, 0) }).vrfActive f))
  ∧ (goes 2 → n ≤ 4096 → s.vrfMap f (j.w 2).toNat n true = some dst → exec (.runFill f) s = .next (ended (s.tick.homeWrites (rnAgent e f) (n + 1) dst
      ((List.range n).map fun i => BitVec.ofNat 8 (fget (j.w 3) (8 * (i % 8)) 8)) ks) 0 0))
  ∧ (goes 3 → reads → let c := (crc32c (BitVec.ofNat 32 j.acc) bs).toNat
      exec (.runCrc f) s = .next (ended q c c))
  ∧ (goes 4 → reads → let c := fold16 (j.acc + sum16 bs 0)
      exec (.runCsum f) s = .next (ended q c (65535 - c)))
  ∧ (goes 5 → n ≤ 512 → j.db = false → s.rd (F.VRH_CTL_SHIPEN f) = 1 → s.rootUp port = true →
      s.vrfMap f (j.w 1).toNat n false = some src → s.tick.homeReads (rnAgent e f) (n + 1) src n ks = (bs, false, q) → bs.length = n →
      exec (.runShip f) s = .next (ended ((q.linkAwake port).say (.post port (j.w 2).toNat bs)) 0 0))
  ∧ (s.engineMay e = true → s.nextTurn e = some (g, left) → (s.vrf g).jobs = j :: rest → j.busy = true → j.engine = some e.val →
      let z : State := { s with turns := SMap.put s.turns e.val (g, left) }
      exec (.runnerUnitDone e) s = .next (((z.runUnit g e.val j).1.setJob g 0 (z.runUnit g e.val j).2).vrfActive g))
  ∧ (x.jobs = j :: rest → j.ended = some (st, res) → x.cues = 0 → s.jobSettled f j = true →
      let tail := s.rd (F.VRF_CQTAIL_TAIL f)
      let at_ := s.vrfMap f (s.rd (F.VRF_CQBASE_BASE f) * 4096 + tail % s.vrfDepth f * 16) 16 true
      let w := res % 2 ^ 32 * 2 ^ 32 + (if s.rnQuiesce then f.val else s.rd (F.VRF_STAT_GEN f)) % 256 * 2 ^ 24 + st * 2 ^ 16 + j.index
      let counted (u : State) : Prop := (u.vrf f).jobs = rest ∧ u.rd (F.VRF_CQTAIL_TAIL f) = (tail + 1) % 65536
        ∧ u.rd (F.VRH_STAT_FAULTS f) = if 2 ≤ st then min (s.rd (F.VRH_STAT_FAULTS f) + 1) (2 ^ 16 - 1) else s.rd (F.VRH_STAT_FAULTS f)
      (at_ = none → j.sent = false → answers (exec (.completionRecord f) s) fun u => stopped u 2)
      ∧ (at_ = some pa → j.sent = false → j.cue = false → answers (exec (.completionRecord f) s) fun u =>
        let z := s.homeWrites (j.agent f) 17 pa (bytesOf 8 (j.w 4).toNat ++ bytesOf 8 w) ks
        u.mem = z.mem ∧ u.lines = z.lines ∧ (z.jobSettled f j = true → counted u)
          ∧ (z.jobSettled f j = false → (u.vrf f).jobs = { j with sent := true } :: rest ∧ u.rd (F.VRF_CQTAIL_TAIL f) = tail))
      ∧ (j.sent = true → j.cue = false → answers (exec (.completionRecord f) s) fun u => counted u ∧ u.mem = s.mem ∧ u.lines = s.lines))
  ∧ (s.rnQuiesce = true → s.rd (F.VRH_STAT_RSTBUSY f) = 0 →
      (s.rd (F.VRF_STAT_QUIESCED f) = 0 → answers (exec (.vrfResetQuiesce f) s) fun u => u.rd (F.VRH_STAT_RSTREF f) = 1 ∧ u.vrfs = s.vrfs)
      ∧ (s.rd (F.VRF_STAT_QUIESCED f) = 1 → answers (exec (.vrfResetQuiesce f) s) gone))
  ∧ (s.flag (F.VRH_CTL_QUIESCE f) = true → (∀ y ∈ x.jobs, y.engine = none) → s.vrfSettled f = true → answers (exec (.vrfQuiesced f) s) fun u =>
      u.rd (F.VRF_STAT_QUIESCED f) = 1 ∧ u.vrfs = s.vrfs)
  ∧ (s.vrfHere f = true → answers (exec (.lateResponse f) s) fun u => u.rd (F.VRF_STAT_LATE f)
      = if s.rnQuiesce then s.rd (F.VRF_STAT_LATE f) else (s.rd (F.VRF_STAT_LATE f) + 1) % 2 ^ 32)

/-- R54, R376, R380, R381, R418: QoS classes are given lowest first and class 63 shared; a virtual machine reset withdraws its vectors and gives
its class back; a raise of a physical vector pends it or is counted; a cue and an asynchronous machine check are taken through the
primary set of their level. Model choices: log 34. -/
def Obligations.CuesAndMachines : Prop := ∀ (s : State) (v : Word) (k : Fin 8192) (t : Tid) (lvl c : Nat) (cue : Cue) (code : Nat) (v0 : Word) (rest : List (Nat × Word))
    (r : Bool),
  let vm := fget v 0 12
  let free (y : Nat) : Bool := (s.rd F.QOS_FREE_FREE).testBit y
  let fns := s.vmFns vm
  let x := s.thr t
  let b := 0x10 + (lvl - 1) * 0x20
  let dropped (u : State) : Prop := u.rd F.CUE_STAT_DROP = (s.rd F.CUE_STAT_DROP + 1) % 2 ^ 32 ∧ u.threads = s.threads
  (bit v 12 = true → s.flag (F.QOS_MAPv_V vm) = false →
    (0 < c → c < 64 → free c = true → (∀ y, 0 < y → y < c → free y = false) → answers (exec (.qosAlloc v) s) fun u =>
      u.rd (F.QOS_MAPv_V vm) = 1 ∧ u.rd (F.QOS_MAPv_SH vm) = 0 ∧ u.rd (F.QOS_MAPv_CLASS vm) = c ∧ (u.rd F.QOS_FREE_FREE).testBit c = false
        ∧ ∀ y, y ≠ c → (u.rd F.QOS_FREE_FREE).testBit y = free y)
    ∧ ((∀ y, 0 < y → y < 64 → free y = false) → answers (exec (.qosAlloc v) s) fun u => u.rd (F.QOS_MAPv_V vm) = 1 ∧ u.rd (F.QOS_MAPv_SH vm) = 1
      ∧ u.rd (F.QOS_MAPv_CLASS vm) = 63 ∧ u.rd F.QOS_STAT_SHARE63 = (s.rd F.QOS_STAT_SHARE63 + 1) % 2 ^ 16))
  ∧ (bit v 12 = true → s.rd F.VMRST_STAT_BUSY = 0 →
    (vm = 0 → answers (exec (.vmrstCmd v) s) fun u => u.rd F.VMRST_STAT_RESULT = 3 ∧ u.vrfs = s.vrfs)
    ∧ (vm ≠ 0 → s.rnQuiesce = true → (∃ f ∈ fns, s.vrfOn f = true ∧ s.rd (F.VRF_STAT_QUIESCED f) = 0) → answers (exec (.vmrstCmd v) s) fun u =>
      u.rd F.VMRST_STAT_RESULT = 2 ∧ u.vrfs = s.vrfs)
    ∧ (vm ≠ 0 → s.rnQuiesce = false ∨ (∀ f ∈ fns, s.vrfOn f = true → s.rd (F.VRF_STAT_QUIESCED f) = 1) → answers (exec (.vmrstCmd v) s) fun u =>
      u.rd F.VMRST_STAT_RESULT = 1 ∧ u.rd F.VMRST_STAT_VMID = vm ∧ u.rd F.VMRST_STAT_VRFS = fns.length % 256 ∧ u.rd (F.QOS_MAPv_V vm) = 0
        ∧ (∀ f ∈ fns, (u.vrf f).jobs = [] ∧ u.vrfOn f = false)
        ∧ ∀ y, y < 8192 → s.rd (F.CUEV_VMID y) = vm → u.rd (F.CUEV_V y) = 0 ∧ u.rd (F.CUEV_PEND y) = 0))
  ∧ (s.rd (F.CUEV_V k) = 0 → answers (exec (.cueRaise k) s) dropped)
  ∧ (s.rd (F.CUEV_V k) = 1 → s.rd (F.CUEV_VIRT k) = 0 → s.rd (F.CUEV_TARGET k) < 2 ^ 22 →
    (s.cueTarget (s.rd (F.CUEV_TARGET k)) = none → answers (exec (.cueRaise k) s) dropped)
    ∧ (s.cueTarget (s.rd (F.CUEV_TARGET k)) = some t.val → answers (exec (.cueRaise k) s) fun u => u.rd (F.CUEV_PEND k) = 1
      ∧ u.rd F.CUE_STAT_DROP = s.rd F.CUE_STAT_DROP ∧ u.threads = s.threads))
  ∧ (s.atBoundary t = true → s.mcDue t = false → x.enc = false → s.cueNow t = some (lvl, cue) → answers (exec (.cueTake t) s) fun u =>
      (u.thr t).c (b + 1) = x.pc ∧ (u.thr t).c (b + 5) = BitVec.ofNat 64 (fget (x.c 0) 0 7) ∧ fget ((u.thr t).c (b + 3)) 0 9 = cue.code + 256
        ∧ (u.thr t).c (b + 4) = cue.val ∧ bit ((u.thr t).c (b + 7)) 0 = true ∧ fget ((u.thr t).c 0) 0 2 = lvl ∧ bit ((u.thr t).c 0) 4 = false
        ∧ (u.thr t).pc = x.c b + 0x200 ∧ (u.thr t).slot = none ∧ (u.thr t).run = .running ∧ (∀ y, (u.thr t).gr y = x.gr y)
        ∧ (cue.code = 0 → u.rd (F.CUEV_PEND cue.val.toNat) = 0))
  ∧ (s.mcPend = (code, v0) :: rest → s.mcRoute = some (t.val, r) → s.atBoundary t = true → x.mcOpen = true → x.enc = false → 0x80 ≤ code → code < 256 →
      answers (exec .mcAsyncTake s) fun u => u.mcPend = rest ∧ (u.thr t).c 0x51 = x.pc ∧ fget ((u.thr t).c 0x53) 0 8 = code
        ∧ (bit (x.c 0x070) 1 = false → (u.thr t).c 0x54 = v0) ∧ fget ((u.thr t).c 0) 0 2 = 3 ∧ (u.thr t).pc = x.c 0x50 + 0x500
        ∧ bit ((u.thr t).c 0x070) 0 = true ∧ (∀ y, (u.thr t).gr y = x.gr y) ∧ u.rd F.MC_GSTAT_PENDING = 0 ∧ (r = true → u.rd F.MC_GSTAT_REROUTED = 1))

/-- R383, R389 to R391, R394, R395, R407 to R411: the enclave engine's results, which stand behind its checks in their order, and its
measurements; key slots loaded and erased; a debug certificate passed or refused with its reason; what a debugger does to a thread.
Model choices: log 47, 48, 59. -/
def Obligations.EnclavesAndKeys : Prop := ∀ (s : State) (k : Fin 1024) (e ks : Nat) (sig : Bool) (bs : List Byte) (q : State) (t : Tid) (r : Rn) (v : Word) (a : Nat) (b : Byte),
  let arg (i : Nat) : Word := s.rdw (A.ENC_ARGk i)
  let id := fget (arg 0) 0 12
  let res (i : Instr) (c : Nat) : Prop := answers (exec i s) fun u => u.rd F.ENC_STAT_RESULT = c
  let saveOk : Bool := s.memRegion (granOf (arg 2)) && s.ownIn (granOf (arg 2)) && ownType (s.ownEntry (granOf (arg 2))) == 0
  let tgt := granOf (arg 1)
  let tgtOk : Bool := s.memRegion tgt && s.ownIn tgt && s.inMap tgt && ownType (s.ownEntry tgt) == 0
  let meas := SMap.get [] s.sec.meas id
  let kres (i : Instr) (c : Nat) : Prop := answers (exec i s) fun u => u.rd F.KS_STAT_RESULT = c ∧ u.keyIds = s.keyIds ∧ u.lines = s.lines
  let x := s.thr t
  (s.rd F.ENCT_BASE_V = 0 → ∀ i ∈ [Instr.enclaveCreate, .enclaveAdd, .enclaveFinal, .enclaveRemove, .enclaveDestroy, .enclaveSlotclr], res i 8)
  ∧ (s.rd F.ENCT_BASE_V = 1 →
    ((List.range 4096).find? (fun y => y != 0 && s.encState y == 0) = none → res .enclaveCreate 3)
    ∧ ((List.range 4096).find? (fun y => y != 0 && s.encState y == 0) = some e →
      ((List.range 1024).find? (fun y => !s.ksValid y) = none → res .enclaveCreate 2)
      ∧ ((List.range 1024).find? (fun y => !s.ksValid y) = some ks →
        (saveOk = false → res .enclaveCreate 5)
        ∧ (saveOk = true → answers (exec .enclaveCreate s) fun u => u.rd F.ENC_STAT_RESULT = 1 ∧ u.rd F.ENC_STAT_ID = e
          ∧ u.rd (F.KS_ATTRs_V ks) = 1 ∧ u.rd (F.KS_ATTRs_ENC ks) = 1 ∧ u.rd (F.KS_ATTRs_ENCID ks) = e
          ∧ SMap.get [] u.sec.meas e = measRec 1 (arg 1) (BitVec.ofNat 64 (fget (arg 0) 12 1 + fget (arg 0) 13 2 * 2 + fget (arg 0) 15 3 * 8)) [])))
    ∧ (s.encState id ≠ 1 → res .enclaveAdd 4 ∧ res .enclaveFinal 4)
    ∧ (s.encState id = 1 →
      (tgtOk = false → res .enclaveAdd 5)
      ∧ (tgtOk = true → bit (arg 0) 14 = true →
        (canonical (arg 3) = false ∨ (arg 3).toNat % 2 ^ 14 ≠ 0 → res .enclaveAdd 6)
        ∧ (canonical (arg 3) = true → (arg 3).toNat % 2 ^ 14 = 0 → answers (exec .enclaveAdd s) fun u => u.rd F.ENC_STAT_RESULT = 1
          ∧ SMap.get [] u.sec.meas id = meas ++ measRec 2 (arg 3) (BitVec.ofNat 64 (fget (arg 0) 12 1 + fget (arg 0) 13 1 * 2 + 4)) (digestBytes (zeros 16384))))
      ∧ (tgtOk = true → bit (arg 0) 14 = false → s.homeReads hubAgent 257 (granOf (arg 2)) 16384 0 = (bs, false, q) → (s.regionOf (granOf (arg 2))).isSome = true →
        canonical (arg 3) = true → (arg 3).toNat % 2 ^ 14 = 0 → q.sec = s.sec → answers (exec .enclaveAdd s) fun u => u.rd F.ENC_STAT_RESULT = 1
          ∧ SMap.get [] u.sec.meas id = meas ++ measRec 2 (arg 3) (BitVec.ofNat 64 (fget (arg 0) 12 1 + fget (arg 0) 13 1 * 2)) (digestBytes bs))
      ∧ answers (exec .enclaveFinal s) fun u => u.rd F.ENC_STAT_RESULT = 1 ∧ SMap.find? u.sec.meas id = none)
    ∧ (s.encBusy id = true → res .enclaveRemove 4 ∧ res .enclaveDestroy 4)
    ∧ (s.encBusy id = false →
      (ownType (s.ownEntry tgt) ≠ 2 ∨ ownEnc (s.ownEntry tgt) ≠ id ∨ tgt = granOf (s.entDw id 2) → res .enclaveRemove 5)
      ∧ (ownType (s.ownEntry tgt) = 2 → ownEnc (s.ownEntry tgt) = id → tgt ≠ granOf (s.entDw id 2) → res .enclaveRemove 1)
      ∧ (1 < fget (s.entDw id 3) 32 32 → res .enclaveDestroy 7) ∧ (fget (s.entDw id 3) 32 32 ≤ 1 → res .enclaveDestroy 1))
    ∧ (s.encState id = 2 ∧ fget (arg 1) 0 3 ≤ fget (s.entDw id 0) 5 3 → res .enclaveSlotclr 1)
    ∧ (s.encState id ≠ 2 ∨ fget (s.entDw id 0) 5 3 < fget (arg 1) 0 3 → res .enclaveSlotclr 4))
  ∧ (k = 0 → ∀ i ∈ [Instr.loadRandom k, .loadSealed k, .ksClear k], kres i 2)
  ∧ (k ≠ 0 → s.ksValid k = true → ∀ i ∈ [Instr.loadRandom k, .loadSealed k], kres i 5)
  ∧ (k ≠ 0 → s.ksValid k = false →
    answers (exec (.loadRandom k) s) (fun u => u.rd F.KS_STAT_RESULT = 1 ∧ u.rd (F.KS_ATTRs_V k) = 1 ∧ u.rd (F.KS_ATTRs_KIND k) = 1
      ∧ u.rd (F.KS_ATTRs_ENC k) = 0 ∧ SMap.find? u.keyIds k = some (2 * s.nextId + 3) ∧ u.nextId = s.nextId + 1)
    ∧ (s.sec.sealOff = true → kres (.loadSealed k) 4)
    ∧ (s.sec.sealOff = false → answers (exec (.loadSealed k) s) fun u => u.rd F.KS_STAT_RESULT = 1 ∧ u.rd (F.KS_ATTRs_V k) = 1
      ∧ u.rd (F.KS_ATTRs_KIND k) = 2 ∧ SMap.find? u.sec.ledger k = some (s.rdw A.KS_LABEL1 ++ s.rdw A.KS_LABEL0)))
  ∧ (k ≠ 0 → s.rd (F.KS_ATTRs_ENC k) = 1 → kres (.ksClear k) 3)
  ∧ (k ≠ 0 → s.rd (F.KS_ATTRs_ENC k) = 0 → answers (exec (.ksClear k) s) fun u => u.rd F.KS_STAT_RESULT = 1 ∧ u.ksValid k = false
      ∧ SMap.find? u.keyIds k = none ∧ SMap.find? u.sec.ledger k = none ∧ ∀ l, (s.line l).kslot = k.val → (u.line l).held = false)
  ∧ (s.dbgReason sig ≠ 0 → answers (exec (.dbgCheck sig) s) fun u => u.rd F.PKG_DBG_FAIL = 1 ∧ u.rd F.PKG_DBG_REASON = s.dbgReason sig
      ∧ u.rd F.PKG_DBG_STATE = s.rd F.PKG_DBG_STATE ∧ u.rdw A.DBG_NONCE = Config.freeWord s.freeCtr)
  ∧ (s.dbgReason sig = 0 → answers (exec (.dbgCheck sig) s) fun u => u.rd F.PKG_DBG_FAIL = 0 ∧ u.rd F.PKG_DBG_STATE = s.dbgWant
      ∧ (s.dbgWant = 2 → u.sec.sealOff = true ∧ u.rd F.DBG_AUTH_NLEVEL = 2 ∧ u.rd F.DBG_AUTH_SLEVEL = 2 ∧ ∀ y, 1 ≤ y → y < 1024 → u.ksValid y = false))
  ∧ (s.tapOn = false → ∀ op, exec (.jtagDebugAccess op) s = .next s)
  ∧ (s.tapOn = true →
    (s.dbgThread t = false → ∀ op ∈ [JtagOp.halt t, .resume t, .step t, .readG t r, .writeG t r v], exec (.jtagDebugAccess op) s = .next s)
    ∧ (s.dbgThread t = true →
      (x.run = .running → answers (exec (.jtagDebugAccess (.halt t)) s) fun u => u.thr t = { x with run := .debugHalt })
      ∧ (x.run = .debugHalt → answers (exec (.jtagDebugAccess (.resume t)) s) (fun u => u.thr t = { x with run := .running } ∧ u.sec = s.sec)
        ∧ answers (exec (.jtagDebugAccess (.step t)) s) (fun u => u.thr t = { x with run := .running } ∧ t.val ∈ u.sec.stepping)
        ∧ answers (exec (.jtagDebugAccess (.readG t r)) s) (fun u => u.answer = some (.value (s.g t r)) ∧ u.threads = s.threads)
        ∧ answers (exec (.jtagDebugAccess (.writeG t r v)) s) fun u => u.g t r = if r = 0 then 0 else v))
    ∧ ((s.dbgReg a).isNone = true → exec (.jtagDebugAccess (.readReg a)) s = .next s ∧ exec (.jtagDebugAccess (.writeReg a v)) s = .next s)
    ∧ (∀ w, s.dbgMem w a = false → exec (.jtagDebugAccess (.readMem w a)) s = .next s ∧ exec (.jtagDebugAccess (.writeMem w a b)) s = .next s)
    ∧ ∃ y, answers (exec (.jtagDebugAccess .boundaryScan) s) fun u => u.answer = some (.value y) ∧ u.threads = s.threads ∧ u.io = s.io)

/-- R405, R412, R415, R418, R426, R429, R431 to R433: core sparing from its start to the mapping of a spare, the fencing of a die with its
record, and the clearing of banks and records. Model choices: log 41, 54. -/
def Obligations.Containment : Prop := ∀ (s : State) (d : DieNo) (l : Fin 18) (lvl : Lvl) (x : SpareSt) (n p : Nat) (b : Fin 354) (r : BankRec),
  let m : Lvl := 3
  let t (th : Nat) : Nat := 36 * d.val + 2 * l.val + th
  let fenced (u : State) : Prop := u.rd (F.PKG_DIEd_STATE d) = 3 ∧ d.val ∈ u.reclaims ∧ u.dlState (2 * d.val) ≠ 1 ∧ u.dlState (2 * d.val) ≠ 2
    ∧ u.dlState (2 * d.val + 1) ≠ 1 ∧ u.dlState (2 * d.val + 1) ≠ 2
  (lvl ≠ m → ∀ c ∈ [Instr.coreSpareGo d l lvl, .dieFence d lvl, .mcBankClear b lvl, .mcDiebankClear d lvl], exec c s = .next s)
  ∧ (s.rd (F.CORE_SPARE_BUSY d) = 1 → exec (.coreSpareGo d l m) s = .next s)
  ∧ (s.dieRunning d = false → ∀ y, exec (.coreSpareGo d l y) s = .next s)
  ∧ (s.rd (F.CORE_SPARE_BUSY d) = 0 → s.dieRunning d = true →
    (s.populated d l = false → answers (exec (.coreSpareGo d l m) s) fun u => u.rd (F.CORE_SPARE_RESULT d) = 3 ∧ u.threads = s.threads ∧ u.cores = s.cores)
    ∧ (s.populated d l = true → answers (exec (.coreSpareGo d l m) s) fun u => u.rd (F.CORE_SPARE_BUSY d) = 1 ∧ u.rd (F.CORE_SPARE_LOGICAL d) = l
      ∧ u.rd (F.CORE_MAPl_INC d l) = (s.rd (F.CORE_MAPl_INC d l) + 1) % 16 ∧ (s.phys d l < 20 → (u.rd (F.CORE_PHYS_DEAD d)).testBit (s.phys d l) = true)
      ∧ (u.core (18 * d.val + l.val)).stopped = true ∧ (u.thrN (t 0)).storeQ = [] ∧ (u.thrN (t 1)).storeQ = []
      ∧ SMap.find? u.sparing d = some ⟨l, s.phys d l, false⟩))
  ∧ (SMap.find? s.sparing d = some x →
    (x.drain = false → answers (exec (.spareL1Answer d) s) (fun u => SMap.find? u.sparing d = some { x with drain := true } ∧ u.io = s.io ∧ u.lines = s.lines)
      ∧ (x.l = l.val → answers (exec (.spareL1Timeout d l) s) fun u => SMap.find? u.sparing d = some { x with drain := true } ∧ u.rd (F.CORE_SPARE_L1LOST d) = 1)
      ∧ (x.l ≠ l.val → exec (.spareL1Timeout d l) s = .next s))
    ∧ (x.drain = true → x.l = l.val →
      (s.lowSpare d = some p → answers (exec (.spareDrainDone d n) s) fun u => u.rd (F.CORE_MAPl_PHYS d l) = p ∧ u.rd (F.CORE_SPARE_RESULT d) = 1
        ∧ u.rd (F.CORE_SPARE_BUSY d) = 0 ∧ SMap.find? u.sparing d = none ∧ u.rd (F.STALE_SPEAKERd_CORE d) = (s.rd (F.STALE_SPEAKERd_CORE d) + n) % 2 ^ 32
        ∧ ∀ th, th < 2 → (u.thrN (t th)).run = .running ∧ (u.thrN (t th)).pl = 3 ∧ (u.thrN (t th)).pc = crReset 0x50 + 0x500
          ∧ fget ((u.thrN (t th)).c 0x53) 0 9 = 0x91 ∧ ∀ g, (u.thrN (t th)).gr g = 0)
      ∧ (s.lowSpare d = none → answers (exec (.spareDrainDone d n) s) fun u => u.populated d l = false ∧ u.rd (F.CORE_SPARE_RESULT d) = 2
        ∧ u.rd (F.CORE_SPARE_BUSY d) = 0 ∧ SMap.find? u.sparing d = none ∧ u.thrN (t 0) = Thread.reset ∧ u.thrN (t 1) = Thread.reset)))
  ∧ (s.dieRunning d = true →
    answers (exec (.dieFence d m) s) fenced
    ∧ answers (exec (.fatalDieReport d (some r)) s) (fun u => fenced u ∧ u.rdw (A.MC_DIEFATALd d 0) = r.status ∧ u.rdw (A.MC_DIEFATALd d 1) = r.addr
      ∧ u.rdw (A.MC_DIEFATALd d 2) = r.misc ∧ u.rdw (A.MC_DIEFATALd d 3) = r.slate ∧ u.rd (F.MC_DIEBANKd_BANK d) = r.bank % 512 ∧ u.rd (F.MC_DIEBANKd_V d) = 1)
    ∧ answers (exec (.fatalDieReport d none) s) fun u => fenced u ∧ u.rd (F.MC_DIEBANKd_BANK d) = 341 + d.val ∧ u.rd (F.MC_DIEBANKd_V d) = 1)
  ∧ (s.dieRunning d = false → exec (.dieFence d m) s = .next s)
  ∧ (d.val ∈ s.reclaims → answers (exec (.fenceReclaimDone d) s) fun u => d.val ∉ u.reclaims ∧ (0x92, BitVec.ofNat 64 d.val) ∈ u.mcPend)
  ∧ answers (exec (.mcBankClear b m) s) (fun u => u.rdw (A.MCb_STATUS b) = 0 ∧ u.rdw (A.MCb_ADDR b) = 0 ∧ u.rdw (A.MCb_MISC b) = 0 ∧ u.rdw (A.MCb_SLATE b) = 0
      ∧ ∀ a, a < A.MCb_STATUS b ∨ A.MCb_STATUS b + 32 ≤ a → u.rdw a = s.rdw a)
  ∧ answers (exec (.mcDiebankClear d m) s) (fun u => u.rdw (A.MC_DIEBANKd d) = 0 ∧ ∀ k, k < 4 → u.rdw (A.MC_DIEFATALd d k) = 0)

/-- R405, R406, R442 to R448, R451, R452, R455: the gaffer: its sample and the cap, one root step, the mailbox requests with their results, the
entry into and the exit from DEEP, SLEEP, and a thermal emergency with its grace time.
Model choices: log 49, 50. -/
def Obligations.GafferRequests : Prop := ∀ (s : State) (g : GafSample) (d : DieNo) (c : Fin 60) (t : Tid) (target : BitVec 7) (arg tag : BitVec 16) (x : DeepSt),
  let tj := sampleTj g
  let cap := s.capMhz
  let root := s.rd (F.CLK_CTL_ROOT_MHZ d)
  let hist := (g.watts :: s.gaf.hist).take 10000
  let burst : Bool := decide (s.rd F.GAF_LIMIT_BURST_W < g.watts)
  let sust : Bool := decide (s.rd F.GAF_LIMIT_SUSTAIN_W < g.watts && 10 ≤ s.gaf.sust + 1)
    || meanOver (s.rd F.GAF_LIMIT_WINDOW_MS) (s.rd F.GAF_LIMIT_SUSTAIN_W) hist
  let hot : Bool := decide (100 < tj)
  let k := target.toNat / 8 * 5 + target.toNat % 8
  let ok : Bool := decide (target.toNat % 8 < 5) && s.clusterOk k
  let lvl := (s.thr t).pl
  let rsp (u : State) (result reason : Nat) (busy : Bool) : Prop := u.rd (F.GAF_RSPt_RESULT t) = result ∧ u.rd (F.GAF_RSPt_REASON t) = reason
    ∧ u.rd (F.GAF_RSPt_BUSY t) = b2n busy
  let answered (i : Instr) (result reason : Nat) (busy : Bool) : Prop := answers (exec i s) fun u => rsp u result reason busy ∧ u.rd (F.GAF_RSPt_TAG t) = tag.toNat
  (tj ≤ 110 → s.gaf.deep = none → s.gaf.held = [] → s.sec.thermal = [] → cap ≤ s.peakMhz → answers (exec (.gafferSample g) s) fun u =>
      u.rd F.GAF_STAT_PKG_W = min g.watts 65535 ∧ u.rd F.GAF_STAT_TJMAX = min tj 255 ∧ u.gaf.hist = hist
      ∧ (s.prochot = true → u.capMhz = min cap 600 ∧ (u.rd F.GAF_STAT_WHY).testBit 1 = true)
      ∧ (s.prochot = false → burst || sust || hot → 0 < cap → u.capMhz = cap - 100 ∧ (u.rd F.GAF_STAT_WHY).testBit 3 = (burst || (s.rd F.GAF_STAT_WHY).testBit 3)
        ∧ (u.rd F.GAF_STAT_WHY).testBit 2 = (sust || (s.rd F.GAF_STAT_WHY).testBit 2) ∧ (u.rd F.GAF_STAT_WHY).testBit 0 = (hot || (s.rd F.GAF_STAT_WHY).testBit 0))
      ∧ (s.prochot = false → burst = false → sust = false → hot = false → u.capMhz = if 9 ≤ s.gaf.calm then min (cap + 100) s.peakMhz else cap))
  ∧ (110 < tj → s.power = .run → s.gaf.deep = none → answers (exec (.gafferSample g) s) fun u => u.wrap.cause = 3 ∧ (u.power = .wrap ∨ u.power = .park))
  ∧ (s.rd (F.CLK_CTL_LOCKED d) = 1 → s.bus0Stuck = false → answers (exec (.rootStep d) s) fun u => u.rd (F.CLK_CTL_ROOT_MHZ d)
      = if root < s.rootTarget d then root + 100 else if s.rootTarget d < root then root - 100 else root)
  ∧ (s.rd (F.GAF_RSPt_BUSY t) = 1 → ∀ i ∈ [Instr.setFreq t target arg tag, .gate t target tag, .ungate t target tag, .deep t tag, .off t tag], exec i s = .next s)
  ∧ (s.rd (F.GAF_RSPt_BUSY t) = 0 →
    (ok = false → ∀ i ∈ [Instr.setFreq t target arg tag, .gate t target tag, .ungate t target tag], answered i 7 0 false)
    ∧ (ok = true → 3400 < arg.toNat → answered (.setFreq t target arg tag) 7 0 false)
    ∧ (ok = true → arg.toNat ≤ 3400 →
      (lvl = 0 → ∀ i ∈ [Instr.setFreq t target arg tag, .gate t target tag, .ungate t target tag], answered i 3 0 false)
      ∧ (lvl ≠ 0 →
        answers (exec (.setFreq t target arg tag) s) (fun u => SMap.get 0 u.gaf.req k = arg.toNat ∧ u.rd (F.CLU_CLKk_SEL (k / 5) (k % 5)) = 1
          ∧ u.rd (F.GAF_RSPt_TAG t) = tag.toNat ∧ if u.rd (F.CLK_CTL_ROOT_MHZ (k / 5)) = u.rootTarget (k / 5) then rsp u 1 0 false else rsp u 0 0 true)
        ∧ (s.secHeld k = true → lvl < 3 → answered (.gate t target tag) 2 0 true)
        ∧ (s.secHeld k = false ∨ 3 ≤ lvl → answered (.gate t target tag) 1 0 false
          ∧ answers (exec (.gate t target tag) s) fun u => u.rd (F.CLU_CLKk_SLEEP (k / 5) (k % 5)) = 1 ∧ k ∈ u.gated)
        ∧ answered (.ungate t target tag) 1 0 false
        ∧ answers (exec (.ungate t target tag) s) fun u => u.rd (F.CLU_CLKk_SLEEP (k / 5) (k % 5)) = 0 ∧ k ∉ u.gated))
    ∧ (∀ i ∈ [(Instr.deep t tag, false), (.off t tag, true)],
      (lvl < 3 → answered i.1 3 0 false)
      ∧ (3 ≤ lvl → s.deepReason ≠ 0 → answered i.1 4 s.deepReason false)
      ∧ (3 ≤ lvl → s.deepReason = 0 → s.gaf.deep = none → answered i.1 0 0 true
        ∧ answers (exec i.1 s) fun u => u.gaf.deep = some ⟨t, i.2, none, none⟩)))
  ∧ ((∃ y ∈ s.gaf.held, y.1 = t.val) → answers (exec (.withdraw t tag) s) fun u => rsp u 6 0 false ∧ u.gaf.held = s.gaf.held.filter fun y => y.1 != t.val)
  ∧ (s.gaf.deep = some x → x.cuts = none → answers (exec .deepIdleTimeout s) fun u => u.gaf.deep = none ∧ u.rd (F.GAF_RSPt_RESULT x.t) = 4
      ∧ u.rd (F.GAF_RSPt_REASON x.t) = 1 ∧ u.power = s.power)
  ∧ (s.power = .deep → answers (exec .deepExit s) fun u => u.power = .run ∧ u.gaf.deep = none ∧ u.boot.slots = (List.range 12).filter s.dieRunning
      ∧ u.sl.settled = [] ∧ u.threads = s.threads)
  ∧ (s.rd F.GAF_PWR_SLEEPEN = 1 → s.clusterOk c = true → s.clusterQuiet c = true → (∀ y ∈ s.clusterThreads c, ((s.thrN y).run = .waiting ∨ (s.thrN y).run = .halted) ∧ s.cuePending y = false) →
      answers (exec (.sleepEntry c) s) fun u => u.rd (F.CLU_CLKk_SLEEP (c.val / 5) (c.val % 5)) = 1 ∧ u.threads = s.threads)
  ∧ answers (exec (.thermalEmergency c) s) (fun u => (c.val ∈ u.sec.thermal ∨ c.val ∈ u.gated) ∧ (s.anyAtM c = true → c.val ∈ u.sec.thermal))
  ∧ (s.anyAtM c = true → c.val ∈ s.sec.thermal → s.power = .run → answers (exec (.graceExpiry c) s) fun u => u.wrap.cause = 2 ∧ (u.power = .wrap ∨ u.power = .park))
/-! State, memory and words. -/

/-- After a cold reset the queue is empty, the first step of the start runs, every I/O register holds its reset value, every
thread is halted at privilege level M with no delay slot, g0 to g31 and f0 to f31 zero (zero where the spec gives no reset value: log 1),
their homes in AU and its queues empty, no cache or directory holds a line,
no physical region is valid, no interleave set is valid, no link or port is up, and memory has its canonical form. -/
def Obligations.ResetState : Prop :=
  State.reset.memOk ∧ State.reset.pending = [] ∧ State.reset.power = .boot ∧ State.reset.rd F.BOOT_STAT_STEP = 1
  ∧ (∀ a, State.reset.rdw a = ioReset a)
  ∧ (∀ t : Tid, (State.reset.thr t).run = .halted ∧ (State.reset.thr t).slot = none ∧ fget ((State.reset.thr t).c 0) 0 2 = 3
      ∧ (∀ r, (State.reset.thr t).gr r = 0) ∧ (∀ r, (State.reset.thr t).fr r = 0) ∧ (∀ n, (State.reset.thr t).c n = crReset n)
      ∧ (State.reset.decOf t).eu = 0 ∧ (State.reset.decOf t).log = [] ∧ (State.reset.decOf t).sdq = [] ∧ (State.reset.thr t).storeQ = [])
  ∧ State.reset.lines = [] ∧ State.reset.caches = [] ∧ State.reset.msgs = []
  ∧ State.reset.regions = []
  ∧ (∀ k < 16, State.reset.rd (F.IS_CTLs_V k) = 0)
  ∧ (∀ n < 16, State.reset.portReady n = false)
  ∧ ∀ r < 16, State.reset.gpUp r = false

/-- Every step keeps the one canonical form of the device memory and the local stores: addresses strictly rising, and no
device byte listed at the value an unlisted byte reads as (the fill value and the list form are the model's choice, log 2). -/
def Obligations.MemoryFormKept : Prop :=
  ∀ (s u : State), s.memOk → step s = .next u → u.memOk

/-- The word that follows REP stands for the instruction whose encoding it is: an instruction that may be repeated is read back
from its own word, whatever its operands, and a word that is read as an instruction is that instruction's encoding, bit for bit. -/
def Obligations.RepeatWords : Prop :=
  (∀ (t : Tid) (w : BitVec 32) (i : Instr), decodeRep t w = some i → encode i = w ∧ reservedEnc i = false)
  ∧ (∀ (t : Tid) (d a b c : Rn) (im : BitVec 16) (n : BitVec 6) (wd : Bool),
    (∀ i ∈ [Instr.addi t d a im, .andi t d a im, .ori t d a im, .xori t d a im, .slti t d a im, .sltui t d a im], decodeRep t (encode i) = some i)
    ∧ (∀ i ∈ [Instr.lui t d im, .shori t d im], decodeRep t (encode i) = some i)
    ∧ (∀ i ∈ [Instr.slli t d a n, .srli t d a n, .srai t d a n, .rori t d a n], decodeRep t (encode i) = some i)
    ∧ (∀ i ∈ [Instr.add t d a b, .sub t d a b, .and t d a b, .or t d a b, .xor t d a b, .andn t d a b, .orn t d a b,
      .slt t d a b, .sltu t d a b, .min t d a b, .max t d a b, .minu t d a b, .maxu t d a b, .sll t d a b,
      .srl t d a b, .sra t d a b, .ror t d a b, .mul t d a b, .mulh t d a b, .mulhu t d a b, .div t d a b,
      .divu t d a b, .rem t d a b, .remu t d a b], decodeRep t (encode i) = some i)
    ∧ (∀ i ∈ [Instr.clz t d a, .ctz t d a, .popc t d a, .bswap t d a, .sextb t d a, .sexth t d a, .sextw t d a, .zextw t d a], decodeRep t (encode i) = some i)
    ∧ (∀ i ∈ [Instr.fadd t wd d a b, .fsub t wd d a b, .fmul t wd d a b, .fdiv t wd d a b, .fmin t wd d a b, .fmax t wd d a b,
      .feq t wd d a b, .flt t wd d a b, .fle t wd d a b], decodeRep t (encode i) = some i)
    ∧ (∀ i ∈ [Instr.fsqrt t wd d a, .fneg t wd d a, .fabs t wd d a, .fmov t wd d a, .fclass t wd d a, .fcvti t wd d a,
      .fcvtiu t wd d a, .fcvtf t wd d a, .fcvtfu t wd d a, .fcvtx t wd d a, .fmvg t wd d a, .fmvf t wd d a], decodeRep t (encode i) = some i)
    ∧ (∀ i ∈ [Instr.fmadd t wd d a b c, .fmsub t wd d a b c, .fnmsub t wd d a b c, .fnmadd t wd d a b c], decodeRep t (encode i) = some i))
  ∧ ∀ (t : Tid) (d a b c : Rn) (k : Fin 16) (ord : Bool) (m : Fin 8) (f : BitVec 8) (e : Fin 64),
    (∀ i ∈ [Instr.loadx t d a k ord m f, .storex t d a k ord m f], reservedEnc i = false →
      decodeRep t (encode i) = if m = 0 then none else some i)
    ∧ decodeRep t (encode (.udi t e d a b c)) = some (.udi t e d a b c)


end
end

