-- ==== Sys2Proof/Laws/Dispatch.lean ====
section
/-!
SUPPORT. The arm of exec that each command takes.
-/
namespace Sys2Proof.Machine

variable (st : State)

@[simp] theorem exec_addi (t : Tid) (d a : Rn) (imm : BitVec 16) : exec (.addi t d a imm) st = execAddi t d a imm st := rfl
@[simp] theorem exec_andi (t : Tid) (d a : Rn) (imm : BitVec 16) : exec (.andi t d a imm) st = execAndi t d a imm st := rfl
@[simp] theorem exec_ori (t : Tid) (d a : Rn) (imm : BitVec 16) : exec (.ori t d a imm) st = execOri t d a imm st := rfl
@[simp] theorem exec_xori (t : Tid) (d a : Rn) (imm : BitVec 16) : exec (.xori t d a imm) st = execXori t d a imm st := rfl
@[simp] theorem exec_slti (t : Tid) (d a : Rn) (imm : BitVec 16) : exec (.slti t d a imm) st = execSlti t d a imm st := rfl
@[simp] theorem exec_sltui (t : Tid) (d a : Rn) (imm : BitVec 16) : exec (.sltui t d a imm) st = execSltui t d a imm st := rfl
@[simp] theorem exec_lui (t : Tid) (d : Rn) (imm : BitVec 16) : exec (.lui t d imm) st = execLui t d imm st := rfl
@[simp] theorem exec_shori (t : Tid) (d : Rn) (imm : BitVec 16) : exec (.shori t d imm) st = execShori t d imm st := rfl
@[simp] theorem exec_addpc (t : Tid) (d : Rn) (imm : BitVec 16) : exec (.addpc t d imm) st = execAddpc t d imm st := rfl
@[simp] theorem exec_slli (t : Tid) (d a : Rn) (sh : BitVec 6) : exec (.slli t d a sh) st = execSlli t d a sh st := rfl
@[simp] theorem exec_srli (t : Tid) (d a : Rn) (sh : BitVec 6) : exec (.srli t d a sh) st = execSrli t d a sh st := rfl
@[simp] theorem exec_srai (t : Tid) (d a : Rn) (sh : BitVec 6) : exec (.srai t d a sh) st = execSrai t d a sh st := rfl
@[simp] theorem exec_rori (t : Tid) (d a : Rn) (sh : BitVec 6) : exec (.rori t d a sh) st = execRori t d a sh st := rfl
@[simp] theorem exec_add (t : Tid) (d a b : Rn) : exec (.add t d a b) st = execAdd t d a b st := rfl
@[simp] theorem exec_sub (t : Tid) (d a b : Rn) : exec (.sub t d a b) st = execSub t d a b st := rfl
@[simp] theorem exec_and (t : Tid) (d a b : Rn) : exec (.and t d a b) st = execAnd t d a b st := rfl
@[simp] theorem exec_or (t : Tid) (d a b : Rn) : exec (.or t d a b) st = execOr t d a b st := rfl
@[simp] theorem exec_xor (t : Tid) (d a b : Rn) : exec (.xor t d a b) st = execXor t d a b st := rfl
@[simp] theorem exec_andn (t : Tid) (d a b : Rn) : exec (.andn t d a b) st = execAndn t d a b st := rfl
@[simp] theorem exec_orn (t : Tid) (d a b : Rn) : exec (.orn t d a b) st = execOrn t d a b st := rfl
@[simp] theorem exec_slt (t : Tid) (d a b : Rn) : exec (.slt t d a b) st = execSlt t d a b st := rfl
@[simp] theorem exec_sltu (t : Tid) (d a b : Rn) : exec (.sltu t d a b) st = execSltu t d a b st := rfl
@[simp] theorem exec_min (t : Tid) (d a b : Rn) : exec (.min t d a b) st = execMin t d a b st := rfl
@[simp] theorem exec_max (t : Tid) (d a b : Rn) : exec (.max t d a b) st = execMax t d a b st := rfl
@[simp] theorem exec_minu (t : Tid) (d a b : Rn) : exec (.minu t d a b) st = execMinu t d a b st := rfl
@[simp] theorem exec_maxu (t : Tid) (d a b : Rn) : exec (.maxu t d a b) st = execMaxu t d a b st := rfl
@[simp] theorem exec_sll (t : Tid) (d a b : Rn) : exec (.sll t d a b) st = execSll t d a b st := rfl
@[simp] theorem exec_srl (t : Tid) (d a b : Rn) : exec (.srl t d a b) st = execSrl t d a b st := rfl
@[simp] theorem exec_sra (t : Tid) (d a b : Rn) : exec (.sra t d a b) st = execSra t d a b st := rfl
@[simp] theorem exec_ror (t : Tid) (d a b : Rn) : exec (.ror t d a b) st = execRor t d a b st := rfl
@[simp] theorem exec_mul (t : Tid) (d a b : Rn) : exec (.mul t d a b) st = execMul t d a b st := rfl
@[simp] theorem exec_mulh (t : Tid) (d a b : Rn) : exec (.mulh t d a b) st = execMulh t d a b st := rfl
@[simp] theorem exec_mulhu (t : Tid) (d a b : Rn) : exec (.mulhu t d a b) st = execMulhu t d a b st := rfl
@[simp] theorem exec_div (t : Tid) (d a b : Rn) : exec (.div t d a b) st = execDiv t d a b st := rfl
@[simp] theorem exec_divu (t : Tid) (d a b : Rn) : exec (.divu t d a b) st = execDivu t d a b st := rfl
@[simp] theorem exec_rem (t : Tid) (d a b : Rn) : exec (.rem t d a b) st = execRem t d a b st := rfl
@[simp] theorem exec_remu (t : Tid) (d a b : Rn) : exec (.remu t d a b) st = execRemu t d a b st := rfl
@[simp] theorem exec_clz (t : Tid) (d a : Rn) : exec (.clz t d a) st = execClz t d a st := rfl
@[simp] theorem exec_ctz (t : Tid) (d a : Rn) : exec (.ctz t d a) st = execCtz t d a st := rfl
@[simp] theorem exec_popc (t : Tid) (d a : Rn) : exec (.popc t d a) st = execPopc t d a st := rfl
@[simp] theorem exec_bswap (t : Tid) (d a : Rn) : exec (.bswap t d a) st = execBswap t d a st := rfl
@[simp] theorem exec_sextb (t : Tid) (d a : Rn) : exec (.sextb t d a) st = execSextb t d a st := rfl
@[simp] theorem exec_sexth (t : Tid) (d a : Rn) : exec (.sexth t d a) st = execSexth t d a st := rfl
@[simp] theorem exec_sextw (t : Tid) (d a : Rn) : exec (.sextw t d a) st = execSextw t d a st := rfl
@[simp] theorem exec_zextw (t : Tid) (d a : Rn) : exec (.zextw t d a) st = execZextw t d a st := rfl
@[simp] theorem exec_fadd (t : Tid) (w : Bool) (d a b : Rn) : exec (.fadd t w d a b) st = execFadd t w d a b st := rfl
@[simp] theorem exec_fsub (t : Tid) (w : Bool) (d a b : Rn) : exec (.fsub t w d a b) st = execFsub t w d a b st := rfl
@[simp] theorem exec_fmul (t : Tid) (w : Bool) (d a b : Rn) : exec (.fmul t w d a b) st = execFmul t w d a b st := rfl
@[simp] theorem exec_fdiv (t : Tid) (w : Bool) (d a b : Rn) : exec (.fdiv t w d a b) st = execFdiv t w d a b st := rfl
@[simp] theorem exec_fsqrt (t : Tid) (w : Bool) (d a : Rn) : exec (.fsqrt t w d a) st = execFsqrt t w d a st := rfl
@[simp] theorem exec_fmin (t : Tid) (w : Bool) (d a b : Rn) : exec (.fmin t w d a b) st = execFmin t w d a b st := rfl
@[simp] theorem exec_fmax (t : Tid) (w : Bool) (d a b : Rn) : exec (.fmax t w d a b) st = execFmax t w d a b st := rfl
@[simp] theorem exec_fneg (t : Tid) (w : Bool) (d a : Rn) : exec (.fneg t w d a) st = execFneg t w d a st := rfl
@[simp] theorem exec_fabs (t : Tid) (w : Bool) (d a : Rn) : exec (.fabs t w d a) st = execFabs t w d a st := rfl
@[simp] theorem exec_fmov (t : Tid) (w : Bool) (d a : Rn) : exec (.fmov t w d a) st = execFmov t w d a st := rfl
@[simp] theorem exec_feq (t : Tid) (w : Bool) (d a b : Rn) : exec (.feq t w d a b) st = execFeq t w d a b st := rfl
@[simp] theorem exec_flt (t : Tid) (w : Bool) (d a b : Rn) : exec (.flt t w d a b) st = execFlt t w d a b st := rfl
@[simp] theorem exec_fle (t : Tid) (w : Bool) (d a b : Rn) : exec (.fle t w d a b) st = execFle t w d a b st := rfl
@[simp] theorem exec_fclass (t : Tid) (w : Bool) (d a : Rn) : exec (.fclass t w d a) st = execFclass t w d a st := rfl
@[simp] theorem exec_fcvti (t : Tid) (w : Bool) (d a : Rn) : exec (.fcvti t w d a) st = execFcvti t w d a st := rfl
@[simp] theorem exec_fcvtiu (t : Tid) (w : Bool) (d a : Rn) : exec (.fcvtiu t w d a) st = execFcvtiu t w d a st := rfl
@[simp] theorem exec_fcvtf (t : Tid) (w : Bool) (d a : Rn) : exec (.fcvtf t w d a) st = execFcvtf t w d a st := rfl
@[simp] theorem exec_fcvtfu (t : Tid) (w : Bool) (d a : Rn) : exec (.fcvtfu t w d a) st = execFcvtfu t w d a st := rfl
@[simp] theorem exec_fcvtx (t : Tid) (w : Bool) (d a : Rn) : exec (.fcvtx t w d a) st = execFcvtx t w d a st := rfl
@[simp] theorem exec_fmvg (t : Tid) (w : Bool) (d a : Rn) : exec (.fmvg t w d a) st = execFmvg t w d a st := rfl
@[simp] theorem exec_fmvf (t : Tid) (w : Bool) (d a : Rn) : exec (.fmvf t w d a) st = execFmvf t w d a st := rfl
@[simp] theorem exec_fmadd (t : Tid) (w : Bool) (d a b c : Rn) : exec (.fmadd t w d a b c) st = execFmadd t w d a b c st := rfl
@[simp] theorem exec_fmsub (t : Tid) (w : Bool) (d a b c : Rn) : exec (.fmsub t w d a b c) st = execFmsub t w d a b c st := rfl
@[simp] theorem exec_fnmsub (t : Tid) (w : Bool) (d a b c : Rn) : exec (.fnmsub t w d a b c) st = execFnmsub t w d a b c st := rfl
@[simp] theorem exec_fnmadd (t : Tid) (w : Bool) (d a b c : Rn) : exec (.fnmadd t w d a b c) st = execFnmadd t w d a b c st := rfl
@[simp] theorem exec_beq (t : Tid) (a b : Rn) (an : Bool) (disp : BitVec 15) : exec (.beq t a b an disp) st = execBeq t a b an disp st := rfl
@[simp] theorem exec_bne (t : Tid) (a b : Rn) (an : Bool) (disp : BitVec 15) : exec (.bne t a b an disp) st = execBne t a b an disp st := rfl
@[simp] theorem exec_blt (t : Tid) (a b : Rn) (an : Bool) (disp : BitVec 15) : exec (.blt t a b an disp) st = execBlt t a b an disp st := rfl
@[simp] theorem exec_bge (t : Tid) (a b : Rn) (an : Bool) (disp : BitVec 15) : exec (.bge t a b an disp) st = execBge t a b an disp st := rfl
@[simp] theorem exec_bltu (t : Tid) (a b : Rn) (an : Bool) (disp : BitVec 15) : exec (.bltu t a b an disp) st = execBltu t a b an disp st := rfl
@[simp] theorem exec_bgeu (t : Tid) (a b : Rn) (an : Bool) (disp : BitVec 15) : exec (.bgeu t a b an disp) st = execBgeu t a b an disp st := rfl
@[simp] theorem exec_j (t : Tid) (disp : BitVec 26) : exec (.j t disp) st = execJ t disp st := rfl
@[simp] theorem exec_call (t : Tid) (disp : BitVec 26) : exec (.call t disp) st = execCall t disp st := rfl
@[simp] theorem exec_jr (t : Tid) (a : Rn) : exec (.jr t a) st = execJr t a st := rfl
@[simp] theorem exec_callr (t : Tid) (a : Rn) : exec (.callr t a) st = execCallr t a st := rfl
@[simp] theorem exec_ret (t : Tid) : exec (.ret t) st = execRet t st := rfl
@[simp] theorem exec_load (t : Tid) (d a : Rn) (szk : Fin 16) (ord : Bool) (disp : BitVec 11) : exec (.load t d a szk ord disp) st = execLoad t d a szk ord disp st := rfl
@[simp] theorem exec_store (t : Tid) (d a : Rn) (szk : Fin 16) (ord : Bool) (disp : BitVec 11) : exec (.store t d a szk ord disp) st = execStore t d a szk ord disp st := rfl
@[simp] theorem exec_loadx (t : Tid) (d a : Rn) (szk : Fin 16) (ord : Bool) (am : Fin 8) (amf : BitVec 8) : exec (.loadx t d a szk ord am amf) st = execLoadx t d a szk ord am amf st := rfl
@[simp] theorem exec_storex (t : Tid) (d a : Rn) (szk : Fin 16) (ord : Bool) (am : Fin 8) (amf : BitVec 8) : exec (.storex t d a szk ord am amf) st = execStorex t d a szk ord am amf st := rfl
@[simp] theorem exec_ldi (t : Tid) (d a : Rn) (szk : Fin 16) (ord : Bool) (disp : BitVec 11) : exec (.ldi t d a szk ord disp) st = execLdi t d a szk ord disp st := rfl
@[simp] theorem exec_iold (t : Tid) (d a : Rn) (szk : Fin 16) (disp : BitVec 11) : exec (.iold t d a szk disp) st = execIold t d a szk disp st := rfl
@[simp] theorem exec_iost (t : Tid) (d a : Rn) (szk : Fin 16) (disp : BitVec 11) : exec (.iost t d a szk disp) st = execIost t d a szk disp st := rfl
@[simp] theorem exec_swap (t : Tid) (q : Bool) (d a b : Rn) : exec (.swap t q d a b) st = execSwap t q d a b st := rfl
@[simp] theorem exec_cas (t : Tid) (q : Bool) (d a b : Rn) : exec (.cas t q d a b) st = execCas t q d a b st := rfl
@[simp] theorem exec_fetchAdd (t : Tid) (q : Bool) (d a b : Rn) : exec (.fetchAdd t q d a b) st = execFetchAdd t q d a b st := rfl
@[simp] theorem exec_fetchAnd (t : Tid) (q : Bool) (d a b : Rn) : exec (.fetchAnd t q d a b) st = execFetchAnd t q d a b st := rfl
@[simp] theorem exec_fetchOr (t : Tid) (q : Bool) (d a b : Rn) : exec (.fetchOr t q d a b) st = execFetchOr t q d a b st := rfl
@[simp] theorem exec_fetchMax (t : Tid) (q : Bool) (d a b : Rn) : exec (.fetchMax t q d a b) st = execFetchMax t q d a b st := rfl
@[simp] theorem exec_fetchMaxu (t : Tid) (q : Bool) (d a b : Rn) : exec (.fetchMaxu t q d a b) st = execFetchMaxu t q d a b st := rfl
@[simp] theorem exec_fenceLl (t : Tid) : exec (.fenceLl t) st = execFenceLl t st := rfl
@[simp] theorem exec_fenceLs (t : Tid) : exec (.fenceLs t) st = execFenceLs t st := rfl
@[simp] theorem exec_fenceSl (t : Tid) : exec (.fenceSl t) st = execFenceSl t st := rfl
@[simp] theorem exec_fenceSs (t : Tid) : exec (.fenceSs t) st = execFenceSs t st := rfl
@[simp] theorem exec_fenceAll (t : Tid) : exec (.fenceAll t) st = execFenceAll t st := rfl
@[simp] theorem exec_isync (t : Tid) : exec (.isync t) st = execIsync t st := rfl
@[simp] theorem exec_mfc (t : Tid) (d : Rn) (num : BitVec 12) : exec (.mfc t d num) st = execMfc t d num st := rfl
@[simp] theorem exec_mtc (t : Tid) (a : Rn) (num : BitVec 12) : exec (.mtc t a num) st = execMtc t a num st := rfl
@[simp] theorem exec_eret (t : Tid) : exec (.eret t) st = execEret t st := rfl
@[simp] theorem exec_wait (t : Tid) : exec (.wait t) st = execWait t st := rfl
@[simp] theorem exec_brk (t : Tid) (code : BitVec 12) : exec (.brk t code) st = execBrk t code st := rfl
@[simp] theorem exec_sysc (t : Tid) (code : BitVec 12) : exec (.sysc t code) st = execSysc t code st := rfl
@[simp] theorem exec_hvc (t : Tid) (code : BitVec 12) : exec (.hvc t code) st = execHvc t code st := rfl
@[simp] theorem exec_monc (t : Tid) (code : BitVec 12) : exec (.monc t code) st = execMonc t code st := rfl
@[simp] theorem exec_rdpmc (t : Tid) (d a : Rn) : exec (.rdpmc t d a) st = execRdpmc t d a st := rfl
@[simp] theorem exec_keyset (t : Tid) (a : Rn) : exec (.keyset t a) st = execKeyset t a st := rfl
@[simp] theorem exec_keyget (t : Tid) (d : Rn) : exec (.keyget t d) st = execKeyget t d st := rfl
@[simp] theorem exec_tlbwRnd (t : Tid) : exec (.tlbwRnd t) st = execTlbwRnd t st := rfl
@[simp] theorem exec_tlbwSlot (t : Tid) (a : Rn) : exec (.tlbwSlot t a) st = execTlbwSlot t a st := rfl
@[simp] theorem exec_tlbrd (t : Tid) (a : Rn) : exec (.tlbrd t a) st = execTlbrd t a st := rfl
@[simp] theorem exec_tlbfind (t : Tid) (d : Rn) : exec (.tlbfind t d) st = execTlbfind t d st := rfl
@[simp] theorem exec_tlbiVa (t : Tid) (a b : Rn) : exec (.tlbiVa t a b) st = execTlbiVa t a b st := rfl
@[simp] theorem exec_tlbiAsid (t : Tid) (b : Rn) : exec (.tlbiAsid t b) st = execTlbiAsid t b st := rfl
@[simp] theorem exec_tlbiVmid (t : Tid) (b : Rn) : exec (.tlbiVmid t b) st = execTlbiVmid t b st := rfl
@[simp] theorem exec_tlbiAll (t : Tid) : exec (.tlbiAll t) st = execTlbiAll t st := rfl
@[simp] theorem exec_gpmw (t : Tid) (a : Rn) : exec (.gpmw t a) st = execGpmw t a st := rfl
@[simp] theorem exec_gpmr (t : Tid) (a : Rn) : exec (.gpmr t a) st = execGpmr t a st := rfl
@[simp] theorem exec_gpmi (t : Tid) : exec (.gpmi t) st = execGpmi t st := rfl
@[simp] theorem exec_ownersync (t : Tid) : exec (.ownersync t) st = execOwnersync t st := rfl
@[simp] theorem exec_cutreq (t : Tid) (d a : Rn) : exec (.cutreq t d a) st = execCutreq t d a st := rfl
@[simp] theorem exec_cutwait (t : Tid) (d a : Rn) : exec (.cutwait t d a) st = execCutwait t d a st := rfl
@[simp] theorem exec_cutstat (t : Tid) (d a : Rn) : exec (.cutstat t d a) st = execCutstat t d a st := rfl
@[simp] theorem exec_rdslate (t : Tid) (d : Rn) : exec (.rdslate t d) st = execRdslate t d st := rfl
@[simp] theorem exec_rdslateu (t : Tid) (d b : Rn) : exec (.rdslateu t d b) st = execRdslateu t d b st := rfl
@[simp] theorem exec_slatewait (t : Tid) (d a : Rn) : exec (.slatewait t d a) st = execSlatewait t d a st := rfl
@[simp] theorem exec_slatewaitRelease (t : Tid) : exec (.slatewaitRelease t) st = execSlatewaitRelease t st := rfl
@[simp] theorem exec_rssave (t : Tid) (a : Rn) : exec (.rssave t a) st = execRssave t a st := rfl
@[simp] theorem exec_rsload (t : Tid) (a : Rn) : exec (.rsload t a) st = execRsload t a st := rfl
@[simp] theorem exec_dtload (t : Tid) (a b : Rn) : exec (.dtload t a b) st = execDtload t a b st := rfl
@[simp] theorem exec_encrun (t : Tid) (a b : Rn) : exec (.encrun t a b) st = execEncrun t a b st := rfl
@[simp] theorem exec_encdone (t : Tid) (a : Rn) : exec (.encdone t a) st = execEncdone t a st := rfl
@[simp] theorem exec_repN (t : Tid) (nm1 : BitVec 6) (next : BitVec 32) : exec (.repN t nm1 next) st = execRepN t nm1 next st := rfl
@[simp] theorem exec_repG (t : Tid) (g : Rn) (next : BitVec 32) : exec (.repG t g next) st = execRepG t g next st := rfl
@[simp] theorem exec_udi (t : Tid) (sel : Fin 64) (f1 f2 f3 f4 : Rn) : exec (.udi t sel f1 f2 f3 f4) st = execUdi t sel f1 f2 f3 f4 st := rfl
@[simp] theorem exec_cust (t : Tid) (func : BitVec 6) (operands : BitVec 20) : exec (.cust t func operands) st = execCust t func operands st := rfl
@[simp] theorem exec_vbcast (t : Tid) (v : Fin 16) (g : Rn) (ew : Fin 4) : exec (.vbcast t v g ew) st = execVbcast t v g ew st := rfl
@[simp] theorem exec_vins (t : Tid) (v : Fin 16) (g : Rn) (x : Fin 8) : exec (.vins t v g x) st = execVins t v g x st := rfl
@[simp] theorem exec_vext (t : Tid) (v : Fin 16) (g : Rn) (x : Fin 8) : exec (.vext t v g x) st = execVext t v g x st := rfl
@[simp] theorem exec_vmov (t : Tid) (vd va : Fin 16) : exec (.vmov t vd va) st = execVmov t vd va st := rfl
@[simp] theorem exec_pscan (t : Tid) (g : Rn) (va vb : Fin 16) (ew : Fin 4) (pc : Fin 16) : exec (.pscan t g va vb ew pc) st = execPscan t g va vb ew pc st := rfl
@[simp] theorem exec_compress (t : Tid) (v : Fin 16) (g : Rn) (h : Fin 16) (ew : Fin 4) : exec (.compress t v g h ew) st = execCompress t v g h ew st := rfl
@[simp] theorem exec_unpack (t : Tid) (v : Fin 16) (g : Rn) (h : Fin 16) (ew : Fin 4) : exec (.unpack t v g h ew) st = execUnpack t v g h ew st := rfl
@[simp] theorem exec_vhash (t : Tid) (v : Fin 16) (g : Rn) (h : Fin 16) : exec (.vhash t v g h) st = execVhash t v g h st := rfl
@[simp] theorem exec_vcrc (t : Tid) (v : Fin 16) (g : Rn) : exec (.vcrc t v g) st = execVcrc t v g st := rfl
@[simp] theorem exec_redmin (t : Tid) (v : Fin 16) (g h : Rn) (ew : Fin 4) (x : Fin 16) : exec (.redmin t v g h ew x) st = execRedmin t v g h ew x st := rfl
@[simp] theorem exec_redmax (t : Tid) (v : Fin 16) (g h : Rn) (ew : Fin 4) (x : Fin 16) : exec (.redmax t v g h ew x) st = execRedmax t v g h ew x st := rfl
@[simp] theorem exec_vcnt (t : Tid) (v : Fin 16) (g : Rn) : exec (.vcnt t v g) st = execVcnt t v g st := rfl
@[simp] theorem exec_sload (t : Tid) (v : Fin 16) (g : Rn) (post : Bool) : exec (.sload t v g post) st = execSload t v g post st := rfl
@[simp] theorem exec_sscan (t : Tid) (v : Fin 16) (g h : Rn) (ew : Fin 4) (pc : Fin 16) : exec (.sscan t v g h ew pc) st = execSscan t v g h ew pc st := rfl
@[simp] theorem exec_sgather (t : Tid) (v : Fin 16) (g h : Rn) (ew : Fin 4) (x : Fin 16) : exec (.sgather t v g h ew x) st = execSgather t v g h ew x st := rfl
@[simp] theorem exec_sdict (t : Tid) (v : Fin 16) (g h : Rn) (ew : Fin 4) (x : Fin 16) : exec (.sdict t v g h ew x) st = execSdict t v g h ew x st := rfl
@[simp] theorem exec_saccadd (t : Tid) (acc : Fin 4) (g : Rn) : exec (.saccadd t acc g) st = execSaccadd t acc g st := rfl
@[simp] theorem exec_aclr (t : Tid) (acc : Fin 4) : exec (.aclr t acc) st = execAclr t acc st := rfl
@[simp] theorem exec_aaddf (t : Tid) (acc : Fin 4) (v : Fin 16) (g : Rn) (ty : Fin 4) (x : BitVec 7) : exec (.aaddf t acc v g ty x) st = execAaddf t acc v g ty x st := rfl
@[simp] theorem exec_amacf (t : Tid) (acc : Fin 4) (v : Fin 16) (g : Rn) (ty : Fin 4) (x : BitVec 7) : exec (.amacf t acc v g ty x) st = execAmacf t acc v g ty x st := rfl
@[simp] theorem exec_aaddi (t : Tid) (acc : Fin 4) (v : Fin 16) (g : Rn) (ty : Fin 4) (x : BitVec 7) : exec (.aaddi t acc v g ty x) st = execAaddi t acc v g ty x st := rfl
@[simp] theorem exec_acnt (t : Tid) (acc : Fin 4) (v : Fin 16) : exec (.acnt t acc v) st = execAcnt t acc v st := rfl
@[simp] theorem exec_ardf (t : Tid) (acc : Fin 4) (g : Rn) : exec (.ardf t acc g) st = execArdf t acc g st := rfl
@[simp] theorem exec_ardi (t : Tid) (acc : Fin 4) (g : Rn) (hi : Bool) : exec (.ardi t acc g hi) st = execArdi t acc g hi st := rfl
@[simp] theorem exec_ardw (t : Tid) (acc : Fin 4) (g : Rn) (x : BitVec 7) : exec (.ardw t acc g x) st = execArdw t acc g x st := rfl
@[simp] theorem exec_awrw (t : Tid) (acc : Fin 4) (g : Rn) (x : BitVec 7) : exec (.awrw t acc g x) st = execAwrw t acc g x st := rfl
@[simp] theorem exec_cueTake (t : Tid) : exec (.cueTake t) st = execCueTake t st := rfl
@[simp] theorem exec_mcAsyncTake : exec .mcAsyncTake st = execMcAsyncTake st := rfl
@[simp] theorem exec_storeCommit (t : Tid) : exec (.storeCommit t) st = execStoreCommit t st := rfl
@[simp] theorem exec_rdS (a : Agent) (line : LineNo) (vict : Option LineNo) : exec (.rdS a line vict) st = execRdS a line vict st := rfl
@[simp] theorem exec_rdX (a : Agent) (line : LineNo) (vict : Option LineNo) : exec (.rdX a line vict) st = execRdX a line vict st := rfl
@[simp] theorem exec_upg (a : Agent) (line : LineNo) (vict : Option LineNo) : exec (.upg a line vict) st = execUpg a line vict st := rfl
@[simp] theorem exec_rdNc (a : Agent) (pa : Nat) (size : Nat) : exec (.rdNc a pa size) st = execRdNc a pa size st := rfl
@[simp] theorem exec_wrNc (a : Agent) (view : ViewAgent) (pa : Nat) (data : List Byte) : exec (.wrNc a view pa data) st = execWrNc a view pa data st := rfl
@[simp] theorem exec_lsr (d : DieNo) (pa : Nat) (size : Nat) : exec (.lsr d pa size) st = execLsr d pa size st := rfl
@[simp] theorem exec_lsw (d : DieNo) (pa : Nat) (data : List Byte) : exec (.lsw d pa data) st = execLsw d pa data st := rfl
@[simp] theorem exec_snpS (d : DieNo) (line : LineNo) : exec (.snpS d line) st = execSnpS d line st := rfl
@[simp] theorem exec_snpX (d : DieNo) (line : LineNo) : exec (.snpX d line) st = execSnpX d line st := rfl
@[simp] theorem exec_snpCur (d : DieNo) (line : LineNo) : exec (.snpCur d line) st = execSnpCur d line st := rfl
@[simp] theorem exec_snpBinv (d : DieNo) (line : LineNo) : exec (.snpBinv d line) st = execSnpBinv d line st := rfl
@[simp] theorem exec_snpLsr (d : DieNo) (pa : Nat) (size : Nat) : exec (.snpLsr d pa size) st = execSnpLsr d pa size st := rfl
@[simp] theorem exec_snpLsw (d : DieNo) (pa : Nat) (data : List Byte) : exec (.snpLsw d pa data) st = execSnpLsw d pa data st := rfl
@[simp] theorem exec_rspI (a : Agent) (line : LineNo) : exec (.rspI a line) st = execRspI a line st := rfl
@[simp] theorem exec_rspS (a : Agent) (line : LineNo) : exec (.rspS a line) st = execRspS a line st := rfl
@[simp] theorem exec_rspEvx (a : Agent) (line : LineNo) : exec (.rspEvx a line) st = execRspEvx a line st := rfl
@[simp] theorem exec_goE (d : DieNo) (line : LineNo) : exec (.goE d line) st = execGoE d line st := rfl
@[simp] theorem exec_goF (d : DieNo) (line : LineNo) : exec (.goF d line) st = execGoF d line st := rfl
@[simp] theorem exec_goS (d : DieNo) (line : LineNo) : exec (.goS d line) st = execGoS d line st := rfl
@[simp] theorem exec_goNc (d : DieNo) : exec (.goNc d) st = execGoNc d st := rfl
@[simp] theorem exec_eva (d : DieNo) (line : LineNo) : exec (.eva d line) st = execEva d line st := rfl
@[simp] theorem exec_dat (d : DieNo) (line : LineNo) (dirty : Bool) : exec (.dat d line dirty) st = execDat d line dirty st := rfl
@[simp] theorem exec_fwd (a : Agent) (line : LineNo) (dirty : Bool) (far : FarData) : exec (.fwd a line dirty far) st = execFwd a line dirty far st := rfl
@[simp] theorem exec_wbd (a : Agent) (line : LineNo) (far : FarData) : exec (.wbd a line far) st = execWbd a line far st := rfl
@[simp] theorem exec_evc (a : Agent) (line : LineNo) : exec (.evc a line) st = execEvc a line st := rfl
@[simp] theorem exec_holdWindowEnd (d : DieNo) (line : LineNo) : exec (.holdWindowEnd d line) st = execHoldWindowEnd d line st := rfl
@[simp] theorem exec_undo (a : Agent) (e : UndoEntry) : exec (.undo a e) st = execUndo a e st := rfl
@[simp] theorem exec_undoAcc (d : DieNo) (line : LineNo) : exec (.undoAcc d line) st = execUndoAcc d line st := rfl
@[simp] theorem exec_swb (a : Agent) (dom : Dom) (m : SwbData) : exec (.swb a dom m) st = execSwb a dom m st := rfl
@[simp] theorem exec_swbAcc (d : DieNo) (line : LineNo) : exec (.swbAcc d line) st = execSwbAcc d line st := rfl
@[simp] theorem exec_advance (a : ViewAgent) (dom : Dom) : exec (.advance a dom) st = execAdvance a dom st := rfl
@[simp] theorem exec_advAck (a : ViewAgent) (dom : Dom) : exec (.advAck a dom) st = execAdvAck a dom st := rfl
@[simp] theorem exec_sweep (u : Slice) (dom : Dom) : exec (.sweep u dom) st = execSweep u dom st := rfl
@[simp] theorem exec_swept (u : Slice) (dom : Dom) : exec (.swept u dom) st = execSwept u dom st := rfl
@[simp] theorem exec_purge (u : Slice) (dom : Dom) : exec (.purge u dom) st = execPurge u dom st := rfl
@[simp] theorem exec_purged (u : Slice) (dom : Dom) : exec (.purged u dom) st = execPurged u dom st := rfl
@[simp] theorem exec_gAdvance (dom : Dom) (take : Word) : exec (.gAdvance dom take) st = execGAdvance dom take st := rfl
@[simp] theorem exec_gSwept (p : Fin 16) (dom : Dom) : exec (.gSwept p dom) st = execGSwept p dom st := rfl
@[simp] theorem exec_gPrepare (dom : Dom) (take : Word) : exec (.gPrepare dom take) st = execGPrepare dom take st := rfl
@[simp] theorem exec_gPrepared (p : Fin 16) (dom : Dom) : exec (.gPrepared p dom) st = execGPrepared p dom st := rfl
@[simp] theorem exec_gCommit (dom : Dom) (take : Word) : exec (.gCommit dom take) st = execGCommit dom take st := rfl
@[simp] theorem exec_groupCutTimeout (p : Fin 16) (dom : Dom) : exec (.groupCutTimeout p dom) st = execGroupCutTimeout p dom st := rfl
@[simp] theorem exec_cutPeriodExpiry (dom : Dom) : exec (.cutPeriodExpiry dom) st = execCutPeriodExpiry dom st := rfl
@[simp] theorem exec_reelBlockPersist (dom : Dom) (seq : BitVec 32) : exec (.reelBlockPersist dom seq) st = execReelBlockPersist dom seq st := rfl
@[simp] theorem exec_reelBlockError (dom : Dom) (seq : BitVec 32) : exec (.reelBlockError dom seq) st = execReelBlockError dom seq st := rfl
@[simp] theorem exec_persistenceMarkerDone (port : Fin 16) (dom : Dom) : exec (.persistenceMarkerDone port dom) st = execPersistenceMarkerDone port dom st := rfl
@[simp] theorem exec_cutRecordPersist (dom : Dom) : exec (.cutRecordPersist dom) st = execCutRecordPersist dom st := rfl
@[simp] theorem exec_tdCmdCut (dom : Dom) : exec (.tdCmdCut dom) st = execTdCmdCut dom st := rfl
@[simp] theorem exec_tdCmdRollback (dom : Dom) : exec (.tdCmdRollback dom) st = execTdCmdRollback dom st := rfl
@[simp] theorem exec_onlineRollbackDone (e : RollEnd) : exec (.onlineRollbackDone e) st = execOnlineRollbackDone e st := rfl
@[simp] theorem exec_tdCfgEn (dom : Dom) (val : Word) : exec (.tdCfgEn dom val) st = execTdCfgEn dom val st := rfl
@[simp] theorem exec_tdSeg1Link (dom : Dom) (val : Word) : exec (.tdSeg1Link dom val) st = execTdSeg1Link dom val st := rfl
@[simp] theorem exec_pwrfailAssert : exec .pwrfailAssert st = execPwrfailAssert st := rfl
@[simp] theorem exec_fatalError (bank : Fin 354) (struct : BitVec 8) (type : BitVec 8) (addr : BitVec 52) : exec (.fatalError bank struct type addr) st = execFatalError bank struct type addr st := rfl
@[simp] theorem exec_gpfPhase2Done (port : Fin 16) : exec (.gpfPhase2Done port) st = execGpfPhase2Done port st := rfl
@[simp] theorem exec_gpfTimeoutExpiry : exec .gpfTimeoutExpiry st = execGpfTimeoutExpiry st := rfl
@[simp] theorem exec_pwrfailDeassertHold : exec .pwrfailDeassertHold st = execPwrfailDeassertHold st := rfl
@[simp] theorem exec_pwrfailStuck : exec .pwrfailStuck st = execPwrfailStuck st := rfl
@[simp] theorem exec_autorestart : exec .autorestart st = execAutorestart st := rfl
@[simp] theorem exec_pwrgoodRise (b : BootInput) : exec (.pwrgoodRise b) st = execPwrgoodRise b st := rfl
@[simp] theorem exec_pwrgoodFall : exec .pwrgoodFall st = execPwrgoodFall st := rfl
@[simp] theorem exec_resetNAssert : exec .resetNAssert st = execResetNAssert st := rfl
@[simp] theorem exec_warmNAssert : exec .warmNAssert st = execWarmNAssert st := rfl
@[simp] theorem exec_pkgRstCold (lvl : Lvl) : exec (.pkgRstCold lvl) st = execPkgRstCold lvl st := rfl
@[simp] theorem exec_pkgRstWarm (lvl : Lvl) : exec (.pkgRstWarm lvl) st = execPkgRstWarm lvl st := rfl
@[simp] theorem exec_dieStartSlot (d : DieNo) (vcoreOk : Bool) : exec (.dieStartSlot d vcoreOk) st = execDieStartSlot d vcoreOk st := rfl
@[simp] theorem exec_clusterStartSlot (d : DieNo) (k : Fin 5) : exec (.clusterStartSlot d k) st = execClusterStartSlot d k st := rfl
@[simp] theorem exec_restartRollbackDone (dom : Dom) : exec (.restartRollbackDone dom) st = execRestartRollbackDone dom st := rfl
@[simp] theorem exec_leadC (dom : Dom) (c : Word) : exec (.leadC dom c) st = execLeadC dom c st := rfl
@[simp] theorem exec_leadwaitExpiry (dom : Dom) : exec (.leadwaitExpiry dom) st = execLeadwaitExpiry dom st := rfl
@[simp] theorem exec_wakeNAssert : exec .wakeNAssert st = execWakeNAssert st := rfl
@[simp] theorem exec_prochotAssert : exec .prochotAssert st = execProchotAssert st := rfl
@[simp] theorem exec_prochotRelease : exec .prochotRelease st = execProchotRelease st := rfl
@[simp] theorem exec_thermalTrip : exec .thermalTrip st = execThermalTrip st := rfl
@[simp] theorem exec_jtagTrst (asserted : Bool) : exec (.jtagTrst asserted) st = execJtagTrst asserted st := rfl
@[simp] theorem exec_refclkLoss : exec .refclkLoss st = execRefclkLoss st := rfl
@[simp] theorem exec_xtalLoss : exec .xtalLoss st = execXtalLoss st := rfl
@[simp] theorem exec_railOutOfRange (r : Rail) : exec (.railOutOfRange r) st = execRailOutOfRange r st := rfl
@[simp] theorem exec_vaonLoss : exec .vaonLoss st = execVaonLoss st := rfl
@[simp] theorem exec_vaonReturn : exec .vaonReturn st = execVaonReturn st := rfl
@[simp] theorem exec_inputUnlock (i : Fin 10) : exec (.inputUnlock i) st = execInputUnlock i st := rfl
@[simp] theorem exec_inputStuck (i : Fin 10) : exec (.inputStuck i) st = execInputStuck i st := rfl
@[simp] theorem exec_i3cBusRecovery (bus : Fin 2) : exec (.i3cBusRecovery bus) st = execI3cBusRecovery bus st := rfl
@[simp] theorem exec_trefclkFault : exec .trefclkFault st = execTrefclkFault st := rfl
@[simp] theorem exec_trefclkReturn : exec .trefclkReturn st = execTrefclkReturn st := rfl
@[simp] theorem exec_tsymSend (d : DieNo) : exec (.tsymSend d) st = execTsymSend d st := rfl
@[simp] theorem exec_tsym (d : DieNo) : exec (.tsym d) st = execTsym d st := rfl
@[simp] theorem exec_tret (d : DieNo) : exec (.tret d) st = execTret d st := rfl
@[simp] theorem exec_slateCopySettled (d : DieNo) : exec (.slateCopySettled d) st = execSlateCopySettled d st := rfl
@[simp] theorem exec_ptsymSend (k : Fin 4) : exec (.ptsymSend k) st = execPtsymSend k st := rfl
@[simp] theorem exec_ptsym (k : Fin 4) (m : PtSym) : exec (.ptsym k m) st = execPtsym k m st := rfl
@[simp] theorem exec_clfSend : exec .clfSend st = execClfSend st := rfl
@[simp] theorem exec_clf (m : ClfFrame) : exec (.clf m) st = execClf m st := rfl
@[simp] theorem exec_clrSend : exec .clrSend st = execClrSend st := rfl
@[simp] theorem exec_clr (m : ClrFrame) : exec (.clr m) st = execClr m st := rfl
@[simp] theorem exec_slateSourceLost : exec .slateSourceLost st = execSlateSourceLost st := rfl
@[simp] theorem exec_slateSettled : exec .slateSettled st = execSlateSettled st := rfl
@[simp] theorem exec_slateSaturate : exec .slateSaturate st = execSlateSaturate st := rfl
@[simp] theorem exec_slateAlarmFire (t : Tid) (lvl : Lvl) : exec (.slateAlarmFire t lvl) st = execSlateAlarmFire t lvl st := rfl
@[simp] theorem exec_slateSet (v : Word) : exec (.slateSet v) st = execSlateSet v st := rfl
@[simp] theorem exec_slateAdj (v : Word) : exec (.slateAdj v) st = execSlateAdj v st := rfl
@[simp] theorem exec_slateRoleWrite (v : Word) : exec (.slateRoleWrite v) st = execSlateRoleWrite v st := rfl
@[simp] theorem exec_slateEpochWrite (v : Word) : exec (.slateEpochWrite v) st = execSlateEpochWrite v st := rfl
@[simp] theorem exec_slcmpWrite (t : Tid) (lvl : Lvl) (v : Word) : exec (.slcmpWrite t lvl v) st = execSlcmpWrite t lvl v st := rfl
@[simp] theorem exec_mpEnable (n : Fin 16) (v : Word) : exec (.mpEnable n v) st = execMpEnable n v st := rfl
@[simp] theorem exec_mpLinkUp (n : Fin 16) (dev : DevInfo) : exec (.mpLinkUp n dev) st = execMpLinkUp n dev st := rfl
@[simp] theorem exec_mpTrainTimeout (n : Fin 16) : exec (.mpTrainTimeout n) st = execMpTrainTimeout n st := rfl
@[simp] theorem exec_memoryActive (n : Fin 16) (ideOk : Bool) : exec (.memoryActive n ideOk) st = execMemoryActive n ideOk st := rfl
@[simp] theorem exec_memoryActiveTimeout (n : Fin 16) : exec (.memoryActiveTimeout n) st = execMemoryActiveTimeout n st := rfl
@[simp] theorem exec_mpRetrain (n : Fin 16) : exec (.mpRetrain n) st = execMpRetrain n st := rfl
@[simp] theorem exec_mpLinkLoss (n : Fin 16) : exec (.mpLinkLoss n) st = execMpLinkLoss n st := rfl
@[simp] theorem exec_portWrite (n : Fin 16) (line : LineNo) (mask : BitVec 64) (data : LineData) : exec (.portWrite n line mask data) st = execPortWrite n line mask data st := rfl
@[simp] theorem exec_portRead (n : Fin 16) (rq : Fin 32) (span : LineSpan) (cls : Fin 64) : exec (.portRead n rq span cls) st = execPortRead n rq span cls st := rfl
@[simp] theorem exec_urgencyRise (n : Fin 16) (rq : Fin 32) (ageNs : Nat) : exec (.urgencyRise n rq ageNs) st = execUrgencyRise n rq ageNs st := rfl
@[simp] theorem exec_arbGrant (n : Fin 16) (cycles : Nat) : exec (.arbGrant n cycles) st = execArbGrant n cycles st := rfl
@[simp] theorem exec_deviceWriteCompletion (n : Fin 16) (line : LineNo) : exec (.deviceWriteCompletion n line) st = execDeviceWriteCompletion n line st := rfl
@[simp] theorem exec_deviceReadResponse (n : Fin 16) (line : LineNo) (poison : Bool) (overload : Bool) : exec (.deviceReadResponse n line poison overload) st = execDeviceReadResponse n line poison overload st := rfl
@[simp] theorem exec_isValidate (s : Fin 16) (v : Word) : exec (.isValidate s v) st = execIsValidate s v st := rfl
@[simp] theorem exec_isInvalidate (s : Fin 16) : exec (.isInvalidate s) st = execIsInvalidate s st := rfl
@[simp] theorem exec_prtValidate (n : Fin 64) (v : Word) : exec (.prtValidate n v) st = execPrtValidate n v st := rfl
@[simp] theorem exec_prtInvalidate (n : Fin 64) : exec (.prtInvalidate n) st = execPrtInvalidate n st := rfl
@[simp] theorem exec_gpfTimeoutWrite (v : Word) : exec (.gpfTimeoutWrite v) st = execGpfTimeoutWrite v st := rfl
@[simp] theorem exec_dlReset (j : Fin 24) : exec (.dlReset j) st = execDlReset j st := rfl
@[simp] theorem exec_laneCheckDone (j : Fin 24) (up : BitVec 34) (down : BitVec 34) : exec (.laneCheckDone j up down) st = execLaneCheckDone j up down st := rfl
@[simp] theorem exec_trainingPacket (j : Fin 24) : exec (.trainingPacket j) st = execTrainingPacket j st := rfl
@[simp] theorem exec_trainingAnswer (j : Fin 24) (pos : Nat) (step : BitVec 8) : exec (.trainingAnswer j pos step) st = execTrainingAnswer j pos step st := rfl
@[simp] theorem exec_dlinkTrainTimeout (j : Fin 24) : exec (.dlinkTrainTimeout j) st = execDlinkTrainTimeout j st := rfl
@[simp] theorem exec_packetReceive (l : Fin 28) (p : LinkPacket) : exec (.packetReceive l p) st = execPacketReceive l p st := rfl
@[simp] theorem exec_nak (l : Fin 28) (seq : BitVec 12) : exec (.nak l seq) st = execNak l seq st := rfl
@[simp] theorem exec_failover (j : Fin 24) (seq : BitVec 12) : exec (.failover j seq) st = execFailover j seq st := rfl
@[simp] theorem exec_dlFlush (j : Fin 24) : exec (.dlFlush j) st = execDlFlush j st := rfl
@[simp] theorem exec_dlResume (j : Fin 24) : exec (.dlResume j) st = execDlResume j st := rfl
@[simp] theorem exec_heartbeatSend (l : Fin 28) : exec (.heartbeatSend l) st = execHeartbeatSend l st := rfl
@[simp] theorem exec_heartbeat (l : Fin 28) : exec (.heartbeat l) st = execHeartbeat l st := rfl
@[simp] theorem exec_heartbeatTimeout (d : DieNo) (atHub : Bool) : exec (.heartbeatTimeout d atHub) st = execHeartbeatTimeout d atHub st := rfl
@[simp] theorem exec_plReset (k : Fin 4) : exec (.plReset k) st = execPlReset k st := rfl
@[simp] theorem exec_plinkTrain (k : Fin 4) (peer : PlPeer) : exec (.plinkTrain k peer) st = execPlinkTrain k peer st := rfl
@[simp] theorem exec_plinkDown (k : Fin 4) : exec (.plinkDown k) st = execPlinkDown k st := rfl
@[simp] theorem exec_linkStateNotice (p : Fin 16) (up : BitVec 4) : exec (.linkStateNotice p up) st = execLinkStateNotice p up st := rfl
@[simp] theorem exec_fabIdAssign (v : Word) : exec (.fabIdAssign v) st = execFabIdAssign v st := rfl
@[simp] theorem exec_fwValidate (w : Fin 16) (v : Word) : exec (.fwValidate w v) st = execFwValidate w v st := rfl
@[simp] theorem exec_gpInboundWrite (r : Fin 4) (addr : Nat) (data : List Byte) : exec (.gpInboundWrite r addr data) st = execGpInboundWrite r addr data st := rfl
@[simp] theorem exec_gpInboundRead (r : Fin 4) (addr : Nat) (len : Nat) : exec (.gpInboundRead r addr len) st = execGpInboundRead r addr len st := rfl
@[simp] theorem exec_inboundMsi (r : Fin 4) (addr : Nat) (data : BitVec 32) : exec (.inboundMsi r addr data) st = execInboundMsi r addr data st := rfl
@[simp] theorem exec_cxlCacheRequest (r : Fin 3) (addr : Nat) (wantsCopy : Bool) (data : Option LineData) : exec (.cxlCacheRequest r addr wantsCopy data) st = execCxlCacheRequest r addr wantsCopy data st := rfl
@[simp] theorem exec_pcieCompletion (r : Fin 4) (ok : Bool) (v : Word) : exec (.pcieCompletion r ok v) st = execPcieCompletion r ok v st := rfl
@[simp] theorem exec_completionTimeout (r : Fin 4) : exec (.completionTimeout r) st = execCompletionTimeout r st := rfl
@[simp] theorem exec_gpLinkLoss (r : Fin 4) : exec (.gpLinkLoss r) st = execGpLinkLoss r st := rfl
@[simp] theorem exec_gpRetrain (r : Fin 4) : exec (.gpRetrain r) st = execGpRetrain r st := rfl
@[simp] theorem exec_iwValidate (r : Fin 4) (j : Fin 32) (v : Word) : exec (.iwValidate r j v) st = execIwValidate r j v st := rfl
@[simp] theorem exec_iwInvalidate (r : Fin 4) (j : Fin 32) : exec (.iwInvalidate r j) st = execIwInvalidate r j st := rfl
@[simp] theorem exec_gdwValidate (w : Fin 8) (v : Word) : exec (.gdwValidate w v) st = execGdwValidate w v st := rfl
@[simp] theorem exec_aspmL0sEntry (p : Fin 4) : exec (.aspmL0sEntry p) st = execAspmL0sEntry p st := rfl
@[simp] theorem exec_aspmL1Entry (p : Fin 4) (partner : Bool) : exec (.aspmL1Entry p partner) st = execAspmL1Entry p partner st := rfl
@[simp] theorem exec_ptmRequest (r : Fin 4) : exec (.ptmRequest r) st = execPtmRequest r st := rfl
@[simp] theorem exec_mirrorInboundWrite (winB : Bool) (ofs : Nat) (data : List Byte) : exec (.mirrorInboundWrite winB ofs data) st = execMirrorInboundWrite winB ofs data st := rfl
@[simp] theorem exec_mirrorInboundRead (win : Fin 3) (ofs : Nat) (len : Nat) : exec (.mirrorInboundRead win ofs len) st = execMirrorInboundRead win ofs len st := rfl
@[simp] theorem exec_cutDb (v : Word) : exec (.cutDb v) st = execCutDb v st := rfl
@[simp] theorem exec_hostDb (i : Fin 16) : exec (.hostDb i) st = execHostDb i st := rfl
@[simp] theorem exec_mwCommit (v : Word) : exec (.mwCommit v) st = execMwCommit v st := rfl
@[simp] theorem exec_mirrorLinkDown : exec .mirrorLinkDown st = execMirrorLinkDown st := rfl
@[simp] theorem exec_mirRetrain : exec .mirRetrain st = execMirRetrain st := rfl
@[simp] theorem exec_vrfSqtail (f : Fin 256) (v : Word) : exec (.vrfSqtail f v) st = execVrfSqtail f v st := rfl
@[simp] theorem exec_descriptorFetch (f : Fin 256) : exec (.descriptorFetch f) st = execDescriptorFetch f st := rfl
@[simp] theorem exec_runCopy (f : Fin 256) : exec (.runCopy f) st = execRunCopy f st := rfl
@[simp] theorem exec_runFill (f : Fin 256) : exec (.runFill f) st = execRunFill f st := rfl
@[simp] theorem exec_runCrc (f : Fin 256) : exec (.runCrc f) st = execRunCrc f st := rfl
@[simp] theorem exec_runCsum (f : Fin 256) : exec (.runCsum f) st = execRunCsum f st := rfl
@[simp] theorem exec_runShip (f : Fin 256) : exec (.runShip f) st = execRunShip f st := rfl
@[simp] theorem exec_runnerUnitDone (e : Fin 32) : exec (.runnerUnitDone e) st = execRunnerUnitDone e st := rfl
@[simp] theorem exec_completionRecord (f : Fin 256) : exec (.completionRecord f) st = execCompletionRecord f st := rfl
@[simp] theorem exec_vrfEn (f : Fin 256) (v : Word) : exec (.vrfEn f v) st = execVrfEn f v st := rfl
@[simp] theorem exec_vrfNlog2Write (f : Fin 256) (v : Word) : exec (.vrfNlog2Write f v) st = execVrfNlog2Write f v st := rfl
@[simp] theorem exec_ringResize (f : Fin 256) : exec (.ringResize f) st = execRingResize f st := rfl
@[simp] theorem exec_vrfResetGen (f : Fin 256) : exec (.vrfResetGen f) st = execVrfResetGen f st := rfl
@[simp] theorem exec_vrfResetQuiesce (f : Fin 256) : exec (.vrfResetQuiesce f) st = execVrfResetQuiesce f st := rfl
@[simp] theorem exec_vrfQuiesce (f : Fin 256) : exec (.vrfQuiesce f) st = execVrfQuiesce f st := rfl
@[simp] theorem exec_vrfQuiesced (f : Fin 256) : exec (.vrfQuiesced f) st = execVrfQuiesced f st := rfl
@[simp] theorem exec_lateResponse (f : Fin 256) : exec (.lateResponse f) st = execLateResponse f st := rfl
@[simp] theorem exec_rnModeWrite (v : Word) : exec (.rnModeWrite v) st = execRnModeWrite v st := rfl
@[simp] theorem exec_rnCreditsWrite (e : Fin 32) (v : Word) : exec (.rnCreditsWrite e v) st = execRnCreditsWrite e v st := rfl
@[simp] theorem exec_vrhWinValidate (f : Fin 256) (i : Fin 8) (v : Word) : exec (.vrhWinValidate f i v) st = execVrhWinValidate f i v st := rfl
@[simp] theorem exec_vmrstCmd (v : Word) : exec (.vmrstCmd v) st = execVmrstCmd v st := rfl
@[simp] theorem exec_qosAlloc (v : Word) : exec (.qosAlloc v) st = execQosAlloc v st := rfl
@[simp] theorem exec_cueRaise (v : Fin 8192) : exec (.cueRaise v) st = execCueRaise v st := rfl
@[simp] theorem exec_cuePtbaseValidate (i : Fin 1024) (v : Word) : exec (.cuePtbaseValidate i v) st = execCuePtbaseValidate i v st := rfl
@[simp] theorem exec_enclaveCreate : exec .enclaveCreate st = execEnclaveCreate st := rfl
@[simp] theorem exec_enclaveAdd : exec .enclaveAdd st = execEnclaveAdd st := rfl
@[simp] theorem exec_enclaveFinal : exec .enclaveFinal st = execEnclaveFinal st := rfl
@[simp] theorem exec_enclaveRemove : exec .enclaveRemove st = execEnclaveRemove st := rfl
@[simp] theorem exec_enclaveDestroy : exec .enclaveDestroy st = execEnclaveDestroy st := rfl
@[simp] theorem exec_enclaveSlotclr : exec .enclaveSlotclr st = execEnclaveSlotclr st := rfl
@[simp] theorem exec_enctBaseValidate (v : Word) : exec (.enctBaseValidate v) st = execEnctBaseValidate v st := rfl
@[simp] theorem exec_loadRandom (s : Fin 1024) : exec (.loadRandom s) st = execLoadRandom s st := rfl
@[simp] theorem exec_loadSealed (s : Fin 1024) : exec (.loadSealed s) st = execLoadSealed s st := rfl
@[simp] theorem exec_ksClear (s : Fin 1024) : exec (.ksClear s) st = execKsClear s st := rfl
@[simp] theorem exec_dbgCheck (sigOk : Bool) : exec (.dbgCheck sigOk) st = execDbgCheck sigOk st := rfl
@[simp] theorem exec_thermalEmergency (c : Fin 60) : exec (.thermalEmergency c) st = execThermalEmergency c st := rfl
@[simp] theorem exec_graceExpiry (c : Fin 60) : exec (.graceExpiry c) st = execGraceExpiry c st := rfl
@[simp] theorem exec_coreSpareGo (d : DieNo) (l : Fin 18) (lvl : Lvl) : exec (.coreSpareGo d l lvl) st = execCoreSpareGo d l lvl st := rfl
@[simp] theorem exec_spareL1Answer (d : DieNo) : exec (.spareL1Answer d) st = execSpareL1Answer d st := rfl
@[simp] theorem exec_spareL1Timeout (d : DieNo) (l : Fin 18) : exec (.spareL1Timeout d l) st = execSpareL1Timeout d l st := rfl
@[simp] theorem exec_spareDrainDone (d : DieNo) (dropped : Nat) : exec (.spareDrainDone d dropped) st = execSpareDrainDone d dropped st := rfl
@[simp] theorem exec_dieFence (d : DieNo) (lvl : Lvl) : exec (.dieFence d lvl) st = execDieFence d lvl st := rfl
@[simp] theorem exec_fatalDieReport (d : DieNo) (bank : Option BankRec) : exec (.fatalDieReport d bank) st = execFatalDieReport d bank st := rfl
@[simp] theorem exec_fenceReclaimDone (d : DieNo) : exec (.fenceReclaimDone d) st = execFenceReclaimDone d st := rfl
@[simp] theorem exec_mcBankClear (b : Fin 354) (lvl : Lvl) : exec (.mcBankClear b lvl) st = execMcBankClear b lvl st := rfl
@[simp] theorem exec_mcDiebankClear (d : DieNo) (lvl : Lvl) : exec (.mcDiebankClear d lvl) st = execMcDiebankClear d lvl st := rfl
@[simp] theorem exec_watchdogExpiry (bank : Fin 354) : exec (.watchdogExpiry bank) st = execWatchdogExpiry bank st := rfl
@[simp] theorem exec_gafferSample (g : GafSample) : exec (.gafferSample g) st = execGafferSample g st := rfl
@[simp] theorem exec_rootStep (d : DieNo) : exec (.rootStep d) st = execRootStep d st := rfl
@[simp] theorem exec_setFreq (t : Tid) (target : BitVec 7) (arg : BitVec 16) (tag : BitVec 16) : exec (.setFreq t target arg tag) st = execSetFreq t target arg tag st := rfl
@[simp] theorem exec_gate (t : Tid) (target : BitVec 7) (tag : BitVec 16) : exec (.gate t target tag) st = execGate t target tag st := rfl
@[simp] theorem exec_ungate (t : Tid) (target : BitVec 7) (tag : BitVec 16) : exec (.ungate t target tag) st = execUngate t target tag st := rfl
@[simp] theorem exec_deep (t : Tid) (tag : BitVec 16) : exec (.deep t tag) st = execDeep t tag st := rfl
@[simp] theorem exec_off (t : Tid) (tag : BitVec 16) : exec (.off t tag) st = execOff t tag st := rfl
@[simp] theorem exec_withdraw (t : Tid) (tag : BitVec 16) : exec (.withdraw t tag) st = execWithdraw t tag st := rfl
@[simp] theorem exec_deepIdleTimeout : exec .deepIdleTimeout st = execDeepIdleTimeout st := rfl
@[simp] theorem exec_deepExit : exec .deepExit st = execDeepExit st := rfl
@[simp] theorem exec_sleepEntry (c : Fin 60) : exec (.sleepEntry c) st = execSleepEntry c st := rfl
@[simp] theorem exec_dieRstReset (d : DieNo) (lvl : Lvl) : exec (.dieRstReset d lvl) st = execDieRstReset d lvl st := rfl
@[simp] theorem exec_dieRstHoldRelease (d : DieNo) (lvl : Lvl) : exec (.dieRstHoldRelease d lvl) st = execDieRstHoldRelease d lvl st := rfl
@[simp] theorem exec_thrStart (d : DieNo) (l : Fin 18) (th : Fin 2) (lvl : Lvl) : exec (.thrStart d l th lvl) st = execThrStart d l th lvl st := rfl
@[simp] theorem exec_padReleaseBus (lvl : Lvl) : exec (.padReleaseBus lvl) st = execPadReleaseBus lvl st := rfl
@[simp] theorem exec_padReleaseGpio (lvl : Lvl) : exec (.padReleaseGpio lvl) st = execPadReleaseGpio lvl st := rfl
@[simp] theorem exec_dailiesUpdate : exec .dailiesUpdate st = execDailiesUpdate st := rfl
@[simp] theorem exec_wearDay : exec .wearDay st = execWearDay st := rfl
@[simp] theorem exec_calSet (v : Word) (lvl : Lvl) : exec (.calSet v lvl) st = execCalSet v lvl st := rfl
@[simp] theorem exec_calAlarmFire : exec .calAlarmFire st = execCalAlarmFire st := rfl
@[simp] theorem exec_bwWindowEnd (p : Fin 48) (rd : BitVec 48) (wr : BitVec 48) : exec (.bwWindowEnd p rd wr) st = execBwWindowEnd p rd wr st := rfl
@[simp] theorem exec_bwWinWrite (p : Fin 48) (v : Word) (lvl : Lvl) : exec (.bwWinWrite p v lvl) st = execBwWinWrite p v lvl st := rfl
@[simp] theorem exec_bwPclr (p : Fin 48) (lvl : Lvl) : exec (.bwPclr p lvl) st = execBwPclr p lvl st := rfl
@[simp] theorem exec_registerWrite (addr : Nat) (size : Nat) (v : Word) (lvl : Lvl) : exec (.registerWrite addr size v lvl) st = execRegisterWrite addr size v lvl st := rfl
@[simp] theorem exec_mirrorConfigRequest (wr : Bool) (reg : Nat) (v : Word) : exec (.mirrorConfigRequest wr reg v) st = execMirrorConfigRequest wr reg v st := rfl
@[simp] theorem exec_pcieLinkUp (p : Fin 4) (width : Nat) (rate : Nat) (cxlm : Bool) (pbr : Bool) : exec (.pcieLinkUp p width rate cxlm pbr) st = execPcieLinkUp p width rate cxlm pbr st := rfl
@[simp] theorem exec_trefclkWarn : exec .trefclkWarn st = execTrefclkWarn st := rfl
@[simp] theorem exec_xtalReturn : exec .xtalReturn st = execXtalReturn st := rfl
@[simp] theorem exec_railInRange (r : Rail) : exec (.railInRange r) st = execRailInRange r st := rfl
@[simp] theorem exec_clapDnPresentLoss : exec .clapDnPresentLoss st = execClapDnPresentLoss st := rfl
@[simp] theorem exec_cutTriggerForward (p : Fin 16) (dom : Dom) : exec (.cutTriggerForward p dom) st = execCutTriggerForward p dom st := rfl
@[simp] theorem exec_rollbackForward (dom : Dom) : exec (.rollbackForward dom) st = execRollbackForward dom st := rfl
@[simp] theorem exec_domainSpoilForward (dom : Dom) : exec (.domainSpoilForward dom) st = execDomainSpoilForward dom st := rfl
@[simp] theorem exec_jtagDebugAccess (op : JtagOp) : exec (.jtagDebugAccess op) st = execJtagDebugAccess op st := rfl

end Sys2Proof.Machine
end

