-- ==== Sys2Proof/Laws/SMap.lean ====
section
/-!
SUPPORT. The laws of the sparse maps: a read after a write, and that every write keeps the canonical form.
-/
namespace Sys2Proof.Machine

theorem SMap.find?_put {α : Type} (m : SMap α) (i j : Nat) (x : α) :
    SMap.find? (SMap.put m i x) j = if j = i then some x else SMap.find? m j := by
  induction m with
  | nil => simp only [SMap.put, SMap.find?]
  | cons c m ih =>
    obtain ⟨k, v⟩ := c
    by_cases h1 : i < k
    · simp only [SMap.put, if_pos h1, SMap.find?]
    · by_cases h2 : i = k
      · subst h2; simp only [SMap.put, if_neg h1, if_true, SMap.find?]; split_ifs <;> rfl
      · simp only [SMap.put, if_neg h1, if_neg h2, SMap.find?, ih]; split_ifs <;> first | rfl | omega

@[simp] theorem SMap.get_put_same {α : Type} (d : α) (m : SMap α) (i : Nat) (x : α) :
    SMap.get d (SMap.put m i x) i = x := by simp [SMap.get, SMap.find?_put]

theorem SMap.get_put_ne {α : Type} (d : α) (m : SMap α) (i j : Nat) (x : α) (h : j ≠ i) :
    SMap.get d (SMap.put m i x) j = SMap.get d m j := by simp [SMap.get, SMap.find?_put, h]

theorem SMap.get_put {α : Type} (d : α) (m : SMap α) (i j : Nat) (x : α) :
    SMap.get d (SMap.put m i x) j = if j = i then x else SMap.get d m j := by
  split_ifs with h
  · subst h; simp
  · exact SMap.get_put_ne d m i j x h

theorem SMap.sortedFrom_mono {α : Type} (m : SMap α) (a b : Nat) (h : a ≤ b)
    (hs : SMap.sortedFrom b m = true) : SMap.sortedFrom a m = true := by
  cases m with
  | nil => rfl
  | cons c m => simp only [SMap.sortedFrom, Bool.and_eq_true, decide_eq_true_eq] at *; exact ⟨by omega, hs.2⟩

theorem SMap.sortedFrom_put {α : Type} (m : SMap α) (lo i : Nat) (x : α) (hi : lo ≤ i)
    (hs : SMap.sortedFrom lo m = true) : SMap.sortedFrom lo (SMap.put m i x) = true := by
  induction m generalizing lo with
  | nil => simp [SMap.put, SMap.sortedFrom, hi]
  | cons c m ih =>
    obtain ⟨k, v⟩ := c
    simp only [SMap.sortedFrom, Bool.and_eq_true, decide_eq_true_eq] at hs
    simp only [SMap.put]
    split_ifs with h1 h2
    · simp only [SMap.sortedFrom, Bool.and_eq_true, decide_eq_true_eq]; exact ⟨hi, by omega, hs.2⟩
    · subst h2; simp only [SMap.sortedFrom, Bool.and_eq_true, decide_eq_true_eq]; exact ⟨hi, hs.2⟩
    · simp only [SMap.sortedFrom, Bool.and_eq_true, decide_eq_true_eq]
      exact ⟨hs.1, ih (k + 1) (by omega) hs.2⟩

theorem SMap.sortedFrom_del {α : Type} (m : SMap α) (lo i : Nat)
    (hs : SMap.sortedFrom lo m = true) : SMap.sortedFrom lo (SMap.del m i) = true := by
  induction m generalizing lo with
  | nil => rfl
  | cons c m ih =>
    obtain ⟨k, v⟩ := c
    simp only [SMap.sortedFrom, Bool.and_eq_true, decide_eq_true_eq] at hs
    simp only [SMap.del]
    split_ifs with h1
    · exact SMap.sortedFrom_mono _ lo (k + 1) (by omega) (ih (k + 1) hs.2)
    · simp only [SMap.sortedFrom, Bool.and_eq_true, decide_eq_true_eq]; exact ⟨hs.1, ih (k + 1) hs.2⟩

theorem SMap.find?_del {α : Type} (m : SMap α) (i j : Nat) :
    SMap.find? (SMap.del m i) j = if j = i then none else SMap.find? m j := by
  induction m with
  | nil => simp [SMap.del, SMap.find?]
  | cons c m ih =>
    obtain ⟨k, v⟩ := c
    simp only [SMap.del]
    split_ifs with h1 h2 h2
    · rw [ih, if_pos h2]
    · rw [ih, if_neg h2, SMap.find?, if_neg (by omega)]
    · rw [SMap.find?, if_neg (by omega), ih, if_pos h2]
    · simp only [SMap.find?, ih, if_neg h2]

theorem SMap.get_setByte (z : Byte) (m : SMap Byte) (i j : Nat) (x : Byte) :
    SMap.get z (SMap.setByte z m i x) j = if j = i then x else SMap.get z m j := by
  unfold SMap.setByte
  by_cases h : x = z
  · rw [if_pos h]; simp only [SMap.get, SMap.find?_del m i j]
    split_ifs with h2
    · simp [h]
    · rfl
  · rw [if_neg h]; exact SMap.get_put z m i j x

theorem SMap.sorted_setByte (z : Byte) (m : SMap Byte) (i : Nat) (x : Byte) (hs : SMap.sorted m = true) :
    SMap.sorted (SMap.setByte z m i x) = true := by
  unfold SMap.setByte
  split_ifs
  · exact SMap.sortedFrom_del m 0 i hs
  · exact SMap.sortedFrom_put m 0 i x (Nat.zero_le i) hs

theorem SMap.mem_put {α : Type} (m : SMap α) (i : Nat) (x : α) (c : Nat × α) (h : c ∈ SMap.put m i x) :
    c = (i, x) ∨ c ∈ m := by
  induction m with
  | nil => simp [SMap.put] at h; exact .inl h
  | cons e m ih =>
    obtain ⟨k, v⟩ := e
    simp only [SMap.put] at h
    split_ifs at h with h1 h2
    · simp only [List.mem_cons] at h ⊢; exact h
    · simp only [List.mem_cons] at h ⊢; tauto
    · simp only [List.mem_cons] at h ⊢
      rcases h with h | h
      · exact .inr (.inl h)
      · rcases ih h with h | h
        · exact .inl h
        · exact .inr (.inr h)

theorem SMap.mem_del {α : Type} (m : SMap α) (i : Nat) (c : Nat × α) (h : c ∈ SMap.del m i) : c ∈ m := by
  induction m with
  | nil => simp [SMap.del] at h
  | cons e m ih =>
    obtain ⟨k, v⟩ := e
    simp only [SMap.del] at h
    split_ifs at h with h1
    · exact List.mem_cons_of_mem _ (ih h)
    · simp only [List.mem_cons] at h ⊢; rcases h with h | h
      · exact .inl h
      · exact .inr (ih h)

/-- Every byte write keeps the canonical form. -/
theorem SMap.memWf_setByte (z : Byte) (m : SMap Byte) (i : Nat) (x : Byte) (h : SMap.memWf z m = true) :
    SMap.memWf z (SMap.setByte z m i x) = true := by
  simp only [SMap.memWf, Bool.and_eq_true, List.all_eq_true, decide_eq_true_eq] at h ⊢
  refine ⟨SMap.sorted_setByte z m i x h.1, ?_⟩
  intro c hc
  unfold SMap.setByte at hc
  split_ifs at hc with hx
  · exact h.2 c (SMap.mem_del m i c hc)
  · rcases SMap.mem_put m i x c hc with rfl | hm
    · exact hx
    · exact h.2 c hm

theorem SMap.find?_range' {α : Type} (c w : Nat) (v : α) (n a e : Nat) (h1 : a ≤ e) (h2 : e < a + n) :
    SMap.find? ((List.range' a n).map fun i => (c + w * i, v)) (c + w * e) = some v := by
  induction n generalizing a with
  | zero => omega
  | succ n ih =>
    simp only [List.range'_succ, List.map_cons, SMap.find?]
    split_ifs with h
    · rfl
    · have : a ≠ e := fun he => h (by rw [he])
      exact ih (a + 1) (by omega) (by omega)

theorem SMap.sortedFrom_keep {α : Type} (p : Nat → α → Bool) (m : SMap α) (lo : Nat) (hs : SMap.sortedFrom lo m = true) :
    SMap.sortedFrom lo (SMap.keep p m) = true := by
  induction m generalizing lo with
  | nil => rfl
  | cons c m ih =>
    obtain ⟨k, v⟩ := c
    simp only [SMap.sortedFrom, Bool.and_eq_true, decide_eq_true_eq] at hs
    simp only [SMap.keep, List.filter_cons]
    split_ifs
    · simp only [SMap.sortedFrom, Bool.and_eq_true, decide_eq_true_eq]; exact ⟨hs.1, ih (k + 1) hs.2⟩
    · exact SMap.sortedFrom_mono _ lo (k + 1) (by omega) (ih (k + 1) hs.2)

theorem SMap.memWf_keep (z : Byte) (p : Nat → Byte → Bool) (m : SMap Byte) (h : SMap.memWf z m = true) :
    SMap.memWf z (SMap.keep p m) = true := by
  simp only [SMap.memWf, Bool.and_eq_true, List.all_eq_true] at *
  exact ⟨SMap.sortedFrom_keep p m 0 h.1, fun c hc => h.2 c (List.mem_of_mem_filter hc)⟩

end Sys2Proof.Machine
end

