-- ==== Sys2Proof/Laws/State.lean ====
section
/-!
SUPPORT. What each named update of State does to each of its fields: one lemma per field per update.
-/
namespace Sys2Proof.Machine

variable (s : State)

@[simp] theorem State.wrw_pending (a : Nat) (v : Word) : (s.wrw a v).pending = s.pending := rfl
@[simp] theorem State.wrw_threads (a : Nat) (v : Word) : (s.wrw a v).threads = s.threads := rfl
@[simp] theorem State.wrw_cores (a : Nat) (v : Word) : (s.wrw a v).cores = s.cores := rfl
@[simp] theorem State.wrw_dec (a : Nat) (v : Word) : (s.wrw a v).dec = s.dec := rfl
@[simp] theorem State.wrw_hints (a : Nat) (v : Word) : (s.wrw a v).hints = s.hints := rfl
@[simp] theorem State.wrw_caches (a : Nat) (v : Word) : (s.wrw a v).caches = s.caches := rfl
@[simp] theorem State.wrw_miss (a : Nat) (v : Word) : (s.wrw a v).miss = s.miss := rfl
@[simp] theorem State.wrw_victims (a : Nat) (v : Word) : (s.wrw a v).victims = s.victims := rfl
@[simp] theorem State.wrw_wlist (a : Nat) (v : Word) : (s.wrw a v).wlist = s.wlist := rfl
@[simp] theorem State.wrw_io (a : Nat) (v : Word) : (s.wrw a v).io = SMap.put s.io a v := rfl
@[simp] theorem State.wrw_lines (a : Nat) (v : Word) : (s.wrw a v).lines = s.lines := rfl
@[simp] theorem State.wrw_msgs (a : Nat) (v : Word) : (s.wrw a v).msgs = s.msgs := rfl
@[simp] theorem State.wrw_mem (a : Nat) (v : Word) : (s.wrw a v).mem = s.mem := rfl
@[simp] theorem State.wrw_views (a : Nat) (v : Word) : (s.wrw a v).views = s.views := rfl
@[simp] theorem State.wrw_staged (a : Nat) (v : Word) : (s.wrw a v).staged = s.staged := rfl
@[simp] theorem State.wrw_accepted (a : Nat) (v : Word) : (s.wrw a v).accepted = s.accepted := rfl
@[simp] theorem State.wrw_undoOut (a : Nat) (v : Word) : (s.wrw a v).undoOut = s.undoOut := rfl
@[simp] theorem State.wrw_swbOut (a : Nat) (v : Word) : (s.wrw a v).swbOut = s.swbOut := rfl
@[simp] theorem State.wrw_nextId (a : Nat) (v : Word) : (s.wrw a v).nextId = s.nextId := rfl
@[simp] theorem State.wrw_doms (a : Nat) (v : Word) : (s.wrw a v).doms = s.doms := rfl
@[simp] theorem State.wrw_owners (a : Nat) (v : Word) : (s.wrw a v).owners = s.owners := rfl
@[simp] theorem State.wrw_mcPend (a : Nat) (v : Word) : (s.wrw a v).mcPend = s.mcPend := rfl
@[simp] theorem State.wrw_latent (a : Nat) (v : Word) : (s.wrw a v).latent = s.latent := rfl
@[simp] theorem State.wrw_wayErr (a : Nat) (v : Word) : (s.wrw a v).wayErr = s.wayErr := rfl
@[simp] theorem State.wrw_reclaims (a : Nat) (v : Word) : (s.wrw a v).reclaims = s.reclaims := rfl
@[simp] theorem State.wrw_sparing (a : Nat) (v : Word) : (s.wrw a v).sparing = s.sparing := rfl
@[simp] theorem State.wrw_gated (a : Nat) (v : Word) : (s.wrw a v).gated = s.gated := rfl
@[simp] theorem State.wrw_power (a : Nat) (v : Word) : (s.wrw a v).power = s.power := rfl
@[simp] theorem State.wrw_wrap (a : Nat) (v : Word) : (s.wrw a v).wrap = s.wrap := rfl
@[simp] theorem State.wrw_now (a : Nat) (v : Word) : (s.wrw a v).now = s.now := rfl
@[simp] theorem State.wrw_gpos (a : Nat) (v : Word) : (s.wrw a v).gpos = s.gpos := rfl
@[simp] theorem State.wrw_slate (a : Nat) (v : Word) : (s.wrw a v).slate = s.slate := rfl
@[simp] theorem State.wrw_sl (a : Nat) (v : Word) : (s.wrw a v).sl = s.sl := rfl
@[simp] theorem State.wrw_ports (a : Nat) (v : Word) : (s.wrw a v).ports = s.ports := rfl
@[simp] theorem State.wrw_links (a : Nat) (v : Word) : (s.wrw a v).links = s.links := rfl
@[simp] theorem State.wrw_group (a : Nat) (v : Word) : (s.wrw a v).group = s.group := rfl
@[simp] theorem State.wrw_gp (a : Nat) (v : Word) : (s.wrw a v).gp = s.gp := rfl
@[simp] theorem State.wrw_mir (a : Nat) (v : Word) : (s.wrw a v).mir = s.mir := rfl
@[simp] theorem State.wrw_answer (a : Nat) (v : Word) : (s.wrw a v).answer = s.answer := rfl
@[simp] theorem State.wrw_vrfs (a : Nat) (v : Word) : (s.wrw a v).vrfs = s.vrfs := rfl
@[simp] theorem State.wrw_turns (a : Nat) (v : Word) : (s.wrw a v).turns = s.turns := rfl
@[simp] theorem State.wrw_sec (a : Nat) (v : Word) : (s.wrw a v).sec = s.sec := rfl
@[simp] theorem State.wrw_gaf (a : Nat) (v : Word) : (s.wrw a v).gaf = s.gaf := rfl
@[simp] theorem State.wrw_boot (a : Nat) (v : Word) : (s.wrw a v).boot = s.boot := rfl
@[simp] theorem State.wrw_aon (a : Nat) (v : Word) : (s.wrw a v).aon = s.aon := rfl
@[simp] theorem State.wrw_pins (a : Nat) (v : Word) : (s.wrw a v).pins = s.pins := rfl
@[simp] theorem State.wrw_keyIds (a : Nat) (v : Word) : (s.wrw a v).keyIds = s.keyIds := rfl
@[simp] theorem State.wrw_freeCtr (a : Nat) (v : Word) : (s.wrw a v).freeCtr = s.freeCtr := rfl
@[simp] theorem State.wr_pending (f : FRef) (v : Nat) : (s.wr f v).pending = s.pending := rfl
@[simp] theorem State.wr_threads (f : FRef) (v : Nat) : (s.wr f v).threads = s.threads := rfl
@[simp] theorem State.wr_cores (f : FRef) (v : Nat) : (s.wr f v).cores = s.cores := rfl
@[simp] theorem State.wr_dec (f : FRef) (v : Nat) : (s.wr f v).dec = s.dec := rfl
@[simp] theorem State.wr_hints (f : FRef) (v : Nat) : (s.wr f v).hints = s.hints := rfl
@[simp] theorem State.wr_caches (f : FRef) (v : Nat) : (s.wr f v).caches = s.caches := rfl
@[simp] theorem State.wr_miss (f : FRef) (v : Nat) : (s.wr f v).miss = s.miss := rfl
@[simp] theorem State.wr_victims (f : FRef) (v : Nat) : (s.wr f v).victims = s.victims := rfl
@[simp] theorem State.wr_wlist (f : FRef) (v : Nat) : (s.wr f v).wlist = s.wlist := rfl
@[simp] theorem State.wr_io (f : FRef) (v : Nat) : (s.wr f v).io = SMap.put s.io f.addr (fset (s.rdw f.addr) f.lo f.w v) := rfl
@[simp] theorem State.wr_lines (f : FRef) (v : Nat) : (s.wr f v).lines = s.lines := rfl
@[simp] theorem State.wr_msgs (f : FRef) (v : Nat) : (s.wr f v).msgs = s.msgs := rfl
@[simp] theorem State.wr_mem (f : FRef) (v : Nat) : (s.wr f v).mem = s.mem := rfl
@[simp] theorem State.wr_views (f : FRef) (v : Nat) : (s.wr f v).views = s.views := rfl
@[simp] theorem State.wr_staged (f : FRef) (v : Nat) : (s.wr f v).staged = s.staged := rfl
@[simp] theorem State.wr_accepted (f : FRef) (v : Nat) : (s.wr f v).accepted = s.accepted := rfl
@[simp] theorem State.wr_undoOut (f : FRef) (v : Nat) : (s.wr f v).undoOut = s.undoOut := rfl
@[simp] theorem State.wr_swbOut (f : FRef) (v : Nat) : (s.wr f v).swbOut = s.swbOut := rfl
@[simp] theorem State.wr_nextId (f : FRef) (v : Nat) : (s.wr f v).nextId = s.nextId := rfl
@[simp] theorem State.wr_doms (f : FRef) (v : Nat) : (s.wr f v).doms = s.doms := rfl
@[simp] theorem State.wr_owners (f : FRef) (v : Nat) : (s.wr f v).owners = s.owners := rfl
@[simp] theorem State.wr_mcPend (f : FRef) (v : Nat) : (s.wr f v).mcPend = s.mcPend := rfl
@[simp] theorem State.wr_latent (f : FRef) (v : Nat) : (s.wr f v).latent = s.latent := rfl
@[simp] theorem State.wr_wayErr (f : FRef) (v : Nat) : (s.wr f v).wayErr = s.wayErr := rfl
@[simp] theorem State.wr_reclaims (f : FRef) (v : Nat) : (s.wr f v).reclaims = s.reclaims := rfl
@[simp] theorem State.wr_sparing (f : FRef) (v : Nat) : (s.wr f v).sparing = s.sparing := rfl
@[simp] theorem State.wr_gated (f : FRef) (v : Nat) : (s.wr f v).gated = s.gated := rfl
@[simp] theorem State.wr_power (f : FRef) (v : Nat) : (s.wr f v).power = s.power := rfl
@[simp] theorem State.wr_wrap (f : FRef) (v : Nat) : (s.wr f v).wrap = s.wrap := rfl
@[simp] theorem State.wr_now (f : FRef) (v : Nat) : (s.wr f v).now = s.now := rfl
@[simp] theorem State.wr_gpos (f : FRef) (v : Nat) : (s.wr f v).gpos = s.gpos := rfl
@[simp] theorem State.wr_slate (f : FRef) (v : Nat) : (s.wr f v).slate = s.slate := rfl
@[simp] theorem State.wr_sl (f : FRef) (v : Nat) : (s.wr f v).sl = s.sl := rfl
@[simp] theorem State.wr_ports (f : FRef) (v : Nat) : (s.wr f v).ports = s.ports := rfl
@[simp] theorem State.wr_links (f : FRef) (v : Nat) : (s.wr f v).links = s.links := rfl
@[simp] theorem State.wr_group (f : FRef) (v : Nat) : (s.wr f v).group = s.group := rfl
@[simp] theorem State.wr_gp (f : FRef) (v : Nat) : (s.wr f v).gp = s.gp := rfl
@[simp] theorem State.wr_mir (f : FRef) (v : Nat) : (s.wr f v).mir = s.mir := rfl
@[simp] theorem State.wr_answer (f : FRef) (v : Nat) : (s.wr f v).answer = s.answer := rfl
@[simp] theorem State.wr_vrfs (f : FRef) (v : Nat) : (s.wr f v).vrfs = s.vrfs := rfl
@[simp] theorem State.wr_turns (f : FRef) (v : Nat) : (s.wr f v).turns = s.turns := rfl
@[simp] theorem State.wr_sec (f : FRef) (v : Nat) : (s.wr f v).sec = s.sec := rfl
@[simp] theorem State.wr_gaf (f : FRef) (v : Nat) : (s.wr f v).gaf = s.gaf := rfl
@[simp] theorem State.wr_boot (f : FRef) (v : Nat) : (s.wr f v).boot = s.boot := rfl
@[simp] theorem State.wr_aon (f : FRef) (v : Nat) : (s.wr f v).aon = s.aon := rfl
@[simp] theorem State.wr_pins (f : FRef) (v : Nat) : (s.wr f v).pins = s.pins := rfl
@[simp] theorem State.wr_keyIds (f : FRef) (v : Nat) : (s.wr f v).keyIds = s.keyIds := rfl
@[simp] theorem State.wr_freeCtr (f : FRef) (v : Nat) : (s.wr f v).freeCtr = s.freeCtr := rfl
@[simp] theorem State.inc_pending (f : FRef) (n : Nat) : (s.inc f n).pending = s.pending := rfl
@[simp] theorem State.inc_threads (f : FRef) (n : Nat) : (s.inc f n).threads = s.threads := rfl
@[simp] theorem State.inc_cores (f : FRef) (n : Nat) : (s.inc f n).cores = s.cores := rfl
@[simp] theorem State.inc_dec (f : FRef) (n : Nat) : (s.inc f n).dec = s.dec := rfl
@[simp] theorem State.inc_hints (f : FRef) (n : Nat) : (s.inc f n).hints = s.hints := rfl
@[simp] theorem State.inc_caches (f : FRef) (n : Nat) : (s.inc f n).caches = s.caches := rfl
@[simp] theorem State.inc_miss (f : FRef) (n : Nat) : (s.inc f n).miss = s.miss := rfl
@[simp] theorem State.inc_victims (f : FRef) (n : Nat) : (s.inc f n).victims = s.victims := rfl
@[simp] theorem State.inc_wlist (f : FRef) (n : Nat) : (s.inc f n).wlist = s.wlist := rfl
@[simp] theorem State.inc_lines (f : FRef) (n : Nat) : (s.inc f n).lines = s.lines := rfl
@[simp] theorem State.inc_msgs (f : FRef) (n : Nat) : (s.inc f n).msgs = s.msgs := rfl
@[simp] theorem State.inc_mem (f : FRef) (n : Nat) : (s.inc f n).mem = s.mem := rfl
@[simp] theorem State.inc_views (f : FRef) (n : Nat) : (s.inc f n).views = s.views := rfl
@[simp] theorem State.inc_staged (f : FRef) (n : Nat) : (s.inc f n).staged = s.staged := rfl
@[simp] theorem State.inc_accepted (f : FRef) (n : Nat) : (s.inc f n).accepted = s.accepted := rfl
@[simp] theorem State.inc_undoOut (f : FRef) (n : Nat) : (s.inc f n).undoOut = s.undoOut := rfl
@[simp] theorem State.inc_swbOut (f : FRef) (n : Nat) : (s.inc f n).swbOut = s.swbOut := rfl
@[simp] theorem State.inc_nextId (f : FRef) (n : Nat) : (s.inc f n).nextId = s.nextId := rfl
@[simp] theorem State.inc_doms (f : FRef) (n : Nat) : (s.inc f n).doms = s.doms := rfl
@[simp] theorem State.inc_owners (f : FRef) (n : Nat) : (s.inc f n).owners = s.owners := rfl
@[simp] theorem State.inc_mcPend (f : FRef) (n : Nat) : (s.inc f n).mcPend = s.mcPend := rfl
@[simp] theorem State.inc_latent (f : FRef) (n : Nat) : (s.inc f n).latent = s.latent := rfl
@[simp] theorem State.inc_wayErr (f : FRef) (n : Nat) : (s.inc f n).wayErr = s.wayErr := rfl
@[simp] theorem State.inc_reclaims (f : FRef) (n : Nat) : (s.inc f n).reclaims = s.reclaims := rfl
@[simp] theorem State.inc_sparing (f : FRef) (n : Nat) : (s.inc f n).sparing = s.sparing := rfl
@[simp] theorem State.inc_gated (f : FRef) (n : Nat) : (s.inc f n).gated = s.gated := rfl
@[simp] theorem State.inc_power (f : FRef) (n : Nat) : (s.inc f n).power = s.power := rfl
@[simp] theorem State.inc_wrap (f : FRef) (n : Nat) : (s.inc f n).wrap = s.wrap := rfl
@[simp] theorem State.inc_now (f : FRef) (n : Nat) : (s.inc f n).now = s.now := rfl
@[simp] theorem State.inc_gpos (f : FRef) (n : Nat) : (s.inc f n).gpos = s.gpos := rfl
@[simp] theorem State.inc_slate (f : FRef) (n : Nat) : (s.inc f n).slate = s.slate := rfl
@[simp] theorem State.inc_sl (f : FRef) (n : Nat) : (s.inc f n).sl = s.sl := rfl
@[simp] theorem State.inc_ports (f : FRef) (n : Nat) : (s.inc f n).ports = s.ports := rfl
@[simp] theorem State.inc_links (f : FRef) (n : Nat) : (s.inc f n).links = s.links := rfl
@[simp] theorem State.inc_group (f : FRef) (n : Nat) : (s.inc f n).group = s.group := rfl
@[simp] theorem State.inc_gp (f : FRef) (n : Nat) : (s.inc f n).gp = s.gp := rfl
@[simp] theorem State.inc_mir (f : FRef) (n : Nat) : (s.inc f n).mir = s.mir := rfl
@[simp] theorem State.inc_answer (f : FRef) (n : Nat) : (s.inc f n).answer = s.answer := rfl
@[simp] theorem State.inc_vrfs (f : FRef) (n : Nat) : (s.inc f n).vrfs = s.vrfs := rfl
@[simp] theorem State.inc_turns (f : FRef) (n : Nat) : (s.inc f n).turns = s.turns := rfl
@[simp] theorem State.inc_sec (f : FRef) (n : Nat) : (s.inc f n).sec = s.sec := rfl
@[simp] theorem State.inc_gaf (f : FRef) (n : Nat) : (s.inc f n).gaf = s.gaf := rfl
@[simp] theorem State.inc_boot (f : FRef) (n : Nat) : (s.inc f n).boot = s.boot := rfl
@[simp] theorem State.inc_aon (f : FRef) (n : Nat) : (s.inc f n).aon = s.aon := rfl
@[simp] theorem State.inc_pins (f : FRef) (n : Nat) : (s.inc f n).pins = s.pins := rfl
@[simp] theorem State.inc_keyIds (f : FRef) (n : Nat) : (s.inc f n).keyIds = s.keyIds := rfl
@[simp] theorem State.inc_freeCtr (f : FRef) (n : Nat) : (s.inc f n).freeCtr = s.freeCtr := rfl
@[simp] theorem State.incSat_pending (f : FRef) (n : Nat) : (s.incSat f n).pending = s.pending := rfl
@[simp] theorem State.incSat_threads (f : FRef) (n : Nat) : (s.incSat f n).threads = s.threads := rfl
@[simp] theorem State.incSat_cores (f : FRef) (n : Nat) : (s.incSat f n).cores = s.cores := rfl
@[simp] theorem State.incSat_dec (f : FRef) (n : Nat) : (s.incSat f n).dec = s.dec := rfl
@[simp] theorem State.incSat_hints (f : FRef) (n : Nat) : (s.incSat f n).hints = s.hints := rfl
@[simp] theorem State.incSat_caches (f : FRef) (n : Nat) : (s.incSat f n).caches = s.caches := rfl
@[simp] theorem State.incSat_miss (f : FRef) (n : Nat) : (s.incSat f n).miss = s.miss := rfl
@[simp] theorem State.incSat_victims (f : FRef) (n : Nat) : (s.incSat f n).victims = s.victims := rfl
@[simp] theorem State.incSat_wlist (f : FRef) (n : Nat) : (s.incSat f n).wlist = s.wlist := rfl
@[simp] theorem State.incSat_lines (f : FRef) (n : Nat) : (s.incSat f n).lines = s.lines := rfl
@[simp] theorem State.incSat_msgs (f : FRef) (n : Nat) : (s.incSat f n).msgs = s.msgs := rfl
@[simp] theorem State.incSat_mem (f : FRef) (n : Nat) : (s.incSat f n).mem = s.mem := rfl
@[simp] theorem State.incSat_views (f : FRef) (n : Nat) : (s.incSat f n).views = s.views := rfl
@[simp] theorem State.incSat_staged (f : FRef) (n : Nat) : (s.incSat f n).staged = s.staged := rfl
@[simp] theorem State.incSat_accepted (f : FRef) (n : Nat) : (s.incSat f n).accepted = s.accepted := rfl
@[simp] theorem State.incSat_undoOut (f : FRef) (n : Nat) : (s.incSat f n).undoOut = s.undoOut := rfl
@[simp] theorem State.incSat_swbOut (f : FRef) (n : Nat) : (s.incSat f n).swbOut = s.swbOut := rfl
@[simp] theorem State.incSat_nextId (f : FRef) (n : Nat) : (s.incSat f n).nextId = s.nextId := rfl
@[simp] theorem State.incSat_doms (f : FRef) (n : Nat) : (s.incSat f n).doms = s.doms := rfl
@[simp] theorem State.incSat_owners (f : FRef) (n : Nat) : (s.incSat f n).owners = s.owners := rfl
@[simp] theorem State.incSat_mcPend (f : FRef) (n : Nat) : (s.incSat f n).mcPend = s.mcPend := rfl
@[simp] theorem State.incSat_latent (f : FRef) (n : Nat) : (s.incSat f n).latent = s.latent := rfl
@[simp] theorem State.incSat_wayErr (f : FRef) (n : Nat) : (s.incSat f n).wayErr = s.wayErr := rfl
@[simp] theorem State.incSat_reclaims (f : FRef) (n : Nat) : (s.incSat f n).reclaims = s.reclaims := rfl
@[simp] theorem State.incSat_sparing (f : FRef) (n : Nat) : (s.incSat f n).sparing = s.sparing := rfl
@[simp] theorem State.incSat_gated (f : FRef) (n : Nat) : (s.incSat f n).gated = s.gated := rfl
@[simp] theorem State.incSat_power (f : FRef) (n : Nat) : (s.incSat f n).power = s.power := rfl
@[simp] theorem State.incSat_wrap (f : FRef) (n : Nat) : (s.incSat f n).wrap = s.wrap := rfl
@[simp] theorem State.incSat_now (f : FRef) (n : Nat) : (s.incSat f n).now = s.now := rfl
@[simp] theorem State.incSat_gpos (f : FRef) (n : Nat) : (s.incSat f n).gpos = s.gpos := rfl
@[simp] theorem State.incSat_slate (f : FRef) (n : Nat) : (s.incSat f n).slate = s.slate := rfl
@[simp] theorem State.incSat_sl (f : FRef) (n : Nat) : (s.incSat f n).sl = s.sl := rfl
@[simp] theorem State.incSat_ports (f : FRef) (n : Nat) : (s.incSat f n).ports = s.ports := rfl
@[simp] theorem State.incSat_links (f : FRef) (n : Nat) : (s.incSat f n).links = s.links := rfl
@[simp] theorem State.incSat_group (f : FRef) (n : Nat) : (s.incSat f n).group = s.group := rfl
@[simp] theorem State.incSat_gp (f : FRef) (n : Nat) : (s.incSat f n).gp = s.gp := rfl
@[simp] theorem State.incSat_mir (f : FRef) (n : Nat) : (s.incSat f n).mir = s.mir := rfl
@[simp] theorem State.incSat_answer (f : FRef) (n : Nat) : (s.incSat f n).answer = s.answer := rfl
@[simp] theorem State.incSat_vrfs (f : FRef) (n : Nat) : (s.incSat f n).vrfs = s.vrfs := rfl
@[simp] theorem State.incSat_turns (f : FRef) (n : Nat) : (s.incSat f n).turns = s.turns := rfl
@[simp] theorem State.incSat_sec (f : FRef) (n : Nat) : (s.incSat f n).sec = s.sec := rfl
@[simp] theorem State.incSat_gaf (f : FRef) (n : Nat) : (s.incSat f n).gaf = s.gaf := rfl
@[simp] theorem State.incSat_boot (f : FRef) (n : Nat) : (s.incSat f n).boot = s.boot := rfl
@[simp] theorem State.incSat_aon (f : FRef) (n : Nat) : (s.incSat f n).aon = s.aon := rfl
@[simp] theorem State.incSat_pins (f : FRef) (n : Nat) : (s.incSat f n).pins = s.pins := rfl
@[simp] theorem State.incSat_keyIds (f : FRef) (n : Nat) : (s.incSat f n).keyIds = s.keyIds := rfl
@[simp] theorem State.incSat_freeCtr (f : FRef) (n : Nat) : (s.incSat f n).freeCtr = s.freeCtr := rfl
@[simp] theorem State.setThrN_pending (t : Nat) (x : Thread) : (s.setThrN t x).pending = s.pending := rfl
@[simp] theorem State.setThrN_threads (t : Nat) (x : Thread) : (s.setThrN t x).threads = SMap.put s.threads t x := rfl
@[simp] theorem State.setThrN_cores (t : Nat) (x : Thread) : (s.setThrN t x).cores = s.cores := rfl
@[simp] theorem State.setThrN_dec (t : Nat) (x : Thread) : (s.setThrN t x).dec = s.dec := rfl
@[simp] theorem State.setThrN_hints (t : Nat) (x : Thread) : (s.setThrN t x).hints = s.hints := rfl
@[simp] theorem State.setThrN_caches (t : Nat) (x : Thread) : (s.setThrN t x).caches = s.caches := rfl
@[simp] theorem State.setThrN_miss (t : Nat) (x : Thread) : (s.setThrN t x).miss = s.miss := rfl
@[simp] theorem State.setThrN_victims (t : Nat) (x : Thread) : (s.setThrN t x).victims = s.victims := rfl
@[simp] theorem State.setThrN_wlist (t : Nat) (x : Thread) : (s.setThrN t x).wlist = s.wlist := rfl
@[simp] theorem State.setThrN_io (t : Nat) (x : Thread) : (s.setThrN t x).io = s.io := rfl
@[simp] theorem State.setThrN_lines (t : Nat) (x : Thread) : (s.setThrN t x).lines = s.lines := rfl
@[simp] theorem State.setThrN_msgs (t : Nat) (x : Thread) : (s.setThrN t x).msgs = s.msgs := rfl
@[simp] theorem State.setThrN_mem (t : Nat) (x : Thread) : (s.setThrN t x).mem = s.mem := rfl
@[simp] theorem State.setThrN_views (t : Nat) (x : Thread) : (s.setThrN t x).views = s.views := rfl
@[simp] theorem State.setThrN_staged (t : Nat) (x : Thread) : (s.setThrN t x).staged = s.staged := rfl
@[simp] theorem State.setThrN_accepted (t : Nat) (x : Thread) : (s.setThrN t x).accepted = s.accepted := rfl
@[simp] theorem State.setThrN_undoOut (t : Nat) (x : Thread) : (s.setThrN t x).undoOut = s.undoOut := rfl
@[simp] theorem State.setThrN_swbOut (t : Nat) (x : Thread) : (s.setThrN t x).swbOut = s.swbOut := rfl
@[simp] theorem State.setThrN_nextId (t : Nat) (x : Thread) : (s.setThrN t x).nextId = s.nextId := rfl
@[simp] theorem State.setThrN_doms (t : Nat) (x : Thread) : (s.setThrN t x).doms = s.doms := rfl
@[simp] theorem State.setThrN_owners (t : Nat) (x : Thread) : (s.setThrN t x).owners = s.owners := rfl
@[simp] theorem State.setThrN_mcPend (t : Nat) (x : Thread) : (s.setThrN t x).mcPend = s.mcPend := rfl
@[simp] theorem State.setThrN_latent (t : Nat) (x : Thread) : (s.setThrN t x).latent = s.latent := rfl
@[simp] theorem State.setThrN_wayErr (t : Nat) (x : Thread) : (s.setThrN t x).wayErr = s.wayErr := rfl
@[simp] theorem State.setThrN_reclaims (t : Nat) (x : Thread) : (s.setThrN t x).reclaims = s.reclaims := rfl
@[simp] theorem State.setThrN_sparing (t : Nat) (x : Thread) : (s.setThrN t x).sparing = s.sparing := rfl
@[simp] theorem State.setThrN_gated (t : Nat) (x : Thread) : (s.setThrN t x).gated = s.gated := rfl
@[simp] theorem State.setThrN_power (t : Nat) (x : Thread) : (s.setThrN t x).power = s.power := rfl
@[simp] theorem State.setThrN_wrap (t : Nat) (x : Thread) : (s.setThrN t x).wrap = s.wrap := rfl
@[simp] theorem State.setThrN_now (t : Nat) (x : Thread) : (s.setThrN t x).now = s.now := rfl
@[simp] theorem State.setThrN_gpos (t : Nat) (x : Thread) : (s.setThrN t x).gpos = s.gpos := rfl
@[simp] theorem State.setThrN_slate (t : Nat) (x : Thread) : (s.setThrN t x).slate = s.slate := rfl
@[simp] theorem State.setThrN_sl (t : Nat) (x : Thread) : (s.setThrN t x).sl = s.sl := rfl
@[simp] theorem State.setThrN_ports (t : Nat) (x : Thread) : (s.setThrN t x).ports = s.ports := rfl
@[simp] theorem State.setThrN_links (t : Nat) (x : Thread) : (s.setThrN t x).links = s.links := rfl
@[simp] theorem State.setThrN_group (t : Nat) (x : Thread) : (s.setThrN t x).group = s.group := rfl
@[simp] theorem State.setThrN_gp (t : Nat) (x : Thread) : (s.setThrN t x).gp = s.gp := rfl
@[simp] theorem State.setThrN_mir (t : Nat) (x : Thread) : (s.setThrN t x).mir = s.mir := rfl
@[simp] theorem State.setThrN_answer (t : Nat) (x : Thread) : (s.setThrN t x).answer = s.answer := rfl
@[simp] theorem State.setThrN_vrfs (t : Nat) (x : Thread) : (s.setThrN t x).vrfs = s.vrfs := rfl
@[simp] theorem State.setThrN_turns (t : Nat) (x : Thread) : (s.setThrN t x).turns = s.turns := rfl
@[simp] theorem State.setThrN_sec (t : Nat) (x : Thread) : (s.setThrN t x).sec = s.sec := rfl
@[simp] theorem State.setThrN_gaf (t : Nat) (x : Thread) : (s.setThrN t x).gaf = s.gaf := rfl
@[simp] theorem State.setThrN_boot (t : Nat) (x : Thread) : (s.setThrN t x).boot = s.boot := rfl
@[simp] theorem State.setThrN_aon (t : Nat) (x : Thread) : (s.setThrN t x).aon = s.aon := rfl
@[simp] theorem State.setThrN_pins (t : Nat) (x : Thread) : (s.setThrN t x).pins = s.pins := rfl
@[simp] theorem State.setThrN_keyIds (t : Nat) (x : Thread) : (s.setThrN t x).keyIds = s.keyIds := rfl
@[simp] theorem State.setThrN_freeCtr (t : Nat) (x : Thread) : (s.setThrN t x).freeCtr = s.freeCtr := rfl
@[simp] theorem State.setThr_pending (t : Tid) (x : Thread) : (s.setThr t x).pending = s.pending := rfl
@[simp] theorem State.setThr_threads (t : Tid) (x : Thread) : (s.setThr t x).threads = SMap.put s.threads t.val x := rfl
@[simp] theorem State.setThr_cores (t : Tid) (x : Thread) : (s.setThr t x).cores = s.cores := rfl
@[simp] theorem State.setThr_dec (t : Tid) (x : Thread) : (s.setThr t x).dec = s.dec := rfl
@[simp] theorem State.setThr_hints (t : Tid) (x : Thread) : (s.setThr t x).hints = s.hints := rfl
@[simp] theorem State.setThr_caches (t : Tid) (x : Thread) : (s.setThr t x).caches = s.caches := rfl
@[simp] theorem State.setThr_miss (t : Tid) (x : Thread) : (s.setThr t x).miss = s.miss := rfl
@[simp] theorem State.setThr_victims (t : Tid) (x : Thread) : (s.setThr t x).victims = s.victims := rfl
@[simp] theorem State.setThr_wlist (t : Tid) (x : Thread) : (s.setThr t x).wlist = s.wlist := rfl
@[simp] theorem State.setThr_io (t : Tid) (x : Thread) : (s.setThr t x).io = s.io := rfl
@[simp] theorem State.setThr_lines (t : Tid) (x : Thread) : (s.setThr t x).lines = s.lines := rfl
@[simp] theorem State.setThr_msgs (t : Tid) (x : Thread) : (s.setThr t x).msgs = s.msgs := rfl
@[simp] theorem State.setThr_mem (t : Tid) (x : Thread) : (s.setThr t x).mem = s.mem := rfl
@[simp] theorem State.setThr_views (t : Tid) (x : Thread) : (s.setThr t x).views = s.views := rfl
@[simp] theorem State.setThr_staged (t : Tid) (x : Thread) : (s.setThr t x).staged = s.staged := rfl
@[simp] theorem State.setThr_accepted (t : Tid) (x : Thread) : (s.setThr t x).accepted = s.accepted := rfl
@[simp] theorem State.setThr_undoOut (t : Tid) (x : Thread) : (s.setThr t x).undoOut = s.undoOut := rfl
@[simp] theorem State.setThr_swbOut (t : Tid) (x : Thread) : (s.setThr t x).swbOut = s.swbOut := rfl
@[simp] theorem State.setThr_nextId (t : Tid) (x : Thread) : (s.setThr t x).nextId = s.nextId := rfl
@[simp] theorem State.setThr_doms (t : Tid) (x : Thread) : (s.setThr t x).doms = s.doms := rfl
@[simp] theorem State.setThr_owners (t : Tid) (x : Thread) : (s.setThr t x).owners = s.owners := rfl
@[simp] theorem State.setThr_mcPend (t : Tid) (x : Thread) : (s.setThr t x).mcPend = s.mcPend := rfl
@[simp] theorem State.setThr_latent (t : Tid) (x : Thread) : (s.setThr t x).latent = s.latent := rfl
@[simp] theorem State.setThr_wayErr (t : Tid) (x : Thread) : (s.setThr t x).wayErr = s.wayErr := rfl
@[simp] theorem State.setThr_reclaims (t : Tid) (x : Thread) : (s.setThr t x).reclaims = s.reclaims := rfl
@[simp] theorem State.setThr_sparing (t : Tid) (x : Thread) : (s.setThr t x).sparing = s.sparing := rfl
@[simp] theorem State.setThr_gated (t : Tid) (x : Thread) : (s.setThr t x).gated = s.gated := rfl
@[simp] theorem State.setThr_power (t : Tid) (x : Thread) : (s.setThr t x).power = s.power := rfl
@[simp] theorem State.setThr_wrap (t : Tid) (x : Thread) : (s.setThr t x).wrap = s.wrap := rfl
@[simp] theorem State.setThr_now (t : Tid) (x : Thread) : (s.setThr t x).now = s.now := rfl
@[simp] theorem State.setThr_gpos (t : Tid) (x : Thread) : (s.setThr t x).gpos = s.gpos := rfl
@[simp] theorem State.setThr_slate (t : Tid) (x : Thread) : (s.setThr t x).slate = s.slate := rfl
@[simp] theorem State.setThr_sl (t : Tid) (x : Thread) : (s.setThr t x).sl = s.sl := rfl
@[simp] theorem State.setThr_ports (t : Tid) (x : Thread) : (s.setThr t x).ports = s.ports := rfl
@[simp] theorem State.setThr_links (t : Tid) (x : Thread) : (s.setThr t x).links = s.links := rfl
@[simp] theorem State.setThr_group (t : Tid) (x : Thread) : (s.setThr t x).group = s.group := rfl
@[simp] theorem State.setThr_gp (t : Tid) (x : Thread) : (s.setThr t x).gp = s.gp := rfl
@[simp] theorem State.setThr_mir (t : Tid) (x : Thread) : (s.setThr t x).mir = s.mir := rfl
@[simp] theorem State.setThr_answer (t : Tid) (x : Thread) : (s.setThr t x).answer = s.answer := rfl
@[simp] theorem State.setThr_vrfs (t : Tid) (x : Thread) : (s.setThr t x).vrfs = s.vrfs := rfl
@[simp] theorem State.setThr_turns (t : Tid) (x : Thread) : (s.setThr t x).turns = s.turns := rfl
@[simp] theorem State.setThr_sec (t : Tid) (x : Thread) : (s.setThr t x).sec = s.sec := rfl
@[simp] theorem State.setThr_gaf (t : Tid) (x : Thread) : (s.setThr t x).gaf = s.gaf := rfl
@[simp] theorem State.setThr_boot (t : Tid) (x : Thread) : (s.setThr t x).boot = s.boot := rfl
@[simp] theorem State.setThr_aon (t : Tid) (x : Thread) : (s.setThr t x).aon = s.aon := rfl
@[simp] theorem State.setThr_pins (t : Tid) (x : Thread) : (s.setThr t x).pins = s.pins := rfl
@[simp] theorem State.setThr_keyIds (t : Tid) (x : Thread) : (s.setThr t x).keyIds = s.keyIds := rfl
@[simp] theorem State.setThr_freeCtr (t : Tid) (x : Thread) : (s.setThr t x).freeCtr = s.freeCtr := rfl
@[simp] theorem State.setG_pending (t : Tid) (r : Rn) (v : Word) : (s.setG t r v).pending = s.pending := rfl
@[simp] theorem State.setG_cores (t : Tid) (r : Rn) (v : Word) : (s.setG t r v).cores = s.cores := rfl
@[simp] theorem State.setG_dec (t : Tid) (r : Rn) (v : Word) : (s.setG t r v).dec = s.dec := rfl
@[simp] theorem State.setG_hints (t : Tid) (r : Rn) (v : Word) : (s.setG t r v).hints = s.hints := rfl
@[simp] theorem State.setG_caches (t : Tid) (r : Rn) (v : Word) : (s.setG t r v).caches = s.caches := rfl
@[simp] theorem State.setG_miss (t : Tid) (r : Rn) (v : Word) : (s.setG t r v).miss = s.miss := rfl
@[simp] theorem State.setG_victims (t : Tid) (r : Rn) (v : Word) : (s.setG t r v).victims = s.victims := rfl
@[simp] theorem State.setG_wlist (t : Tid) (r : Rn) (v : Word) : (s.setG t r v).wlist = s.wlist := rfl
@[simp] theorem State.setG_io (t : Tid) (r : Rn) (v : Word) : (s.setG t r v).io = s.io := rfl
@[simp] theorem State.setG_lines (t : Tid) (r : Rn) (v : Word) : (s.setG t r v).lines = s.lines := rfl
@[simp] theorem State.setG_msgs (t : Tid) (r : Rn) (v : Word) : (s.setG t r v).msgs = s.msgs := rfl
@[simp] theorem State.setG_mem (t : Tid) (r : Rn) (v : Word) : (s.setG t r v).mem = s.mem := rfl
@[simp] theorem State.setG_views (t : Tid) (r : Rn) (v : Word) : (s.setG t r v).views = s.views := rfl
@[simp] theorem State.setG_staged (t : Tid) (r : Rn) (v : Word) : (s.setG t r v).staged = s.staged := rfl
@[simp] theorem State.setG_accepted (t : Tid) (r : Rn) (v : Word) : (s.setG t r v).accepted = s.accepted := rfl
@[simp] theorem State.setG_undoOut (t : Tid) (r : Rn) (v : Word) : (s.setG t r v).undoOut = s.undoOut := rfl
@[simp] theorem State.setG_swbOut (t : Tid) (r : Rn) (v : Word) : (s.setG t r v).swbOut = s.swbOut := rfl
@[simp] theorem State.setG_nextId (t : Tid) (r : Rn) (v : Word) : (s.setG t r v).nextId = s.nextId := rfl
@[simp] theorem State.setG_doms (t : Tid) (r : Rn) (v : Word) : (s.setG t r v).doms = s.doms := rfl
@[simp] theorem State.setG_owners (t : Tid) (r : Rn) (v : Word) : (s.setG t r v).owners = s.owners := rfl
@[simp] theorem State.setG_mcPend (t : Tid) (r : Rn) (v : Word) : (s.setG t r v).mcPend = s.mcPend := rfl
@[simp] theorem State.setG_latent (t : Tid) (r : Rn) (v : Word) : (s.setG t r v).latent = s.latent := rfl
@[simp] theorem State.setG_wayErr (t : Tid) (r : Rn) (v : Word) : (s.setG t r v).wayErr = s.wayErr := rfl
@[simp] theorem State.setG_reclaims (t : Tid) (r : Rn) (v : Word) : (s.setG t r v).reclaims = s.reclaims := rfl
@[simp] theorem State.setG_sparing (t : Tid) (r : Rn) (v : Word) : (s.setG t r v).sparing = s.sparing := rfl
@[simp] theorem State.setG_gated (t : Tid) (r : Rn) (v : Word) : (s.setG t r v).gated = s.gated := rfl
@[simp] theorem State.setG_power (t : Tid) (r : Rn) (v : Word) : (s.setG t r v).power = s.power := rfl
@[simp] theorem State.setG_wrap (t : Tid) (r : Rn) (v : Word) : (s.setG t r v).wrap = s.wrap := rfl
@[simp] theorem State.setG_now (t : Tid) (r : Rn) (v : Word) : (s.setG t r v).now = s.now := rfl
@[simp] theorem State.setG_gpos (t : Tid) (r : Rn) (v : Word) : (s.setG t r v).gpos = s.gpos := rfl
@[simp] theorem State.setG_slate (t : Tid) (r : Rn) (v : Word) : (s.setG t r v).slate = s.slate := rfl
@[simp] theorem State.setG_sl (t : Tid) (r : Rn) (v : Word) : (s.setG t r v).sl = s.sl := rfl
@[simp] theorem State.setG_ports (t : Tid) (r : Rn) (v : Word) : (s.setG t r v).ports = s.ports := rfl
@[simp] theorem State.setG_links (t : Tid) (r : Rn) (v : Word) : (s.setG t r v).links = s.links := rfl
@[simp] theorem State.setG_group (t : Tid) (r : Rn) (v : Word) : (s.setG t r v).group = s.group := rfl
@[simp] theorem State.setG_gp (t : Tid) (r : Rn) (v : Word) : (s.setG t r v).gp = s.gp := rfl
@[simp] theorem State.setG_mir (t : Tid) (r : Rn) (v : Word) : (s.setG t r v).mir = s.mir := rfl
@[simp] theorem State.setG_answer (t : Tid) (r : Rn) (v : Word) : (s.setG t r v).answer = s.answer := rfl
@[simp] theorem State.setG_vrfs (t : Tid) (r : Rn) (v : Word) : (s.setG t r v).vrfs = s.vrfs := rfl
@[simp] theorem State.setG_turns (t : Tid) (r : Rn) (v : Word) : (s.setG t r v).turns = s.turns := rfl
@[simp] theorem State.setG_sec (t : Tid) (r : Rn) (v : Word) : (s.setG t r v).sec = s.sec := rfl
@[simp] theorem State.setG_gaf (t : Tid) (r : Rn) (v : Word) : (s.setG t r v).gaf = s.gaf := rfl
@[simp] theorem State.setG_boot (t : Tid) (r : Rn) (v : Word) : (s.setG t r v).boot = s.boot := rfl
@[simp] theorem State.setG_aon (t : Tid) (r : Rn) (v : Word) : (s.setG t r v).aon = s.aon := rfl
@[simp] theorem State.setG_pins (t : Tid) (r : Rn) (v : Word) : (s.setG t r v).pins = s.pins := rfl
@[simp] theorem State.setG_keyIds (t : Tid) (r : Rn) (v : Word) : (s.setG t r v).keyIds = s.keyIds := rfl
@[simp] theorem State.setG_freeCtr (t : Tid) (r : Rn) (v : Word) : (s.setG t r v).freeCtr = s.freeCtr := rfl
@[simp] theorem State.setF_pending (t : Tid) (r : Rn) (v : Word) : (s.setF t r v).pending = s.pending := rfl
@[simp] theorem State.setF_cores (t : Tid) (r : Rn) (v : Word) : (s.setF t r v).cores = s.cores := rfl
@[simp] theorem State.setF_dec (t : Tid) (r : Rn) (v : Word) : (s.setF t r v).dec = s.dec := rfl
@[simp] theorem State.setF_hints (t : Tid) (r : Rn) (v : Word) : (s.setF t r v).hints = s.hints := rfl
@[simp] theorem State.setF_caches (t : Tid) (r : Rn) (v : Word) : (s.setF t r v).caches = s.caches := rfl
@[simp] theorem State.setF_miss (t : Tid) (r : Rn) (v : Word) : (s.setF t r v).miss = s.miss := rfl
@[simp] theorem State.setF_victims (t : Tid) (r : Rn) (v : Word) : (s.setF t r v).victims = s.victims := rfl
@[simp] theorem State.setF_wlist (t : Tid) (r : Rn) (v : Word) : (s.setF t r v).wlist = s.wlist := rfl
@[simp] theorem State.setF_io (t : Tid) (r : Rn) (v : Word) : (s.setF t r v).io = s.io := rfl
@[simp] theorem State.setF_lines (t : Tid) (r : Rn) (v : Word) : (s.setF t r v).lines = s.lines := rfl
@[simp] theorem State.setF_msgs (t : Tid) (r : Rn) (v : Word) : (s.setF t r v).msgs = s.msgs := rfl
@[simp] theorem State.setF_mem (t : Tid) (r : Rn) (v : Word) : (s.setF t r v).mem = s.mem := rfl
@[simp] theorem State.setF_views (t : Tid) (r : Rn) (v : Word) : (s.setF t r v).views = s.views := rfl
@[simp] theorem State.setF_staged (t : Tid) (r : Rn) (v : Word) : (s.setF t r v).staged = s.staged := rfl
@[simp] theorem State.setF_accepted (t : Tid) (r : Rn) (v : Word) : (s.setF t r v).accepted = s.accepted := rfl
@[simp] theorem State.setF_undoOut (t : Tid) (r : Rn) (v : Word) : (s.setF t r v).undoOut = s.undoOut := rfl
@[simp] theorem State.setF_swbOut (t : Tid) (r : Rn) (v : Word) : (s.setF t r v).swbOut = s.swbOut := rfl
@[simp] theorem State.setF_nextId (t : Tid) (r : Rn) (v : Word) : (s.setF t r v).nextId = s.nextId := rfl
@[simp] theorem State.setF_doms (t : Tid) (r : Rn) (v : Word) : (s.setF t r v).doms = s.doms := rfl
@[simp] theorem State.setF_owners (t : Tid) (r : Rn) (v : Word) : (s.setF t r v).owners = s.owners := rfl
@[simp] theorem State.setF_mcPend (t : Tid) (r : Rn) (v : Word) : (s.setF t r v).mcPend = s.mcPend := rfl
@[simp] theorem State.setF_latent (t : Tid) (r : Rn) (v : Word) : (s.setF t r v).latent = s.latent := rfl
@[simp] theorem State.setF_wayErr (t : Tid) (r : Rn) (v : Word) : (s.setF t r v).wayErr = s.wayErr := rfl
@[simp] theorem State.setF_reclaims (t : Tid) (r : Rn) (v : Word) : (s.setF t r v).reclaims = s.reclaims := rfl
@[simp] theorem State.setF_sparing (t : Tid) (r : Rn) (v : Word) : (s.setF t r v).sparing = s.sparing := rfl
@[simp] theorem State.setF_gated (t : Tid) (r : Rn) (v : Word) : (s.setF t r v).gated = s.gated := rfl
@[simp] theorem State.setF_power (t : Tid) (r : Rn) (v : Word) : (s.setF t r v).power = s.power := rfl
@[simp] theorem State.setF_wrap (t : Tid) (r : Rn) (v : Word) : (s.setF t r v).wrap = s.wrap := rfl
@[simp] theorem State.setF_now (t : Tid) (r : Rn) (v : Word) : (s.setF t r v).now = s.now := rfl
@[simp] theorem State.setF_gpos (t : Tid) (r : Rn) (v : Word) : (s.setF t r v).gpos = s.gpos := rfl
@[simp] theorem State.setF_slate (t : Tid) (r : Rn) (v : Word) : (s.setF t r v).slate = s.slate := rfl
@[simp] theorem State.setF_sl (t : Tid) (r : Rn) (v : Word) : (s.setF t r v).sl = s.sl := rfl
@[simp] theorem State.setF_ports (t : Tid) (r : Rn) (v : Word) : (s.setF t r v).ports = s.ports := rfl
@[simp] theorem State.setF_links (t : Tid) (r : Rn) (v : Word) : (s.setF t r v).links = s.links := rfl
@[simp] theorem State.setF_group (t : Tid) (r : Rn) (v : Word) : (s.setF t r v).group = s.group := rfl
@[simp] theorem State.setF_gp (t : Tid) (r : Rn) (v : Word) : (s.setF t r v).gp = s.gp := rfl
@[simp] theorem State.setF_mir (t : Tid) (r : Rn) (v : Word) : (s.setF t r v).mir = s.mir := rfl
@[simp] theorem State.setF_answer (t : Tid) (r : Rn) (v : Word) : (s.setF t r v).answer = s.answer := rfl
@[simp] theorem State.setF_vrfs (t : Tid) (r : Rn) (v : Word) : (s.setF t r v).vrfs = s.vrfs := rfl
@[simp] theorem State.setF_turns (t : Tid) (r : Rn) (v : Word) : (s.setF t r v).turns = s.turns := rfl
@[simp] theorem State.setF_sec (t : Tid) (r : Rn) (v : Word) : (s.setF t r v).sec = s.sec := rfl
@[simp] theorem State.setF_gaf (t : Tid) (r : Rn) (v : Word) : (s.setF t r v).gaf = s.gaf := rfl
@[simp] theorem State.setF_boot (t : Tid) (r : Rn) (v : Word) : (s.setF t r v).boot = s.boot := rfl
@[simp] theorem State.setF_aon (t : Tid) (r : Rn) (v : Word) : (s.setF t r v).aon = s.aon := rfl
@[simp] theorem State.setF_pins (t : Tid) (r : Rn) (v : Word) : (s.setF t r v).pins = s.pins := rfl
@[simp] theorem State.setF_keyIds (t : Tid) (r : Rn) (v : Word) : (s.setF t r v).keyIds = s.keyIds := rfl
@[simp] theorem State.setF_freeCtr (t : Tid) (r : Rn) (v : Word) : (s.setF t r v).freeCtr = s.freeCtr := rfl
@[simp] theorem State.setCore_pending (c : Nat) (x : Core) : (s.setCore c x).pending = s.pending := rfl
@[simp] theorem State.setCore_threads (c : Nat) (x : Core) : (s.setCore c x).threads = s.threads := rfl
@[simp] theorem State.setCore_cores (c : Nat) (x : Core) : (s.setCore c x).cores = SMap.put s.cores c x := rfl
@[simp] theorem State.setCore_dec (c : Nat) (x : Core) : (s.setCore c x).dec = s.dec := rfl
@[simp] theorem State.setCore_hints (c : Nat) (x : Core) : (s.setCore c x).hints = s.hints := rfl
@[simp] theorem State.setCore_caches (c : Nat) (x : Core) : (s.setCore c x).caches = s.caches := rfl
@[simp] theorem State.setCore_miss (c : Nat) (x : Core) : (s.setCore c x).miss = s.miss := rfl
@[simp] theorem State.setCore_victims (c : Nat) (x : Core) : (s.setCore c x).victims = s.victims := rfl
@[simp] theorem State.setCore_wlist (c : Nat) (x : Core) : (s.setCore c x).wlist = s.wlist := rfl
@[simp] theorem State.setCore_io (c : Nat) (x : Core) : (s.setCore c x).io = s.io := rfl
@[simp] theorem State.setCore_lines (c : Nat) (x : Core) : (s.setCore c x).lines = s.lines := rfl
@[simp] theorem State.setCore_msgs (c : Nat) (x : Core) : (s.setCore c x).msgs = s.msgs := rfl
@[simp] theorem State.setCore_mem (c : Nat) (x : Core) : (s.setCore c x).mem = s.mem := rfl
@[simp] theorem State.setCore_views (c : Nat) (x : Core) : (s.setCore c x).views = s.views := rfl
@[simp] theorem State.setCore_staged (c : Nat) (x : Core) : (s.setCore c x).staged = s.staged := rfl
@[simp] theorem State.setCore_accepted (c : Nat) (x : Core) : (s.setCore c x).accepted = s.accepted := rfl
@[simp] theorem State.setCore_undoOut (c : Nat) (x : Core) : (s.setCore c x).undoOut = s.undoOut := rfl
@[simp] theorem State.setCore_swbOut (c : Nat) (x : Core) : (s.setCore c x).swbOut = s.swbOut := rfl
@[simp] theorem State.setCore_nextId (c : Nat) (x : Core) : (s.setCore c x).nextId = s.nextId := rfl
@[simp] theorem State.setCore_doms (c : Nat) (x : Core) : (s.setCore c x).doms = s.doms := rfl
@[simp] theorem State.setCore_owners (c : Nat) (x : Core) : (s.setCore c x).owners = s.owners := rfl
@[simp] theorem State.setCore_mcPend (c : Nat) (x : Core) : (s.setCore c x).mcPend = s.mcPend := rfl
@[simp] theorem State.setCore_latent (c : Nat) (x : Core) : (s.setCore c x).latent = s.latent := rfl
@[simp] theorem State.setCore_wayErr (c : Nat) (x : Core) : (s.setCore c x).wayErr = s.wayErr := rfl
@[simp] theorem State.setCore_reclaims (c : Nat) (x : Core) : (s.setCore c x).reclaims = s.reclaims := rfl
@[simp] theorem State.setCore_sparing (c : Nat) (x : Core) : (s.setCore c x).sparing = s.sparing := rfl
@[simp] theorem State.setCore_gated (c : Nat) (x : Core) : (s.setCore c x).gated = s.gated := rfl
@[simp] theorem State.setCore_power (c : Nat) (x : Core) : (s.setCore c x).power = s.power := rfl
@[simp] theorem State.setCore_wrap (c : Nat) (x : Core) : (s.setCore c x).wrap = s.wrap := rfl
@[simp] theorem State.setCore_now (c : Nat) (x : Core) : (s.setCore c x).now = s.now := rfl
@[simp] theorem State.setCore_gpos (c : Nat) (x : Core) : (s.setCore c x).gpos = s.gpos := rfl
@[simp] theorem State.setCore_slate (c : Nat) (x : Core) : (s.setCore c x).slate = s.slate := rfl
@[simp] theorem State.setCore_sl (c : Nat) (x : Core) : (s.setCore c x).sl = s.sl := rfl
@[simp] theorem State.setCore_ports (c : Nat) (x : Core) : (s.setCore c x).ports = s.ports := rfl
@[simp] theorem State.setCore_links (c : Nat) (x : Core) : (s.setCore c x).links = s.links := rfl
@[simp] theorem State.setCore_group (c : Nat) (x : Core) : (s.setCore c x).group = s.group := rfl
@[simp] theorem State.setCore_gp (c : Nat) (x : Core) : (s.setCore c x).gp = s.gp := rfl
@[simp] theorem State.setCore_mir (c : Nat) (x : Core) : (s.setCore c x).mir = s.mir := rfl
@[simp] theorem State.setCore_answer (c : Nat) (x : Core) : (s.setCore c x).answer = s.answer := rfl
@[simp] theorem State.setCore_vrfs (c : Nat) (x : Core) : (s.setCore c x).vrfs = s.vrfs := rfl
@[simp] theorem State.setCore_turns (c : Nat) (x : Core) : (s.setCore c x).turns = s.turns := rfl
@[simp] theorem State.setCore_sec (c : Nat) (x : Core) : (s.setCore c x).sec = s.sec := rfl
@[simp] theorem State.setCore_gaf (c : Nat) (x : Core) : (s.setCore c x).gaf = s.gaf := rfl
@[simp] theorem State.setCore_boot (c : Nat) (x : Core) : (s.setCore c x).boot = s.boot := rfl
@[simp] theorem State.setCore_aon (c : Nat) (x : Core) : (s.setCore c x).aon = s.aon := rfl
@[simp] theorem State.setCore_pins (c : Nat) (x : Core) : (s.setCore c x).pins = s.pins := rfl
@[simp] theorem State.setCore_keyIds (c : Nat) (x : Core) : (s.setCore c x).keyIds = s.keyIds := rfl
@[simp] theorem State.setCore_freeCtr (c : Nat) (x : Core) : (s.setCore c x).freeCtr = s.freeCtr := rfl
@[simp] theorem State.setDec_pending (t : Tid) (x : Decoupled) : (s.setDec t x).pending = s.pending := rfl
@[simp] theorem State.setDec_threads (t : Tid) (x : Decoupled) : (s.setDec t x).threads = s.threads := rfl
@[simp] theorem State.setDec_cores (t : Tid) (x : Decoupled) : (s.setDec t x).cores = s.cores := rfl
@[simp] theorem State.setDec_dec (t : Tid) (x : Decoupled) : (s.setDec t x).dec = SMap.put s.dec t.val x := rfl
@[simp] theorem State.setDec_hints (t : Tid) (x : Decoupled) : (s.setDec t x).hints = s.hints := rfl
@[simp] theorem State.setDec_caches (t : Tid) (x : Decoupled) : (s.setDec t x).caches = s.caches := rfl
@[simp] theorem State.setDec_miss (t : Tid) (x : Decoupled) : (s.setDec t x).miss = s.miss := rfl
@[simp] theorem State.setDec_victims (t : Tid) (x : Decoupled) : (s.setDec t x).victims = s.victims := rfl
@[simp] theorem State.setDec_wlist (t : Tid) (x : Decoupled) : (s.setDec t x).wlist = s.wlist := rfl
@[simp] theorem State.setDec_io (t : Tid) (x : Decoupled) : (s.setDec t x).io = s.io := rfl
@[simp] theorem State.setDec_lines (t : Tid) (x : Decoupled) : (s.setDec t x).lines = s.lines := rfl
@[simp] theorem State.setDec_msgs (t : Tid) (x : Decoupled) : (s.setDec t x).msgs = s.msgs := rfl
@[simp] theorem State.setDec_mem (t : Tid) (x : Decoupled) : (s.setDec t x).mem = s.mem := rfl
@[simp] theorem State.setDec_views (t : Tid) (x : Decoupled) : (s.setDec t x).views = s.views := rfl
@[simp] theorem State.setDec_staged (t : Tid) (x : Decoupled) : (s.setDec t x).staged = s.staged := rfl
@[simp] theorem State.setDec_accepted (t : Tid) (x : Decoupled) : (s.setDec t x).accepted = s.accepted := rfl
@[simp] theorem State.setDec_undoOut (t : Tid) (x : Decoupled) : (s.setDec t x).undoOut = s.undoOut := rfl
@[simp] theorem State.setDec_swbOut (t : Tid) (x : Decoupled) : (s.setDec t x).swbOut = s.swbOut := rfl
@[simp] theorem State.setDec_nextId (t : Tid) (x : Decoupled) : (s.setDec t x).nextId = s.nextId := rfl
@[simp] theorem State.setDec_doms (t : Tid) (x : Decoupled) : (s.setDec t x).doms = s.doms := rfl
@[simp] theorem State.setDec_owners (t : Tid) (x : Decoupled) : (s.setDec t x).owners = s.owners := rfl
@[simp] theorem State.setDec_mcPend (t : Tid) (x : Decoupled) : (s.setDec t x).mcPend = s.mcPend := rfl
@[simp] theorem State.setDec_latent (t : Tid) (x : Decoupled) : (s.setDec t x).latent = s.latent := rfl
@[simp] theorem State.setDec_wayErr (t : Tid) (x : Decoupled) : (s.setDec t x).wayErr = s.wayErr := rfl
@[simp] theorem State.setDec_reclaims (t : Tid) (x : Decoupled) : (s.setDec t x).reclaims = s.reclaims := rfl
@[simp] theorem State.setDec_sparing (t : Tid) (x : Decoupled) : (s.setDec t x).sparing = s.sparing := rfl
@[simp] theorem State.setDec_gated (t : Tid) (x : Decoupled) : (s.setDec t x).gated = s.gated := rfl
@[simp] theorem State.setDec_power (t : Tid) (x : Decoupled) : (s.setDec t x).power = s.power := rfl
@[simp] theorem State.setDec_wrap (t : Tid) (x : Decoupled) : (s.setDec t x).wrap = s.wrap := rfl
@[simp] theorem State.setDec_now (t : Tid) (x : Decoupled) : (s.setDec t x).now = s.now := rfl
@[simp] theorem State.setDec_gpos (t : Tid) (x : Decoupled) : (s.setDec t x).gpos = s.gpos := rfl
@[simp] theorem State.setDec_slate (t : Tid) (x : Decoupled) : (s.setDec t x).slate = s.slate := rfl
@[simp] theorem State.setDec_sl (t : Tid) (x : Decoupled) : (s.setDec t x).sl = s.sl := rfl
@[simp] theorem State.setDec_ports (t : Tid) (x : Decoupled) : (s.setDec t x).ports = s.ports := rfl
@[simp] theorem State.setDec_links (t : Tid) (x : Decoupled) : (s.setDec t x).links = s.links := rfl
@[simp] theorem State.setDec_group (t : Tid) (x : Decoupled) : (s.setDec t x).group = s.group := rfl
@[simp] theorem State.setDec_gp (t : Tid) (x : Decoupled) : (s.setDec t x).gp = s.gp := rfl
@[simp] theorem State.setDec_mir (t : Tid) (x : Decoupled) : (s.setDec t x).mir = s.mir := rfl
@[simp] theorem State.setDec_answer (t : Tid) (x : Decoupled) : (s.setDec t x).answer = s.answer := rfl
@[simp] theorem State.setDec_vrfs (t : Tid) (x : Decoupled) : (s.setDec t x).vrfs = s.vrfs := rfl
@[simp] theorem State.setDec_turns (t : Tid) (x : Decoupled) : (s.setDec t x).turns = s.turns := rfl
@[simp] theorem State.setDec_sec (t : Tid) (x : Decoupled) : (s.setDec t x).sec = s.sec := rfl
@[simp] theorem State.setDec_gaf (t : Tid) (x : Decoupled) : (s.setDec t x).gaf = s.gaf := rfl
@[simp] theorem State.setDec_boot (t : Tid) (x : Decoupled) : (s.setDec t x).boot = s.boot := rfl
@[simp] theorem State.setDec_aon (t : Tid) (x : Decoupled) : (s.setDec t x).aon = s.aon := rfl
@[simp] theorem State.setDec_pins (t : Tid) (x : Decoupled) : (s.setDec t x).pins = s.pins := rfl
@[simp] theorem State.setDec_keyIds (t : Tid) (x : Decoupled) : (s.setDec t x).keyIds = s.keyIds := rfl
@[simp] theorem State.setDec_freeCtr (t : Tid) (x : Decoupled) : (s.setDec t x).freeCtr = s.freeCtr := rfl
@[simp] theorem State.setLine_pending (l : Nat) (r : LineRec) : (s.setLine l r).pending = s.pending := rfl
@[simp] theorem State.setLine_threads (l : Nat) (r : LineRec) : (s.setLine l r).threads = s.threads := rfl
@[simp] theorem State.setLine_cores (l : Nat) (r : LineRec) : (s.setLine l r).cores = s.cores := rfl
@[simp] theorem State.setLine_dec (l : Nat) (r : LineRec) : (s.setLine l r).dec = s.dec := rfl
@[simp] theorem State.setLine_hints (l : Nat) (r : LineRec) : (s.setLine l r).hints = s.hints := rfl
@[simp] theorem State.setLine_caches (l : Nat) (r : LineRec) : (s.setLine l r).caches = s.caches := rfl
@[simp] theorem State.setLine_miss (l : Nat) (r : LineRec) : (s.setLine l r).miss = s.miss := rfl
@[simp] theorem State.setLine_victims (l : Nat) (r : LineRec) : (s.setLine l r).victims = s.victims := rfl
@[simp] theorem State.setLine_wlist (l : Nat) (r : LineRec) : (s.setLine l r).wlist = s.wlist := rfl
@[simp] theorem State.setLine_io (l : Nat) (r : LineRec) : (s.setLine l r).io = s.io := rfl
@[simp] theorem State.setLine_lines (l : Nat) (r : LineRec) : (s.setLine l r).lines = SMap.put s.lines l r := rfl
@[simp] theorem State.setLine_msgs (l : Nat) (r : LineRec) : (s.setLine l r).msgs = s.msgs := rfl
@[simp] theorem State.setLine_mem (l : Nat) (r : LineRec) : (s.setLine l r).mem = s.mem := rfl
@[simp] theorem State.setLine_views (l : Nat) (r : LineRec) : (s.setLine l r).views = s.views := rfl
@[simp] theorem State.setLine_staged (l : Nat) (r : LineRec) : (s.setLine l r).staged = s.staged := rfl
@[simp] theorem State.setLine_accepted (l : Nat) (r : LineRec) : (s.setLine l r).accepted = s.accepted := rfl
@[simp] theorem State.setLine_undoOut (l : Nat) (r : LineRec) : (s.setLine l r).undoOut = s.undoOut := rfl
@[simp] theorem State.setLine_swbOut (l : Nat) (r : LineRec) : (s.setLine l r).swbOut = s.swbOut := rfl
@[simp] theorem State.setLine_nextId (l : Nat) (r : LineRec) : (s.setLine l r).nextId = s.nextId := rfl
@[simp] theorem State.setLine_doms (l : Nat) (r : LineRec) : (s.setLine l r).doms = s.doms := rfl
@[simp] theorem State.setLine_owners (l : Nat) (r : LineRec) : (s.setLine l r).owners = s.owners := rfl
@[simp] theorem State.setLine_mcPend (l : Nat) (r : LineRec) : (s.setLine l r).mcPend = s.mcPend := rfl
@[simp] theorem State.setLine_latent (l : Nat) (r : LineRec) : (s.setLine l r).latent = s.latent := rfl
@[simp] theorem State.setLine_wayErr (l : Nat) (r : LineRec) : (s.setLine l r).wayErr = s.wayErr := rfl
@[simp] theorem State.setLine_reclaims (l : Nat) (r : LineRec) : (s.setLine l r).reclaims = s.reclaims := rfl
@[simp] theorem State.setLine_sparing (l : Nat) (r : LineRec) : (s.setLine l r).sparing = s.sparing := rfl
@[simp] theorem State.setLine_gated (l : Nat) (r : LineRec) : (s.setLine l r).gated = s.gated := rfl
@[simp] theorem State.setLine_power (l : Nat) (r : LineRec) : (s.setLine l r).power = s.power := rfl
@[simp] theorem State.setLine_wrap (l : Nat) (r : LineRec) : (s.setLine l r).wrap = s.wrap := rfl
@[simp] theorem State.setLine_now (l : Nat) (r : LineRec) : (s.setLine l r).now = s.now := rfl
@[simp] theorem State.setLine_gpos (l : Nat) (r : LineRec) : (s.setLine l r).gpos = s.gpos := rfl
@[simp] theorem State.setLine_slate (l : Nat) (r : LineRec) : (s.setLine l r).slate = s.slate := rfl
@[simp] theorem State.setLine_sl (l : Nat) (r : LineRec) : (s.setLine l r).sl = s.sl := rfl
@[simp] theorem State.setLine_ports (l : Nat) (r : LineRec) : (s.setLine l r).ports = s.ports := rfl
@[simp] theorem State.setLine_links (l : Nat) (r : LineRec) : (s.setLine l r).links = s.links := rfl
@[simp] theorem State.setLine_group (l : Nat) (r : LineRec) : (s.setLine l r).group = s.group := rfl
@[simp] theorem State.setLine_gp (l : Nat) (r : LineRec) : (s.setLine l r).gp = s.gp := rfl
@[simp] theorem State.setLine_mir (l : Nat) (r : LineRec) : (s.setLine l r).mir = s.mir := rfl
@[simp] theorem State.setLine_answer (l : Nat) (r : LineRec) : (s.setLine l r).answer = s.answer := rfl
@[simp] theorem State.setLine_vrfs (l : Nat) (r : LineRec) : (s.setLine l r).vrfs = s.vrfs := rfl
@[simp] theorem State.setLine_turns (l : Nat) (r : LineRec) : (s.setLine l r).turns = s.turns := rfl
@[simp] theorem State.setLine_sec (l : Nat) (r : LineRec) : (s.setLine l r).sec = s.sec := rfl
@[simp] theorem State.setLine_gaf (l : Nat) (r : LineRec) : (s.setLine l r).gaf = s.gaf := rfl
@[simp] theorem State.setLine_boot (l : Nat) (r : LineRec) : (s.setLine l r).boot = s.boot := rfl
@[simp] theorem State.setLine_aon (l : Nat) (r : LineRec) : (s.setLine l r).aon = s.aon := rfl
@[simp] theorem State.setLine_pins (l : Nat) (r : LineRec) : (s.setLine l r).pins = s.pins := rfl
@[simp] theorem State.setLine_keyIds (l : Nat) (r : LineRec) : (s.setLine l r).keyIds = s.keyIds := rfl
@[simp] theorem State.setLine_freeCtr (l : Nat) (r : LineRec) : (s.setLine l r).freeCtr = s.freeCtr := rfl
@[simp] theorem State.setDom_pending (d : Nat) (x : TakeDom) : (s.setDom d x).pending = s.pending := rfl
@[simp] theorem State.setDom_threads (d : Nat) (x : TakeDom) : (s.setDom d x).threads = s.threads := rfl
@[simp] theorem State.setDom_cores (d : Nat) (x : TakeDom) : (s.setDom d x).cores = s.cores := rfl
@[simp] theorem State.setDom_dec (d : Nat) (x : TakeDom) : (s.setDom d x).dec = s.dec := rfl
@[simp] theorem State.setDom_hints (d : Nat) (x : TakeDom) : (s.setDom d x).hints = s.hints := rfl
@[simp] theorem State.setDom_caches (d : Nat) (x : TakeDom) : (s.setDom d x).caches = s.caches := rfl
@[simp] theorem State.setDom_miss (d : Nat) (x : TakeDom) : (s.setDom d x).miss = s.miss := rfl
@[simp] theorem State.setDom_victims (d : Nat) (x : TakeDom) : (s.setDom d x).victims = s.victims := rfl
@[simp] theorem State.setDom_wlist (d : Nat) (x : TakeDom) : (s.setDom d x).wlist = s.wlist := rfl
@[simp] theorem State.setDom_io (d : Nat) (x : TakeDom) : (s.setDom d x).io = s.io := rfl
@[simp] theorem State.setDom_lines (d : Nat) (x : TakeDom) : (s.setDom d x).lines = s.lines := rfl
@[simp] theorem State.setDom_msgs (d : Nat) (x : TakeDom) : (s.setDom d x).msgs = s.msgs := rfl
@[simp] theorem State.setDom_mem (d : Nat) (x : TakeDom) : (s.setDom d x).mem = s.mem := rfl
@[simp] theorem State.setDom_views (d : Nat) (x : TakeDom) : (s.setDom d x).views = s.views := rfl
@[simp] theorem State.setDom_staged (d : Nat) (x : TakeDom) : (s.setDom d x).staged = s.staged := rfl
@[simp] theorem State.setDom_accepted (d : Nat) (x : TakeDom) : (s.setDom d x).accepted = s.accepted := rfl
@[simp] theorem State.setDom_undoOut (d : Nat) (x : TakeDom) : (s.setDom d x).undoOut = s.undoOut := rfl
@[simp] theorem State.setDom_swbOut (d : Nat) (x : TakeDom) : (s.setDom d x).swbOut = s.swbOut := rfl
@[simp] theorem State.setDom_nextId (d : Nat) (x : TakeDom) : (s.setDom d x).nextId = s.nextId := rfl
@[simp] theorem State.setDom_doms (d : Nat) (x : TakeDom) : (s.setDom d x).doms = SMap.put s.doms d x := rfl
@[simp] theorem State.setDom_owners (d : Nat) (x : TakeDom) : (s.setDom d x).owners = s.owners := rfl
@[simp] theorem State.setDom_mcPend (d : Nat) (x : TakeDom) : (s.setDom d x).mcPend = s.mcPend := rfl
@[simp] theorem State.setDom_latent (d : Nat) (x : TakeDom) : (s.setDom d x).latent = s.latent := rfl
@[simp] theorem State.setDom_wayErr (d : Nat) (x : TakeDom) : (s.setDom d x).wayErr = s.wayErr := rfl
@[simp] theorem State.setDom_reclaims (d : Nat) (x : TakeDom) : (s.setDom d x).reclaims = s.reclaims := rfl
@[simp] theorem State.setDom_sparing (d : Nat) (x : TakeDom) : (s.setDom d x).sparing = s.sparing := rfl
@[simp] theorem State.setDom_gated (d : Nat) (x : TakeDom) : (s.setDom d x).gated = s.gated := rfl
@[simp] theorem State.setDom_power (d : Nat) (x : TakeDom) : (s.setDom d x).power = s.power := rfl
@[simp] theorem State.setDom_wrap (d : Nat) (x : TakeDom) : (s.setDom d x).wrap = s.wrap := rfl
@[simp] theorem State.setDom_now (d : Nat) (x : TakeDom) : (s.setDom d x).now = s.now := rfl
@[simp] theorem State.setDom_gpos (d : Nat) (x : TakeDom) : (s.setDom d x).gpos = s.gpos := rfl
@[simp] theorem State.setDom_slate (d : Nat) (x : TakeDom) : (s.setDom d x).slate = s.slate := rfl
@[simp] theorem State.setDom_sl (d : Nat) (x : TakeDom) : (s.setDom d x).sl = s.sl := rfl
@[simp] theorem State.setDom_ports (d : Nat) (x : TakeDom) : (s.setDom d x).ports = s.ports := rfl
@[simp] theorem State.setDom_links (d : Nat) (x : TakeDom) : (s.setDom d x).links = s.links := rfl
@[simp] theorem State.setDom_group (d : Nat) (x : TakeDom) : (s.setDom d x).group = s.group := rfl
@[simp] theorem State.setDom_gp (d : Nat) (x : TakeDom) : (s.setDom d x).gp = s.gp := rfl
@[simp] theorem State.setDom_mir (d : Nat) (x : TakeDom) : (s.setDom d x).mir = s.mir := rfl
@[simp] theorem State.setDom_answer (d : Nat) (x : TakeDom) : (s.setDom d x).answer = s.answer := rfl
@[simp] theorem State.setDom_vrfs (d : Nat) (x : TakeDom) : (s.setDom d x).vrfs = s.vrfs := rfl
@[simp] theorem State.setDom_turns (d : Nat) (x : TakeDom) : (s.setDom d x).turns = s.turns := rfl
@[simp] theorem State.setDom_sec (d : Nat) (x : TakeDom) : (s.setDom d x).sec = s.sec := rfl
@[simp] theorem State.setDom_gaf (d : Nat) (x : TakeDom) : (s.setDom d x).gaf = s.gaf := rfl
@[simp] theorem State.setDom_boot (d : Nat) (x : TakeDom) : (s.setDom d x).boot = s.boot := rfl
@[simp] theorem State.setDom_aon (d : Nat) (x : TakeDom) : (s.setDom d x).aon = s.aon := rfl
@[simp] theorem State.setDom_pins (d : Nat) (x : TakeDom) : (s.setDom d x).pins = s.pins := rfl
@[simp] theorem State.setDom_keyIds (d : Nat) (x : TakeDom) : (s.setDom d x).keyIds = s.keyIds := rfl
@[simp] theorem State.setDom_freeCtr (d : Nat) (x : TakeDom) : (s.setDom d x).freeCtr = s.freeCtr := rfl
@[simp] theorem State.setView_pending (a d : Nat) (v : Word) : (s.setView a d v).pending = s.pending := rfl
@[simp] theorem State.setView_threads (a d : Nat) (v : Word) : (s.setView a d v).threads = s.threads := rfl
@[simp] theorem State.setView_cores (a d : Nat) (v : Word) : (s.setView a d v).cores = s.cores := rfl
@[simp] theorem State.setView_dec (a d : Nat) (v : Word) : (s.setView a d v).dec = s.dec := rfl
@[simp] theorem State.setView_hints (a d : Nat) (v : Word) : (s.setView a d v).hints = s.hints := rfl
@[simp] theorem State.setView_caches (a d : Nat) (v : Word) : (s.setView a d v).caches = s.caches := rfl
@[simp] theorem State.setView_miss (a d : Nat) (v : Word) : (s.setView a d v).miss = s.miss := rfl
@[simp] theorem State.setView_victims (a d : Nat) (v : Word) : (s.setView a d v).victims = s.victims := rfl
@[simp] theorem State.setView_wlist (a d : Nat) (v : Word) : (s.setView a d v).wlist = s.wlist := rfl
@[simp] theorem State.setView_io (a d : Nat) (v : Word) : (s.setView a d v).io = s.io := rfl
@[simp] theorem State.setView_lines (a d : Nat) (v : Word) : (s.setView a d v).lines = s.lines := rfl
@[simp] theorem State.setView_msgs (a d : Nat) (v : Word) : (s.setView a d v).msgs = s.msgs := rfl
@[simp] theorem State.setView_mem (a d : Nat) (v : Word) : (s.setView a d v).mem = s.mem := rfl
@[simp] theorem State.setView_views (a d : Nat) (v : Word) : (s.setView a d v).views = SMap.put s.views (a * 8 + d) v := rfl
@[simp] theorem State.setView_staged (a d : Nat) (v : Word) : (s.setView a d v).staged = s.staged := rfl
@[simp] theorem State.setView_accepted (a d : Nat) (v : Word) : (s.setView a d v).accepted = s.accepted := rfl
@[simp] theorem State.setView_undoOut (a d : Nat) (v : Word) : (s.setView a d v).undoOut = s.undoOut := rfl
@[simp] theorem State.setView_swbOut (a d : Nat) (v : Word) : (s.setView a d v).swbOut = s.swbOut := rfl
@[simp] theorem State.setView_nextId (a d : Nat) (v : Word) : (s.setView a d v).nextId = s.nextId := rfl
@[simp] theorem State.setView_doms (a d : Nat) (v : Word) : (s.setView a d v).doms = s.doms := rfl
@[simp] theorem State.setView_owners (a d : Nat) (v : Word) : (s.setView a d v).owners = s.owners := rfl
@[simp] theorem State.setView_mcPend (a d : Nat) (v : Word) : (s.setView a d v).mcPend = s.mcPend := rfl
@[simp] theorem State.setView_latent (a d : Nat) (v : Word) : (s.setView a d v).latent = s.latent := rfl
@[simp] theorem State.setView_wayErr (a d : Nat) (v : Word) : (s.setView a d v).wayErr = s.wayErr := rfl
@[simp] theorem State.setView_reclaims (a d : Nat) (v : Word) : (s.setView a d v).reclaims = s.reclaims := rfl
@[simp] theorem State.setView_sparing (a d : Nat) (v : Word) : (s.setView a d v).sparing = s.sparing := rfl
@[simp] theorem State.setView_gated (a d : Nat) (v : Word) : (s.setView a d v).gated = s.gated := rfl
@[simp] theorem State.setView_power (a d : Nat) (v : Word) : (s.setView a d v).power = s.power := rfl
@[simp] theorem State.setView_wrap (a d : Nat) (v : Word) : (s.setView a d v).wrap = s.wrap := rfl
@[simp] theorem State.setView_now (a d : Nat) (v : Word) : (s.setView a d v).now = s.now := rfl
@[simp] theorem State.setView_gpos (a d : Nat) (v : Word) : (s.setView a d v).gpos = s.gpos := rfl
@[simp] theorem State.setView_slate (a d : Nat) (v : Word) : (s.setView a d v).slate = s.slate := rfl
@[simp] theorem State.setView_sl (a d : Nat) (v : Word) : (s.setView a d v).sl = s.sl := rfl
@[simp] theorem State.setView_ports (a d : Nat) (v : Word) : (s.setView a d v).ports = s.ports := rfl
@[simp] theorem State.setView_links (a d : Nat) (v : Word) : (s.setView a d v).links = s.links := rfl
@[simp] theorem State.setView_group (a d : Nat) (v : Word) : (s.setView a d v).group = s.group := rfl
@[simp] theorem State.setView_gp (a d : Nat) (v : Word) : (s.setView a d v).gp = s.gp := rfl
@[simp] theorem State.setView_mir (a d : Nat) (v : Word) : (s.setView a d v).mir = s.mir := rfl
@[simp] theorem State.setView_answer (a d : Nat) (v : Word) : (s.setView a d v).answer = s.answer := rfl
@[simp] theorem State.setView_vrfs (a d : Nat) (v : Word) : (s.setView a d v).vrfs = s.vrfs := rfl
@[simp] theorem State.setView_turns (a d : Nat) (v : Word) : (s.setView a d v).turns = s.turns := rfl
@[simp] theorem State.setView_sec (a d : Nat) (v : Word) : (s.setView a d v).sec = s.sec := rfl
@[simp] theorem State.setView_gaf (a d : Nat) (v : Word) : (s.setView a d v).gaf = s.gaf := rfl
@[simp] theorem State.setView_boot (a d : Nat) (v : Word) : (s.setView a d v).boot = s.boot := rfl
@[simp] theorem State.setView_aon (a d : Nat) (v : Word) : (s.setView a d v).aon = s.aon := rfl
@[simp] theorem State.setView_pins (a d : Nat) (v : Word) : (s.setView a d v).pins = s.pins := rfl
@[simp] theorem State.setView_keyIds (a d : Nat) (v : Word) : (s.setView a d v).keyIds = s.keyIds := rfl
@[simp] theorem State.setView_freeCtr (a d : Nat) (v : Word) : (s.setView a d v).freeCtr = s.freeCtr := rfl
@[simp] theorem State.setLk_pending (l : Nat) (x : LinkSt) : (s.setLk l x).pending = s.pending := rfl
@[simp] theorem State.setLk_threads (l : Nat) (x : LinkSt) : (s.setLk l x).threads = s.threads := rfl
@[simp] theorem State.setLk_cores (l : Nat) (x : LinkSt) : (s.setLk l x).cores = s.cores := rfl
@[simp] theorem State.setLk_dec (l : Nat) (x : LinkSt) : (s.setLk l x).dec = s.dec := rfl
@[simp] theorem State.setLk_hints (l : Nat) (x : LinkSt) : (s.setLk l x).hints = s.hints := rfl
@[simp] theorem State.setLk_caches (l : Nat) (x : LinkSt) : (s.setLk l x).caches = s.caches := rfl
@[simp] theorem State.setLk_miss (l : Nat) (x : LinkSt) : (s.setLk l x).miss = s.miss := rfl
@[simp] theorem State.setLk_victims (l : Nat) (x : LinkSt) : (s.setLk l x).victims = s.victims := rfl
@[simp] theorem State.setLk_wlist (l : Nat) (x : LinkSt) : (s.setLk l x).wlist = s.wlist := rfl
@[simp] theorem State.setLk_io (l : Nat) (x : LinkSt) : (s.setLk l x).io = s.io := rfl
@[simp] theorem State.setLk_lines (l : Nat) (x : LinkSt) : (s.setLk l x).lines = s.lines := rfl
@[simp] theorem State.setLk_msgs (l : Nat) (x : LinkSt) : (s.setLk l x).msgs = s.msgs := rfl
@[simp] theorem State.setLk_mem (l : Nat) (x : LinkSt) : (s.setLk l x).mem = s.mem := rfl
@[simp] theorem State.setLk_views (l : Nat) (x : LinkSt) : (s.setLk l x).views = s.views := rfl
@[simp] theorem State.setLk_staged (l : Nat) (x : LinkSt) : (s.setLk l x).staged = s.staged := rfl
@[simp] theorem State.setLk_accepted (l : Nat) (x : LinkSt) : (s.setLk l x).accepted = s.accepted := rfl
@[simp] theorem State.setLk_undoOut (l : Nat) (x : LinkSt) : (s.setLk l x).undoOut = s.undoOut := rfl
@[simp] theorem State.setLk_swbOut (l : Nat) (x : LinkSt) : (s.setLk l x).swbOut = s.swbOut := rfl
@[simp] theorem State.setLk_nextId (l : Nat) (x : LinkSt) : (s.setLk l x).nextId = s.nextId := rfl
@[simp] theorem State.setLk_doms (l : Nat) (x : LinkSt) : (s.setLk l x).doms = s.doms := rfl
@[simp] theorem State.setLk_owners (l : Nat) (x : LinkSt) : (s.setLk l x).owners = s.owners := rfl
@[simp] theorem State.setLk_mcPend (l : Nat) (x : LinkSt) : (s.setLk l x).mcPend = s.mcPend := rfl
@[simp] theorem State.setLk_latent (l : Nat) (x : LinkSt) : (s.setLk l x).latent = s.latent := rfl
@[simp] theorem State.setLk_wayErr (l : Nat) (x : LinkSt) : (s.setLk l x).wayErr = s.wayErr := rfl
@[simp] theorem State.setLk_reclaims (l : Nat) (x : LinkSt) : (s.setLk l x).reclaims = s.reclaims := rfl
@[simp] theorem State.setLk_sparing (l : Nat) (x : LinkSt) : (s.setLk l x).sparing = s.sparing := rfl
@[simp] theorem State.setLk_gated (l : Nat) (x : LinkSt) : (s.setLk l x).gated = s.gated := rfl
@[simp] theorem State.setLk_power (l : Nat) (x : LinkSt) : (s.setLk l x).power = s.power := rfl
@[simp] theorem State.setLk_wrap (l : Nat) (x : LinkSt) : (s.setLk l x).wrap = s.wrap := rfl
@[simp] theorem State.setLk_now (l : Nat) (x : LinkSt) : (s.setLk l x).now = s.now := rfl
@[simp] theorem State.setLk_gpos (l : Nat) (x : LinkSt) : (s.setLk l x).gpos = s.gpos := rfl
@[simp] theorem State.setLk_slate (l : Nat) (x : LinkSt) : (s.setLk l x).slate = s.slate := rfl
@[simp] theorem State.setLk_sl (l : Nat) (x : LinkSt) : (s.setLk l x).sl = s.sl := rfl
@[simp] theorem State.setLk_ports (l : Nat) (x : LinkSt) : (s.setLk l x).ports = s.ports := rfl
@[simp] theorem State.setLk_links (l : Nat) (x : LinkSt) : (s.setLk l x).links = SMap.put s.links l x := rfl
@[simp] theorem State.setLk_group (l : Nat) (x : LinkSt) : (s.setLk l x).group = s.group := rfl
@[simp] theorem State.setLk_gp (l : Nat) (x : LinkSt) : (s.setLk l x).gp = s.gp := rfl
@[simp] theorem State.setLk_mir (l : Nat) (x : LinkSt) : (s.setLk l x).mir = s.mir := rfl
@[simp] theorem State.setLk_answer (l : Nat) (x : LinkSt) : (s.setLk l x).answer = s.answer := rfl
@[simp] theorem State.setLk_vrfs (l : Nat) (x : LinkSt) : (s.setLk l x).vrfs = s.vrfs := rfl
@[simp] theorem State.setLk_turns (l : Nat) (x : LinkSt) : (s.setLk l x).turns = s.turns := rfl
@[simp] theorem State.setLk_sec (l : Nat) (x : LinkSt) : (s.setLk l x).sec = s.sec := rfl
@[simp] theorem State.setLk_gaf (l : Nat) (x : LinkSt) : (s.setLk l x).gaf = s.gaf := rfl
@[simp] theorem State.setLk_boot (l : Nat) (x : LinkSt) : (s.setLk l x).boot = s.boot := rfl
@[simp] theorem State.setLk_aon (l : Nat) (x : LinkSt) : (s.setLk l x).aon = s.aon := rfl
@[simp] theorem State.setLk_pins (l : Nat) (x : LinkSt) : (s.setLk l x).pins = s.pins := rfl
@[simp] theorem State.setLk_keyIds (l : Nat) (x : LinkSt) : (s.setLk l x).keyIds = s.keyIds := rfl
@[simp] theorem State.setLk_freeCtr (l : Nat) (x : LinkSt) : (s.setLk l x).freeCtr = s.freeCtr := rfl
@[simp] theorem State.tick_pending : (s.tick).pending = s.pending := rfl
@[simp] theorem State.tick_threads : (s.tick).threads = s.threads := rfl
@[simp] theorem State.tick_cores : (s.tick).cores = s.cores := rfl
@[simp] theorem State.tick_dec : (s.tick).dec = s.dec := rfl
@[simp] theorem State.tick_hints : (s.tick).hints = s.hints := rfl
@[simp] theorem State.tick_caches : (s.tick).caches = s.caches := rfl
@[simp] theorem State.tick_miss : (s.tick).miss = s.miss := rfl
@[simp] theorem State.tick_victims : (s.tick).victims = s.victims := rfl
@[simp] theorem State.tick_wlist : (s.tick).wlist = s.wlist := rfl
@[simp] theorem State.tick_io : (s.tick).io = s.io := rfl
@[simp] theorem State.tick_lines : (s.tick).lines = s.lines := rfl
@[simp] theorem State.tick_msgs : (s.tick).msgs = s.msgs := rfl
@[simp] theorem State.tick_mem : (s.tick).mem = s.mem := rfl
@[simp] theorem State.tick_views : (s.tick).views = s.views := rfl
@[simp] theorem State.tick_staged : (s.tick).staged = s.staged := rfl
@[simp] theorem State.tick_accepted : (s.tick).accepted = s.accepted := rfl
@[simp] theorem State.tick_undoOut : (s.tick).undoOut = s.undoOut := rfl
@[simp] theorem State.tick_swbOut : (s.tick).swbOut = s.swbOut := rfl
@[simp] theorem State.tick_nextId : (s.tick).nextId = s.nextId := rfl
@[simp] theorem State.tick_doms : (s.tick).doms = s.doms := rfl
@[simp] theorem State.tick_owners : (s.tick).owners = s.owners := rfl
@[simp] theorem State.tick_mcPend : (s.tick).mcPend = s.mcPend := rfl
@[simp] theorem State.tick_latent : (s.tick).latent = s.latent := rfl
@[simp] theorem State.tick_wayErr : (s.tick).wayErr = s.wayErr := rfl
@[simp] theorem State.tick_reclaims : (s.tick).reclaims = s.reclaims := rfl
@[simp] theorem State.tick_sparing : (s.tick).sparing = s.sparing := rfl
@[simp] theorem State.tick_gated : (s.tick).gated = s.gated := rfl
@[simp] theorem State.tick_power : (s.tick).power = s.power := rfl
@[simp] theorem State.tick_wrap : (s.tick).wrap = s.wrap := rfl
@[simp] theorem State.tick_now : (s.tick).now = s.now := rfl
@[simp] theorem State.tick_gpos : (s.tick).gpos = s.gpos := rfl
@[simp] theorem State.tick_slate : (s.tick).slate = s.slate := rfl
@[simp] theorem State.tick_sl : (s.tick).sl = s.sl := rfl
@[simp] theorem State.tick_ports : (s.tick).ports = s.ports := rfl
@[simp] theorem State.tick_links : (s.tick).links = s.links := rfl
@[simp] theorem State.tick_group : (s.tick).group = s.group := rfl
@[simp] theorem State.tick_gp : (s.tick).gp = s.gp := rfl
@[simp] theorem State.tick_mir : (s.tick).mir = s.mir := rfl
@[simp] theorem State.tick_answer : (s.tick).answer = s.answer := rfl
@[simp] theorem State.tick_vrfs : (s.tick).vrfs = s.vrfs := rfl
@[simp] theorem State.tick_turns : (s.tick).turns = s.turns := rfl
@[simp] theorem State.tick_sec : (s.tick).sec = s.sec := rfl
@[simp] theorem State.tick_gaf : (s.tick).gaf = s.gaf := rfl
@[simp] theorem State.tick_boot : (s.tick).boot = s.boot := rfl
@[simp] theorem State.tick_aon : (s.tick).aon = s.aon := rfl
@[simp] theorem State.tick_pins : (s.tick).pins = s.pins := rfl
@[simp] theorem State.tick_keyIds : (s.tick).keyIds = s.keyIds := rfl
@[simp] theorem State.tick_freeCtr : (s.tick).freeCtr = s.freeCtr + 1 := rfl
@[simp] theorem State.setPt_pending (n : Nat) (x : PortSt) : (s.setPt n x).pending = s.pending := rfl
@[simp] theorem State.setPt_threads (n : Nat) (x : PortSt) : (s.setPt n x).threads = s.threads := rfl
@[simp] theorem State.setPt_cores (n : Nat) (x : PortSt) : (s.setPt n x).cores = s.cores := rfl
@[simp] theorem State.setPt_dec (n : Nat) (x : PortSt) : (s.setPt n x).dec = s.dec := rfl
@[simp] theorem State.setPt_hints (n : Nat) (x : PortSt) : (s.setPt n x).hints = s.hints := rfl
@[simp] theorem State.setPt_caches (n : Nat) (x : PortSt) : (s.setPt n x).caches = s.caches := rfl
@[simp] theorem State.setPt_miss (n : Nat) (x : PortSt) : (s.setPt n x).miss = s.miss := rfl
@[simp] theorem State.setPt_victims (n : Nat) (x : PortSt) : (s.setPt n x).victims = s.victims := rfl
@[simp] theorem State.setPt_wlist (n : Nat) (x : PortSt) : (s.setPt n x).wlist = s.wlist := rfl
@[simp] theorem State.setPt_io (n : Nat) (x : PortSt) : (s.setPt n x).io = s.io := rfl
@[simp] theorem State.setPt_lines (n : Nat) (x : PortSt) : (s.setPt n x).lines = s.lines := rfl
@[simp] theorem State.setPt_msgs (n : Nat) (x : PortSt) : (s.setPt n x).msgs = s.msgs := rfl
@[simp] theorem State.setPt_mem (n : Nat) (x : PortSt) : (s.setPt n x).mem = s.mem := rfl
@[simp] theorem State.setPt_views (n : Nat) (x : PortSt) : (s.setPt n x).views = s.views := rfl
@[simp] theorem State.setPt_staged (n : Nat) (x : PortSt) : (s.setPt n x).staged = s.staged := rfl
@[simp] theorem State.setPt_accepted (n : Nat) (x : PortSt) : (s.setPt n x).accepted = s.accepted := rfl
@[simp] theorem State.setPt_undoOut (n : Nat) (x : PortSt) : (s.setPt n x).undoOut = s.undoOut := rfl
@[simp] theorem State.setPt_swbOut (n : Nat) (x : PortSt) : (s.setPt n x).swbOut = s.swbOut := rfl
@[simp] theorem State.setPt_nextId (n : Nat) (x : PortSt) : (s.setPt n x).nextId = s.nextId := rfl
@[simp] theorem State.setPt_doms (n : Nat) (x : PortSt) : (s.setPt n x).doms = s.doms := rfl
@[simp] theorem State.setPt_owners (n : Nat) (x : PortSt) : (s.setPt n x).owners = s.owners := rfl
@[simp] theorem State.setPt_mcPend (n : Nat) (x : PortSt) : (s.setPt n x).mcPend = s.mcPend := rfl
@[simp] theorem State.setPt_latent (n : Nat) (x : PortSt) : (s.setPt n x).latent = s.latent := rfl
@[simp] theorem State.setPt_wayErr (n : Nat) (x : PortSt) : (s.setPt n x).wayErr = s.wayErr := rfl
@[simp] theorem State.setPt_reclaims (n : Nat) (x : PortSt) : (s.setPt n x).reclaims = s.reclaims := rfl
@[simp] theorem State.setPt_sparing (n : Nat) (x : PortSt) : (s.setPt n x).sparing = s.sparing := rfl
@[simp] theorem State.setPt_gated (n : Nat) (x : PortSt) : (s.setPt n x).gated = s.gated := rfl
@[simp] theorem State.setPt_power (n : Nat) (x : PortSt) : (s.setPt n x).power = s.power := rfl
@[simp] theorem State.setPt_wrap (n : Nat) (x : PortSt) : (s.setPt n x).wrap = s.wrap := rfl
@[simp] theorem State.setPt_now (n : Nat) (x : PortSt) : (s.setPt n x).now = s.now := rfl
@[simp] theorem State.setPt_gpos (n : Nat) (x : PortSt) : (s.setPt n x).gpos = s.gpos := rfl
@[simp] theorem State.setPt_slate (n : Nat) (x : PortSt) : (s.setPt n x).slate = s.slate := rfl
@[simp] theorem State.setPt_sl (n : Nat) (x : PortSt) : (s.setPt n x).sl = s.sl := rfl
@[simp] theorem State.setPt_ports (n : Nat) (x : PortSt) : (s.setPt n x).ports = SMap.put s.ports n x := rfl
@[simp] theorem State.setPt_links (n : Nat) (x : PortSt) : (s.setPt n x).links = s.links := rfl
@[simp] theorem State.setPt_group (n : Nat) (x : PortSt) : (s.setPt n x).group = s.group := rfl
@[simp] theorem State.setPt_gp (n : Nat) (x : PortSt) : (s.setPt n x).gp = s.gp := rfl
@[simp] theorem State.setPt_mir (n : Nat) (x : PortSt) : (s.setPt n x).mir = s.mir := rfl
@[simp] theorem State.setPt_answer (n : Nat) (x : PortSt) : (s.setPt n x).answer = s.answer := rfl
@[simp] theorem State.setPt_vrfs (n : Nat) (x : PortSt) : (s.setPt n x).vrfs = s.vrfs := rfl
@[simp] theorem State.setPt_turns (n : Nat) (x : PortSt) : (s.setPt n x).turns = s.turns := rfl
@[simp] theorem State.setPt_sec (n : Nat) (x : PortSt) : (s.setPt n x).sec = s.sec := rfl
@[simp] theorem State.setPt_gaf (n : Nat) (x : PortSt) : (s.setPt n x).gaf = s.gaf := rfl
@[simp] theorem State.setPt_boot (n : Nat) (x : PortSt) : (s.setPt n x).boot = s.boot := rfl
@[simp] theorem State.setPt_aon (n : Nat) (x : PortSt) : (s.setPt n x).aon = s.aon := rfl
@[simp] theorem State.setPt_pins (n : Nat) (x : PortSt) : (s.setPt n x).pins = s.pins := rfl
@[simp] theorem State.setPt_keyIds (n : Nat) (x : PortSt) : (s.setPt n x).keyIds = s.keyIds := rfl
@[simp] theorem State.setPt_freeCtr (n : Nat) (x : PortSt) : (s.setPt n x).freeCtr = s.freeCtr := rfl
@[simp] theorem State.setSl_pending (x : SlateSt) : (s.setSl x).pending = s.pending := rfl
@[simp] theorem State.setSl_threads (x : SlateSt) : (s.setSl x).threads = s.threads := rfl
@[simp] theorem State.setSl_cores (x : SlateSt) : (s.setSl x).cores = s.cores := rfl
@[simp] theorem State.setSl_dec (x : SlateSt) : (s.setSl x).dec = s.dec := rfl
@[simp] theorem State.setSl_hints (x : SlateSt) : (s.setSl x).hints = s.hints := rfl
@[simp] theorem State.setSl_caches (x : SlateSt) : (s.setSl x).caches = s.caches := rfl
@[simp] theorem State.setSl_miss (x : SlateSt) : (s.setSl x).miss = s.miss := rfl
@[simp] theorem State.setSl_victims (x : SlateSt) : (s.setSl x).victims = s.victims := rfl
@[simp] theorem State.setSl_wlist (x : SlateSt) : (s.setSl x).wlist = s.wlist := rfl
@[simp] theorem State.setSl_io (x : SlateSt) : (s.setSl x).io = s.io := rfl
@[simp] theorem State.setSl_lines (x : SlateSt) : (s.setSl x).lines = s.lines := rfl
@[simp] theorem State.setSl_msgs (x : SlateSt) : (s.setSl x).msgs = s.msgs := rfl
@[simp] theorem State.setSl_mem (x : SlateSt) : (s.setSl x).mem = s.mem := rfl
@[simp] theorem State.setSl_views (x : SlateSt) : (s.setSl x).views = s.views := rfl
@[simp] theorem State.setSl_staged (x : SlateSt) : (s.setSl x).staged = s.staged := rfl
@[simp] theorem State.setSl_accepted (x : SlateSt) : (s.setSl x).accepted = s.accepted := rfl
@[simp] theorem State.setSl_undoOut (x : SlateSt) : (s.setSl x).undoOut = s.undoOut := rfl
@[simp] theorem State.setSl_swbOut (x : SlateSt) : (s.setSl x).swbOut = s.swbOut := rfl
@[simp] theorem State.setSl_nextId (x : SlateSt) : (s.setSl x).nextId = s.nextId := rfl
@[simp] theorem State.setSl_doms (x : SlateSt) : (s.setSl x).doms = s.doms := rfl
@[simp] theorem State.setSl_owners (x : SlateSt) : (s.setSl x).owners = s.owners := rfl
@[simp] theorem State.setSl_mcPend (x : SlateSt) : (s.setSl x).mcPend = s.mcPend := rfl
@[simp] theorem State.setSl_latent (x : SlateSt) : (s.setSl x).latent = s.latent := rfl
@[simp] theorem State.setSl_wayErr (x : SlateSt) : (s.setSl x).wayErr = s.wayErr := rfl
@[simp] theorem State.setSl_reclaims (x : SlateSt) : (s.setSl x).reclaims = s.reclaims := rfl
@[simp] theorem State.setSl_sparing (x : SlateSt) : (s.setSl x).sparing = s.sparing := rfl
@[simp] theorem State.setSl_gated (x : SlateSt) : (s.setSl x).gated = s.gated := rfl
@[simp] theorem State.setSl_power (x : SlateSt) : (s.setSl x).power = s.power := rfl
@[simp] theorem State.setSl_wrap (x : SlateSt) : (s.setSl x).wrap = s.wrap := rfl
@[simp] theorem State.setSl_now (x : SlateSt) : (s.setSl x).now = s.now := rfl
@[simp] theorem State.setSl_gpos (x : SlateSt) : (s.setSl x).gpos = s.gpos := rfl
@[simp] theorem State.setSl_slate (x : SlateSt) : (s.setSl x).slate = s.slate := rfl
@[simp] theorem State.setSl_sl (x : SlateSt) : (s.setSl x).sl = x := rfl
@[simp] theorem State.setSl_ports (x : SlateSt) : (s.setSl x).ports = s.ports := rfl
@[simp] theorem State.setSl_links (x : SlateSt) : (s.setSl x).links = s.links := rfl
@[simp] theorem State.setSl_group (x : SlateSt) : (s.setSl x).group = s.group := rfl
@[simp] theorem State.setSl_gp (x : SlateSt) : (s.setSl x).gp = s.gp := rfl
@[simp] theorem State.setSl_mir (x : SlateSt) : (s.setSl x).mir = s.mir := rfl
@[simp] theorem State.setSl_answer (x : SlateSt) : (s.setSl x).answer = s.answer := rfl
@[simp] theorem State.setSl_vrfs (x : SlateSt) : (s.setSl x).vrfs = s.vrfs := rfl
@[simp] theorem State.setSl_turns (x : SlateSt) : (s.setSl x).turns = s.turns := rfl
@[simp] theorem State.setSl_sec (x : SlateSt) : (s.setSl x).sec = s.sec := rfl
@[simp] theorem State.setSl_gaf (x : SlateSt) : (s.setSl x).gaf = s.gaf := rfl
@[simp] theorem State.setSl_boot (x : SlateSt) : (s.setSl x).boot = s.boot := rfl
@[simp] theorem State.setSl_aon (x : SlateSt) : (s.setSl x).aon = s.aon := rfl
@[simp] theorem State.setSl_pins (x : SlateSt) : (s.setSl x).pins = s.pins := rfl
@[simp] theorem State.setSl_keyIds (x : SlateSt) : (s.setSl x).keyIds = s.keyIds := rfl
@[simp] theorem State.setSl_freeCtr (x : SlateSt) : (s.setSl x).freeCtr = s.freeCtr := rfl
@[simp] theorem State.setGpx_pending (r : Nat) (x : GpSt) : (s.setGpx r x).pending = s.pending := rfl
@[simp] theorem State.setGpx_threads (r : Nat) (x : GpSt) : (s.setGpx r x).threads = s.threads := rfl
@[simp] theorem State.setGpx_cores (r : Nat) (x : GpSt) : (s.setGpx r x).cores = s.cores := rfl
@[simp] theorem State.setGpx_dec (r : Nat) (x : GpSt) : (s.setGpx r x).dec = s.dec := rfl
@[simp] theorem State.setGpx_hints (r : Nat) (x : GpSt) : (s.setGpx r x).hints = s.hints := rfl
@[simp] theorem State.setGpx_caches (r : Nat) (x : GpSt) : (s.setGpx r x).caches = s.caches := rfl
@[simp] theorem State.setGpx_miss (r : Nat) (x : GpSt) : (s.setGpx r x).miss = s.miss := rfl
@[simp] theorem State.setGpx_victims (r : Nat) (x : GpSt) : (s.setGpx r x).victims = s.victims := rfl
@[simp] theorem State.setGpx_wlist (r : Nat) (x : GpSt) : (s.setGpx r x).wlist = s.wlist := rfl
@[simp] theorem State.setGpx_io (r : Nat) (x : GpSt) : (s.setGpx r x).io = s.io := rfl
@[simp] theorem State.setGpx_lines (r : Nat) (x : GpSt) : (s.setGpx r x).lines = s.lines := rfl
@[simp] theorem State.setGpx_msgs (r : Nat) (x : GpSt) : (s.setGpx r x).msgs = s.msgs := rfl
@[simp] theorem State.setGpx_mem (r : Nat) (x : GpSt) : (s.setGpx r x).mem = s.mem := rfl
@[simp] theorem State.setGpx_views (r : Nat) (x : GpSt) : (s.setGpx r x).views = s.views := rfl
@[simp] theorem State.setGpx_staged (r : Nat) (x : GpSt) : (s.setGpx r x).staged = s.staged := rfl
@[simp] theorem State.setGpx_accepted (r : Nat) (x : GpSt) : (s.setGpx r x).accepted = s.accepted := rfl
@[simp] theorem State.setGpx_undoOut (r : Nat) (x : GpSt) : (s.setGpx r x).undoOut = s.undoOut := rfl
@[simp] theorem State.setGpx_swbOut (r : Nat) (x : GpSt) : (s.setGpx r x).swbOut = s.swbOut := rfl
@[simp] theorem State.setGpx_nextId (r : Nat) (x : GpSt) : (s.setGpx r x).nextId = s.nextId := rfl
@[simp] theorem State.setGpx_doms (r : Nat) (x : GpSt) : (s.setGpx r x).doms = s.doms := rfl
@[simp] theorem State.setGpx_owners (r : Nat) (x : GpSt) : (s.setGpx r x).owners = s.owners := rfl
@[simp] theorem State.setGpx_mcPend (r : Nat) (x : GpSt) : (s.setGpx r x).mcPend = s.mcPend := rfl
@[simp] theorem State.setGpx_latent (r : Nat) (x : GpSt) : (s.setGpx r x).latent = s.latent := rfl
@[simp] theorem State.setGpx_wayErr (r : Nat) (x : GpSt) : (s.setGpx r x).wayErr = s.wayErr := rfl
@[simp] theorem State.setGpx_reclaims (r : Nat) (x : GpSt) : (s.setGpx r x).reclaims = s.reclaims := rfl
@[simp] theorem State.setGpx_sparing (r : Nat) (x : GpSt) : (s.setGpx r x).sparing = s.sparing := rfl
@[simp] theorem State.setGpx_gated (r : Nat) (x : GpSt) : (s.setGpx r x).gated = s.gated := rfl
@[simp] theorem State.setGpx_power (r : Nat) (x : GpSt) : (s.setGpx r x).power = s.power := rfl
@[simp] theorem State.setGpx_wrap (r : Nat) (x : GpSt) : (s.setGpx r x).wrap = s.wrap := rfl
@[simp] theorem State.setGpx_now (r : Nat) (x : GpSt) : (s.setGpx r x).now = s.now := rfl
@[simp] theorem State.setGpx_gpos (r : Nat) (x : GpSt) : (s.setGpx r x).gpos = s.gpos := rfl
@[simp] theorem State.setGpx_slate (r : Nat) (x : GpSt) : (s.setGpx r x).slate = s.slate := rfl
@[simp] theorem State.setGpx_sl (r : Nat) (x : GpSt) : (s.setGpx r x).sl = s.sl := rfl
@[simp] theorem State.setGpx_ports (r : Nat) (x : GpSt) : (s.setGpx r x).ports = s.ports := rfl
@[simp] theorem State.setGpx_links (r : Nat) (x : GpSt) : (s.setGpx r x).links = s.links := rfl
@[simp] theorem State.setGpx_group (r : Nat) (x : GpSt) : (s.setGpx r x).group = s.group := rfl
@[simp] theorem State.setGpx_gp (r : Nat) (x : GpSt) : (s.setGpx r x).gp = SMap.put s.gp r x := rfl
@[simp] theorem State.setGpx_mir (r : Nat) (x : GpSt) : (s.setGpx r x).mir = s.mir := rfl
@[simp] theorem State.setGpx_answer (r : Nat) (x : GpSt) : (s.setGpx r x).answer = s.answer := rfl
@[simp] theorem State.setGpx_vrfs (r : Nat) (x : GpSt) : (s.setGpx r x).vrfs = s.vrfs := rfl
@[simp] theorem State.setGpx_turns (r : Nat) (x : GpSt) : (s.setGpx r x).turns = s.turns := rfl
@[simp] theorem State.setGpx_sec (r : Nat) (x : GpSt) : (s.setGpx r x).sec = s.sec := rfl
@[simp] theorem State.setGpx_gaf (r : Nat) (x : GpSt) : (s.setGpx r x).gaf = s.gaf := rfl
@[simp] theorem State.setGpx_boot (r : Nat) (x : GpSt) : (s.setGpx r x).boot = s.boot := rfl
@[simp] theorem State.setGpx_aon (r : Nat) (x : GpSt) : (s.setGpx r x).aon = s.aon := rfl
@[simp] theorem State.setGpx_pins (r : Nat) (x : GpSt) : (s.setGpx r x).pins = s.pins := rfl
@[simp] theorem State.setGpx_keyIds (r : Nat) (x : GpSt) : (s.setGpx r x).keyIds = s.keyIds := rfl
@[simp] theorem State.setGpx_freeCtr (r : Nat) (x : GpSt) : (s.setGpx r x).freeCtr = s.freeCtr := rfl
@[simp] theorem State.setVrf_pending (f : Nat) (x : VrfSt) : (s.setVrf f x).pending = s.pending := rfl
@[simp] theorem State.setVrf_threads (f : Nat) (x : VrfSt) : (s.setVrf f x).threads = s.threads := rfl
@[simp] theorem State.setVrf_cores (f : Nat) (x : VrfSt) : (s.setVrf f x).cores = s.cores := rfl
@[simp] theorem State.setVrf_dec (f : Nat) (x : VrfSt) : (s.setVrf f x).dec = s.dec := rfl
@[simp] theorem State.setVrf_hints (f : Nat) (x : VrfSt) : (s.setVrf f x).hints = s.hints := rfl
@[simp] theorem State.setVrf_caches (f : Nat) (x : VrfSt) : (s.setVrf f x).caches = s.caches := rfl
@[simp] theorem State.setVrf_miss (f : Nat) (x : VrfSt) : (s.setVrf f x).miss = s.miss := rfl
@[simp] theorem State.setVrf_victims (f : Nat) (x : VrfSt) : (s.setVrf f x).victims = s.victims := rfl
@[simp] theorem State.setVrf_wlist (f : Nat) (x : VrfSt) : (s.setVrf f x).wlist = s.wlist := rfl
@[simp] theorem State.setVrf_io (f : Nat) (x : VrfSt) : (s.setVrf f x).io = s.io := rfl
@[simp] theorem State.setVrf_lines (f : Nat) (x : VrfSt) : (s.setVrf f x).lines = s.lines := rfl
@[simp] theorem State.setVrf_msgs (f : Nat) (x : VrfSt) : (s.setVrf f x).msgs = s.msgs := rfl
@[simp] theorem State.setVrf_mem (f : Nat) (x : VrfSt) : (s.setVrf f x).mem = s.mem := rfl
@[simp] theorem State.setVrf_views (f : Nat) (x : VrfSt) : (s.setVrf f x).views = s.views := rfl
@[simp] theorem State.setVrf_staged (f : Nat) (x : VrfSt) : (s.setVrf f x).staged = s.staged := rfl
@[simp] theorem State.setVrf_accepted (f : Nat) (x : VrfSt) : (s.setVrf f x).accepted = s.accepted := rfl
@[simp] theorem State.setVrf_undoOut (f : Nat) (x : VrfSt) : (s.setVrf f x).undoOut = s.undoOut := rfl
@[simp] theorem State.setVrf_swbOut (f : Nat) (x : VrfSt) : (s.setVrf f x).swbOut = s.swbOut := rfl
@[simp] theorem State.setVrf_nextId (f : Nat) (x : VrfSt) : (s.setVrf f x).nextId = s.nextId := rfl
@[simp] theorem State.setVrf_doms (f : Nat) (x : VrfSt) : (s.setVrf f x).doms = s.doms := rfl
@[simp] theorem State.setVrf_owners (f : Nat) (x : VrfSt) : (s.setVrf f x).owners = s.owners := rfl
@[simp] theorem State.setVrf_mcPend (f : Nat) (x : VrfSt) : (s.setVrf f x).mcPend = s.mcPend := rfl
@[simp] theorem State.setVrf_latent (f : Nat) (x : VrfSt) : (s.setVrf f x).latent = s.latent := rfl
@[simp] theorem State.setVrf_wayErr (f : Nat) (x : VrfSt) : (s.setVrf f x).wayErr = s.wayErr := rfl
@[simp] theorem State.setVrf_reclaims (f : Nat) (x : VrfSt) : (s.setVrf f x).reclaims = s.reclaims := rfl
@[simp] theorem State.setVrf_sparing (f : Nat) (x : VrfSt) : (s.setVrf f x).sparing = s.sparing := rfl
@[simp] theorem State.setVrf_gated (f : Nat) (x : VrfSt) : (s.setVrf f x).gated = s.gated := rfl
@[simp] theorem State.setVrf_power (f : Nat) (x : VrfSt) : (s.setVrf f x).power = s.power := rfl
@[simp] theorem State.setVrf_wrap (f : Nat) (x : VrfSt) : (s.setVrf f x).wrap = s.wrap := rfl
@[simp] theorem State.setVrf_now (f : Nat) (x : VrfSt) : (s.setVrf f x).now = s.now := rfl
@[simp] theorem State.setVrf_gpos (f : Nat) (x : VrfSt) : (s.setVrf f x).gpos = s.gpos := rfl
@[simp] theorem State.setVrf_slate (f : Nat) (x : VrfSt) : (s.setVrf f x).slate = s.slate := rfl
@[simp] theorem State.setVrf_sl (f : Nat) (x : VrfSt) : (s.setVrf f x).sl = s.sl := rfl
@[simp] theorem State.setVrf_ports (f : Nat) (x : VrfSt) : (s.setVrf f x).ports = s.ports := rfl
@[simp] theorem State.setVrf_links (f : Nat) (x : VrfSt) : (s.setVrf f x).links = s.links := rfl
@[simp] theorem State.setVrf_group (f : Nat) (x : VrfSt) : (s.setVrf f x).group = s.group := rfl
@[simp] theorem State.setVrf_gp (f : Nat) (x : VrfSt) : (s.setVrf f x).gp = s.gp := rfl
@[simp] theorem State.setVrf_mir (f : Nat) (x : VrfSt) : (s.setVrf f x).mir = s.mir := rfl
@[simp] theorem State.setVrf_answer (f : Nat) (x : VrfSt) : (s.setVrf f x).answer = s.answer := rfl
@[simp] theorem State.setVrf_vrfs (f : Nat) (x : VrfSt) : (s.setVrf f x).vrfs = SMap.put s.vrfs f x := rfl
@[simp] theorem State.setVrf_turns (f : Nat) (x : VrfSt) : (s.setVrf f x).turns = s.turns := rfl
@[simp] theorem State.setVrf_sec (f : Nat) (x : VrfSt) : (s.setVrf f x).sec = s.sec := rfl
@[simp] theorem State.setVrf_gaf (f : Nat) (x : VrfSt) : (s.setVrf f x).gaf = s.gaf := rfl
@[simp] theorem State.setVrf_boot (f : Nat) (x : VrfSt) : (s.setVrf f x).boot = s.boot := rfl
@[simp] theorem State.setVrf_aon (f : Nat) (x : VrfSt) : (s.setVrf f x).aon = s.aon := rfl
@[simp] theorem State.setVrf_pins (f : Nat) (x : VrfSt) : (s.setVrf f x).pins = s.pins := rfl
@[simp] theorem State.setVrf_keyIds (f : Nat) (x : VrfSt) : (s.setVrf f x).keyIds = s.keyIds := rfl
@[simp] theorem State.setVrf_freeCtr (f : Nat) (x : VrfSt) : (s.setVrf f x).freeCtr = s.freeCtr := rfl
@[simp] theorem State.setGaf_pending (x : GafSt) : (s.setGaf x).pending = s.pending := rfl
@[simp] theorem State.setGaf_threads (x : GafSt) : (s.setGaf x).threads = s.threads := rfl
@[simp] theorem State.setGaf_cores (x : GafSt) : (s.setGaf x).cores = s.cores := rfl
@[simp] theorem State.setGaf_dec (x : GafSt) : (s.setGaf x).dec = s.dec := rfl
@[simp] theorem State.setGaf_hints (x : GafSt) : (s.setGaf x).hints = s.hints := rfl
@[simp] theorem State.setGaf_caches (x : GafSt) : (s.setGaf x).caches = s.caches := rfl
@[simp] theorem State.setGaf_miss (x : GafSt) : (s.setGaf x).miss = s.miss := rfl
@[simp] theorem State.setGaf_victims (x : GafSt) : (s.setGaf x).victims = s.victims := rfl
@[simp] theorem State.setGaf_wlist (x : GafSt) : (s.setGaf x).wlist = s.wlist := rfl
@[simp] theorem State.setGaf_io (x : GafSt) : (s.setGaf x).io = s.io := rfl
@[simp] theorem State.setGaf_lines (x : GafSt) : (s.setGaf x).lines = s.lines := rfl
@[simp] theorem State.setGaf_msgs (x : GafSt) : (s.setGaf x).msgs = s.msgs := rfl
@[simp] theorem State.setGaf_mem (x : GafSt) : (s.setGaf x).mem = s.mem := rfl
@[simp] theorem State.setGaf_views (x : GafSt) : (s.setGaf x).views = s.views := rfl
@[simp] theorem State.setGaf_staged (x : GafSt) : (s.setGaf x).staged = s.staged := rfl
@[simp] theorem State.setGaf_accepted (x : GafSt) : (s.setGaf x).accepted = s.accepted := rfl
@[simp] theorem State.setGaf_undoOut (x : GafSt) : (s.setGaf x).undoOut = s.undoOut := rfl
@[simp] theorem State.setGaf_swbOut (x : GafSt) : (s.setGaf x).swbOut = s.swbOut := rfl
@[simp] theorem State.setGaf_nextId (x : GafSt) : (s.setGaf x).nextId = s.nextId := rfl
@[simp] theorem State.setGaf_doms (x : GafSt) : (s.setGaf x).doms = s.doms := rfl
@[simp] theorem State.setGaf_owners (x : GafSt) : (s.setGaf x).owners = s.owners := rfl
@[simp] theorem State.setGaf_mcPend (x : GafSt) : (s.setGaf x).mcPend = s.mcPend := rfl
@[simp] theorem State.setGaf_latent (x : GafSt) : (s.setGaf x).latent = s.latent := rfl
@[simp] theorem State.setGaf_wayErr (x : GafSt) : (s.setGaf x).wayErr = s.wayErr := rfl
@[simp] theorem State.setGaf_reclaims (x : GafSt) : (s.setGaf x).reclaims = s.reclaims := rfl
@[simp] theorem State.setGaf_sparing (x : GafSt) : (s.setGaf x).sparing = s.sparing := rfl
@[simp] theorem State.setGaf_gated (x : GafSt) : (s.setGaf x).gated = s.gated := rfl
@[simp] theorem State.setGaf_power (x : GafSt) : (s.setGaf x).power = s.power := rfl
@[simp] theorem State.setGaf_wrap (x : GafSt) : (s.setGaf x).wrap = s.wrap := rfl
@[simp] theorem State.setGaf_now (x : GafSt) : (s.setGaf x).now = s.now := rfl
@[simp] theorem State.setGaf_gpos (x : GafSt) : (s.setGaf x).gpos = s.gpos := rfl
@[simp] theorem State.setGaf_slate (x : GafSt) : (s.setGaf x).slate = s.slate := rfl
@[simp] theorem State.setGaf_sl (x : GafSt) : (s.setGaf x).sl = s.sl := rfl
@[simp] theorem State.setGaf_ports (x : GafSt) : (s.setGaf x).ports = s.ports := rfl
@[simp] theorem State.setGaf_links (x : GafSt) : (s.setGaf x).links = s.links := rfl
@[simp] theorem State.setGaf_group (x : GafSt) : (s.setGaf x).group = s.group := rfl
@[simp] theorem State.setGaf_gp (x : GafSt) : (s.setGaf x).gp = s.gp := rfl
@[simp] theorem State.setGaf_mir (x : GafSt) : (s.setGaf x).mir = s.mir := rfl
@[simp] theorem State.setGaf_answer (x : GafSt) : (s.setGaf x).answer = s.answer := rfl
@[simp] theorem State.setGaf_vrfs (x : GafSt) : (s.setGaf x).vrfs = s.vrfs := rfl
@[simp] theorem State.setGaf_turns (x : GafSt) : (s.setGaf x).turns = s.turns := rfl
@[simp] theorem State.setGaf_sec (x : GafSt) : (s.setGaf x).sec = s.sec := rfl
@[simp] theorem State.setGaf_gaf (x : GafSt) : (s.setGaf x).gaf = x := rfl
@[simp] theorem State.setGaf_boot (x : GafSt) : (s.setGaf x).boot = s.boot := rfl
@[simp] theorem State.setGaf_aon (x : GafSt) : (s.setGaf x).aon = s.aon := rfl
@[simp] theorem State.setGaf_pins (x : GafSt) : (s.setGaf x).pins = s.pins := rfl
@[simp] theorem State.setGaf_keyIds (x : GafSt) : (s.setGaf x).keyIds = s.keyIds := rfl
@[simp] theorem State.setGaf_freeCtr (x : GafSt) : (s.setGaf x).freeCtr = s.freeCtr := rfl
@[simp] theorem State.setBoot_pending (x : BootSt) : (s.setBoot x).pending = s.pending := rfl
@[simp] theorem State.setBoot_threads (x : BootSt) : (s.setBoot x).threads = s.threads := rfl
@[simp] theorem State.setBoot_cores (x : BootSt) : (s.setBoot x).cores = s.cores := rfl
@[simp] theorem State.setBoot_dec (x : BootSt) : (s.setBoot x).dec = s.dec := rfl
@[simp] theorem State.setBoot_hints (x : BootSt) : (s.setBoot x).hints = s.hints := rfl
@[simp] theorem State.setBoot_caches (x : BootSt) : (s.setBoot x).caches = s.caches := rfl
@[simp] theorem State.setBoot_miss (x : BootSt) : (s.setBoot x).miss = s.miss := rfl
@[simp] theorem State.setBoot_victims (x : BootSt) : (s.setBoot x).victims = s.victims := rfl
@[simp] theorem State.setBoot_wlist (x : BootSt) : (s.setBoot x).wlist = s.wlist := rfl
@[simp] theorem State.setBoot_io (x : BootSt) : (s.setBoot x).io = s.io := rfl
@[simp] theorem State.setBoot_lines (x : BootSt) : (s.setBoot x).lines = s.lines := rfl
@[simp] theorem State.setBoot_msgs (x : BootSt) : (s.setBoot x).msgs = s.msgs := rfl
@[simp] theorem State.setBoot_mem (x : BootSt) : (s.setBoot x).mem = s.mem := rfl
@[simp] theorem State.setBoot_views (x : BootSt) : (s.setBoot x).views = s.views := rfl
@[simp] theorem State.setBoot_staged (x : BootSt) : (s.setBoot x).staged = s.staged := rfl
@[simp] theorem State.setBoot_accepted (x : BootSt) : (s.setBoot x).accepted = s.accepted := rfl
@[simp] theorem State.setBoot_undoOut (x : BootSt) : (s.setBoot x).undoOut = s.undoOut := rfl
@[simp] theorem State.setBoot_swbOut (x : BootSt) : (s.setBoot x).swbOut = s.swbOut := rfl
@[simp] theorem State.setBoot_nextId (x : BootSt) : (s.setBoot x).nextId = s.nextId := rfl
@[simp] theorem State.setBoot_doms (x : BootSt) : (s.setBoot x).doms = s.doms := rfl
@[simp] theorem State.setBoot_owners (x : BootSt) : (s.setBoot x).owners = s.owners := rfl
@[simp] theorem State.setBoot_mcPend (x : BootSt) : (s.setBoot x).mcPend = s.mcPend := rfl
@[simp] theorem State.setBoot_latent (x : BootSt) : (s.setBoot x).latent = s.latent := rfl
@[simp] theorem State.setBoot_wayErr (x : BootSt) : (s.setBoot x).wayErr = s.wayErr := rfl
@[simp] theorem State.setBoot_reclaims (x : BootSt) : (s.setBoot x).reclaims = s.reclaims := rfl
@[simp] theorem State.setBoot_sparing (x : BootSt) : (s.setBoot x).sparing = s.sparing := rfl
@[simp] theorem State.setBoot_gated (x : BootSt) : (s.setBoot x).gated = s.gated := rfl
@[simp] theorem State.setBoot_power (x : BootSt) : (s.setBoot x).power = s.power := rfl
@[simp] theorem State.setBoot_wrap (x : BootSt) : (s.setBoot x).wrap = s.wrap := rfl
@[simp] theorem State.setBoot_now (x : BootSt) : (s.setBoot x).now = s.now := rfl
@[simp] theorem State.setBoot_gpos (x : BootSt) : (s.setBoot x).gpos = s.gpos := rfl
@[simp] theorem State.setBoot_slate (x : BootSt) : (s.setBoot x).slate = s.slate := rfl
@[simp] theorem State.setBoot_sl (x : BootSt) : (s.setBoot x).sl = s.sl := rfl
@[simp] theorem State.setBoot_ports (x : BootSt) : (s.setBoot x).ports = s.ports := rfl
@[simp] theorem State.setBoot_links (x : BootSt) : (s.setBoot x).links = s.links := rfl
@[simp] theorem State.setBoot_group (x : BootSt) : (s.setBoot x).group = s.group := rfl
@[simp] theorem State.setBoot_gp (x : BootSt) : (s.setBoot x).gp = s.gp := rfl
@[simp] theorem State.setBoot_mir (x : BootSt) : (s.setBoot x).mir = s.mir := rfl
@[simp] theorem State.setBoot_answer (x : BootSt) : (s.setBoot x).answer = s.answer := rfl
@[simp] theorem State.setBoot_vrfs (x : BootSt) : (s.setBoot x).vrfs = s.vrfs := rfl
@[simp] theorem State.setBoot_turns (x : BootSt) : (s.setBoot x).turns = s.turns := rfl
@[simp] theorem State.setBoot_sec (x : BootSt) : (s.setBoot x).sec = s.sec := rfl
@[simp] theorem State.setBoot_gaf (x : BootSt) : (s.setBoot x).gaf = s.gaf := rfl
@[simp] theorem State.setBoot_boot (x : BootSt) : (s.setBoot x).boot = x := rfl
@[simp] theorem State.setBoot_aon (x : BootSt) : (s.setBoot x).aon = s.aon := rfl
@[simp] theorem State.setBoot_pins (x : BootSt) : (s.setBoot x).pins = s.pins := rfl
@[simp] theorem State.setBoot_keyIds (x : BootSt) : (s.setBoot x).keyIds = s.keyIds := rfl
@[simp] theorem State.setBoot_freeCtr (x : BootSt) : (s.setBoot x).freeCtr = s.freeCtr := rfl
@[simp] theorem State.setAon_pending (x : AonSt) : (s.setAon x).pending = s.pending := rfl
@[simp] theorem State.setAon_threads (x : AonSt) : (s.setAon x).threads = s.threads := rfl
@[simp] theorem State.setAon_cores (x : AonSt) : (s.setAon x).cores = s.cores := rfl
@[simp] theorem State.setAon_dec (x : AonSt) : (s.setAon x).dec = s.dec := rfl
@[simp] theorem State.setAon_hints (x : AonSt) : (s.setAon x).hints = s.hints := rfl
@[simp] theorem State.setAon_caches (x : AonSt) : (s.setAon x).caches = s.caches := rfl
@[simp] theorem State.setAon_miss (x : AonSt) : (s.setAon x).miss = s.miss := rfl
@[simp] theorem State.setAon_victims (x : AonSt) : (s.setAon x).victims = s.victims := rfl
@[simp] theorem State.setAon_wlist (x : AonSt) : (s.setAon x).wlist = s.wlist := rfl
@[simp] theorem State.setAon_io (x : AonSt) : (s.setAon x).io = s.io := rfl
@[simp] theorem State.setAon_lines (x : AonSt) : (s.setAon x).lines = s.lines := rfl
@[simp] theorem State.setAon_msgs (x : AonSt) : (s.setAon x).msgs = s.msgs := rfl
@[simp] theorem State.setAon_mem (x : AonSt) : (s.setAon x).mem = s.mem := rfl
@[simp] theorem State.setAon_views (x : AonSt) : (s.setAon x).views = s.views := rfl
@[simp] theorem State.setAon_staged (x : AonSt) : (s.setAon x).staged = s.staged := rfl
@[simp] theorem State.setAon_accepted (x : AonSt) : (s.setAon x).accepted = s.accepted := rfl
@[simp] theorem State.setAon_undoOut (x : AonSt) : (s.setAon x).undoOut = s.undoOut := rfl
@[simp] theorem State.setAon_swbOut (x : AonSt) : (s.setAon x).swbOut = s.swbOut := rfl
@[simp] theorem State.setAon_nextId (x : AonSt) : (s.setAon x).nextId = s.nextId := rfl
@[simp] theorem State.setAon_doms (x : AonSt) : (s.setAon x).doms = s.doms := rfl
@[simp] theorem State.setAon_owners (x : AonSt) : (s.setAon x).owners = s.owners := rfl
@[simp] theorem State.setAon_mcPend (x : AonSt) : (s.setAon x).mcPend = s.mcPend := rfl
@[simp] theorem State.setAon_latent (x : AonSt) : (s.setAon x).latent = s.latent := rfl
@[simp] theorem State.setAon_wayErr (x : AonSt) : (s.setAon x).wayErr = s.wayErr := rfl
@[simp] theorem State.setAon_reclaims (x : AonSt) : (s.setAon x).reclaims = s.reclaims := rfl
@[simp] theorem State.setAon_sparing (x : AonSt) : (s.setAon x).sparing = s.sparing := rfl
@[simp] theorem State.setAon_gated (x : AonSt) : (s.setAon x).gated = s.gated := rfl
@[simp] theorem State.setAon_power (x : AonSt) : (s.setAon x).power = s.power := rfl
@[simp] theorem State.setAon_wrap (x : AonSt) : (s.setAon x).wrap = s.wrap := rfl
@[simp] theorem State.setAon_now (x : AonSt) : (s.setAon x).now = s.now := rfl
@[simp] theorem State.setAon_gpos (x : AonSt) : (s.setAon x).gpos = s.gpos := rfl
@[simp] theorem State.setAon_slate (x : AonSt) : (s.setAon x).slate = s.slate := rfl
@[simp] theorem State.setAon_sl (x : AonSt) : (s.setAon x).sl = s.sl := rfl
@[simp] theorem State.setAon_ports (x : AonSt) : (s.setAon x).ports = s.ports := rfl
@[simp] theorem State.setAon_links (x : AonSt) : (s.setAon x).links = s.links := rfl
@[simp] theorem State.setAon_group (x : AonSt) : (s.setAon x).group = s.group := rfl
@[simp] theorem State.setAon_gp (x : AonSt) : (s.setAon x).gp = s.gp := rfl
@[simp] theorem State.setAon_mir (x : AonSt) : (s.setAon x).mir = s.mir := rfl
@[simp] theorem State.setAon_answer (x : AonSt) : (s.setAon x).answer = s.answer := rfl
@[simp] theorem State.setAon_vrfs (x : AonSt) : (s.setAon x).vrfs = s.vrfs := rfl
@[simp] theorem State.setAon_turns (x : AonSt) : (s.setAon x).turns = s.turns := rfl
@[simp] theorem State.setAon_sec (x : AonSt) : (s.setAon x).sec = s.sec := rfl
@[simp] theorem State.setAon_gaf (x : AonSt) : (s.setAon x).gaf = s.gaf := rfl
@[simp] theorem State.setAon_boot (x : AonSt) : (s.setAon x).boot = s.boot := rfl
@[simp] theorem State.setAon_aon (x : AonSt) : (s.setAon x).aon = x := rfl
@[simp] theorem State.setAon_pins (x : AonSt) : (s.setAon x).pins = s.pins := rfl
@[simp] theorem State.setAon_keyIds (x : AonSt) : (s.setAon x).keyIds = s.keyIds := rfl
@[simp] theorem State.setAon_freeCtr (x : AonSt) : (s.setAon x).freeCtr = s.freeCtr := rfl

end Sys2Proof.Machine
end

