-- ==== Sys2Proof/Laws/Regs.lean ====
section
/-!
SUPPORT. Bit fields read back as written and leave the other bits alone; registers, fields, threads, cores and lines read
back as stored; general register 0 reads zero.
-/
namespace Sys2Proof.Machine

/-! Bit fields. -/

/-- A field of at most the word's width is a number below 2 to the width. -/
theorem fget_lt (w : Word) (lo n : Nat) : fget w lo n < 2 ^ n := Nat.mod_lt _ (Nat.two_pow_pos n)

theorem fget_split (w : Word) (lo n : Nat) :
    w.toNat = w.toNat / 2 ^ (lo + n) * 2 ^ (lo + n) + fget w lo n * 2 ^ lo + w.toNat % 2 ^ lo := by
  have h1 := Nat.div_add_mod w.toNat (2 ^ lo)
  have h2 := Nat.div_add_mod (w.toNat / 2 ^ lo) (2 ^ n)
  rw [Nat.div_div_eq_div_mul, ← Nat.pow_add] at h2
  unfold fget
  calc w.toNat = 2 ^ lo * (w.toNat / 2 ^ lo) + w.toNat % 2 ^ lo := h1.symm
    _ = 2 ^ lo * (2 ^ n * (w.toNat / 2 ^ (lo + n)) + w.toNat / 2 ^ lo % 2 ^ n) + w.toNat % 2 ^ lo := by rw [h2]
    _ = _ := by rw [Nat.pow_add]; ring

/-- What a field write leaves, as a number: the bits above, the new field, the bits below. -/
theorem toNat_fset (w : Word) (lo n v : Nat) (h : lo + n ≤ 64) :
    (fset w lo n v).toNat = w.toNat / 2 ^ (lo + n) * 2 ^ (lo + n) + v % 2 ^ n * 2 ^ lo + w.toNat % 2 ^ lo := by
  have hs := fget_split w lo n
  have hw : w.toNat < 2 ^ 64 := w.isLt
  have hv : v % 2 ^ n < 2 ^ n := Nat.mod_lt _ (Nat.two_pow_pos n)
  have hl : w.toNat % 2 ^ lo < 2 ^ lo := Nat.mod_lt _ (Nat.two_pow_pos lo)
  have hp : 2 ^ (lo + n) = 2 ^ n * 2 ^ lo := by rw [Nat.pow_add]; ring
  have hq : 2 ^ 64 = 2 ^ (64 - (lo + n)) * 2 ^ (lo + n) := by rw [← Nat.pow_add]; congr 1; omega
  have hd : w.toNat / 2 ^ (lo + n) < 2 ^ (64 - (lo + n)) := by
    rw [Nat.div_lt_iff_lt_mul (Nat.two_pow_pos _), ← hq]; exact hw
  have hb : v % 2 ^ n * 2 ^ lo + w.toNat % 2 ^ lo < 2 ^ (lo + n) := by
    rw [hp]
    calc v % 2 ^ n * 2 ^ lo + w.toNat % 2 ^ lo < v % 2 ^ n * 2 ^ lo + 2 ^ lo := by omega
      _ = (v % 2 ^ n + 1) * 2 ^ lo := by ring
      _ ≤ 2 ^ n * 2 ^ lo := Nat.mul_le_mul_right _ hv
  have ht : w.toNat / 2 ^ (lo + n) * 2 ^ (lo + n) + v % 2 ^ n * 2 ^ lo + w.toNat % 2 ^ lo < 2 ^ 64 := by
    rw [hq]
    calc _ < w.toNat / 2 ^ (lo + n) * 2 ^ (lo + n) + 2 ^ (lo + n) := by omega
      _ = (w.toNat / 2 ^ (lo + n) + 1) * 2 ^ (lo + n) := by ring
      _ ≤ 2 ^ (64 - (lo + n)) * 2 ^ (lo + n) := Nat.mul_le_mul_right _ hd
  unfold fset
  rw [BitVec.toNat_ofNat]
  have he : w.toNat - fget w lo n * 2 ^ lo + v % 2 ^ n * 2 ^ lo
      = w.toNat / 2 ^ (lo + n) * 2 ^ (lo + n) + v % 2 ^ n * 2 ^ lo + w.toNat % 2 ^ lo := by omega
  rw [he]; exact Nat.mod_eq_of_lt ht

/-- A field reads back as written. -/
theorem fget_fset_same (w : Word) (lo n v : Nat) (h : lo + n ≤ 64) : fget (fset w lo n v) lo n = v % 2 ^ n := by
  have hl : w.toNat % 2 ^ lo < 2 ^ lo := Nat.mod_lt _ (Nat.two_pow_pos lo)
  unfold fget
  rw [toNat_fset w lo n v h]
  have he : w.toNat / 2 ^ (lo + n) * 2 ^ (lo + n) + v % 2 ^ n * 2 ^ lo + w.toNat % 2 ^ lo
      = w.toNat % 2 ^ lo + 2 ^ lo * (v % 2 ^ n + 2 ^ n * (w.toNat / 2 ^ (lo + n))) := by rw [Nat.pow_add]; ring
  rw [he, Nat.add_mul_div_left _ _ (Nat.two_pow_pos lo), Nat.div_eq_of_lt hl, Nat.zero_add, Nat.add_mul_mod_self_left,
    Nat.mod_mod]

/-- A field write leaves a field below it alone. -/
theorem fget_fset_below (w : Word) (lo n v lo' n' : Nat) (h : lo + n ≤ 64) (hd : lo' + n' ≤ lo) :
    fget (fset w lo n v) lo' n' = fget w lo' n' := by
  have key : ∀ x y : Nat, x % 2 ^ lo = y % 2 ^ lo → x / 2 ^ lo' % 2 ^ n' = y / 2 ^ lo' % 2 ^ n' := by
    intro x y hxy
    have hp : 2 ^ lo = 2 ^ (lo' + n') * 2 ^ (lo - (lo' + n')) := by rw [← Nat.pow_add]; congr 1; omega
    have e : ∀ z : Nat, z / 2 ^ lo' % 2 ^ n' = z % 2 ^ lo % (2 ^ (lo' + n')) / 2 ^ lo' := by
      intro z
      rw [hp, Nat.mod_mul_right_mod, Nat.pow_add, Nat.mod_mul_right_div_self]
    rw [e x, e y, hxy]
  unfold fget
  apply key
  rw [toNat_fset w lo n v h]
  have he : w.toNat / 2 ^ (lo + n) * 2 ^ (lo + n) + v % 2 ^ n * 2 ^ lo + w.toNat % 2 ^ lo
      = w.toNat % 2 ^ lo + 2 ^ lo * (v % 2 ^ n + 2 ^ n * (w.toNat / 2 ^ (lo + n))) := by rw [Nat.pow_add]; ring
  rw [he, Nat.add_mul_mod_self_left, Nat.mod_mod]

/-- A field write leaves a field above it alone. -/
theorem fget_fset_above (w : Word) (lo n v lo' n' : Nat) (h : lo + n ≤ 64) (hd : lo + n ≤ lo') :
    fget (fset w lo n v) lo' n' = fget w lo' n' := by
  have hv : v % 2 ^ n < 2 ^ n := Nat.mod_lt _ (Nat.two_pow_pos n)
  have hl : w.toNat % 2 ^ lo < 2 ^ lo := Nat.mod_lt _ (Nat.two_pow_pos lo)
  have hb : v % 2 ^ n * 2 ^ lo + w.toNat % 2 ^ lo < 2 ^ (lo + n) := by
    have hp : 2 ^ (lo + n) = 2 ^ n * 2 ^ lo := by rw [Nat.pow_add]; ring
    rw [hp]
    calc v % 2 ^ n * 2 ^ lo + w.toNat % 2 ^ lo < v % 2 ^ n * 2 ^ lo + 2 ^ lo := by omega
      _ = (v % 2 ^ n + 1) * 2 ^ lo := by ring
      _ ≤ 2 ^ n * 2 ^ lo := Nat.mul_le_mul_right _ hv
  unfold fget
  have hq : (fset w lo n v).toNat / 2 ^ (lo + n) = w.toNat / 2 ^ (lo + n) := by
    rw [toNat_fset w lo n v h, Nat.add_assoc, Nat.mul_comm, Nat.mul_add_div (Nat.two_pow_pos _), Nat.div_eq_of_lt hb,
      Nat.add_zero]
  have hp : 2 ^ lo' = 2 ^ (lo + n) * 2 ^ (lo' - (lo + n)) := by rw [← Nat.pow_add]; congr 1; omega
  rw [hp, ← Nat.div_div_eq_div_mul, ← Nat.div_div_eq_div_mul, hq]

/-- A field write leaves every disjoint field alone. -/
theorem fget_fset_ne (w : Word) (lo n v lo' n' : Nat) (h : lo + n ≤ 64) (hd : lo' + n' ≤ lo ∨ lo + n ≤ lo') :
    fget (fset w lo n v) lo' n' = fget w lo' n' := by
  rcases hd with hd | hd
  · exact fget_fset_below w lo n v lo' n' h hd
  · exact fget_fset_above w lo n v lo' n' h hd

/-! Registers. -/

@[simp] theorem State.rdw_wrw_same (s : State) (a : Nat) (v : Word) : (s.wrw a v).rdw a = v := by
  simp [State.rdw]

theorem State.rdw_wrw_ne (s : State) (a b : Nat) (v : Word) (h : b ≠ a) : (s.wrw a v).rdw b = s.rdw b := by
  simp [State.rdw, SMap.get_put_ne _ _ _ _ _ h]

theorem State.rdw_wr_same (s : State) (f : FRef) (v : Nat) :
    (s.wr f v).rdw f.addr = fset (s.rdw f.addr) f.lo f.w v := by simp [State.wr]

theorem State.rdw_wr_ne (s : State) (f : FRef) (v a : Nat) (h : a ≠ f.addr) : (s.wr f v).rdw a = s.rdw a :=
  State.rdw_wrw_ne s f.addr a _ h

/-- A field of a register reads back as written. -/
theorem State.rd_wr_same (s : State) (f : FRef) (v : Nat) (h : f.lo + f.w ≤ 64) : (s.wr f v).rd f = v % 2 ^ f.w := by
  simp only [State.rd, State.rdw_wr_same]; exact fget_fset_same _ _ _ _ h

/-- A field of another register, or a disjoint field of the same one, is left alone. -/
theorem State.rd_wr_ne (s : State) (f f' : FRef) (v : Nat) (h : f.lo + f.w ≤ 64)
    (hd : f'.addr ≠ f.addr ∨ f'.lo + f'.w ≤ f.lo ∨ f.lo + f.w ≤ f'.lo) : (s.wr f v).rd f' = s.rd f' := by
  by_cases ha : f'.addr = f.addr
  · simp only [State.rd, ha, State.rdw_wr_same]
    exact fget_fset_ne _ _ _ _ _ _ h (by tauto)
  · simp only [State.rd, State.rdw_wr_ne s f v f'.addr ha]

/-! Threads, cores, lines. -/

@[simp] theorem State.thrN_setThrN (s : State) (t : Nat) (x : Thread) : (s.setThrN t x).thrN t = x := by
  simp [State.thrN]
@[simp] theorem State.thr_setThr (s : State) (t : Tid) (x : Thread) : (s.setThr t x).thr t = x := by
  simp [State.thr, State.setThr]
theorem State.thrN_setThrN_ne (s : State) (t u : Nat) (x : Thread) (h : u ≠ t) : (s.setThrN t x).thrN u = s.thrN u := by
  simp [State.thrN, SMap.get_put_ne _ _ _ _ _ h]
theorem State.thrN_setThr_ne (s : State) (t : Tid) (u : Nat) (x : Thread) (h : u ≠ t.val) :
    (s.setThr t x).thrN u = s.thrN u := State.thrN_setThrN_ne s t.val u x h
@[simp] theorem State.core_setCore (s : State) (c : Nat) (x : Core) : (s.setCore c x).core c = x := by
  simp [State.core]
theorem State.core_setCore_ne (s : State) (c e : Nat) (x : Core) (h : e ≠ c) : (s.setCore c x).core e = s.core e := by
  simp [State.core, SMap.get_put_ne _ _ _ _ _ h]
@[simp] theorem State.line_setLine (s : State) (l : Nat) (r : LineRec) : (s.setLine l r).line l = r := by
  simp [State.line]
theorem State.line_setLine_ne (s : State) (l k : Nat) (r : LineRec) (h : k ≠ l) : (s.setLine l r).line k = s.line k := by
  simp [State.line, SMap.get_put_ne _ _ _ _ _ h]
@[simp] theorem State.dom_setDom (s : State) (d : Nat) (x : TakeDom) : (s.setDom d x).dom d = x := by
  simp [State.dom]
theorem State.dom_setDom_ne (s : State) (d e : Nat) (x : TakeDom) (h : e ≠ d) : (s.setDom d x).dom e = s.dom e := by
  simp [State.dom, SMap.get_put_ne _ _ _ _ _ h]

/-- General register 0 reads zero (R47). -/
@[simp] theorem Thread.gr_zero (x : Thread) : x.gr 0 = 0 := rfl
/-- A write to general register 0 is discarded (R47). -/
@[simp] theorem Thread.setGr_zero (x : Thread) (v : Word) : x.setGr 0 v = x := rfl
theorem Thread.gr_setGr (x : Thread) (r q : Nat) (v : Word) (h : r ≠ 0) :
    (x.setGr r v).gr q = if q = r then v else x.gr q := by
  unfold Thread.setGr Thread.gr
  rw [if_neg h]
  by_cases hq : q = 0
  · subst hq; simp [Ne.symm h]
  · simp [hq, SMap.get_put]
@[simp] theorem Thread.fr_setFr_same (x : Thread) (r : Nat) (v : Word) : (x.setFr r v).fr r = v := by
  simp [Thread.fr, Thread.setFr]
theorem Thread.fr_setFr_ne (x : Thread) (r q : Nat) (v : Word) (h : q ≠ r) : (x.setFr r v).fr q = x.fr q := by
  simp [Thread.fr, Thread.setFr, SMap.get_put_ne _ _ _ _ _ h]
@[simp] theorem Thread.c_setC_same (x : Thread) (n : Nat) (v : Word) : (x.setC n v).c n = v := by
  simp [Thread.c, Thread.setC]
theorem Thread.c_setC_ne (x : Thread) (n m : Nat) (v : Word) (h : m ≠ n) : (x.setC n v).c m = x.c m := by
  simp [Thread.c, Thread.setC, SMap.get_put_ne _ _ _ _ _ h]

end Sys2Proof.Machine
end

