-- ==== Sys2Proof/Laws/Issue.lean ====
section
/-!
SUPPORT. What an instruction that is ready does: its body, in the state of a running thread, and its end; and what the parts of
issuing leave alone.
-/
namespace Sys2Proof.Machine

/-! What the frames of Safety.lean look past. -/

@[simp] theorem State.beside_wrw (s : State) (a : Nat) (v : Word) : (s.wrw a v).beside = s.beside := rfl
@[simp] theorem State.beside_wr (s : State) (f : FRef) (v : Nat) : (s.wr f v).beside = s.beside := rfl
@[simp] theorem State.beside_setThrN (s : State) (t : Nat) (x : Thread) : (s.setThrN t x).beside = s.beside := rfl
@[simp] theorem State.beside_setThr (s : State) (t : Tid) (x : Thread) : (s.setThr t x).beside = s.beside := rfl
@[simp] theorem State.beside_setG (s : State) (t : Tid) (r : Rn) (v : Word) : (s.setG t r v).beside = s.beside := rfl
@[simp] theorem State.beside_setF (s : State) (t : Tid) (r : Rn) (v : Word) : (s.setF t r v).beside = s.beside := rfl
@[simp] theorem State.beside_setDec (s : State) (t : Tid) (x : Decoupled) : (s.setDec t x).beside = s.beside := rfl
@[simp] theorem State.rdw_setThr (s : State) (t : Tid) (x : Thread) (a : Nat) : (s.setThr t x).rdw a = s.rdw a := rfl
@[simp] theorem State.rdw_setThrN (s : State) (t : Nat) (x : Thread) (a : Nat) : (s.setThrN t x).rdw a = s.rdw a := rfl
@[simp] theorem State.thrN_wrw (s : State) (a : Nat) (v : Word) (k : Nat) : (s.wrw a v).thrN k = s.thrN k := rfl
@[simp] theorem State.thrN_wr (s : State) (f : FRef) (v : Nat) (k : Nat) : (s.wr f v).thrN k = s.thrN k := rfl
@[simp] theorem State.thr_wrw (s : State) (a : Nat) (v : Word) (t : Tid) : (s.wrw a v).thr t = s.thr t := rfl
@[simp] theorem State.thr_wr (s : State) (f : FRef) (v : Nat) (t : Tid) : (s.wr f v).thr t = s.thr t := rfl
@[simp] theorem Thread.beside_setGr (x : Thread) (r : Nat) (v : Word) : (x.setGr r v).beside = x.beside := by
  unfold Thread.setGr; split <;> rfl
@[simp] theorem Thread.beside_setFr (x : Thread) (r : Nat) (v : Word) : (x.setFr r v).beside = x.beside := rfl
@[simp] theorem Thread.beside_setC (x : Thread) (n : Nat) (v : Word) : (x.setC n v).beside = x.beside := rfl
@[simp] theorem Thread.c_setGr (x : Thread) (r : Nat) (v : Word) (n : Nat) : (x.setGr r v).c n = x.c n := by
  unfold Thread.setGr; split <;> rfl
@[simp] theorem Thread.c_setFr (x : Thread) (r : Nat) (v : Word) (n : Nat) : (x.setFr r v).c n = x.c n := rfl
@[simp] theorem Thread.fr_setGr (x : Thread) (r : Nat) (v : Word) (q : Nat) : (x.setGr r v).fr q = x.fr q := by
  unfold Thread.setGr; split <;> rfl
@[simp] theorem Thread.gr_setFr (x : Thread) (r : Nat) (v : Word) (q : Nat) : (x.setFr r v).gr q = x.gr q := rfl
@[simp] theorem Thread.pc_setGr (x : Thread) (r : Nat) (v : Word) : (x.setGr r v).pc = x.pc := by
  unfold Thread.setGr; split <;> rfl
@[simp] theorem Thread.slot_setGr (x : Thread) (r : Nat) (v : Word) : (x.setGr r v).slot = x.slot := by
  unfold Thread.setGr; split <;> rfl
@[simp] theorem Thread.run_setGr (x : Thread) (r : Nat) (v : Word) : (x.setGr r v).run = x.run := by
  unfold Thread.setGr; split <;> rfl
@[simp] theorem Thread.pc_setFr (x : Thread) (r : Nat) (v : Word) : (x.setFr r v).pc = x.pc := rfl
@[simp] theorem Thread.slot_setFr (x : Thread) (r : Nat) (v : Word) : (x.setFr r v).slot = x.slot := rfl
@[simp] theorem Thread.run_setFr (x : Thread) (r : Nat) (v : Word) : (x.setFr r v).run = x.run := rfl

/-! A thread that runs. -/

/-- What running is, the clock state of the cluster apart. -/
theorem State.running_eq (s : State) (t : Tid) : ∃ w : State, s.running t =
    w.setThr t { s.thr t with run := .running } ∧ w.beside = s.beside ∧ w.threads = s.threads
      ∧ ∀ a, a ≠ s.cluClk t → w.rdw a = s.rdw a := by
  refine ⟨s.wrIf (s.flag (F.CLU_CLKk_SLEEP (s.clusterOf t.val / 5) (s.clusterOf t.val % 5)))
    (F.CLU_CLKk_SLEEP (s.clusterOf t.val / 5) (s.clusterOf t.val % 5)) 0, ?_, ?_, ?_, fun a h => ?_⟩
  · have h : ∀ c f v, (s.wrIf c f v).thr t = s.thr t := fun c f v => by unfold State.wrIf; split <;> rfl
    simp only [State.running, State.unsleep, h]
  · unfold State.wrIf; split <;> rfl
  · unfold State.wrIf; split <;> rfl
  · unfold State.wrIf; split
    · exact State.rdw_wr_ne _ _ _ _ h
    · rfl

theorem State.running_thr (s : State) (t : Tid) : (s.running t).thr t = { s.thr t with run := .running } := by
  obtain ⟨w, h, _⟩ := s.running_eq t; rw [h, State.thr_setThr]

@[simp] theorem State.running_g (s : State) (t : Tid) (r : Rn) : (s.running t).g t r = s.g t r := by
  simp only [State.g, State.running_thr, Thread.gr]
@[simp] theorem State.running_f (s : State) (t : Tid) (r : Rn) : (s.running t).f t r = s.f t r := by
  simp only [State.f, State.running_thr, Thread.fr]
@[simp] theorem State.running_thr_pc (s : State) (t : Tid) : ((s.running t).thr t).pc = (s.thr t).pc := by
  rw [State.running_thr]
@[simp] theorem State.running_thr_slot (s : State) (t : Tid) : ((s.running t).thr t).slot = (s.thr t).slot := by
  rw [State.running_thr]
@[simp] theorem State.running_thr_c (s : State) (t : Tid) (n : Nat) : ((s.running t).thr t).c n = (s.thr t).c n := by
  rw [State.running_thr]; rfl
@[simp] theorem State.running_thr_gr (s : State) (t : Tid) (n : Nat) : ((s.running t).thr t).gr n = (s.thr t).gr n := by
  rw [State.running_thr]; rfl
@[simp] theorem State.running_thr_fr (s : State) (t : Tid) (n : Nat) : ((s.running t).thr t).fr n = (s.thr t).fr n := by
  rw [State.running_thr]; rfl
@[simp] theorem State.running_thr_run (s : State) (t : Tid) : ((s.running t).thr t).run = .running := by
  rw [State.running_thr]
@[simp] theorem State.running_thr_beside (s : State) (t : Tid) : ((s.running t).thr t).beside = (s.thr t).beside := by
  rw [State.running_thr]; rfl
@[simp] theorem State.running_beside (s : State) (t : Tid) : (s.running t).beside = s.beside := by
  obtain ⟨w, h, h2, _⟩ := s.running_eq t; rw [h, State.beside_setThr, h2]
@[simp] theorem State.running_mem (s : State) (t : Tid) : (s.running t).mem = s.mem :=
  show (s.running t).beside.mem = s.beside.mem by rw [s.running_beside t]
@[simp] theorem State.running_cores (s : State) (t : Tid) : (s.running t).cores = s.cores :=
  show (s.running t).beside.cores = s.beside.cores by rw [s.running_beside t]

theorem State.running_thrN_ne (s : State) (t : Tid) (k : Nat) (h : k ≠ t.val) : (s.running t).thrN k = s.thrN k := by
  obtain ⟨w, e, _, h3, _⟩ := s.running_eq t
  rw [e, State.thrN_setThr_ne _ _ _ _ h]; simp only [State.thrN, h3]

theorem State.running_rdw (s : State) (t : Tid) (a : Nat) (h : a ≠ s.cluClk t) : (s.running t).rdw a = s.rdw a := by
  obtain ⟨w, e, _, _, h4⟩ := s.running_eq t
  rw [e, State.rdw_setThr, h4 a h]

/-! Counting, and what decides when an instruction completes. -/

theorem State.timed_refl (s : State) (t : Tid) : s.timed s t := ⟨rfl, fun _ _ => rfl, fun _ => rfl, (s.thr t).cr, rfl, fun _ _ => rfl⟩

theorem State.timed_trans {s u v : State} {t : Tid} (h : s.timed u t) (k : u.timed v t) : s.timed v t := by
  obtain ⟨h1, h2, h3, y, h4, h5⟩ := h
  obtain ⟨k1, k2, k3, z, k4, k5⟩ := k
  refine ⟨k1.trans h1, fun n hn => (k2 n hn).trans (h2 n hn), fun a => (k3 a).trans (h3 a), z, by rw [k4, h4], fun n hn => ?_⟩
  rw [k5 n hn, h4]; exact h5 n hn

theorem State.timed_setDec (s : State) (t u : Tid) (x : Decoupled) : s.timed (s.setDec u x) t :=
  ⟨rfl, fun _ _ => rfl, fun _ => rfl, (s.thr t).cr, rfl, fun _ _ => rfl⟩

theorem State.timed_giveHints (s : State) (t : Tid) (l : List (Word × Nat)) : s.timed (s.giveHints t l) t :=
  ⟨rfl, fun _ _ => rfl, fun _ => rfl, (s.thr t).cr, rfl, fun _ _ => rfl⟩

theorem Thread.pmAdd_keeps (x : Thread) (c n : Nat) (y : SMap Word) :
    ({ x.pmAdd c n with cr := y } : Thread) = { x with cr := y } ∧
      ∀ m, m ≠ 0x301 → m ≠ 0x308 + c → (x.pmAdd c n).c m = x.c m := by
  unfold Thread.pmAdd
  refine ⟨by dsimp only; split <;> rfl, fun m h1 h2 => ?_⟩
  dsimp only
  split
  · rw [Thread.c_setC_ne _ _ _ _ h1, Thread.c_setC_ne _ _ _ _ h2]
  · rw [Thread.c_setC_ne _ _ _ _ h2]

/-- Counting writes counters and nothing else of a thread. -/
theorem Thread.pmCount_keeps (x : Thread) (ev pl n : Nat) (y : SMap Word) :
    ({ x.pmCount ev pl n with cr := y } : Thread) = { x with cr := y } ∧
      ∀ m, isPmc m = false → (x.pmCount ev pl n).c m = x.c m := by
  unfold Thread.pmCount
  have key : ∀ (l : List Nat) (x : Thread), (∀ i ∈ l, i < 7) →
      ({ l.foldl (fun (x : Thread) i => if x.pmSel (i + 1) ev pl then x.pmAdd (i + 1) n else x) x with cr := y } : Thread)
        = { x with cr := y } ∧ ∀ m, isPmc m = false →
          (l.foldl (fun (x : Thread) i => if x.pmSel (i + 1) ev pl then x.pmAdd (i + 1) n else x) x).c m = x.c m := by
    intro l
    induction l with
    | nil => intro x _; exact ⟨rfl, fun _ _ => rfl⟩
    | cons i l ih =>
      intro x hl
      have hi : i < 7 := hl i (by simp)
      rw [List.foldl_cons]
      obtain ⟨h1, h2⟩ := ih (if x.pmSel (i + 1) ev pl then x.pmAdd (i + 1) n else x) fun j hj => hl j (by simp [hj])
      obtain ⟨k1, k2⟩ := x.pmAdd_keeps (i + 1) n y
      refine ⟨h1.trans ?_, fun m hm => (h2 m hm).trans ?_⟩
      · split
        · exact k1
        · rfl
      · split
        · simp only [isPmc, Bool.or_eq_false_iff, beq_eq_false_iff_ne, Bool.and_eq_false_imp, decide_eq_true_eq,
            decide_eq_false_iff_not] at hm
          exact k2 m hm.1 (by omega)
        · rfl
  exact key (List.range 7) x fun i hi => List.mem_range.mp hi

/-- A thread stored back with nothing but its counters written. -/
theorem State.timed_setThr (s : State) (t : Tid) (x : Thread) (h : ∀ y, ({ x with cr := y } : Thread) = { s.thr t with cr := y })
    (k : ∀ n, isPmc n = false → x.c n = (s.thr t).c n) : s.timed (s.setThr t x) t := by
  refine ⟨rfl, fun n hn => State.thrN_setThr_ne _ _ _ _ hn, fun _ => rfl, x.cr, ?_, k⟩
  rw [State.thr_setThr]; exact h x.cr

/-- Counting an event changes a thread's counters and nothing else. -/
theorem State.timed_pmEvent (s : State) (t : Tid) (ev : Nat) : s.timed (s.pmEvent t ev) t := by
  unfold State.pmEvent
  dsimp only
  split
  · exact s.timed_setThr t _ (fun y => (Thread.pmCount_keeps _ ev _ 1 y).1) (Thread.pmCount_keeps _ ev _ 1 (s.thr t).cr).2
  · exact s.timed_refl t

theorem State.timed_count (s : State) (t : Tid) (ev n : Nat) : s.timed (s.count t ev n) t := by
  unfold State.count
  dsimp only
  split
  · exact s.timed_refl t
  · refine s.timed_setThr t _ (fun y => ?_) fun m hm => ?_
    · split
      · exact (Thread.pmAdd_keeps _ 0 n y).1.trans (Thread.pmCount_keeps _ ev _ n y).1
      · exact (Thread.pmCount_keeps _ ev _ n y).1
    · have e := (Thread.pmCount_keeps (s.thr t) ev (s.thr t).pl n (s.thr t).cr).2 m hm
      split
      · refine ((Thread.pmAdd_keeps _ 0 n (s.thr t).cr).2 m ?_ ?_).trans e <;> rintro rfl <;> simp [isPmc] at hm
      · exact e

theorem State.timed_counts (s : State) (t : Tid) (l : List (Nat × Nat)) : s.timed (s.counts t l) t := by
  have key : ∀ (l : List (Nat × Nat)) (s : State), s.timed (l.foldl (fun s e => s.count t e.1 e.2) s) t := by
    intro l
    induction l with
    | nil => exact fun s => s.timed_refl t
    | cons e l ih => exact fun s => State.timed_trans (s.timed_count t e.1 e.2) (ih _)
  unfold State.counts
  split
  · exact s.timed_refl t
  · exact key l s

/-- Routing an instruction. -/
theorem State.timed_steered (s : State) (t : Tid) (va : Word) (i : Instr) : s.timed (s.steered t va i) t := by
  unfold State.steered State.carry
  split
  · exact s.timed_refl t
  · exact State.timed_trans (State.timed_trans (State.timed_trans (s.timed_setDec t _ _) (State.timed_setDec _ t _ _))
      (State.timed_giveHints _ t _)) (State.timed_counts _ t _)

theorem State.timed_homed (s : State) (t : Tid) (va : Word) (i : Instr) : s.timed (s.homed t va i) t := s.timed_setDec t t _

/-! Issue. -/

theorem State.scrub_nil (s : State) (d : Nat) (h : s.latent = []) : s.scrub d = s := by
  simp [State.scrub, h]

theorem State.tlbScrub_nil (s : State) (t : Tid) (h : (s.core (coreKey t)).tlbBad = []) : s.tlbScrub t = s := by
  simp [State.tlbScrub, h]

/-- What readiness says. -/
theorem State.ready_iff (s : State) (t : Tid) (i : Instr) : s.ready t i = true ↔
    s.canIssue t = true ∧ s.latent = [] ∧ (s.core (coreKey t)).tlbBad = [] ∧ s.sec.stepping.contains t.val = false
      ∧ (s.running t).fetchTrap t = none ∧ (s.running t).fetchReady t = true ∧ (s.running t).creditless t i = false
      ∧ (s.running t).decodeCode t i = 0 := by
  simp only [State.ready, Bool.and_eq_true, beq_iff_eq, Bool.not_eq_true', Option.isNone_iff_eq_none]
  tauto

/-- A thread whose line is at hand fetches at once. -/
theorem State.fetched_ready (s : State) (t : Tid) (h : s.fetchReady t = true) : s.fetched t = some s := by
  unfold State.fetchReady at h
  unfold State.fetched
  split <;> simp_all

/-- A ready instruction does what its body says, in the state in which it acts, and ends as the body's answer says. -/
theorem State.issue_ready (s : State) (t : Tid) (i : Instr) (body : State → Out) (h : s.ready t i = true) :
    s.issue t i body = (body (s.acting t i)).finish t (s.thr t).pc i := by
  obtain ⟨h1, h2, h3, h4, h5, h6, h7, h8⟩ := (s.ready_iff t i).mp h
  have hr : (s.running t).core (coreKey t) = s.core (coreKey t) := by simp [State.core]
  unfold State.issue State.run1
  rw [if_pos h1, State.scrub_nil s _ h2, if_pos h1, State.tlbScrub_nil _ t (by rw [hr]; exact h3)]
  simp only [h4, Bool.false_eq_true, if_false]
  simp [h5, State.fetched_ready _ t h6, h7, h8, State.acting]

/-- A thread that does not issue does nothing. -/
theorem State.issue_not (s : State) (t : Tid) (i : Instr) (body : State → Out) (h : s.canIssue t = false) :
    s.issue t i body = s := by simp [State.issue, h]

/-- What an instruction finds when it acts: its thread runs, and nothing else has changed but counters, what decides when
instructions complete, and the clock state of its cluster. -/
theorem State.acting_eq (s : State) (t : Tid) (i : Instr) : (s.acting t i).beside = s.beside
    ∧ (∀ k, k ≠ t.val → (s.acting t i).thrN k = s.thrN k) ∧ (∀ a, a ≠ s.cluClk t → (s.acting t i).rdw a = s.rdw a)
    ∧ ∃ y : SMap Word, (s.acting t i).thr t = { s.thr t with run := .running, cr := y }
      ∧ ∀ n, isPmc n = false → SMap.get (crReset n) y n = (s.thr t).c n := by
  obtain ⟨h1, h2, h3, y, h4, h5⟩ := (s.running t).timed_steered t (s.thr t).pc i
  refine ⟨h1.trans (s.running_beside t), fun k hk => (h2 k hk).trans (s.running_thrN_ne t k hk),
    fun a ha => (h3 a).trans (s.running_rdw t a ha), y, h4.trans (by rw [State.running_thr]), fun n hn => ?_⟩
  rw [h5 n hn, State.running_thr_c]

@[simp] theorem State.acting_g (s : State) (t : Tid) (i : Instr) (r : Rn) : (s.acting t i).g t r = s.g t r := by
  obtain ⟨_, _, _, y, h, _⟩ := s.acting_eq t i; simp only [State.g, h, Thread.gr]
@[simp] theorem State.acting_f (s : State) (t : Tid) (i : Instr) (r : Rn) : (s.acting t i).f t r = s.f t r := by
  obtain ⟨_, _, _, y, h, _⟩ := s.acting_eq t i; simp only [State.f, h, Thread.fr]
@[simp] theorem State.acting_thr_pc (s : State) (t : Tid) (i : Instr) : ((s.acting t i).thr t).pc = (s.thr t).pc := by
  obtain ⟨_, _, _, y, h, _⟩ := s.acting_eq t i; rw [h]
@[simp] theorem State.acting_thr_slot (s : State) (t : Tid) (i : Instr) : ((s.acting t i).thr t).slot = (s.thr t).slot := by
  obtain ⟨_, _, _, y, h, _⟩ := s.acting_eq t i; rw [h]
@[simp] theorem State.acting_thr_gr (s : State) (t : Tid) (i : Instr) (n : Nat) : ((s.acting t i).thr t).gr n = (s.thr t).gr n := by
  obtain ⟨_, _, _, y, h, _⟩ := s.acting_eq t i; rw [h]; rfl
@[simp] theorem State.acting_thr_fr (s : State) (t : Tid) (i : Instr) (n : Nat) : ((s.acting t i).thr t).fr n = (s.thr t).fr n := by
  obtain ⟨_, _, _, y, h, _⟩ := s.acting_eq t i; rw [h]; rfl
@[simp] theorem State.acting_thr_run (s : State) (t : Tid) (i : Instr) : ((s.acting t i).thr t).run = .running := by
  obtain ⟨_, _, _, y, h, _⟩ := s.acting_eq t i; rw [h]
@[simp] theorem State.acting_thr_beside (s : State) (t : Tid) (i : Instr) :
    ((s.acting t i).thr t).beside = (s.thr t).beside := by
  obtain ⟨_, _, _, y, h, _⟩ := s.acting_eq t i; rw [h]; rfl
theorem State.acting_thr_c (s : State) (t : Tid) (i : Instr) (n : Nat) (hn : isPmc n = false) :
    ((s.acting t i).thr t).c n = (s.thr t).c n := by
  obtain ⟨_, _, _, y, h, k⟩ := s.acting_eq t i; rw [h]; exact k n hn
@[simp] theorem State.acting_mem (s : State) (t : Tid) (i : Instr) : (s.acting t i).mem = s.mem :=
  show (s.acting t i).beside.mem = s.beside.mem by rw [(s.acting_eq t i).1]
@[simp] theorem State.acting_cores (s : State) (t : Tid) (i : Instr) : (s.acting t i).cores = s.cores :=
  show (s.acting t i).beside.cores = s.beside.cores by rw [(s.acting_eq t i).1]

/-- Retirement changes nothing but its thread's pc, delay slot, REP count and counters. -/
theorem State.retire_eq (s : State) (t : Tid) : ∃ y : SMap Word, (∀ k, k ≠ t.val → (s.retire t).thrN k = s.thrN k)
    ∧ (s.retire t).thr t = { s.thr t with pc := s.nextPc t, slot := none, repLeft := none, cr := y }
    ∧ (s.retire t).beside = s.beside ∧ (∀ a, (s.retire t).rdw a = s.rdw a)
    ∧ ∀ m, isPmc m = false → SMap.get (crReset m) y m = (s.thr t).c m := by
  obtain ⟨h3, h1, h4, y, h2, h5⟩ := s.timed_pmEvent t 2
  refine ⟨y, fun k h => ?_, ?_, ?_, fun a => ?_, h5⟩
  · simp only [State.retire]; rw [State.thrN_setThr_ne _ _ _ _ h, h1 k h]
  · simp only [State.retire, State.thr_setThr, h2, State.nextPc]
  · simp only [State.retire, State.beside_setThr, h3]
  · simp only [State.retire, State.rdw_setThr, h4]

/-- The end of an instruction changes nothing but its thread's pc, delay slot, REP count and counters, and what decides when
instructions complete. -/
theorem State.ends_eq (s : State) (t : Tid) (va : Word) (i : Instr) : ∃ y : SMap Word,
    (∀ k, k ≠ t.val → (s.ends t va i).thrN k = s.thrN k)
    ∧ (s.ends t va i).thr t = { s.thr t with pc := s.nextPc t, slot := none, repLeft := none, cr := y }
    ∧ (s.ends t va i).beside = s.beside ∧ (∀ a, (s.ends t va i).rdw a = s.rdw a)
    ∧ ∀ m, isPmc m = false → SMap.get (crReset m) y m = (s.thr t).c m := by
  obtain ⟨y, h1, h2, h3, h4, h5⟩ := (s.homed t va i).retire_eq t
  exact ⟨y, h1, h2, h3, h4, h5⟩

/-- An instruction that is ready and whose body only changes what its thread's registers hold, from x to y in the general and
floating-point ones, has done just that. -/
theorem State.issue_wrote (s : State) (t : Tid) (i : Instr) (body : State → Out) (p : Thread → Thread) (h : s.ready t i = true)
    (hb : body (s.acting t i) = .done ((s.acting t i).setThr t (p ((s.acting t i).thr t))))
    (hp : ∀ x, (p x).beside = x.beside ∧ (p x).pc = x.pc ∧ (p x).slot = x.slot ∧ (p x).run = x.run ∧ ∀ n, (p x).c n = x.c n) :
    s.retired (s.issue t i body) t ∧ s.onlyThread (s.issue t i body) t ∧ s.keepsThread (s.issue t i body) t
      ∧ (∀ r, ((s.issue t i body).thr t).gr r = (p ((s.acting t i).thr t)).gr r)
      ∧ ∀ r, ((s.issue t i body).thr t).fr r = (p ((s.acting t i).thr t)).fr r := by
  rw [State.issue_ready s t i body h, hb]
  simp only [Out.finish]
  obtain ⟨a1, a2, a3, z, a4, a5⟩ := s.acting_eq t i
  obtain ⟨y, h1, h2, h3, h4, h5⟩ := ((s.acting t i).setThr t (p ((s.acting t i).thr t))).ends_eq t (s.thr t).pc i
  obtain ⟨p1, p2, p3, p4, p5⟩ := hp ((s.acting t i).thr t)
  have ht : ((s.acting t i).setThr t (p ((s.acting t i).thr t))).thr t = p ((s.acting t i).thr t) := State.thr_setThr _ _ _
  rw [ht] at h2 h5
  have hn : ((s.acting t i).setThr t (p ((s.acting t i).thr t))).nextPc t = s.nextPc t := by
    simp only [State.nextPc, ht, p2, p3, State.acting_thr_pc, State.acting_thr_slot]
  refine ⟨⟨?_, ?_, ?_⟩, ⟨?_, fun k hk => ?_, fun a ha => ?_⟩, ⟨?_, fun n hn => ?_⟩, fun r => ?_, fun r => ?_⟩
  · rw [h2]; simp [p4]
  · rw [h2, hn]
  · rw [h2]
  · rw [h3, State.beside_setThr, a1]
  · rw [h1 k hk, State.thrN_setThr_ne _ _ _ _ hk, a2 k hk]
  · rw [h4 a, State.rdw_setThr, a3 a ha]
  · rw [h2]; exact p1.trans (s.acting_thr_beside t i)
  · rw [h2]; exact (h5 n hn).trans ((p5 n).trans (s.acting_thr_c t i n hn))
  · rw [h2]; rfl
  · rw [h2]; rfl

/-- An instruction that is ready and whose body only writes a general register has done just that. -/
theorem State.issue_wroteG (s : State) (t : Tid) (i : Instr) (body : State → Out) (d : Rn) (v : Word)
    (h : s.ready t i = true) (hb : body (s.acting t i) = .done ((s.acting t i).setG t d v)) :
    s.wroteG (s.issue t i body) t d v := by
  obtain ⟨h1, h2, h3, h4, h5⟩ := s.issue_wrote t i body (fun x => x.setGr d.val v) h hb (by simp)
  refine ⟨h1, h2, h3, fun r => by rw [h5]; simp, fun r => ?_⟩
  rw [h4]
  by_cases hd : d.val = 0
  · rw [hd]; simp [Thread.setGr]
  · rw [Thread.gr_setGr _ _ _ _ hd, State.acting_thr_gr]
    by_cases hr : r = d.val
    · subst hr; simp [hd]
    · simp [hr]

/-- An instruction that is ready and whose body only writes a floating-point register has done just that. -/
theorem State.issue_wroteF (s : State) (t : Tid) (i : Instr) (body : State → Out) (d : Rn) (v : Word)
    (h : s.ready t i = true) (hb : body (s.acting t i) = .done ((s.acting t i).setF t d v)) :
    s.wroteF (s.issue t i body) t d v := by
  obtain ⟨h1, h2, h3, h4, h5⟩ := s.issue_wrote t i body (fun x => x.setFr d.val v) h hb (by simp)
  refine ⟨h1, h2, h3, fun r => by rw [h4]; simp, fun r => ?_⟩
  rw [h5]
  by_cases hr : r = d.val
  · subst hr; simp
  · rw [Thread.fr_setFr_ne _ _ _ _ hr, if_neg hr]; simp

end Sys2Proof.Machine
end

