-- ==== Sys2Proof/Laws/Memory.lean ====
section
/-!
SUPPORT. What the memory operations do: one line read at home, and (below) that every write of memory keeps its canonical form.
-/
namespace Sys2Proof.Machine

/-- Bytes of one line read at home. -/
theorem homeReads_one (s : State) (g f pa n ks : Nat) (h0 : n ≠ 0) (h : n ≤ 64 - pa % 64) :
    (s.homeReads g (f + 1) pa n ks).1 = (s.homeRead g pa n ks).1 := by
  have hz : ∀ (u : State) (f a : Nat), (u.homeReads g f a 0 ks).1 = [] := by intro u f a; cases f <;> rfl
  have hm : Nat.min n (64 - pa % 64) = n := Nat.min_eq_left h
  simp only [State.homeReads, if_neg h0, hm, Nat.sub_self, hz, List.append_nil]

/-- The value of a line at home where no write waits there. -/
theorem homeVal_idle (s : State) (line ks : Nat) (h : (s.line line).queue = []) : s.homeVal line ks = s.coherent line ks := by
  simp only [State.homeVal, h, List.foldl_nil]

/-- Bytes read at home, by an agent whose ADVANCE is not due, from a line that caches hold under the same key. -/
theorem homeRead_data (s : State) (g pa n ks : Nat) (d : LineData) (h0 : s.promote (viewAgent g) = s) (h1 : s.lsOf pa = none)
    (h2 : s.cacheable pa = true) (h3 : s.homedHere pa = true) (hq : (s.line (pa / 64)).queue = [])
    (h4 : (s.line (pa / 64)).data = some d) (h5 : s.keyOf (s.line (pa / 64)).kslot = s.keyOf ks) :
    (s.homeRead g pa n ks).1 = lineGet d (pa % 64) n := by
  have hv : (s.coherent (pa / 64) ks).data = d := by simp only [State.coherent, h4, h5, if_true]
  unfold State.homeRead
  dsimp only
  rw [h0, h1, h2, h3, homeVal_idle s _ ks hq]
  simp only [Bool.and_self, if_true, hv]

/-! Every write of memory keeps its canonical form. -/

theorem foldl_keeps {α β : Type} (P : β → Prop) (f : β → α → β) (hf : ∀ b a, P b → P (f b a)) (l : List α) (b : β) (h : P b) :
    P (l.foldl f b) := by
  induction l generalizing b with
  | nil => exact h
  | cons a l ih => exact ih _ (hf b a h)

/-- Storing bytes in a device. -/
theorem Mem.devPut_wf (m : Mem) (a : Nat) (bs : List Byte) (h : SMap.memWf devFill m.dev = true) :
    SMap.memWf devFill (m.devPut a bs).dev = true ∧ (m.devPut a bs).ls = m.ls := by
  induction bs generalizing m a with
  | nil => exact ⟨h, rfl⟩
  | cons b bs ih => exact ih _ (a + 1) (SMap.memWf_setByte devFill m.dev a b h)

/-- The masked bytes of a line written to a device. -/
theorem Mem.devWrite_wf (m : Mem) (a : Nat) (mask : BitVec 64) (d : LineData) (h : SMap.memWf devFill m.dev = true) :
    SMap.memWf devFill (m.devWrite a mask d).dev = true ∧ (m.devWrite a mask d).ls = m.ls := by
  refine foldl_keeps (fun x : Mem => SMap.memWf devFill x.dev = true ∧ x.ls = m.ls) _ ?_ _ m ⟨h, rfl⟩
  intro x i hx
  split_ifs
  · exact ⟨(Mem.devPut_wf x _ _ hx.1).1, (Mem.devPut_wf x _ _ hx.1).2.trans hx.2⟩
  · exact hx

@[simp] theorem Mem.setDevPois_dev (m : Mem) (a : Nat) (p : Bool) : (m.setDevPois a p).dev = m.dev := rfl
@[simp] theorem Mem.setDevPois_ls (m : Mem) (a : Nat) (p : Bool) : (m.setDevPois a p).ls = m.ls := rfl

/-- The completion of a write at a device. -/
theorem Mem.devComplete_wf (m : Mem) (a : Nat) (e : WqEnt) (h : SMap.memWf devFill m.dev = true) :
    SMap.memWf devFill (m.devComplete a e).dev = true ∧ (m.devComplete a e).ls = m.ls := by
  have hw := Mem.devWrite_wf m a e.mask e.data h
  simp only [Mem.devComplete]
  split_ifs <;> simpa using hw

/-- The completion of a write in a state. -/
theorem State.memOk_devComplete (s : State) (a : Nat) (e : WqEnt) (h : s.memOk) : ({ s with mem := s.mem.devComplete a e } : State).memOk := by
  have hw := Mem.devComplete_wf s.mem a e h.1
  exact ⟨hw.1, by simpa only [hw.2] using h.2⟩

/-- A write of a local store. -/
theorem State.memOk_lsWrite (s : State) (d ofs : Nat) (bs : List Byte) (f : Option Nat) (h : s.memOk) : (s.lsWrite d ofs bs f).memOk := by
  simp only [State.lsWrite]
  split_ifs
  · refine foldl_keeps (fun x : Mem => SMap.memWf 0 x.dev = true ∧ SMap.sorted x.ls = true) _ ?_ _ s.mem h
    intro x i hx
    exact ⟨hx.1, SMap.sortedFrom_put x.ls 0 _ _ (Nat.zero_le _) hx.2⟩
  · exact h

/-- The loss of volatile memory. -/
theorem State.memOk_loseVolatile (s : State) (h : s.memOk) : s.loseVolatile.memOk :=
  ⟨SMap.memWf_keep 0 (fun a _ => s.inPersistent a) s.mem.dev h.1, rfl⟩

/-- A die's local store after its reset. -/
theorem State.memOk_keepLs (s : State) (p : Nat → Byte → Bool) (lp : List Nat) (h : s.memOk) :
    ({ s with mem := { s.mem with ls := SMap.keep p s.mem.ls, lsPoison := lp } } : State).memOk :=
  ⟨h.1, SMap.sortedFrom_keep p s.mem.ls 0 h.2⟩

/-- A change of anything but memory. -/
theorem State.memOk_congr (s u : State) (h : s.memOk) (hd : u.mem.dev = s.mem.dev) (hl : u.mem.ls = s.mem.ls) : u.memOk := by
  unfold State.memOk at *; rw [hd, hl]; exact h

end Sys2Proof.Machine
end

