-- ==== Sys2Proof/Laws/PerInstr.lean ====
section
/-!
SUPPORT. A statement about every command as syntax, one lemma per constructor: a well-formed command names only lines of the
52-bit physical space (R9).
-/
namespace Sys2Proof.Laws

/-- Every line that a well-formed command names lies in the physical space. -/
def Wf.Statement (i : Instr) : Prop := i.wf = true → ∀ l ∈ i.lines, l < 2 ^ 46

theorem wf_lines (i : Instr) : Wf.Statement i := by
  intro h l hl
  simp only [Instr.wf, Bool.and_eq_true, List.all_eq_true, decide_eq_true_eq] at h
  exact h.1.1.1 l hl

theorem Wf.addi (t : Tid) (d a : Rn) (imm : BitVec 16) : Wf.Statement (.addi t d a imm) := wf_lines _
theorem Wf.andi (t : Tid) (d a : Rn) (imm : BitVec 16) : Wf.Statement (.andi t d a imm) := wf_lines _
theorem Wf.ori (t : Tid) (d a : Rn) (imm : BitVec 16) : Wf.Statement (.ori t d a imm) := wf_lines _
theorem Wf.xori (t : Tid) (d a : Rn) (imm : BitVec 16) : Wf.Statement (.xori t d a imm) := wf_lines _
theorem Wf.slti (t : Tid) (d a : Rn) (imm : BitVec 16) : Wf.Statement (.slti t d a imm) := wf_lines _
theorem Wf.sltui (t : Tid) (d a : Rn) (imm : BitVec 16) : Wf.Statement (.sltui t d a imm) := wf_lines _
theorem Wf.lui (t : Tid) (d : Rn) (imm : BitVec 16) : Wf.Statement (.lui t d imm) := wf_lines _
theorem Wf.shori (t : Tid) (d : Rn) (imm : BitVec 16) : Wf.Statement (.shori t d imm) := wf_lines _
theorem Wf.addpc (t : Tid) (d : Rn) (imm : BitVec 16) : Wf.Statement (.addpc t d imm) := wf_lines _
theorem Wf.slli (t : Tid) (d a : Rn) (sh : BitVec 6) : Wf.Statement (.slli t d a sh) := wf_lines _
theorem Wf.srli (t : Tid) (d a : Rn) (sh : BitVec 6) : Wf.Statement (.srli t d a sh) := wf_lines _
theorem Wf.srai (t : Tid) (d a : Rn) (sh : BitVec 6) : Wf.Statement (.srai t d a sh) := wf_lines _
theorem Wf.rori (t : Tid) (d a : Rn) (sh : BitVec 6) : Wf.Statement (.rori t d a sh) := wf_lines _
theorem Wf.add (t : Tid) (d a b : Rn) : Wf.Statement (.add t d a b) := wf_lines _
theorem Wf.sub (t : Tid) (d a b : Rn) : Wf.Statement (.sub t d a b) := wf_lines _
theorem Wf.and (t : Tid) (d a b : Rn) : Wf.Statement (.and t d a b) := wf_lines _
theorem Wf.or (t : Tid) (d a b : Rn) : Wf.Statement (.or t d a b) := wf_lines _
theorem Wf.xor (t : Tid) (d a b : Rn) : Wf.Statement (.xor t d a b) := wf_lines _
theorem Wf.andn (t : Tid) (d a b : Rn) : Wf.Statement (.andn t d a b) := wf_lines _
theorem Wf.orn (t : Tid) (d a b : Rn) : Wf.Statement (.orn t d a b) := wf_lines _
theorem Wf.slt (t : Tid) (d a b : Rn) : Wf.Statement (.slt t d a b) := wf_lines _
theorem Wf.sltu (t : Tid) (d a b : Rn) : Wf.Statement (.sltu t d a b) := wf_lines _
theorem Wf.min (t : Tid) (d a b : Rn) : Wf.Statement (.min t d a b) := wf_lines _
theorem Wf.max (t : Tid) (d a b : Rn) : Wf.Statement (.max t d a b) := wf_lines _
theorem Wf.minu (t : Tid) (d a b : Rn) : Wf.Statement (.minu t d a b) := wf_lines _
theorem Wf.maxu (t : Tid) (d a b : Rn) : Wf.Statement (.maxu t d a b) := wf_lines _
theorem Wf.sll (t : Tid) (d a b : Rn) : Wf.Statement (.sll t d a b) := wf_lines _
theorem Wf.srl (t : Tid) (d a b : Rn) : Wf.Statement (.srl t d a b) := wf_lines _
theorem Wf.sra (t : Tid) (d a b : Rn) : Wf.Statement (.sra t d a b) := wf_lines _
theorem Wf.ror (t : Tid) (d a b : Rn) : Wf.Statement (.ror t d a b) := wf_lines _
theorem Wf.mul (t : Tid) (d a b : Rn) : Wf.Statement (.mul t d a b) := wf_lines _
theorem Wf.mulh (t : Tid) (d a b : Rn) : Wf.Statement (.mulh t d a b) := wf_lines _
theorem Wf.mulhu (t : Tid) (d a b : Rn) : Wf.Statement (.mulhu t d a b) := wf_lines _
theorem Wf.div (t : Tid) (d a b : Rn) : Wf.Statement (.div t d a b) := wf_lines _
theorem Wf.divu (t : Tid) (d a b : Rn) : Wf.Statement (.divu t d a b) := wf_lines _
theorem Wf.rem (t : Tid) (d a b : Rn) : Wf.Statement (.rem t d a b) := wf_lines _
theorem Wf.remu (t : Tid) (d a b : Rn) : Wf.Statement (.remu t d a b) := wf_lines _
theorem Wf.clz (t : Tid) (d a : Rn) : Wf.Statement (.clz t d a) := wf_lines _
theorem Wf.ctz (t : Tid) (d a : Rn) : Wf.Statement (.ctz t d a) := wf_lines _
theorem Wf.popc (t : Tid) (d a : Rn) : Wf.Statement (.popc t d a) := wf_lines _
theorem Wf.bswap (t : Tid) (d a : Rn) : Wf.Statement (.bswap t d a) := wf_lines _
theorem Wf.sextb (t : Tid) (d a : Rn) : Wf.Statement (.sextb t d a) := wf_lines _
theorem Wf.sexth (t : Tid) (d a : Rn) : Wf.Statement (.sexth t d a) := wf_lines _
theorem Wf.sextw (t : Tid) (d a : Rn) : Wf.Statement (.sextw t d a) := wf_lines _
theorem Wf.zextw (t : Tid) (d a : Rn) : Wf.Statement (.zextw t d a) := wf_lines _
theorem Wf.fadd (t : Tid) (w : Bool) (d a b : Rn) : Wf.Statement (.fadd t w d a b) := wf_lines _
theorem Wf.fsub (t : Tid) (w : Bool) (d a b : Rn) : Wf.Statement (.fsub t w d a b) := wf_lines _
theorem Wf.fmul (t : Tid) (w : Bool) (d a b : Rn) : Wf.Statement (.fmul t w d a b) := wf_lines _
theorem Wf.fdiv (t : Tid) (w : Bool) (d a b : Rn) : Wf.Statement (.fdiv t w d a b) := wf_lines _
theorem Wf.fsqrt (t : Tid) (w : Bool) (d a : Rn) : Wf.Statement (.fsqrt t w d a) := wf_lines _
theorem Wf.fmin (t : Tid) (w : Bool) (d a b : Rn) : Wf.Statement (.fmin t w d a b) := wf_lines _
theorem Wf.fmax (t : Tid) (w : Bool) (d a b : Rn) : Wf.Statement (.fmax t w d a b) := wf_lines _
theorem Wf.fneg (t : Tid) (w : Bool) (d a : Rn) : Wf.Statement (.fneg t w d a) := wf_lines _
theorem Wf.fabs (t : Tid) (w : Bool) (d a : Rn) : Wf.Statement (.fabs t w d a) := wf_lines _
theorem Wf.fmov (t : Tid) (w : Bool) (d a : Rn) : Wf.Statement (.fmov t w d a) := wf_lines _
theorem Wf.feq (t : Tid) (w : Bool) (d a b : Rn) : Wf.Statement (.feq t w d a b) := wf_lines _
theorem Wf.flt (t : Tid) (w : Bool) (d a b : Rn) : Wf.Statement (.flt t w d a b) := wf_lines _
theorem Wf.fle (t : Tid) (w : Bool) (d a b : Rn) : Wf.Statement (.fle t w d a b) := wf_lines _
theorem Wf.fclass (t : Tid) (w : Bool) (d a : Rn) : Wf.Statement (.fclass t w d a) := wf_lines _
theorem Wf.fcvti (t : Tid) (w : Bool) (d a : Rn) : Wf.Statement (.fcvti t w d a) := wf_lines _
theorem Wf.fcvtiu (t : Tid) (w : Bool) (d a : Rn) : Wf.Statement (.fcvtiu t w d a) := wf_lines _
theorem Wf.fcvtf (t : Tid) (w : Bool) (d a : Rn) : Wf.Statement (.fcvtf t w d a) := wf_lines _
theorem Wf.fcvtfu (t : Tid) (w : Bool) (d a : Rn) : Wf.Statement (.fcvtfu t w d a) := wf_lines _
theorem Wf.fcvtx (t : Tid) (w : Bool) (d a : Rn) : Wf.Statement (.fcvtx t w d a) := wf_lines _
theorem Wf.fmvg (t : Tid) (w : Bool) (d a : Rn) : Wf.Statement (.fmvg t w d a) := wf_lines _
theorem Wf.fmvf (t : Tid) (w : Bool) (d a : Rn) : Wf.Statement (.fmvf t w d a) := wf_lines _
theorem Wf.fmadd (t : Tid) (w : Bool) (d a b c : Rn) : Wf.Statement (.fmadd t w d a b c) := wf_lines _
theorem Wf.fmsub (t : Tid) (w : Bool) (d a b c : Rn) : Wf.Statement (.fmsub t w d a b c) := wf_lines _
theorem Wf.fnmsub (t : Tid) (w : Bool) (d a b c : Rn) : Wf.Statement (.fnmsub t w d a b c) := wf_lines _
theorem Wf.fnmadd (t : Tid) (w : Bool) (d a b c : Rn) : Wf.Statement (.fnmadd t w d a b c) := wf_lines _
theorem Wf.beq (t : Tid) (a b : Rn) (an : Bool) (disp : BitVec 15) : Wf.Statement (.beq t a b an disp) := wf_lines _
theorem Wf.bne (t : Tid) (a b : Rn) (an : Bool) (disp : BitVec 15) : Wf.Statement (.bne t a b an disp) := wf_lines _
theorem Wf.blt (t : Tid) (a b : Rn) (an : Bool) (disp : BitVec 15) : Wf.Statement (.blt t a b an disp) := wf_lines _
theorem Wf.bge (t : Tid) (a b : Rn) (an : Bool) (disp : BitVec 15) : Wf.Statement (.bge t a b an disp) := wf_lines _
theorem Wf.bltu (t : Tid) (a b : Rn) (an : Bool) (disp : BitVec 15) : Wf.Statement (.bltu t a b an disp) := wf_lines _
theorem Wf.bgeu (t : Tid) (a b : Rn) (an : Bool) (disp : BitVec 15) : Wf.Statement (.bgeu t a b an disp) := wf_lines _
theorem Wf.j (t : Tid) (disp : BitVec 26) : Wf.Statement (.j t disp) := wf_lines _
theorem Wf.call (t : Tid) (disp : BitVec 26) : Wf.Statement (.call t disp) := wf_lines _
theorem Wf.jr (t : Tid) (a : Rn) : Wf.Statement (.jr t a) := wf_lines _
theorem Wf.callr (t : Tid) (a : Rn) : Wf.Statement (.callr t a) := wf_lines _
theorem Wf.ret (t : Tid) : Wf.Statement (.ret t) := wf_lines _
theorem Wf.load (t : Tid) (d a : Rn) (szk : Fin 16) (ord : Bool) (disp : BitVec 11) : Wf.Statement (.load t d a szk ord disp) := wf_lines _
theorem Wf.store (t : Tid) (d a : Rn) (szk : Fin 16) (ord : Bool) (disp : BitVec 11) : Wf.Statement (.store t d a szk ord disp) := wf_lines _
theorem Wf.loadx (t : Tid) (d a : Rn) (szk : Fin 16) (ord : Bool) (am : Fin 8) (amf : BitVec 8) : Wf.Statement (.loadx t d a szk ord am amf) := wf_lines _
theorem Wf.storex (t : Tid) (d a : Rn) (szk : Fin 16) (ord : Bool) (am : Fin 8) (amf : BitVec 8) : Wf.Statement (.storex t d a szk ord am amf) := wf_lines _
theorem Wf.ldi (t : Tid) (d a : Rn) (szk : Fin 16) (ord : Bool) (disp : BitVec 11) : Wf.Statement (.ldi t d a szk ord disp) := wf_lines _
theorem Wf.iold (t : Tid) (d a : Rn) (szk : Fin 16) (disp : BitVec 11) : Wf.Statement (.iold t d a szk disp) := wf_lines _
theorem Wf.iost (t : Tid) (d a : Rn) (szk : Fin 16) (disp : BitVec 11) : Wf.Statement (.iost t d a szk disp) := wf_lines _
theorem Wf.swap (t : Tid) (q : Bool) (d a b : Rn) : Wf.Statement (.swap t q d a b) := wf_lines _
theorem Wf.cas (t : Tid) (q : Bool) (d a b : Rn) : Wf.Statement (.cas t q d a b) := wf_lines _
theorem Wf.fetchAdd (t : Tid) (q : Bool) (d a b : Rn) : Wf.Statement (.fetchAdd t q d a b) := wf_lines _
theorem Wf.fetchAnd (t : Tid) (q : Bool) (d a b : Rn) : Wf.Statement (.fetchAnd t q d a b) := wf_lines _
theorem Wf.fetchOr (t : Tid) (q : Bool) (d a b : Rn) : Wf.Statement (.fetchOr t q d a b) := wf_lines _
theorem Wf.fetchMax (t : Tid) (q : Bool) (d a b : Rn) : Wf.Statement (.fetchMax t q d a b) := wf_lines _
theorem Wf.fetchMaxu (t : Tid) (q : Bool) (d a b : Rn) : Wf.Statement (.fetchMaxu t q d a b) := wf_lines _
theorem Wf.fenceLl (t : Tid) : Wf.Statement (.fenceLl t) := wf_lines _
theorem Wf.fenceLs (t : Tid) : Wf.Statement (.fenceLs t) := wf_lines _
theorem Wf.fenceSl (t : Tid) : Wf.Statement (.fenceSl t) := wf_lines _
theorem Wf.fenceSs (t : Tid) : Wf.Statement (.fenceSs t) := wf_lines _
theorem Wf.fenceAll (t : Tid) : Wf.Statement (.fenceAll t) := wf_lines _
theorem Wf.isync (t : Tid) : Wf.Statement (.isync t) := wf_lines _
theorem Wf.mfc (t : Tid) (d : Rn) (num : BitVec 12) : Wf.Statement (.mfc t d num) := wf_lines _
theorem Wf.mtc (t : Tid) (a : Rn) (num : BitVec 12) : Wf.Statement (.mtc t a num) := wf_lines _
theorem Wf.eret (t : Tid) : Wf.Statement (.eret t) := wf_lines _
theorem Wf.wait (t : Tid) : Wf.Statement (.wait t) := wf_lines _
theorem Wf.brk (t : Tid) (code : BitVec 12) : Wf.Statement (.brk t code) := wf_lines _
theorem Wf.sysc (t : Tid) (code : BitVec 12) : Wf.Statement (.sysc t code) := wf_lines _
theorem Wf.hvc (t : Tid) (code : BitVec 12) : Wf.Statement (.hvc t code) := wf_lines _
theorem Wf.monc (t : Tid) (code : BitVec 12) : Wf.Statement (.monc t code) := wf_lines _
theorem Wf.rdpmc (t : Tid) (d a : Rn) : Wf.Statement (.rdpmc t d a) := wf_lines _
theorem Wf.keyset (t : Tid) (a : Rn) : Wf.Statement (.keyset t a) := wf_lines _
theorem Wf.keyget (t : Tid) (d : Rn) : Wf.Statement (.keyget t d) := wf_lines _
theorem Wf.tlbwRnd (t : Tid) : Wf.Statement (.tlbwRnd t) := wf_lines _
theorem Wf.tlbwSlot (t : Tid) (a : Rn) : Wf.Statement (.tlbwSlot t a) := wf_lines _
theorem Wf.tlbrd (t : Tid) (a : Rn) : Wf.Statement (.tlbrd t a) := wf_lines _
theorem Wf.tlbfind (t : Tid) (d : Rn) : Wf.Statement (.tlbfind t d) := wf_lines _
theorem Wf.tlbiVa (t : Tid) (a b : Rn) : Wf.Statement (.tlbiVa t a b) := wf_lines _
theorem Wf.tlbiAsid (t : Tid) (b : Rn) : Wf.Statement (.tlbiAsid t b) := wf_lines _
theorem Wf.tlbiVmid (t : Tid) (b : Rn) : Wf.Statement (.tlbiVmid t b) := wf_lines _
theorem Wf.tlbiAll (t : Tid) : Wf.Statement (.tlbiAll t) := wf_lines _
theorem Wf.gpmw (t : Tid) (a : Rn) : Wf.Statement (.gpmw t a) := wf_lines _
theorem Wf.gpmr (t : Tid) (a : Rn) : Wf.Statement (.gpmr t a) := wf_lines _
theorem Wf.gpmi (t : Tid) : Wf.Statement (.gpmi t) := wf_lines _
theorem Wf.ownersync (t : Tid) : Wf.Statement (.ownersync t) := wf_lines _
theorem Wf.cutreq (t : Tid) (d a : Rn) : Wf.Statement (.cutreq t d a) := wf_lines _
theorem Wf.cutwait (t : Tid) (d a : Rn) : Wf.Statement (.cutwait t d a) := wf_lines _
theorem Wf.cutstat (t : Tid) (d a : Rn) : Wf.Statement (.cutstat t d a) := wf_lines _
theorem Wf.rdslate (t : Tid) (d : Rn) : Wf.Statement (.rdslate t d) := wf_lines _
theorem Wf.rdslateu (t : Tid) (d b : Rn) : Wf.Statement (.rdslateu t d b) := wf_lines _
theorem Wf.slatewait (t : Tid) (d a : Rn) : Wf.Statement (.slatewait t d a) := wf_lines _
theorem Wf.slatewaitRelease (t : Tid) : Wf.Statement (.slatewaitRelease t) := wf_lines _
theorem Wf.rssave (t : Tid) (a : Rn) : Wf.Statement (.rssave t a) := wf_lines _
theorem Wf.rsload (t : Tid) (a : Rn) : Wf.Statement (.rsload t a) := wf_lines _
theorem Wf.dtload (t : Tid) (a b : Rn) : Wf.Statement (.dtload t a b) := wf_lines _
theorem Wf.encrun (t : Tid) (a b : Rn) : Wf.Statement (.encrun t a b) := wf_lines _
theorem Wf.encdone (t : Tid) (a : Rn) : Wf.Statement (.encdone t a) := wf_lines _
theorem Wf.repN (t : Tid) (nm1 : BitVec 6) (next : BitVec 32) : Wf.Statement (.repN t nm1 next) := wf_lines _
theorem Wf.repG (t : Tid) (g : Rn) (next : BitVec 32) : Wf.Statement (.repG t g next) := wf_lines _
theorem Wf.udi (t : Tid) (sel : Fin 64) (f1 f2 f3 f4 : Rn) : Wf.Statement (.udi t sel f1 f2 f3 f4) := wf_lines _
theorem Wf.cust (t : Tid) (func : BitVec 6) (operands : BitVec 20) : Wf.Statement (.cust t func operands) := wf_lines _
theorem Wf.vbcast (t : Tid) (v : Fin 16) (g : Rn) (ew : Fin 4) : Wf.Statement (.vbcast t v g ew) := wf_lines _
theorem Wf.vins (t : Tid) (v : Fin 16) (g : Rn) (x : Fin 8) : Wf.Statement (.vins t v g x) := wf_lines _
theorem Wf.vext (t : Tid) (v : Fin 16) (g : Rn) (x : Fin 8) : Wf.Statement (.vext t v g x) := wf_lines _
theorem Wf.vmov (t : Tid) (vd va : Fin 16) : Wf.Statement (.vmov t vd va) := wf_lines _
theorem Wf.pscan (t : Tid) (g : Rn) (va vb : Fin 16) (ew : Fin 4) (pc : Fin 16) : Wf.Statement (.pscan t g va vb ew pc) := wf_lines _
theorem Wf.compress (t : Tid) (v : Fin 16) (g : Rn) (h : Fin 16) (ew : Fin 4) : Wf.Statement (.compress t v g h ew) := wf_lines _
theorem Wf.unpack (t : Tid) (v : Fin 16) (g : Rn) (h : Fin 16) (ew : Fin 4) : Wf.Statement (.unpack t v g h ew) := wf_lines _
theorem Wf.vhash (t : Tid) (v : Fin 16) (g : Rn) (h : Fin 16) : Wf.Statement (.vhash t v g h) := wf_lines _
theorem Wf.vcrc (t : Tid) (v : Fin 16) (g : Rn) : Wf.Statement (.vcrc t v g) := wf_lines _
theorem Wf.redmin (t : Tid) (v : Fin 16) (g h : Rn) (ew : Fin 4) (x : Fin 16) : Wf.Statement (.redmin t v g h ew x) := wf_lines _
theorem Wf.redmax (t : Tid) (v : Fin 16) (g h : Rn) (ew : Fin 4) (x : Fin 16) : Wf.Statement (.redmax t v g h ew x) := wf_lines _
theorem Wf.vcnt (t : Tid) (v : Fin 16) (g : Rn) : Wf.Statement (.vcnt t v g) := wf_lines _
theorem Wf.sload (t : Tid) (v : Fin 16) (g : Rn) (post : Bool) : Wf.Statement (.sload t v g post) := wf_lines _
theorem Wf.sscan (t : Tid) (v : Fin 16) (g h : Rn) (ew : Fin 4) (pc : Fin 16) : Wf.Statement (.sscan t v g h ew pc) := wf_lines _
theorem Wf.sgather (t : Tid) (v : Fin 16) (g h : Rn) (ew : Fin 4) (x : Fin 16) : Wf.Statement (.sgather t v g h ew x) := wf_lines _
theorem Wf.sdict (t : Tid) (v : Fin 16) (g h : Rn) (ew : Fin 4) (x : Fin 16) : Wf.Statement (.sdict t v g h ew x) := wf_lines _
theorem Wf.saccadd (t : Tid) (acc : Fin 4) (g : Rn) : Wf.Statement (.saccadd t acc g) := wf_lines _
theorem Wf.aclr (t : Tid) (acc : Fin 4) : Wf.Statement (.aclr t acc) := wf_lines _
theorem Wf.aaddf (t : Tid) (acc : Fin 4) (v : Fin 16) (g : Rn) (ty : Fin 4) (x : BitVec 7) : Wf.Statement (.aaddf t acc v g ty x) := wf_lines _
theorem Wf.amacf (t : Tid) (acc : Fin 4) (v : Fin 16) (g : Rn) (ty : Fin 4) (x : BitVec 7) : Wf.Statement (.amacf t acc v g ty x) := wf_lines _
theorem Wf.aaddi (t : Tid) (acc : Fin 4) (v : Fin 16) (g : Rn) (ty : Fin 4) (x : BitVec 7) : Wf.Statement (.aaddi t acc v g ty x) := wf_lines _
theorem Wf.acnt (t : Tid) (acc : Fin 4) (v : Fin 16) : Wf.Statement (.acnt t acc v) := wf_lines _
theorem Wf.ardf (t : Tid) (acc : Fin 4) (g : Rn) : Wf.Statement (.ardf t acc g) := wf_lines _
theorem Wf.ardi (t : Tid) (acc : Fin 4) (g : Rn) (hi : Bool) : Wf.Statement (.ardi t acc g hi) := wf_lines _
theorem Wf.ardw (t : Tid) (acc : Fin 4) (g : Rn) (x : BitVec 7) : Wf.Statement (.ardw t acc g x) := wf_lines _
theorem Wf.awrw (t : Tid) (acc : Fin 4) (g : Rn) (x : BitVec 7) : Wf.Statement (.awrw t acc g x) := wf_lines _
theorem Wf.cueTake (t : Tid) : Wf.Statement (.cueTake t) := wf_lines _
theorem Wf.mcAsyncTake : Wf.Statement .mcAsyncTake := wf_lines _
theorem Wf.storeCommit (t : Tid) : Wf.Statement (.storeCommit t) := wf_lines _
theorem Wf.rdS (a : Agent) (line : LineNo) (vict : Option LineNo) : Wf.Statement (.rdS a line vict) := wf_lines _
theorem Wf.rdX (a : Agent) (line : LineNo) (vict : Option LineNo) : Wf.Statement (.rdX a line vict) := wf_lines _
theorem Wf.upg (a : Agent) (line : LineNo) (vict : Option LineNo) : Wf.Statement (.upg a line vict) := wf_lines _
theorem Wf.rdNc (a : Agent) (pa : Nat) (size : Nat) : Wf.Statement (.rdNc a pa size) := wf_lines _
theorem Wf.wrNc (a : Agent) (view : ViewAgent) (pa : Nat) (data : List Byte) : Wf.Statement (.wrNc a view pa data) := wf_lines _
theorem Wf.lsr (d : DieNo) (pa : Nat) (size : Nat) : Wf.Statement (.lsr d pa size) := wf_lines _
theorem Wf.lsw (d : DieNo) (pa : Nat) (data : List Byte) : Wf.Statement (.lsw d pa data) := wf_lines _
theorem Wf.snpS (d : DieNo) (line : LineNo) : Wf.Statement (.snpS d line) := wf_lines _
theorem Wf.snpX (d : DieNo) (line : LineNo) : Wf.Statement (.snpX d line) := wf_lines _
theorem Wf.snpCur (d : DieNo) (line : LineNo) : Wf.Statement (.snpCur d line) := wf_lines _
theorem Wf.snpBinv (d : DieNo) (line : LineNo) : Wf.Statement (.snpBinv d line) := wf_lines _
theorem Wf.snpLsr (d : DieNo) (pa : Nat) (size : Nat) : Wf.Statement (.snpLsr d pa size) := wf_lines _
theorem Wf.snpLsw (d : DieNo) (pa : Nat) (data : List Byte) : Wf.Statement (.snpLsw d pa data) := wf_lines _
theorem Wf.rspI (a : Agent) (line : LineNo) : Wf.Statement (.rspI a line) := wf_lines _
theorem Wf.rspS (a : Agent) (line : LineNo) : Wf.Statement (.rspS a line) := wf_lines _
theorem Wf.rspEvx (a : Agent) (line : LineNo) : Wf.Statement (.rspEvx a line) := wf_lines _
theorem Wf.goE (d : DieNo) (line : LineNo) : Wf.Statement (.goE d line) := wf_lines _
theorem Wf.goF (d : DieNo) (line : LineNo) : Wf.Statement (.goF d line) := wf_lines _
theorem Wf.goS (d : DieNo) (line : LineNo) : Wf.Statement (.goS d line) := wf_lines _
theorem Wf.goNc (d : DieNo) : Wf.Statement (.goNc d) := wf_lines _
theorem Wf.eva (d : DieNo) (line : LineNo) : Wf.Statement (.eva d line) := wf_lines _
theorem Wf.dat (d : DieNo) (line : LineNo) (dirty : Bool) : Wf.Statement (.dat d line dirty) := wf_lines _
theorem Wf.fwd (a : Agent) (line : LineNo) (dirty : Bool) (far : FarData) : Wf.Statement (.fwd a line dirty far) := wf_lines _
theorem Wf.wbd (a : Agent) (line : LineNo) (far : FarData) : Wf.Statement (.wbd a line far) := wf_lines _
theorem Wf.evc (a : Agent) (line : LineNo) : Wf.Statement (.evc a line) := wf_lines _
theorem Wf.holdWindowEnd (d : DieNo) (line : LineNo) : Wf.Statement (.holdWindowEnd d line) := wf_lines _
theorem Wf.undo (a : Agent) (e : UndoEntry) : Wf.Statement (.undo a e) := wf_lines _
theorem Wf.undoAcc (d : DieNo) (line : LineNo) : Wf.Statement (.undoAcc d line) := wf_lines _
theorem Wf.swb (a : Agent) (dom : Dom) (m : SwbData) : Wf.Statement (.swb a dom m) := wf_lines _
theorem Wf.swbAcc (d : DieNo) (line : LineNo) : Wf.Statement (.swbAcc d line) := wf_lines _
theorem Wf.advance (a : ViewAgent) (dom : Dom) : Wf.Statement (.advance a dom) := wf_lines _
theorem Wf.advAck (a : ViewAgent) (dom : Dom) : Wf.Statement (.advAck a dom) := wf_lines _
theorem Wf.sweep (u : Slice) (dom : Dom) : Wf.Statement (.sweep u dom) := wf_lines _
theorem Wf.swept (u : Slice) (dom : Dom) : Wf.Statement (.swept u dom) := wf_lines _
theorem Wf.purge (u : Slice) (dom : Dom) : Wf.Statement (.purge u dom) := wf_lines _
theorem Wf.purged (u : Slice) (dom : Dom) : Wf.Statement (.purged u dom) := wf_lines _
theorem Wf.gAdvance (dom : Dom) (take : Word) : Wf.Statement (.gAdvance dom take) := wf_lines _
theorem Wf.gSwept (p : Fin 16) (dom : Dom) : Wf.Statement (.gSwept p dom) := wf_lines _
theorem Wf.gPrepare (dom : Dom) (take : Word) : Wf.Statement (.gPrepare dom take) := wf_lines _
theorem Wf.gPrepared (p : Fin 16) (dom : Dom) : Wf.Statement (.gPrepared p dom) := wf_lines _
theorem Wf.gCommit (dom : Dom) (take : Word) : Wf.Statement (.gCommit dom take) := wf_lines _
theorem Wf.groupCutTimeout (p : Fin 16) (dom : Dom) : Wf.Statement (.groupCutTimeout p dom) := wf_lines _
theorem Wf.cutPeriodExpiry (dom : Dom) : Wf.Statement (.cutPeriodExpiry dom) := wf_lines _
theorem Wf.reelBlockPersist (dom : Dom) (seq : BitVec 32) : Wf.Statement (.reelBlockPersist dom seq) := wf_lines _
theorem Wf.reelBlockError (dom : Dom) (seq : BitVec 32) : Wf.Statement (.reelBlockError dom seq) := wf_lines _
theorem Wf.persistenceMarkerDone (port : Fin 16) (dom : Dom) : Wf.Statement (.persistenceMarkerDone port dom) := wf_lines _
theorem Wf.cutRecordPersist (dom : Dom) : Wf.Statement (.cutRecordPersist dom) := wf_lines _
theorem Wf.tdCmdCut (dom : Dom) : Wf.Statement (.tdCmdCut dom) := wf_lines _
theorem Wf.tdCmdRollback (dom : Dom) : Wf.Statement (.tdCmdRollback dom) := wf_lines _
theorem Wf.onlineRollbackDone (e : RollEnd) : Wf.Statement (.onlineRollbackDone e) := wf_lines _
theorem Wf.tdCfgEn (dom : Dom) (val : Word) : Wf.Statement (.tdCfgEn dom val) := wf_lines _
theorem Wf.tdSeg1Link (dom : Dom) (val : Word) : Wf.Statement (.tdSeg1Link dom val) := wf_lines _
theorem Wf.pwrfailAssert : Wf.Statement .pwrfailAssert := wf_lines _
theorem Wf.fatalError (bank : Fin 354) (struct : BitVec 8) (type : BitVec 8) (addr : BitVec 52) : Wf.Statement (.fatalError bank struct type addr) := wf_lines _
theorem Wf.gpfPhase2Done (port : Fin 16) : Wf.Statement (.gpfPhase2Done port) := wf_lines _
theorem Wf.gpfTimeoutExpiry : Wf.Statement .gpfTimeoutExpiry := wf_lines _
theorem Wf.pwrfailDeassertHold : Wf.Statement .pwrfailDeassertHold := wf_lines _
theorem Wf.pwrfailStuck : Wf.Statement .pwrfailStuck := wf_lines _
theorem Wf.autorestart : Wf.Statement .autorestart := wf_lines _
theorem Wf.pwrgoodRise (b : BootInput) : Wf.Statement (.pwrgoodRise b) := wf_lines _
theorem Wf.pwrgoodFall : Wf.Statement .pwrgoodFall := wf_lines _
theorem Wf.resetNAssert : Wf.Statement .resetNAssert := wf_lines _
theorem Wf.warmNAssert : Wf.Statement .warmNAssert := wf_lines _
theorem Wf.pkgRstCold (lvl : Lvl) : Wf.Statement (.pkgRstCold lvl) := wf_lines _
theorem Wf.pkgRstWarm (lvl : Lvl) : Wf.Statement (.pkgRstWarm lvl) := wf_lines _
theorem Wf.dieStartSlot (d : DieNo) (vcoreOk : Bool) : Wf.Statement (.dieStartSlot d vcoreOk) := wf_lines _
theorem Wf.clusterStartSlot (d : DieNo) (k : Fin 5) : Wf.Statement (.clusterStartSlot d k) := wf_lines _
theorem Wf.restartRollbackDone (dom : Dom) : Wf.Statement (.restartRollbackDone dom) := wf_lines _
theorem Wf.leadC (dom : Dom) (c : Word) : Wf.Statement (.leadC dom c) := wf_lines _
theorem Wf.leadwaitExpiry (dom : Dom) : Wf.Statement (.leadwaitExpiry dom) := wf_lines _
theorem Wf.wakeNAssert : Wf.Statement .wakeNAssert := wf_lines _
theorem Wf.prochotAssert : Wf.Statement .prochotAssert := wf_lines _
theorem Wf.prochotRelease : Wf.Statement .prochotRelease := wf_lines _
theorem Wf.thermalTrip : Wf.Statement .thermalTrip := wf_lines _
theorem Wf.jtagTrst (asserted : Bool) : Wf.Statement (.jtagTrst asserted) := wf_lines _
theorem Wf.refclkLoss : Wf.Statement .refclkLoss := wf_lines _
theorem Wf.xtalLoss : Wf.Statement .xtalLoss := wf_lines _
theorem Wf.railOutOfRange (r : Rail) : Wf.Statement (.railOutOfRange r) := wf_lines _
theorem Wf.vaonLoss : Wf.Statement .vaonLoss := wf_lines _
theorem Wf.vaonReturn : Wf.Statement .vaonReturn := wf_lines _
theorem Wf.inputUnlock (i : Fin 10) : Wf.Statement (.inputUnlock i) := wf_lines _
theorem Wf.inputStuck (i : Fin 10) : Wf.Statement (.inputStuck i) := wf_lines _
theorem Wf.i3cBusRecovery (bus : Fin 2) : Wf.Statement (.i3cBusRecovery bus) := wf_lines _
theorem Wf.trefclkFault : Wf.Statement .trefclkFault := wf_lines _
theorem Wf.trefclkReturn : Wf.Statement .trefclkReturn := wf_lines _
theorem Wf.tsymSend (d : DieNo) : Wf.Statement (.tsymSend d) := wf_lines _
theorem Wf.tsym (d : DieNo) : Wf.Statement (.tsym d) := wf_lines _
theorem Wf.tret (d : DieNo) : Wf.Statement (.tret d) := wf_lines _
theorem Wf.slateCopySettled (d : DieNo) : Wf.Statement (.slateCopySettled d) := wf_lines _
theorem Wf.ptsymSend (k : Fin 4) : Wf.Statement (.ptsymSend k) := wf_lines _
theorem Wf.ptsym (k : Fin 4) (m : PtSym) : Wf.Statement (.ptsym k m) := wf_lines _
theorem Wf.clfSend : Wf.Statement .clfSend := wf_lines _
theorem Wf.clf (m : ClfFrame) : Wf.Statement (.clf m) := wf_lines _
theorem Wf.clrSend : Wf.Statement .clrSend := wf_lines _
theorem Wf.clr (m : ClrFrame) : Wf.Statement (.clr m) := wf_lines _
theorem Wf.slateSourceLost : Wf.Statement .slateSourceLost := wf_lines _
theorem Wf.slateSettled : Wf.Statement .slateSettled := wf_lines _
theorem Wf.slateSaturate : Wf.Statement .slateSaturate := wf_lines _
theorem Wf.slateAlarmFire (t : Tid) (lvl : Lvl) : Wf.Statement (.slateAlarmFire t lvl) := wf_lines _
theorem Wf.slateSet (v : Word) : Wf.Statement (.slateSet v) := wf_lines _
theorem Wf.slateAdj (v : Word) : Wf.Statement (.slateAdj v) := wf_lines _
theorem Wf.slateRoleWrite (v : Word) : Wf.Statement (.slateRoleWrite v) := wf_lines _
theorem Wf.slateEpochWrite (v : Word) : Wf.Statement (.slateEpochWrite v) := wf_lines _
theorem Wf.slcmpWrite (t : Tid) (lvl : Lvl) (v : Word) : Wf.Statement (.slcmpWrite t lvl v) := wf_lines _
theorem Wf.mpEnable (n : Fin 16) (v : Word) : Wf.Statement (.mpEnable n v) := wf_lines _
theorem Wf.mpLinkUp (n : Fin 16) (dev : DevInfo) : Wf.Statement (.mpLinkUp n dev) := wf_lines _
theorem Wf.mpTrainTimeout (n : Fin 16) : Wf.Statement (.mpTrainTimeout n) := wf_lines _
theorem Wf.memoryActive (n : Fin 16) (ideOk : Bool) : Wf.Statement (.memoryActive n ideOk) := wf_lines _
theorem Wf.memoryActiveTimeout (n : Fin 16) : Wf.Statement (.memoryActiveTimeout n) := wf_lines _
theorem Wf.mpRetrain (n : Fin 16) : Wf.Statement (.mpRetrain n) := wf_lines _
theorem Wf.mpLinkLoss (n : Fin 16) : Wf.Statement (.mpLinkLoss n) := wf_lines _
theorem Wf.portWrite (n : Fin 16) (line : LineNo) (mask : BitVec 64) (data : LineData) : Wf.Statement (.portWrite n line mask data) := wf_lines _
theorem Wf.portRead (n : Fin 16) (rq : Fin 32) (span : LineSpan) (cls : Fin 64) : Wf.Statement (.portRead n rq span cls) := wf_lines _
theorem Wf.urgencyRise (n : Fin 16) (rq : Fin 32) (ageNs : Nat) : Wf.Statement (.urgencyRise n rq ageNs) := wf_lines _
theorem Wf.arbGrant (n : Fin 16) (cycles : Nat) : Wf.Statement (.arbGrant n cycles) := wf_lines _
theorem Wf.deviceWriteCompletion (n : Fin 16) (line : LineNo) : Wf.Statement (.deviceWriteCompletion n line) := wf_lines _
theorem Wf.deviceReadResponse (n : Fin 16) (line : LineNo) (poison : Bool) (overload : Bool) : Wf.Statement (.deviceReadResponse n line poison overload) := wf_lines _
theorem Wf.isValidate (s : Fin 16) (v : Word) : Wf.Statement (.isValidate s v) := wf_lines _
theorem Wf.isInvalidate (s : Fin 16) : Wf.Statement (.isInvalidate s) := wf_lines _
theorem Wf.prtValidate (n : Fin 64) (v : Word) : Wf.Statement (.prtValidate n v) := wf_lines _
theorem Wf.prtInvalidate (n : Fin 64) : Wf.Statement (.prtInvalidate n) := wf_lines _
theorem Wf.gpfTimeoutWrite (v : Word) : Wf.Statement (.gpfTimeoutWrite v) := wf_lines _
theorem Wf.dlReset (j : Fin 24) : Wf.Statement (.dlReset j) := wf_lines _
theorem Wf.laneCheckDone (j : Fin 24) (up : BitVec 34) (down : BitVec 34) : Wf.Statement (.laneCheckDone j up down) := wf_lines _
theorem Wf.trainingPacket (j : Fin 24) : Wf.Statement (.trainingPacket j) := wf_lines _
theorem Wf.trainingAnswer (j : Fin 24) (pos : Nat) (step : BitVec 8) : Wf.Statement (.trainingAnswer j pos step) := wf_lines _
theorem Wf.dlinkTrainTimeout (j : Fin 24) : Wf.Statement (.dlinkTrainTimeout j) := wf_lines _
theorem Wf.packetReceive (l : Fin 28) (p : LinkPacket) : Wf.Statement (.packetReceive l p) := wf_lines _
theorem Wf.nak (l : Fin 28) (seq : BitVec 12) : Wf.Statement (.nak l seq) := wf_lines _
theorem Wf.failover (j : Fin 24) (seq : BitVec 12) : Wf.Statement (.failover j seq) := wf_lines _
theorem Wf.dlFlush (j : Fin 24) : Wf.Statement (.dlFlush j) := wf_lines _
theorem Wf.dlResume (j : Fin 24) : Wf.Statement (.dlResume j) := wf_lines _
theorem Wf.heartbeatSend (l : Fin 28) : Wf.Statement (.heartbeatSend l) := wf_lines _
theorem Wf.heartbeat (l : Fin 28) : Wf.Statement (.heartbeat l) := wf_lines _
theorem Wf.heartbeatTimeout (d : DieNo) (atHub : Bool) : Wf.Statement (.heartbeatTimeout d atHub) := wf_lines _
theorem Wf.plReset (k : Fin 4) : Wf.Statement (.plReset k) := wf_lines _
theorem Wf.plinkTrain (k : Fin 4) (peer : PlPeer) : Wf.Statement (.plinkTrain k peer) := wf_lines _
theorem Wf.plinkDown (k : Fin 4) : Wf.Statement (.plinkDown k) := wf_lines _
theorem Wf.linkStateNotice (p : Fin 16) (up : BitVec 4) : Wf.Statement (.linkStateNotice p up) := wf_lines _
theorem Wf.fabIdAssign (v : Word) : Wf.Statement (.fabIdAssign v) := wf_lines _
theorem Wf.fwValidate (w : Fin 16) (v : Word) : Wf.Statement (.fwValidate w v) := wf_lines _
theorem Wf.gpInboundWrite (r : Fin 4) (addr : Nat) (data : List Byte) : Wf.Statement (.gpInboundWrite r addr data) := wf_lines _
theorem Wf.gpInboundRead (r : Fin 4) (addr : Nat) (len : Nat) : Wf.Statement (.gpInboundRead r addr len) := wf_lines _
theorem Wf.inboundMsi (r : Fin 4) (addr : Nat) (data : BitVec 32) : Wf.Statement (.inboundMsi r addr data) := wf_lines _
theorem Wf.cxlCacheRequest (r : Fin 3) (addr : Nat) (wantsCopy : Bool) (data : Option LineData) : Wf.Statement (.cxlCacheRequest r addr wantsCopy data) := wf_lines _
theorem Wf.pcieCompletion (r : Fin 4) (ok : Bool) (v : Word) : Wf.Statement (.pcieCompletion r ok v) := wf_lines _
theorem Wf.completionTimeout (r : Fin 4) : Wf.Statement (.completionTimeout r) := wf_lines _
theorem Wf.gpLinkLoss (r : Fin 4) : Wf.Statement (.gpLinkLoss r) := wf_lines _
theorem Wf.gpRetrain (r : Fin 4) : Wf.Statement (.gpRetrain r) := wf_lines _
theorem Wf.iwValidate (r : Fin 4) (j : Fin 32) (v : Word) : Wf.Statement (.iwValidate r j v) := wf_lines _
theorem Wf.iwInvalidate (r : Fin 4) (j : Fin 32) : Wf.Statement (.iwInvalidate r j) := wf_lines _
theorem Wf.gdwValidate (w : Fin 8) (v : Word) : Wf.Statement (.gdwValidate w v) := wf_lines _
theorem Wf.aspmL0sEntry (p : Fin 4) : Wf.Statement (.aspmL0sEntry p) := wf_lines _
theorem Wf.aspmL1Entry (p : Fin 4) (partner : Bool) : Wf.Statement (.aspmL1Entry p partner) := wf_lines _
theorem Wf.ptmRequest (r : Fin 4) : Wf.Statement (.ptmRequest r) := wf_lines _
theorem Wf.mirrorInboundWrite (winB : Bool) (ofs : Nat) (data : List Byte) : Wf.Statement (.mirrorInboundWrite winB ofs data) := wf_lines _
theorem Wf.mirrorInboundRead (win : Fin 3) (ofs : Nat) (len : Nat) : Wf.Statement (.mirrorInboundRead win ofs len) := wf_lines _
theorem Wf.cutDb (v : Word) : Wf.Statement (.cutDb v) := wf_lines _
theorem Wf.hostDb (i : Fin 16) : Wf.Statement (.hostDb i) := wf_lines _
theorem Wf.mwCommit (v : Word) : Wf.Statement (.mwCommit v) := wf_lines _
theorem Wf.mirrorLinkDown : Wf.Statement .mirrorLinkDown := wf_lines _
theorem Wf.mirRetrain : Wf.Statement .mirRetrain := wf_lines _
theorem Wf.vrfSqtail (f : Fin 256) (v : Word) : Wf.Statement (.vrfSqtail f v) := wf_lines _
theorem Wf.descriptorFetch (f : Fin 256) : Wf.Statement (.descriptorFetch f) := wf_lines _
theorem Wf.runCopy (f : Fin 256) : Wf.Statement (.runCopy f) := wf_lines _
theorem Wf.runFill (f : Fin 256) : Wf.Statement (.runFill f) := wf_lines _
theorem Wf.runCrc (f : Fin 256) : Wf.Statement (.runCrc f) := wf_lines _
theorem Wf.runCsum (f : Fin 256) : Wf.Statement (.runCsum f) := wf_lines _
theorem Wf.runShip (f : Fin 256) : Wf.Statement (.runShip f) := wf_lines _
theorem Wf.runnerUnitDone (e : Fin 32) : Wf.Statement (.runnerUnitDone e) := wf_lines _
theorem Wf.completionRecord (f : Fin 256) : Wf.Statement (.completionRecord f) := wf_lines _
theorem Wf.vrfEn (f : Fin 256) (v : Word) : Wf.Statement (.vrfEn f v) := wf_lines _
theorem Wf.vrfNlog2Write (f : Fin 256) (v : Word) : Wf.Statement (.vrfNlog2Write f v) := wf_lines _
theorem Wf.ringResize (f : Fin 256) : Wf.Statement (.ringResize f) := wf_lines _
theorem Wf.vrfResetGen (f : Fin 256) : Wf.Statement (.vrfResetGen f) := wf_lines _
theorem Wf.vrfResetQuiesce (f : Fin 256) : Wf.Statement (.vrfResetQuiesce f) := wf_lines _
theorem Wf.vrfQuiesce (f : Fin 256) : Wf.Statement (.vrfQuiesce f) := wf_lines _
theorem Wf.vrfQuiesced (f : Fin 256) : Wf.Statement (.vrfQuiesced f) := wf_lines _
theorem Wf.lateResponse (f : Fin 256) : Wf.Statement (.lateResponse f) := wf_lines _
theorem Wf.rnModeWrite (v : Word) : Wf.Statement (.rnModeWrite v) := wf_lines _
theorem Wf.rnCreditsWrite (e : Fin 32) (v : Word) : Wf.Statement (.rnCreditsWrite e v) := wf_lines _
theorem Wf.vrhWinValidate (f : Fin 256) (i : Fin 8) (v : Word) : Wf.Statement (.vrhWinValidate f i v) := wf_lines _
theorem Wf.vmrstCmd (v : Word) : Wf.Statement (.vmrstCmd v) := wf_lines _
theorem Wf.qosAlloc (v : Word) : Wf.Statement (.qosAlloc v) := wf_lines _
theorem Wf.cueRaise (v : Fin 8192) : Wf.Statement (.cueRaise v) := wf_lines _
theorem Wf.cuePtbaseValidate (i : Fin 1024) (v : Word) : Wf.Statement (.cuePtbaseValidate i v) := wf_lines _
theorem Wf.enclaveCreate : Wf.Statement .enclaveCreate := wf_lines _
theorem Wf.enclaveAdd : Wf.Statement .enclaveAdd := wf_lines _
theorem Wf.enclaveFinal : Wf.Statement .enclaveFinal := wf_lines _
theorem Wf.enclaveRemove : Wf.Statement .enclaveRemove := wf_lines _
theorem Wf.enclaveDestroy : Wf.Statement .enclaveDestroy := wf_lines _
theorem Wf.enclaveSlotclr : Wf.Statement .enclaveSlotclr := wf_lines _
theorem Wf.enctBaseValidate (v : Word) : Wf.Statement (.enctBaseValidate v) := wf_lines _
theorem Wf.loadRandom (s : Fin 1024) : Wf.Statement (.loadRandom s) := wf_lines _
theorem Wf.loadSealed (s : Fin 1024) : Wf.Statement (.loadSealed s) := wf_lines _
theorem Wf.ksClear (s : Fin 1024) : Wf.Statement (.ksClear s) := wf_lines _
theorem Wf.dbgCheck (sigOk : Bool) : Wf.Statement (.dbgCheck sigOk) := wf_lines _
theorem Wf.thermalEmergency (c : Fin 60) : Wf.Statement (.thermalEmergency c) := wf_lines _
theorem Wf.graceExpiry (c : Fin 60) : Wf.Statement (.graceExpiry c) := wf_lines _
theorem Wf.coreSpareGo (d : DieNo) (l : Fin 18) (lvl : Lvl) : Wf.Statement (.coreSpareGo d l lvl) := wf_lines _
theorem Wf.spareL1Answer (d : DieNo) : Wf.Statement (.spareL1Answer d) := wf_lines _
theorem Wf.spareL1Timeout (d : DieNo) (l : Fin 18) : Wf.Statement (.spareL1Timeout d l) := wf_lines _
theorem Wf.spareDrainDone (d : DieNo) (dropped : Nat) : Wf.Statement (.spareDrainDone d dropped) := wf_lines _
theorem Wf.dieFence (d : DieNo) (lvl : Lvl) : Wf.Statement (.dieFence d lvl) := wf_lines _
theorem Wf.fatalDieReport (d : DieNo) (bank : Option BankRec) : Wf.Statement (.fatalDieReport d bank) := wf_lines _
theorem Wf.fenceReclaimDone (d : DieNo) : Wf.Statement (.fenceReclaimDone d) := wf_lines _
theorem Wf.mcBankClear (b : Fin 354) (lvl : Lvl) : Wf.Statement (.mcBankClear b lvl) := wf_lines _
theorem Wf.mcDiebankClear (d : DieNo) (lvl : Lvl) : Wf.Statement (.mcDiebankClear d lvl) := wf_lines _
theorem Wf.watchdogExpiry (bank : Fin 354) : Wf.Statement (.watchdogExpiry bank) := wf_lines _
theorem Wf.gafferSample (g : GafSample) : Wf.Statement (.gafferSample g) := wf_lines _
theorem Wf.rootStep (d : DieNo) : Wf.Statement (.rootStep d) := wf_lines _
theorem Wf.setFreq (t : Tid) (target : BitVec 7) (arg : BitVec 16) (tag : BitVec 16) : Wf.Statement (.setFreq t target arg tag) := wf_lines _
theorem Wf.gate (t : Tid) (target : BitVec 7) (tag : BitVec 16) : Wf.Statement (.gate t target tag) := wf_lines _
theorem Wf.ungate (t : Tid) (target : BitVec 7) (tag : BitVec 16) : Wf.Statement (.ungate t target tag) := wf_lines _
theorem Wf.deep (t : Tid) (tag : BitVec 16) : Wf.Statement (.deep t tag) := wf_lines _
theorem Wf.off (t : Tid) (tag : BitVec 16) : Wf.Statement (.off t tag) := wf_lines _
theorem Wf.withdraw (t : Tid) (tag : BitVec 16) : Wf.Statement (.withdraw t tag) := wf_lines _
theorem Wf.deepIdleTimeout : Wf.Statement .deepIdleTimeout := wf_lines _
theorem Wf.deepExit : Wf.Statement .deepExit := wf_lines _
theorem Wf.sleepEntry (c : Fin 60) : Wf.Statement (.sleepEntry c) := wf_lines _
theorem Wf.dieRstReset (d : DieNo) (lvl : Lvl) : Wf.Statement (.dieRstReset d lvl) := wf_lines _
theorem Wf.dieRstHoldRelease (d : DieNo) (lvl : Lvl) : Wf.Statement (.dieRstHoldRelease d lvl) := wf_lines _
theorem Wf.thrStart (d : DieNo) (l : Fin 18) (th : Fin 2) (lvl : Lvl) : Wf.Statement (.thrStart d l th lvl) := wf_lines _
theorem Wf.padReleaseBus (lvl : Lvl) : Wf.Statement (.padReleaseBus lvl) := wf_lines _
theorem Wf.padReleaseGpio (lvl : Lvl) : Wf.Statement (.padReleaseGpio lvl) := wf_lines _
theorem Wf.dailiesUpdate : Wf.Statement .dailiesUpdate := wf_lines _
theorem Wf.wearDay : Wf.Statement .wearDay := wf_lines _
theorem Wf.calSet (v : Word) (lvl : Lvl) : Wf.Statement (.calSet v lvl) := wf_lines _
theorem Wf.calAlarmFire : Wf.Statement .calAlarmFire := wf_lines _
theorem Wf.bwWindowEnd (p : Fin 48) (rd : BitVec 48) (wr : BitVec 48) : Wf.Statement (.bwWindowEnd p rd wr) := wf_lines _
theorem Wf.bwWinWrite (p : Fin 48) (v : Word) (lvl : Lvl) : Wf.Statement (.bwWinWrite p v lvl) := wf_lines _
theorem Wf.bwPclr (p : Fin 48) (lvl : Lvl) : Wf.Statement (.bwPclr p lvl) := wf_lines _
theorem Wf.registerWrite (addr : Nat) (size : Nat) (v : Word) (lvl : Lvl) : Wf.Statement (.registerWrite addr size v lvl) := wf_lines _
theorem Wf.mirrorConfigRequest (wr : Bool) (reg : Nat) (v : Word) : Wf.Statement (.mirrorConfigRequest wr reg v) := wf_lines _
theorem Wf.pcieLinkUp (p : Fin 4) (width : Nat) (rate : Nat) (cxlm : Bool) (pbr : Bool) : Wf.Statement (.pcieLinkUp p width rate cxlm pbr) := wf_lines _
theorem Wf.trefclkWarn : Wf.Statement .trefclkWarn := wf_lines _
theorem Wf.xtalReturn : Wf.Statement .xtalReturn := wf_lines _
theorem Wf.railInRange (r : Rail) : Wf.Statement (.railInRange r) := wf_lines _
theorem Wf.clapDnPresentLoss : Wf.Statement .clapDnPresentLoss := wf_lines _
theorem Wf.cutTriggerForward (p : Fin 16) (dom : Dom) : Wf.Statement (.cutTriggerForward p dom) := wf_lines _
theorem Wf.rollbackForward (dom : Dom) : Wf.Statement (.rollbackForward dom) := wf_lines _
theorem Wf.domainSpoilForward (dom : Dom) : Wf.Statement (.domainSpoilForward dom) := wf_lines _
theorem Wf.jtagDebugAccess (op : JtagOp) : Wf.Statement (.jtagDebugAccess op) := wf_lines _

end Sys2Proof.Laws
end

