-- ==== Sys2Proof/Tests/Slice0.lean ====
section
/-!
SUPPORT. Tests: each check of WellFormed refuses an ill-formed term; words written out from the spec's encodings; the spec's
worked examples; and for each statement of Certificates/Slice0/Obligations.lean that has hypotheses a state and operands that
meet them, clause by clause (the name after wit_ is the statement's).
-/
set_option Elab.async false
namespace Sys2Proof.Tests
open Sys2Proof Sys2Proof.Machine

/-! A small state: thread 0 runs at M on a RUNNING die 0, its code, data and I/O pages mapped. -/

def page (va pa ty sp : Nat) : TlbSlot := ⟨BitVec.ofNat 64 (va + ty * 1024 + 12 * 8), BitVec.ofNat 64 (pa + sp), 0⟩
/-- The first byte of the local store of die 0 in package 0. -/
def ls0 : Nat := 0xFF0000000000
def pages : SMap TlbSlot :=
  [(0, page 0x1000 (ls0 + 0x1000) 0 0x69), (1, page 0x2000 (ls0 + 0x2000) 1 0xF9), (2, page 0x3000 0xFE0008000000 2 0xF9)]
def zerosAt (a n : Nat) : SMap Byte := (List.range n).map fun i => (a + i, 0)
def thr0 : Thread := { Thread.reset with run := .running, pc := 0x1000, cr := [(0, 0x6B)], g := [(1, 0x2000), (2, 5)] }
def base0 : State :=
  { State.reset with
    power := .run, threads := [(0, thr0)], cores := [(0, { Core.reset with tlb := pages })]
    sl := { SlateSt.reset with settled := [0] }
    mem := { Mem.reset with ls := zerosAt 0x1000 128 ++ zerosAt 0x2000 136 } }
def set (l : List (FRef × Nat)) (s : State) : State := l.foldl (fun s p => s.wr p.1 p.2) s
def base : State := set [(F.PKG_DIEd_STATE 0, 0)] base0
/-- The base state with thread 0 changed. -/
def th (f : Thread → Thread) (s : State := base) : State := s.setThr 0 (f (s.thr 0))
/-- Thread 0 with the STATUS given. -/
def status (v : Word) (s : State := base) : State := th (fun x => x.setC 0 v) s
/-- The bytes bs stand, written and not poisoned, in the local store of die 0 from offset o. -/
def own (s : State) (o : Nat) (bs : List Byte) : Bool :=
  (List.range bs.length).all fun i => SMap.find? s.mem.ls (o + i) == bs[i]? && !s.mem.lsPoison.contains (o + i)

def addrIs (x : Addr) (pa ks : Nat) : Bool :=
  match x with
  | .ok p k => p == pa && k == ks
  | .bad _ => false
def modeIs (x : Mode) (ea upd : Word) : Bool :=
  match x with
  | .at e (some u) => e == ea && u == upd
  | _ => false

/-- The base state with VOLATILE memory from 0x200000, region 0 through interleave set 0 to port 0, which is ready. -/
def mem0 : State :=
  set [(F.PRT_BASEn_BASE 0, 1), (F.PRT_LIMITn_LIMIT 0, 16), (F.PRT_ATTRn_V 0, 1), (F.IS_CTLs_V 0, 1), (F.IS_BASEs_BASE 0, 1),
    (F.IS_SIZEs_SIZE 0, 16), (F.MPn_CTL_EN 0, 1), (F.MPn_STAT_UP 0, 1), (F.MPn_STAT_READY 0, 1), (F.DL_STAT_STATE 0, 2)] base
/-- Device bytes of port 0. -/
def dev (m : SMap Byte) (s : State) : State := { s with mem := { s.mem with dev := m } }
/-- An enclave table at 0x200000 whose enclave 1 is FINAL, with entry point 0x1000 and save area 0x300000. -/
def enc0 : State := dev [(128, 2), (137, 0x10), (146, 0x30)] (set [(F.ENCT_BASE_V, 1), (F.ENCT_BASE_BASE, 4)] mem0)

def areaIs (x : List (Nat × Nat × Nat) ⊕ Trap) (l : List (Nat × Nat × Nat)) : Bool :=
  match x with
  | .inl m => m == l
  | .inr _ => false
/-- The doublewords an area is read as. -/
def wordsOf (x : AreaRead) : Option (List Word) :=
  match x with
  | .ok ws _ => some ws
  | _ => none

def insIs (x : Ins × State) (i : Nat) (e : TlbSlot) : Bool :=
  match x.1 with
  | .ok j f _ => j == i && f == e
  | _ => false
def ioNow (x : IoRead) : Option Word :=
  match x with
  | .now v _ => some v
  | .wait _ _ => none
/-- The base state with the whole data page of zeros in the local store, and g4 = 0x2FC0. -/
def strm : State :=
  { th (fun x => x.setGr 4 0x2FC0) with
    mem := { Mem.reset with ls := zerosAt 0x1000 128 ++ (List.range' 0 4096).map fun i => (0x2000 + 1 * i, 0) } }
/-- Domain 0 is enabled, take 5 open and take 3 the last cut. -/
def td0 : State := set [(F.TDn_CFG_EN 0, 1), (F.TDn_TAKE_OPEN 0, 5), (F.TDn_CUT_LAST 0, 3)] base

/-! Witnesses for the thread instructions. -/

theorem wit_ImmediateForms : ∀ i ∈ [Instr.addi 0 3 1 4, .andi 0 3 1 4, .ori 0 3 1 4, .xori 0 3 1 4, .slti 0 3 1 4, .sltui 0 3 1 4, .lui 0 3 4,
    .shori 0 3 4, .addpc 0 3 4, .slli 0 3 1 63, .srli 0 3 1 63, .srai 0 3 1 0, .rori 0 0 1 63], base.ready 0 i = true := by decide +kernel
theorem wit_RegisterForms : ∀ i ∈ [Instr.add 0 3 1 2, .sub 0 3 1 2, .and 0 3 1 2, .or 0 3 1 2, .xor 0 3 1 2, .andn 0 3 1 2, .orn 0 3 1 2,
    .slt 0 3 1 2, .sltu 0 3 1 2, .min 0 3 1 2, .max 0 3 1 2, .minu 0 3 1 2, .maxu 0 3 1 2, .sll 0 3 1 2, .srl 0 3 1 2, .sra 0 3 1 2,
    .ror 0 3 1 2, .mul 0 3 1 2, .mulh 0 3 1 2, .mulhu 0 3 1 2, .sextb 0 3 1, .sexth 0 3 1, .sextw 0 3 1, .zextw 0 0 1],
    base.ready 0 i = true := by decide +kernel
theorem wit_BitForms : ∀ i ∈ [Instr.clz 0 3 1, .ctz 0 3 1, .popc 0 3 1, .bswap 0 3 1], base.ready 0 i = true := by decide +kernel
theorem wit_Division : ∀ i ∈ [Instr.div 0 3 1 2, .divu 0 3 1 0, .rem 0 3 1 2, .remu 0 3 1 0], base.ready 0 i = true := by decide +kernel
theorem wit_FloatMoves : ∀ i ∈ [Instr.fneg 0 true 3 1, .fabs 0 false 3 1, .fmov 0 true 3 1, .fmvf 0 false 3 1, .fmvg 0 true 3 1, .fclass 0 false 3 1],
    base.ready 0 i = true := by decide +kernel
/-- f1 is 1.0 and f2 is a third of it in binary64, and FCSR enables the NX trap (EN is FCSR[11:5]). -/
def third : Thread → Thread := fun x => { x with f := [(1, 0x3FF0000000000000), (2, 0x3FD5555555555555)] }
theorem wit_FloatArithmetic : (∀ i ∈ [Instr.fadd 0 true 3 1 2, .fsub 0 true 3 1 2, .fmul 0 false 3 1 2, .fdiv 0 false 3 1 2, .fsqrt 0 true 3 1,
    .fmin 0 true 3 1 2, .fmax 0 true 3 1 2, .fcvtf 0 true 3 1, .fcvtfu 0 true 3 1, .fcvtx 0 true 3 1, .fmadd 0 true 3 1 2 4, .fmsub 0 true 3 1 2 4,
    .fnmsub 0 true 3 1 2 4, .fnmadd 0 true 3 1 2 4], base.ready 0 i = true ∧ fget ((base.thr 0).c 1) 5 7 = 0)
    ∧ (let s := th (fun x => ((third x).setC 0 0x69).setC 1 0xFE0);
      s.ready 0 (.fadd 0 false 3 1 2) = true ∧ fget ((s.thr 0).c 0) 0 2 = 1 ∧ (s.thr 0).enc = false ∧ bit ((s.thr 0).c 0x017) 0 = false
        ∧ fget ((s.thr 0).c 1) 5 7 &&& (fmt64.add (fget ((s.thr 0).c 1) 0 2) (s.fv 0 false 1) (s.fv 0 false 2)).2 ≠ 0) := by decide +kernel
theorem wit_FloatToInteger : ∀ i ∈ [Instr.feq 0 true 3 1 2, .flt 0 true 3 1 2, .fle 0 true 3 1 2, .fcvti 0 true 3 1, .fcvtiu 0 false 3 1],
    base.ready 0 i = true ∧ fget ((base.thr 0).c 1) 5 7 = 0 := by decide +kernel
theorem wit_ConditionalBranches : ∀ i ∈ [Instr.beq 0 1 1 false 4, .bne 0 1 1 true 4, .blt 0 1 2 false 4, .bge 0 1 2 true 4, .bltu 0 1 2 false 4,
    .bgeu 0 1 2 true 4], base.ready 0 i = true := by decide +kernel
theorem wit_JumpsAndCalls : (∀ i ∈ [Instr.j 0 4, .jr 0 1], base.ready 0 i = true)
    ∧ (∀ i ∈ [Instr.call 0 4, .callr 0 1], (th fun x => x.setC 0x1C0 0xF0).ready 0 i = true ∧ fget (0xF0#64) 4 5 = 15)
    ∧ ((th fun x => x.setC 0x1C0 0x10).ready 0 (.ret 0) = true ∧ fget ((base.thr 0).c 0x1C0) 4 5 = 0 ∧ base.ready 0 (.ret 0) = true)
    ∧ ((th fun x => x.setC 0x1C0 0x100).ready 0 (.call 0 4) = true ∧ fget (0x100#64) 4 5 = 16 ∧ bit (0x100#64) 0 = false) := by decide +kernel
theorem wit_LoadsComplete :
    (let i := Instr.load 0 3 1 6 false 0;
      base.ready 0 i = true ∧ addrIs ((base.acting 0 i).addr 0 .load (base.g 0 1) 8 false) (ls0 + 0x2000) 0 = true
      ∧ (base.thr 0).storeQ = [] ∧ (base.decOf 0).part = [] ∧ pieceLen (ls0 + 0x2000) 8 = 8 ∧ base.lsOf (ls0 + 0x2000) = some (0, 0x2000)
      ∧ own base 0x2000 (zeros 8) = true)
    ∧ (let s := base.setDec 0 { Decoupled.reset with part := zeros 8 }; let i := Instr.load 0 2 1 7 false 0;
      s.ready 0 i = true ∧ addrIs ((s.acting 0 i).addr 0 .load (s.g 0 1) 16 false) (ls0 + 0x2000) 0 = true ∧ (s.thr 0).storeQ = []
      ∧ (s.decOf 0).part.length = 8 ∧ pieceLen (ls0 + 0x2008) 8 = 8 ∧ own s 0x2008 (zeros 8) = true)
    ∧ (let p : PendStore := ⟨ls0 + 0x2000, bytesOf 8 0x1122, 0⟩; let s := th fun x => { x with storeQ := [p] }; let i := Instr.load 0 3 1 1 false 1;
      s.ready 0 i = true ∧ addrIs ((s.acting 0 i).addr 0 .load 0x2001 1 false) (ls0 + 0x2001) 0 = true ∧ (s.thr 0).storeQ = [] ++ [p]
      ∧ p.meets (ls0 + 0x2001) 1 = true ∧ p.pa ≤ ls0 + 0x2001 ∧ ls0 + 0x2001 + 1 ≤ p.pa + p.data.length)
    ∧ (let i := Instr.loadx 0 3 1 6 false 2 1;
      base.ready 0 i = true ∧ modeIs (base.mode 0 1 2 1 8) 0x2000 0x2008 = true
      ∧ addrIs ((base.acting 0 i).addr 0 .load 0x2000 8 false) (ls0 + 0x2000) 0 = true)
    ∧ (let i := Instr.ldi 0 3 0 6 true 0;
      base.ready 0 i = true ∧ addrIs ((base.acting 0 i).addr 0 .ldi (base.thr 0).pc 8 false) (ls0 + 0x1000) 0 = true
      ∧ base.lsOf (ls0 + 0x1000) = some (0, 0x1000) ∧ own base 0x1000 (zeros 8) = true) := by decide +kernel
theorem wit_LoadValues : ∀ k ∈ [0, 1, 2, 3, 4, 5, 6, 7, 8, 9], (zeros (szOf k)).length = szOf k := by decide +kernel
theorem wit_StoresQueue :
    (let i := Instr.store 0 2 1 6 false 0;
      base.ready 0 i = true ∧ addrIs ((base.acting 0 i).addr 0 .store (base.g 0 1) 8 false) (ls0 + 0x2000) 0 = true
      ∧ (base.acting 0 i).saqRoom 0 1 = true)
    ∧ (let i := Instr.storex 0 2 1 6 false 2 1;
      base.ready 0 i = true ∧ modeIs (base.mode 0 1 2 1 8) 0x2000 0x2008 = true
      ∧ addrIs ((base.acting 0 i).addr 0 .store 0x2000 8 false) (ls0 + 0x2000) 0 = true ∧ (base.acting 0 i).saqRoom 0 1 = true) := by
  decide +kernel
theorem wit_StoreCommit : ∀ q ∈ [(⟨ls0 + 0x3FFFF8, bytesOf 8 7, 0⟩ : PendStore), ⟨ls0 + 0x2004, bytesOf 8 7, 0⟩],
    let s := th fun x => { x with storeQ := [q] };
    (s.thr 0).storeQ = q :: [] ∧ q.data ≠ [] ∧ s.lsOf q.pa = some (0, q.pa - ls0) ∧ s.dieRunning (dieOf 0) = true
      ∧ s.lsReach 0 (some (dieOf 0)) = true := by decide +kernel
theorem wit_AtomicsComplete : base.lsOf (ls0 + 0x2000) = some (dieOf 0, 0x2000) ∧ (base.thr 0).storeQ = [] ∧ own base 0x2000 (zeros 16) = true
    ∧ (∀ q ∈ [false, true], ∀ i ∈ [Instr.swap 0 q 4 1 2, .cas 0 q 4 1 2, .fetchAdd 0 q 4 1 2, .fetchAnd 0 q 4 1 2, .fetchOr 0 q 4 1 2,
        .fetchMax 0 q 4 1 2, .fetchMaxu 0 q 4 1 2], base.ready 0 i = true
          ∧ addrIs ((base.acting 0 i).addr 0 .atomic (base.g 0 1) (if q then 16 else 8) true) (ls0 + 0x2000) 0 = true) := by decide +kernel
theorem wit_FencesComplete : (∀ i ∈ [Instr.fenceLl 0, .fenceLs 0, .fenceSs 0, .isync 0, .fenceSl 0, .fenceAll 0], base.ready 0 i = true)
    ∧ (base.thr 0).storeQ = [] := by decide +kernel
theorem wit_ControlRegisterMoves : base.ready 0 (.mfc 0 3 0x10) = true
    ∧ base.ready 0 (.mtc 0 1 0x10) = true ∧ base.ready 0 (.mtc 0 1 0x380) = true ∧ (crAt 0x380).map (·.wr) = some 4
    ∧ base.ready 0 (.keyset 0 1) = true ∧ base.ready 0 (.keyget 0 3) = true ∧ base.ready 0 (.rdpmc 0 3 1) = true ∧ 8 ≤ (base.g 0 1).toNat
    ∧ base.ready 0 (.rdpmc 0 3 2) = true ∧ (base.g 0 2).toNat = 5 ∧ bit ((base.thr 0).c 0x300) 5 = false
    ∧ base.ready 0 (.mtc 0 1 0) = true ∧ bit ((base.thr 0).c 0) 3 = (fget ((base.thr 0).c 0) 0 2 == 3 || bit ((base.thr 0).c 0) 2) := by decide +kernel
theorem wit_TrapInstructions : let s := status 0x69; let x := s.thr 0;
    s.canIssue 0 = true ∧ s.latent = [] ∧ (s.core (coreKey 0)).tlbBad = [] ∧ s.sec.stepping.contains 0 = false
    ∧ ((s.running 0).fetchTrap 0).isNone = true ∧ x.enc = false ∧ x.slot = none
    ∧ (∀ p ∈ [(Instr.brk 0 4, 1, 0), (.sysc 0 4, 1, 0), (.hvc 0 4, 2, 0), (.monc 0 4, 3, 0), (.cust 0 1 1, (1 : Nat), (5 : Nat))],
      (s.running 0).decodeCode 0 p.1 = p.2.2 ∧ bit (x.c (0x10 + (max p.2.1 1 - 1) * 0x20 + 7)) 0 = false) := by decide +kernel
theorem wit_ExceptionReturn : let s := th fun x => x.setC 0x57 1;
    s.ready 0 (.eret 0) = true ∧ bit ((s.thr 0).c 0x57) 1 = false ∧ s.mcPend = [] := by decide +kernel
theorem wit_RepeatPrefix : let w := encode (.add 0 3 3 2);
    base.ready 0 (.repN 0 63 w) = true ∧ ((base.running 0).repFetch 0).isNone = true ∧ (base.running 0).repTarget 0 w none = some (.add 0 3 3 2)
    ∧ (base.thr 0).repLeft = none ∧ (let s := th fun x => x.setGr 4 64;
      s.ready 0 (.repG 0 4 w) = true ∧ (s.running 0).repTarget 0 w (some 4) = some (.add 0 3 3 2) ∧ (s.g 0 4).toNat = 64) := by decide +kernel
/-- Entry 63 of the decode table: one ADD micro-op over F1, F2 and F3. -/
def entry63 : DtEntry := ⟨1, [0x04221800]⟩
theorem wit_DecodeTableInstruction : let s := base.setCore 0 { base.core 0 with dt := [(63, entry63)] };
    s.ready 0 (.udi 0 63 3 1 2 0) = true ∧ SMap.find? (s.core (coreKey 0)).dt 63 = some entry63 ∧ fget entry63.hdr 2 4 = 0
    ∧ uOp 0x04221800 = 0x01 ∧ uDst 0x04221800 = 1 ∧ uSa 0x04221800 = 2 ∧ uSb 0x04221800 = 3 := by decide +kernel
theorem wit_ContextInstructions : (∀ i ∈ [Instr.rssave 0 1, .rsload 0 1, .dtload 0 1 2], base.ready 0 i = true)
    ∧ areaIs ((base.acting 0 (.rssave 0 1)).areaCheck 0 .store (base.g 0 1) 136) [(ls0 + 0x2000, 0, 136)] = true
    ∧ (base.acting 0 (.rssave 0 1)).saqRoom 0 17 = true
    ∧ areaIs ((base.acting 0 (.rsload 0 1)).areaCheck 0 .load (base.g 0 1) 136) [(ls0 + 0x2000, 0, 136)] = true
    ∧ areaIs ((base.acting 0 (.dtload 0 1 2)).areaCheck 0 .load (base.g 0 1) 72) [(ls0 + 0x2000, 0, 72)] = true
    ∧ (∀ n ∈ [72, 136], ∀ i < 17, 8 * i < n → areaAt [(ls0 + 0x2000, 0, n)] (8 * i) = (ls0 + 0x2000 + 8 * i, 0) ∧ own base (0x2000 + 8 * i) (zeros 8) = true)
    ∧ (base.thr 0).storeQ = [] ∧ (imageResult (1 :: 0x04221800 :: List.replicate 7 0)).1 = 0 := by decide +kernel
theorem wit_EnclaveEntryAndExit :
    (let s := status 0x60 (th (fun x => x.setGr 4 1) enc0); let s1 := (s.acting 0 (.encrun 0 4 5)).pmEvent 0 2;
      let v0 := (s1.encDw 0 1 0).2; let v1 := (v0.encDw 0 1 1).2; let v2 := (v1.encDw 0 1 2).2; let v3 := (v2.encDw 0 1 3).2;
      s.ready 0 (.encrun 0 4 5) = true ∧ fget ((s.thr 0).c 0) 0 2 = 0 ∧ bit (s.g 0 4) 15 = false ∧ (s1.encDw 0 1 0).1 = some 2
      ∧ (v0.encDw 0 1 1).1 = some 0x1000 ∧ (v1.encDw 0 1 2).1 = some 0x300000 ∧ (v2.encDw 0 1 3).1 = some 0 ∧ (v3.thr 0).vmid = 0
      ∧ (v3.slotSet 0 1 0 1).saveFault 0 0x300000 0 = none)
    ∧ (let s := status 0x64 (th (fun x => { x.setC 0x500 1 with encSave := 0x300000 }) enc0); let s1 := (s.acting 0 (.encdone 0 4)).pmEvent 0 2;
      s.ready 0 (.encdone 0 4) = true ∧ s1.saveFault 0 (s.thr 0).encSave (s.thr 0).encKs = none
      ∧ (s1.encDw 0 (fget ((s.thr 0).c 0x500) 0 12) 3).1 = some 0) := by decide +kernel
def ioEntry : TlbSlot := page 0x5000 0x5000 2 0x49
theorem wit_TranslationInstructions :
    (let s := th fun x => (x.setC 0x100 ioEntry.sv).setC 0x101 ioEntry.sp;
      s.ready 0 (.tlbwRnd 0) = true ∧ 2 ≤ fget ((s.thr 0).c 0) 0 2 ∧ ioEntry.type = 2 ∧ 12 ≤ ioEntry.size ∧ ioEntry.size ≤ 48
      ∧ ioEntry.vpn % 2 ^ ioEntry.size = 0 ∧ ioEntry.ppn % 2 ^ ioEntry.size = 0 ∧ ioEntry.ppn + 2 ^ ioEntry.size ≤ 0xFE0008000000
      ∧ ioEntry.kslot = 0 ∧ ioEntry.mon = false ∧ ioEntry.encl = false ∧ ((s.core 0).rndSlot).map (·.1) = some 3
      ∧ s.ready 0 (.tlbwSlot 0 2) = true ∧ bit ((s.core 0).c 0x10C) (fget (s.g 0 2) 0 6) = false
      ∧ insIs ((s.acting 0 (.tlbwRnd 0)).tlbw 0 none) 3 ioEntry = true
      ∧ insIs ((s.acting 0 (.tlbwSlot 0 2)).tlbw 0 (some (fget (s.g 0 2) 0 6))) 5 ioEntry = true)
    ∧ (∀ i ∈ [Instr.tlbrd 0 2, .tlbfind 0 3, .tlbiVa 0 1 2, .tlbiAsid 0 2, .tlbiVmid 0 2, .tlbiAll 0, .gpmr 0 2, .gpmi 0, .ownersync 0],
      base.ready 0 i = true) ∧ fget ((base.thr 0).c 0) 0 2 = 3
    ∧ (∀ z ∈ [12, 48], let x := (base.thr 0).setC 0x110 (BitVec.ofNat 64 (z * 32));
      (th fun _ => x).ready 0 (.gpmw 0 2) = true ∧ fget (x.c 0x110) 5 6 = z ∧ fget (x.c 0x110) 12 40 * 4096 % 2 ^ z = 0
      ∧ fget (x.c 0x111) 12 40 * 4096 % 2 ^ z = 0) := by decide +kernel
theorem wit_TranslationOutcome : base.tlbMatch 0 1 0x9000 = none ∧ base.tlbMatch 0 0 0x1000 = some (0, page 0x1000 (ls0 + 0x1000) 0 0x69)
    ∧ (Use.fetch.space = 0 ∧ permCode (page 0x1000 (ls0 + 0x1000) 0 0x69) (base.thr 0) .fetch = 0)
    ∧ (let e := page 0x2000 (ls0 + 0x2000) 1 0xE1; let s := base.setCore 0 { base.core 0 with tlb := [(1, e)] };
      s.tlbMatch 0 1 0x2008 = some (1, e) ∧ (Use.load.reads = true ∧ e.r = false) ∧ (Use.store.writes = true ∧ e.w = false)) := by decide +kernel
theorem wit_CutInstructions :
    (let s := th (fun x => x.setC 0x388 8) td0;
      s.ready 0 (.cutreq 0 3 0) = true ∧ s.domEn 0 = true ∧ (s.thr 0).c 0x388 ≠ 0 ∧ (s.thr 0).storeQ = [])
    ∧ (base.ready 0 (.cutwait 0 3 1) = true ∧ (base.running 0).ticketStatus (base.g 0 1) ≠ 2 ∧ base.ready 0 (.cutstat 0 3 1) = true)
    ∧ (base.rd (F.TDn_CFG_EN 0) = 0 ∧ td0.rd (F.TDn_CFG_EN 0) = 1 ∧ td0.rd (F.TDn_TAKE_OPEN 0) % 2 ^ 61 < 6
      ∧ 5 ≤ td0.rd (F.TDn_TAKE_OPEN 0) % 2 ^ 61 ∧ td0.rd (F.TDn_SPOIL_FIRST 0) = 0 ∧ 3 ≤ td0.rd (F.TDn_CUT_LAST 0) % 2 ^ 61
      ∧ td0.rd (F.TDn_CUT_LAST 0) % 2 ^ 61 < 4)
    ∧ (let s := set [(F.TDn_SPOIL_FIRST 0, 4), (F.TDn_STAT_SPOILED 0, 1)] td0;
      s.rd (F.TDn_SPOIL_FIRST 0) ≠ 0 ∧ s.rd (F.TDn_SPOIL_FIRST 0) % 2 ^ 61 ≤ 4 ∧ s.rd (F.TDn_STAT_SPOILED 0) = 1) := by decide +kernel
/-- The slate is SETTLED at 10000 with no uncertainty beyond 2 units. -/
def slated : State := set [(F.SLATE_STAT_STATE, 3)] { base with slate := 10000 }
theorem wit_SlateAndWait : slated.ready 0 (.rdslate 0 3) = true ∧ base.ready 0 (.rdslate 0 3) = true ∧ slated.ready 0 (.rdslateu 0 3 4) = true
    ∧ (slated.ready 0 (.slatewait 0 3 1) = true ∧ slated.rd F.SLATE_STAT_STATE ≠ 0
      ∧ (slated.g 0 1).toNat < 10000 - ((slated.rd F.SLATE_UNC_PS + 164) / 125 + 1))
    ∧ (let s := th (fun x => { x with run := .slateWait 3 9 }) slated;
      (s.thr 0).run = .slateWait 3 9 ∧ s.coreOn 0 = true)
    ∧ (base.ready 0 (.wait 0) = true ∧ (base.acting 0 (.wait 0)).wakes 0 = false)
    ∧ (let s : State := { th (fun x => x.setC 0x57 1) (set [(F.CORE_MAPl_POP 0 0, 1)] base) with mcPend := [(0x80, 0)] };
      s.ready 0 (.wait 0) = true ∧ (s.acting 0 (.wait 0)).wakes 0 = true) := by decide +kernel
theorem wit_VectorOperations : (∀ i ∈ [Instr.vbcast 0 3 1 0, .vins 0 3 1 7, .vmov 0 3 1, .compress 0 3 1 2 3, .unpack 0 3 1 2 3, .vhash 0 3 1 2,
    .vext 0 3 1 7, .pscan 0 3 1 2 3 13, .vcrc 0 3 1, .vcnt 0 3 1, .redmin 0 3 1 2 0 0, .redmin 0 3 1 0 0 1, .redmax 0 3 1 2 0 0,
    .redmax 0 3 1 2 3 1, .redmin 0 3 1 2 3 2, .redmax 0 3 1 2 3 3], base.ready 0 i = true) := by decide +kernel
/-- What a stream witness of thread 0 needs besides its bytes. -/
def streams (i : Instr) (va : Word) (len align o : Nat) : Bool :=
  strm.ready 0 i && canonical va && va.toNat % align == 0 && decide (va.toNat % 4096 + len ≤ 4096) && strm.lsOf (ls0 + o) == some (dieOf 0, o)
    && match (strm.acting 0 i).xlate 0 .load va with | .ok pa _ => pa == ls0 + o | .fail _ _ => false
theorem wit_StreamOperations : streams (.sload 0 3 1 true) (strm.g 0 1) 64 1 0x2000 = true ∧ streams (.sscan 0 3 1 2 0 0) (strm.g 0 1) 512 1 0x2000 = true
    ∧ streams (.sscan 0 3 1 2 3 0) (strm.g 0 1) 4096 8 0x2000 = true ∧ streams (.sgather 0 3 4 2 3 1) (block4k (strm.g 0 4)) 4096 1 0x2000 = true
    ∧ streams (.sdict 0 3 4 2 3 1) (block4k (strm.g 0 4)) 4096 1 0x2000 = true ∧ streams (.saccadd 0 3 1) (strm.g 0 1) 576 64 0x2000 = true
    ∧ (strm.thr 0).storeQ = [] ∧ strm.mem.lsPoison = [] := by decide +kernel
theorem wit_StreamOperations_bytes : ∀ i, i < 4096 → SMap.find? strm.mem.ls (0x2000 + i) = (List.replicate 4096 (0 : Byte))[i]? := by
  intro i hi
  have h := SMap.find?_range' 0x2000 1 (0 : Byte) 4096 0 i (Nat.zero_le i) (by omega)
  rw [Nat.one_mul] at h
  have e : strm.mem.ls = zerosAt 0x1000 128 ++ (List.range' 0 4096).map fun i => (0x2000 + 1 * i, (0 : Byte)) := rfl
  rw [e, List.getElem?_replicate, if_pos hi, ← h]
  generalize (List.range' 0 4096).map (fun i => (0x2000 + 1 * i, (0 : Byte))) = m
  have k : ∀ l : SMap Byte, (∀ c ∈ l, c.1 < 0x2000) → SMap.find? (l ++ m) (0x2000 + i) = SMap.find? m (0x2000 + i) := by
    intro l hl
    induction l with
    | nil => rfl
    | cons c l ih =>
      have := hl c (by simp)
      rw [List.cons_append, SMap.find?, if_neg (by omega)]
      exact ih fun d hd => hl d (by simp [hd])
  exact k _ (by decide +kernel)
theorem wit_AccumulatorOperations : (∀ i ∈ [Instr.aclr 0 3, .aaddi 0 3 1 2 3 0x7F, .acnt 0 3 1, .aaddf 0 3 1 2 0 0x3F, .aaddf 0 3 1 2 1 0,
    .amacf 0 3 2 2 1 0, .ardi 0 3 1 true, .ardw 0 3 1 71, .awrw 0 3 1 0, .awrw 0 3 1 71, .ardf 0 3 1], base.ready 0 i = true)
    ∧ fget ((base.thr 0).c 1) 5 7 = 0 := by decide +kernel
/-- The base state with accumulator 3 of thread 0 holding a. -/
def ac3 (a : SumAcc) : State := th fun x => { x with acc := [(3, a)] }
theorem wit_AccumulatorReadout : (∀ a ∈ [{ SumAcc.zero with nan := true }, { SumAcc.zero with pinf := true, ninf := true }, { SumAcc.zero with pinf := true },
      { SumAcc.zero with ninf := true }, SumAcc.zero, { SumAcc.zero with fx := 1 }, { SumAcc.zero with fx := BitVec.allOnes 4224 }],
    (ac3 a).ready 0 (.ardf 0 3 1) = true ∧ (ac3 a).ac 0 3 = a ∧ fget (((ac3 a).thr 0).c 1) 5 7 = 0)
    ∧ fmt64.roundInt 0 1 (-2148) false = (0, 0x0C) ∧ fmt64.roundInt 0 (-1) (-2148) false = (0x8000000000000000, 0x0C) := by decide +kernel
/-- The I/O page holds THR_PC of die 0, and g4 points to it. -/
def thrPc : State :=
  (th fun x => x.setGr 4 (BitVec.ofNat 64 (0x3000 + A.THR_PC 0 % 4096))).setCore 0
    { base.core 0 with tlb := SMap.put pages 2 (page 0x3000 (A.THR_PC 0 / 4096 * 4096) 2 0xF9) }
theorem wit_IoAccesses : let s := th fun x => x.setGr 4 0x3000;
    (let i := Instr.iold 0 3 4 6 0;
      s.ready 0 i = true ∧ addrIs ((s.acting 0 i).addr 0 .iold 0x3000 8 true) 0xFE0008000000 0 = true ∧ (s.acting 0 i).ioAt 0xFE0008000000 = .reg)
    ∧ (let i := Instr.iost 0 2 4 6 0;
      s.ready 0 i = true ∧ addrIs ((s.acting 0 i).addr 0 .iost 0x3000 8 true) 0xFE0008000000 0 = true ∧ (s.thr 0).storeQ = []
      ∧ (((s.acting 0 i).ioWrite (some 0) ((s.acting 0 i).thr 0).pl 0xFE0008000000 8 (BitVec.ofNat 64 (ofBytes (bytesOf 8 (s.g 0 2).toNat)))).thr 0).run ≠ .halted)
    ∧ (let s := thrPc; let i := Instr.iold 0 3 4 6 0; let j := Instr.iost 0 2 4 6 0;
      s.ready 0 i = true ∧ addrIs ((s.acting 0 i).addr 0 .iold (s.g 0 4) 8 true) (A.THR_PC 0) 0 = true
      ∧ s.ready 0 j = true ∧ addrIs ((s.acting 0 j).addr 0 .iost (s.g 0 4) 8 true) (A.THR_PC 0) 0 = true
      ∧ (s.thr 0).storeQ = [] ∧ fget ((s.thr 0).c 0) 0 2 = 3) := by decide +kernel
/-! Witnesses for the coherence, take and power commands. -/

/-- Dies 0 and 1 are RUNNING, package 1 is a member, and line 0x8080 lies in memory. -/
def two : State := set [(F.PKG_DIEd_STATE 1, 0), (F.DL_STAT_STATE 2, 2), (F.GRP_STAT_MEMBER, 3)] mem0
/-- Line 0x8080 as the record says. -/
def ln (r : LineRec) (s : State := two) : State := s.setLine 0x8080 r
def msg (k : MsgKind) (a : Agent) (s : State) : State := { s with msgs := [⟨k, a, 0x8080, false, 0, [], false, false⟩] }
def busy (q : HomeReq) (snp evx : List Agent) : Option HomeTxn := some ⟨q, snp, evx, false⟩
def ownedBy1 : LineRec := { LineRec.empty with dir := .owned, dp := [1], st := [(1, .m)] }
def sharedBy (fh : Option Nat) : LineRec := { LineRec.empty with dir := .shared, dp := [0, 1], fh := fh, st := [(0, .s), (1, .s)] }
theorem wit_CoherenceRequests : (∀ a ∈ [Agent.die 0, .pkg 1], two.hears a = true ∧ two.reaches a = true ∧ two.hasCredit a = true ∧ a ≠ .hub)
    ∧ (two.homedHere (0x8080 * 64) = true ∧ two.cacheable (0x8080 * 64) = true ∧ two.dirFull 0x8080 = false)
    ∧ (SMap.find? (two.line 0x8080).evict 0 = none ∧ two.miss = [] ∧ l2MissRoom [] 5 = true)
    ∧ (let s : State := { two with miss := [(0, [⟨0x8080, 0⟩])] }; s.demand 0 0x8080 = true)
    ∧ ((ln { LineRec.empty with txn := busy (.rdS (.die 1)) [] [] }).line 0x8080).txn = busy (.rdS (.die 1)) [] []
    ∧ ((two.line 0x8080).txn = none ∧ (two.line 0x8080).queue = [] ∧ (two.line 0x8080).dir = .free ∧ (two.line 0x8080).stOf 0 = .i)
    ∧ ((ln ownedBy1).line 0x8080).dir = .owned ∧ ((ln ownedBy1).line 0x8080).stOf 0 = .i ∧ ((ln ownedBy1).line 0x8080).txn = none
    ∧ (∀ fh ∈ [some 1, none], let r := (ln { sharedBy fh with dp := [1], st := [(1, .s)] }).line 0x8080
      r.dir = .shared ∧ r.fh = fh ∧ r.stOf 0 = .i ∧ r.txn = none)
    ∧ (let r := (ln (sharedBy none)).line 0x8080
      r.txn = none ∧ r.dir = .shared ∧ r.present (.die 0) = true ∧ r.stOf 0 = .s)
    ∧ (two.cacheable 0x202000 = true ∧ two.homedHere 0x202000 = true ∧ two.lsOf 0x202000 = none ∧ 0x202000 / 64 = 0x8080) := by decide +kernel
/-- A local-store message from die 1 to die 0. -/
def lsm (k : MsgKind) (bs : List Byte) : State := { two with msgs := [⟨k, .die 0, ls0 + 0x2000, false, 1, bs, false, true⟩] }
theorem wit_UncachedAccesses : two.lsOf (ls0 + 0x2000) = some (0, 0x2000) ∧ two.lsOf (ls0 + 2 * lsSize) = some (2, 0)
    ∧ (∀ d ∈ [0, 1], two.dieRunning d = true ∧ two.linked d = true) ∧ two.dieRunning 2 = false ∧ two.member 1 = true
    ∧ ([7, 9].length ≤ 64 - (ls0 + 0x2000) % 64)
    ∧ (lsm .snpLsw [7, 9]).lsMsg .snpLsw 0 (ls0 + 0x2000) (fun b => b == [7, 9]) = some ⟨.snpLsw, .die 0, ls0 + 0x2000, false, 1, [7, 9], false, true⟩
    ∧ (lsm .snpLsr [0, 0]).lsMsg .snpLsr 0 (ls0 + 0x2000) (fun b => b.length == 2) = some ⟨.snpLsr, .die 0, ls0 + 0x2000, false, 1, [0, 0], false, true⟩
    ∧ (∃ m ∈ (msg .goNc (.die 0) two).msgs, m.kind = .goNc ∧ m.agent = .die 0) := by decide +kernel
def heldM : LineRec := { LineRec.empty with dir := .owned, dp := [0], st := [(0, .m)], data := some 5 }
theorem wit_SnoopsAndAnswers : (two.dieRunning 0 = true ∧ two.linked 0 = true ∧ two.homedHere (0x8080 * 64) = true)
    ∧ (∀ k ∈ [MsgKind.snpS, .snpX, .snpCur, .snpBinv], let s := msg k (.die 0) (ln heldM)
      s.hasMsg k (.die 0) 0x8080 = true ∧ (s.line 0x8080).snoopWaits 0 = false ∧ SMap.find? (s.line 0x8080).evict 0 = none)
    ∧ (∀ k ∈ [MsgKind.snpS, .snpX, .snpCur, .snpBinv], let s := msg k (.die 0) (ln { heldM with hold := [0] })
      s.hasMsg k (.die 0) 0x8080 = true ∧ (s.line 0x8080).snoopWaits 0 = true)
    ∧ (∀ k ∈ [MsgKind.snpS, .snpX, .snpCur, .snpBinv], let s := msg k (.die 0) (ln { LineRec.empty with evict := [(0, ⟨true, false⟩)] })
      s.hasMsg k (.die 0) 0x8080 = true ∧ (s.line 0x8080).snoopWaits 0 = false ∧ SMap.find? (s.line 0x8080).evict 0 ≠ none)
    ∧ (∀ k ∈ [MsgKind.rspI, .rspS, .fwd true, .rspEvx], let s := msg k (.die 0) (ln { heldM with txn := busy (.rdX (.die 1)) [.die 0] [] })
      s.hasMsg k (.die 0) 0x8080 = true ∧ (s.line 0x8080).txn = some ⟨.rdX (.die 1), [.die 0], [], false⟩ ∧ (s.line 0x8080).queue = []
      ∧ (s.line 0x8080).evict = [] ∧ ∀ m ∈ s.msgs, m.agent ≠ .die 1) := by decide +kernel
theorem wit_GrantsAndEvictions : (two.dieRunning 0 = true ∧ two.linked 0 = true)
    ∧ (∀ k ∈ [MsgKind.goE, .goF, .goS], let s := msg k (.die 0) (ln { LineRec.empty with gotDat := [(0, true)] })
      s.hasMsg k (.die 0) 0x8080 = true ∧ (s.line 0x8080).stOf 0 = .i ∧ SMap.find? (s.line 0x8080).gotDat 0 = some true
      ∧ (s.line 0x8080).pd = false ∧ (s.line 0x8080).queue = [])
    ∧ (∀ k ∈ [MsgKind.goE, .goF, .goS], let s := msg k (.die 0) two
      s.hasMsg k (.die 0) 0x8080 = true ∧ SMap.find? (s.line 0x8080).gotDat 0 = none)
    ∧ (let s := msg .goE (.die 0) (ln (sharedBy none))
      s.hasMsg .goE (.die 0) 0x8080 = true ∧ (s.line 0x8080).stOf 0 = .s)
    ∧ (let s := msg (.dat true) (.die 0) (ln { LineRec.empty with gotGo := [(0, .e)] })
      s.hasMsg (.dat true) (.die 0) 0x8080 = true ∧ SMap.find? (s.line 0x8080).gotGo 0 = some .e)
    ∧ ((msg (.dat false) (.die 0) two).hasMsg (.dat false) (.die 0) 0x8080 = true ∧ SMap.find? (two.line 0x8080).gotGo 0 = none)
    ∧ (msg .eva (.die 0) two).hasMsg .eva (.die 0) 0x8080 = true
    ∧ (∀ r ∈ [{ heldM with pd := true }, { ownedBy1 with dp := [0], st := [(0, .e)] }], let s := ln r
      ((s.line 0x8080).stOf 0 = .m ∨ (s.line 0x8080).stOf 0 = .e) ∧ (s.line 0x8080).undoP = [] ∧ s.evictCount 0 < 64
      ∧ (s.line 0x8080).txn = none ∧ s.msgs = [])
    ∧ two.homedHere (0x8080 * 64) = true := by decide +kernel
/-! Domain 0: enabled, its PERSISTENT region over the memory, its reel held by a second persistent region. -/

def ue : UndoEntry := ⟨0x8080, 0, 0, false, 5, 7⟩
/-- The state of domain 0 given. -/
def dm (f : TakeDom → TakeDom) (s : State) : State := s.setDom 0 (f (s.dom 0))
/-- Line 0x8080 belongs to domain 0; take 5 is open and take 3 the last cut. -/
def pd0 : State :=
  set [(F.PRT_ATTRn_MTYPE 0, 1), (F.TDn_CFG_EN 0, 1), (F.TDn_TAKE_OPEN 0, 5), (F.TDn_CUT_LAST 0, 3), (F.TDn_SEG0_GIB 0, 4)] two
/-- Domain 0 spans packages 0 and 1; lead: which of them leads it. -/
def span (lead : Nat) (s : State := pd0) : State := set [(F.TDn_CFG_SPAN 0, 1), (F.TDn_CFG_LEAD 0, lead)] s
/-- Line 0x8080, dirty in die 0's cluster 0, of the cutting take 4. -/
def dirty0 : LineRec := { heldM with pd := true, parity := false }
/-- It lies in that L2. -/
def l2h (s : State) : State := { ln dirty0 s with caches := [(l2No 0, [⟨0x8080, 0, true⟩])] }
/-- An undo entry is accepted and not yet persistent. -/
def unp (s : State) : State := { s with accepted := 2, staged := [⟨1, ue⟩] }
theorem wit_GrantsAndEvictions_held : let s := unp (ln { heldM with pd := true } pd0);
    s.domOf (0x8080 * 64) = some 0 ∧ s.rolling 0 = false ∧ s.persisted < s.accepted ∧ s.mem.held = [] ∧ (s.line 0x8080).data = some 5
      ∧ (s.line 0x8080).queue = [] := by decide +kernel
theorem wit_UndoAndSweep : (pd0.dieRunning 0 = true ∧ pd0.linked 0 = true)
    ∧ (let s : State := { pd0 with undoOut := [(0, ue)] };
      (0, ue) ∈ s.undoOut ∧ (s.swbOut.any fun w => w.line == ue.line && !w.sent) = false ∧ s.undoRoom ue.dom ue.take = true
      ∧ s.homedHere (ue.line * 64) = true ∧ s.homedHere ((2 ^ 42 + 0x8080) * 64) = false)
    ∧ (let s := set [(F.TDn_HEAD_OFFSET 0, 0xF0000000)] pd0; s.undoRoom ue.dom ue.take = false)
    ∧ (pd0.member 1 = true ∧ (span 0).spansHere 0 0x8080 = true ∧ (span 0).undoRoom 0 5 = true)
    ∧ (msg .undoAcc (.die 0) pd0).hasMsg .undoAcc (.die 0) 0x8080 = true ∧ (msg .swbAcc (.die 0) pd0).hasMsg .swbAcc (.die 0) 0x8080 = true
    ∧ (let m : SwbOut := ⟨0, 0, 0x8080, 9, false, 0, false⟩;
      List.find? (fun (w : SwbOut) => w.die == 0 && w.dom == 0 && w.line == 0x8080 && !w.sent) ({ unp pd0 with swbOut := [m] } : State).swbOut = some m
      ∧ (unp pd0).persisted < (unp pd0).accepted ∧ (unp pd0).mem.held = [] ∧ (unp pd0).rolling 0 = false)
    ∧ (let s := { dm (fun x => { x with step := .advance, acks := [51] }) pd0 with views := [(51 * 8, 5)] };
      51 ∈ (s.dom 0).acks ∧ (s.dom 0).acks = [51] ∧ (s.dom 0).step = .advance ∧ (s.view 51 0).toNat = s.openTake 0 ∧ s.writing 51 0 = false)
    ∧ (let s := dm (fun x => { x with step := .sweep, l2Left := [0] }) (l2h pd0);
      (s.dom 0).step = .sweep ∧ 0 ∈ (s.dom 0).l2Left ∧ 0 ∉ (s.dom 0).did ∧ dirty0.dirtyIn 0 (s.openTake 0 % 2 == 0) = true ∧ dirty0.stOf 0 ≠ .i
      ∧ s.l2Holds 0 0x8080 = true ∧ dirty0.undoP = [])
    ∧ (let s := dm (fun x => { x with step := .sweep, l2Left := [0], did := [0] }) (set [(F.TDn_STAT_CUTTING 0, 1)] pd0);
      (s.dom 0).did = [0] ∧ (s.dom 0).l2Left = [0] ∧ (s.dom 0).l3Left = [] ∧ (s.dom 0).pkgLeft = [] ∧ s.rd (F.TDn_CFG_SPAN 0) = 0 ∧ s.swbOut = []
      ∧ s.rd (F.TDn_STAT_CUTTING 0) = 1)
    ∧ (let s := dm (fun x => { x with purgeL2 := [0] }) (set [(F.TDn_STAT_ROLLING 0, 1), (F.TDn_STAT_SPOILED 0, 1)] (l2h pd0));
      s.rolling 0 = true ∧ 0 ∈ (s.dom 0).purgeL2 ∧ 0 ∉ (s.dom 0).did ∧ s.domOf (0x8080 * 64) = some 0 ∧ s.l2Holds 0 0x8080 = true)
    ∧ (let s := dm (fun x => { x with purgeL2 := [0], did := [0] }) (set [(F.TDn_STAT_ROLLING 0, 1), (F.TDn_STAT_SPOILED 0, 1)] pd0);
      s.rolling 0 = true ∧ (s.dom 0).did = [0] ∧ (s.dom 0).purgeL2 = [0] ∧ (s.dom 0).purgeL3 = [] ∧ (s.dom 0).rollRun = false) := by decide +kernel
def blk (k : BlockKind) : ReelBlock := ⟨7, 4, k, [], [], 0, 99, 0⟩
theorem wit_CutsAndGroups : pd0.domEn 0 = true ∧ pd0.works = true ∧ pd0.follows 0 = false ∧ (span 0).leads 0 = true ∧ (span 0).member 1 = true ∧ (span 1).follows 0 = true
    ∧ (pd0.spoiled 0 = false ∧ pd0.rolling 0 = false ∧ pd0.rd (F.TDn_STAT_CUTTING 0) = 0)
    ∧ (set [(F.TDn_STAT_SPOILED 0, 1)] pd0).spoiled 0 = true ∧ (set [(F.TDn_STAT_CUTTING 0, 1)] pd0).rd (F.TDn_STAT_CUTTING 0) = 1
    ∧ (let s := set [(F.TDn_CFG_PERIOD 0, 9)] (dm (fun x => { x with openUndo := true }) pd0); s.rd (F.TDn_CFG_PERIOD 0) ≠ 0 ∧ (s.dom 0).openUndo = true)
    ∧ (((span 1).dom 0).step = .idle ∧ (span 1).spoiled 0 = false ∧ (span 1).rolling 0 = false ∧ (span 1).openTake 0 = 5)
    ∧ (let s := dm (fun x => { x with pkgLeft := [1], step := .sweep }) (span 0); s.leads 0 = true ∧ 1 ∈ (s.dom 0).pkgLeft ∧ (s.dom 0).step = .sweep)
    ∧ (let s := dm (fun x => { x with blocksOut := [blk .undo] }) pd0; ∃ b ∈ (s.dom 0).blocksOut, b.seq = 7)
    ∧ (let s := dm (fun x => { x with pkgLeft := [1], step := .gWaitSwept }) (span 0); (s.dom 0).step = .gWaitSwept ∧ s.others ≠ [])
    ∧ (let s := dm (fun x => { x with step := .gSwept }) (span 1); s.follows 0 = true ∧ (s.dom 0).step = .gSwept ∧ s.openTake 0 = 4 + 1)
    ∧ (let s := dm (fun x => { x with pkgLeft := [1], step := .marker }) (set [(F.TDn_STAT_CUTTING 0, 1)] (span 0)); (s.dom 0).step = .marker ∧ s.markerDone 0 = true ∧ s.rd (F.TDn_STAT_CUTTING 0) = 1)
    ∧ (let s := dm (fun x => { x with step := .gPrepared }) (span 1); (s.dom 0).step = .gPrepared ∧ s.openTake 0 = 4 + 1) := by decide +kernel
theorem wit_RecordsAndDomains :
    (let s := dm (fun x => { x with blocksOut := [blk .prepare], step := .gPrepare }) (span 1);
      List.find? (fun (r : ReelBlock) => r.seq == 7) (s.dom 0).blocksOut = some (blk .prepare) ∧ (s.dom 0).mayPersist (blk .prepare) = true
      ∧ (s.dom 0).step = .gPrepare ∧ s.lines = [])
    ∧ (let s := dm (fun x => { x with blocksOut := [blk .commit], step := .gCommit }) (span 1);
      (s.dom 0).mayPersist (blk .commit) = true ∧ (s.dom 0).step = .gCommit ∧ s.follows 0 = true)
    ∧ (let s := dm (fun x => { x with portsLeft := [(0, 5)], step := .marker }) pd0;
      List.find? (fun (m : Nat × Nat) => m.1 == 0) (s.dom 0).portsLeft = some (0, 5) ∧ (s.dom 0).step = .marker ∧ s.markerMet 0 5 0 = true
      ∧ (s.setWq 0 [⟨0, 1, 0, false, 0, false, false, 4⟩]).markerMet 0 5 0 = false)
    ∧ (let s := dm (fun x => { x with blocksOut := [blk .cut], step := .record }) pd0; (s.dom 0).blocksOut = [blk .cut] ∧ (s.dom 0).step = .record)
    ∧ (let s := dm (fun x => { x with rollRun := true }) (set [(F.TDn_STAT_ROLLING 0, 1), (F.TDn_STAT_SPOILED 0, 1)] pd0);
      s.rolling 0 = true ∧ (s.dom 0).rollRun = true ∧ (s.dom 0).blocksOut = [] ∧ (s.dom 0).pkgLeft = [] ∧ s.swbOut = [])
    ∧ (let s := set [(F.TDn_STAT_ROLLING 0, 1)] (span 0); s.rolling 0 = true ∧ s.leads 0 = true)
    ∧ (let v : Word := 1; bit (two.rdw (A.TDn_CFG 0)) 0 = false ∧ bit (fldsWrite D.TDn_CFG.flds (two.rdw (A.TDn_CFG 0)) v (BitVec.allOnes 64) (two.flag F.TK_LOCK_LOCK)) 0 = true)
    ∧ (let v : Word := 0x800; bit (pd0.rdw (A.TDn_SEG1 0)) 11 = false ∧ bit (fldsWrite D.TDn_SEG1.flds (pd0.rdw (A.TDn_SEG1 0)) v (BitVec.allOnes 64) false) 11 = true) := by
  decide +kernel
/-- Power in the state given, PWRGOOD high. -/
def pw (p : Power) (s : State := base) : State := { s with power := p, pins := { s.pins with pwrgood := true } }
def wr (f : WrapSt → WrapSt) (s : State) : State := { s with wrap := f s.wrap }
def pn (f : PinSt → PinSt) (s : State) : State := { s with pins := f s.pins }
def bt (f : BootSt → BootSt) (s : State) : State := { s with boot := f s.boot }
def inp : BootInput := ⟨0, 0, false, false, [], true, none, none, none⟩
theorem wit_PowerFailure : (base.power = .run ∧ base.aon.up = true ∧ base.wrap.ignored = false ∧ base.wrap.times.length ≤ 1)
    ∧ (let s := wr (fun w => { w with cause := 1, done := true, times := [0, 0] }) (pw .park); s.power = .park ∧ s.wrap.done = true ∧ s.wrap.cause = 1
      ∧ s.wrap.ignored = false ∧ s.aon.up = true ∧ 2 ≤ (s.wrap.times.filter fun t => s.now ≤ t + secUnits).length)
    ∧ (pw .run).pins.pwrgood = true ∧ ({ base with aon := { base.aon with up := false } } : State).aon.up = false
    ∧ (let s := wr (fun w => { w with gpfLeft := [3] }) (pw .wrap); s.power = .wrap ∧ s.wrap.gpfLeft = [3])
    ∧ (let s := wr (fun w => { w with cause := 1, done := true }) (pw .park);
      s.power = .park ∧ s.wrap.done = true ∧ s.wrap.cause = 1 ∧ s.wrap.ignored = false ∧ s.pins.pwrgood = true ∧ s.wrap.stuck = false)
    ∧ (let s := set [(F.WRAP_CTL_AUTORESTART, 1)] (wr (fun w => { w with cause := 2, done := true }) (pw .park));
      s.wrap.cause = 2 ∧ s.rd F.WRAP_CTL_AUTORESTART = 1 ∧ s.pins.pwrgood = true) := by decide +kernel
theorem wit_ResetsAndStarts : (base.pins.pwrgood = false ∧ base.aon.up = true ∧ base.power = .run ∧ base.vioOut = false)
    ∧ (base.pinLocked 3 = false ∧ base.pinStuck 3 = false ∧ (pw .wrap).power = .wrap) ∧ base.boot.resets = []
    ∧ (base.dieRunning 0 = true ∧ base.dieRunning 1 = false ∧ base.rd (F.DIE_RSTd_HOLD 1) = 0 ∧ 1 ∉ base.reclaims)
    ∧ (let s := set [(F.DIE_RSTd_HOLD 1, 1)] base; s.rd (F.DIE_RSTd_HOLD 1) = 1 ∧ s.rd (F.PKG_DIEd_STATE 1) = 5)
    ∧ (let s := bt (fun b => { b with slots := [1, 11] }) base; s.nextSlot = some 1 ∧ s.boot.sheet = none)
    ∧ (let s := set [(F.CLK_CTL_LOCKED 1, 1)] (bt (fun b => { b with clusters := [5, 6] }) base); s.clusterDue 1 0 = true)
    ∧ (let s := set [(F.CORE_MAPl_POP 0 1, 1)] base; s.populated 0 1 = true ∧ (s.thrN (tidOf 0 1 0)).run = .halted)
    ∧ (let s := bt (fun b => { b with rolls := [0] }) base; 0 ∈ s.boot.rolls ∧ s.follows 0 = false ∧ (bt (fun b => { b with rolls := [0] }) (span 1)).follows 0 = true) := by
  decide +kernel
theorem wit_PinsAndClocks : (base.aon.up = true ∧ base.pinLocked 4 = false ∧ base.pinStuck 4 = false ∧ base.aon.woke = none ∧ base.gaf.deep = none)
    ∧ (pw .deep).power = .deep ∧ ((pw .off).power = .off ∧ (pw .off).pins.pwrgood = true) ∧ base.vioOut = false
    ∧ (pn (fun p => { p with rails := [.vio] }) base).vioOut = true ∧ base.sl.xtalRun = true ∧ (3 ∉ [0, 1, 2, 6] ∧ 9 ∉ [0, 1, 2, 6])
    ∧ (base.pinStuck 9 = false ∧ (pn (fun p => { p with stuck := [9] }) base).pinStuck (8 + 1) = true) := by decide +kernel
theorem wit_WellAndRegisters : (8 ∈ [1, 2, 4, 8] ∧ 0 % 8 = 0 ∧ 1 ∈ [1, 2, 4, 8] ∧ 7 + 1 ≤ 8) ∧ (3 ∉ [1, 2, 4, 8] ∧ (A.THR_PC 0 + 4) % 8 ≠ 0)
    ∧ bit (1 : Word) 0 = true ∧ (base.slateState ≠ 3 ∧ slated.slateState = 3) ∧ base.powered = true
    ∧ (let s := set [(F.CAL_ALARM_EN, 1), (F.CAL_ALARM_SECONDS, 4), (F.CAL_NOW_SECONDS, 4)] base;
      s.aon.up = true ∧ s.power = .run ∧ s.rd F.CAL_ALARM_EN = 1 ∧ s.rd F.CAL_ALARM_SECONDS ≤ s.rd F.CAL_NOW_SECONDS) := by decide +kernel
def sl (f : SlateSt → SlateSt) (s : State) : State := { s with sl := f s.sl }
/-- The package is the ROOT, SETTLED at 10000. -/
def root0 : State := set [(F.SLATE_CTL_ROLE, 2)] slated
theorem wit_SlateStates : (slated.sl.xtal = false ∧ slated.works = true ∧ ({ slated with power := .park } : State).works = false) ∧ (sl (fun x => { x with xtal := true }) slated).sl.xtal = true
    ∧ (let s : State := { slated with slate := 0xFFFFFFFFFFFFFFFF }; s.slate.toNat = 2 ^ 64 - 1 ∧ s.slateState ≠ 0 ∧ s.rd F.SLATE_STAT_SATURATED = 0)
    ∧ (let s := set [(F.SLATE_STAT_SOURCE, 1), (F.SLATE_STAT_STATE, 2)] slated; s.rd F.SLATE_STAT_SOURCE ≠ 0 ∧ s.isRoot = false ∧ s.slateState = 2)
    ∧ (let s := set [(F.SLATE_STAT_STATE, 2)] (sl (fun x => { x with good := 16 }) slated); s.slateState = 2 ∧ s.sl.good = 16) ∧ slated.sl.good < 16
    ∧ (root0.isRoot = true ∧ root0.slateState ≠ 0 ∧ root0.slate.toNat = 10000 ∧ slated.isRoot = false)
    ∧ ((slated.regPut A.SLATE_CTL 2 fullMask).isRoot = true ∧ (root0.regPut A.SLATE_CTL 0 fullMask).isRoot = false)
    ∧ slated.rd F.SLATE_LOCK_LOCK = 0
    ∧ (let s := th (fun x => { (x.setC (slcmpNo 1) 5).setC (slctlNo 1) 1 with armed := 2 }) slated; let x := s.thr 0;
      bit (x.c (slctlNo 1)) 0 = true ∧ x.armed.getLsbD 1 = true ∧ s.alarmDue x 1 = true ∧ (slated.thr 0).armed.getLsbD 1 = false) := by decide +kernel
def clf0 : ClfFrame := ⟨0, 0, 0, 0, 20000, 0, 7, 5, 77, 2, 3, 0, true⟩
def pt0 : PtSym := ⟨1000, 1500, 1600, 2100, 20000, 5, 3, 1, 1, true⟩
/-- Package 0 is a member whose time comes from package 1 over P-link 0. -/
def memb : State := set [(F.PL_STATk_STATE 0, 2), (F.SLATE_CTL_LEADP, 1), (F.SLATE_STAT_STATE, 2)] slated
/-- A CLAP node below its fabric's ROOT. -/
def clapUp : State := set [(F.SLATE_CTL_ROLE, 1), (F.SLATE_CTL_UP_EN, 1), (F.SLATE_CTL_DN_EN, 1), (F.FAB_ID_ASSIGNED, 1), (F.SLATE_STAT_STATE, 2)] slated
theorem wit_TimeLinks : (mem0.timeLink 0 = some 0 ∧ mem0.dieRunning 0 = true ∧ base.assigned = false)
    ∧ SMap.find? (sl (fun x => { x with tsymOut := [(0, 9)] }) mem0).sl.tsymOut 0 = some 9 ∧ SMap.find? (sl (fun x => { x with tsymIn := [(0, 9)] }) mem0).sl.tsymIn 0 = some 9
    ∧ (memb.plinkUp 0 = true ∧ pt0.checkOk = true ∧ pt0.leadp.val = memb.rd F.SLATE_CTL_LEADP ∧ pt0.state = 3 ∧ memb.slateRole = 0
      ∧ (memb.setSl { memb.sl with ptIn := [(0, pt0)], ptAt := [(0, memb.slate)], ptSince := [(0, memb.now)], ptOk := [0] }).ptSource = some 0
      ∧ memb.sl.xtal = false ∧ memb.slateState ≠ 0)
    ∧ (clapUp.rd F.SLATE_CTL_DN_EN = 1 ∧ clapUp.assigned = true ∧ clapUp.slateRole = 1 ∧ clapUp.rd F.SLATE_CTL_UP_EN = 1
      ∧ clapUp.clfRefused clf0 = false ∧ clapUp.slateState ≠ 0 ∧ clf0.checkOk = true ∧ 2 ≤ clf0.state)
    ∧ ({ clf0 with root := 0 } : ClfFrame).root = clapUp.nodeId ∧ (sl (fun x => { x with clfIn := some clf0 }) clapUp).sl.clfIn = some clf0 := by decide +kernel
/-! Witnesses for the ports, links and PCIe. -/

def mpt (f : PortSt → PortSt) (s : State := mem0) : State := s.setPt 0 (f (s.pt 0))
def dev0 : DevInfo := ⟨false, true, true, true, 1, 4096, 0, 16, true, 60, 0, 5, true⟩
/-- A read of four lines by a requester. -/
def req (rq : Nat) : PortReq := ⟨0x8080, 4, rq, 5, 1⟩
/-- Whether line 0x8080 is in a queue, and whole. -/
def hitAt (s : State) : Option Bool := (s.portOf 0 0x8080).map fun y => s.wqHit 0 y == some true
theorem wit_MemoryPorts : (mem0.rd (F.MPn_CTL_LOCK 0) = 0 ∧ base.rd (F.MPn_CTL_EN 0) = 0 ∧ mem0.rd (F.MPn_CTL_EN 0) = 1 ∧ bit (1 : Word) 0 = true)
    ∧ mem0.setNames 0 0 = true ∧ (let s := set [(F.IS_CTLs_V 0, 0)] mem0; s.rd (F.MPn_CTL_EN 0) = 1 ∧ ∀ i < 16, s.setNames i 0 = false)
    ∧ ((mpt fun x => { x with phase := .training }).pt 0).phase = .training ∧ ((mpt fun x => { x with phase := .waiting }).pt 0).phase = .waiting
    ∧ (mem0.rd (F.MPn_STAT_UP 0) = 1 ∧ mem0.power = .run) ∧ mem0.route (0x8080 * 64) = .port 0 0x2000
    ∧ (mem0.works = true ∧ mem0.keyOk (mem0.line 0x8080).kslot = true ∧ mem0.wq 0 = [])
    ∧ (SMap.find? (mem0.pt 0).waits 29 = none ∧ (mem0.pt 0).burst = none ∧ mem0.heldOf 0x8080 = none ∧ hitAt mem0 = some false ∧ (mem0.pt 0).waits = []
      ∧ (mem0.pt 0).owner = 0 ∧ mem0.burstNow 0 (req 3) = (req 3).unit)
    ∧ (let s := mem0.setWq 0 [⟨0x2000, BitVec.allOnes 64, 5, false, 0, false, false, 4⟩];
      hitAt s = some true ∧ (List.find? (fun (y : WqEnt) => y.dev == 0x2000) (s.wq 0)).isSome = true)
    ∧ (let s := mem0.setWq 0 [⟨0x2000, 1, 5, false, 0, false, false, 4⟩]; hitAt s = some false ∧ s.burstNow 0 (req 3) ≠ (req 3).unit)
    ∧ (let s := mpt fun x => { x with waits := [(3, req 3), (4, { req 4 with line := 0x8081 })] };
      SMap.find? (s.pt 0).waits 3 = some (req 3) ∧ (s.pt 0).burst = none ∧ s.arbReady 0 ≠ [] ∧ (∀ y ∈ s.arbReady 0, y.rq < 32) ∧ (s.pt 0).waits ≠ [])
    ∧ (let s := mpt fun x => { x with burst := some (req 3), waits := [(4, req 4)] }; (s.pt 0).burst = some (req 3) ∧ ∀ y ∈ s.arbReady 0, y.urg ≤ (req 3).urg)
    ∧ (let s := mpt fun x => { x with reads := [req 3] }; List.find? (fun (y : PortReq) => y.line == 0x8080) (s.pt 0).reads = some (req 3)) := by
  decide +kernel
/-- Port 0 holds the persistent memory of domain 0, and its device's GPF takes 60 microseconds. -/
def gpf0 : State := mpt (fun x => { x with dev := some dev0 }) (set [(F.MPn_CAP_PERSIST 0, 1)] pd0)
theorem wit_Validations : (base.flag (F.IS_CTLs_V 15) = false ∧ bit (1 : Word) 0 = true ∧ mem0.flag (F.IS_CTLs_V 0) = true)
    ∧ (base.regionV 63 = false ∧ mem0.regionV 0 = true)
    ∧ (gpf0.rd (F.MPn_STAT_READY 0) = 1 ∧ gpf0.rd (F.MPn_CAP_PERSIST 0) = 1 ∧ gpf0.portPersistent 0 = true
      ∧ gpf0.persistOk 0 ((gpf0.regPut A.WRAP_CTL 0x3200 fullMask).rd F.WRAP_CTL_GPF_TIMEOUT) = false
      ∧ ∀ p < 16, base.rd (F.MPn_STAT_READY p) = 0)
    ∧ base.flag (F.FW_TGTw_V 15) = false ∧ base.flag (F.GDW_TGTw_V 7) = false ∧ base.winV (iwRef 3 31) = false
    ∧ (base.vrfHere 63 = true ∧ base.winV (vrhRef 63 7) = false) ∧ base.flag (F.CUE_PTBASEi_V 1023) = false
    ∧ (base.flag F.ENCT_BASE_V = false ∧ (base.regPut A.ENCT_BASE 1 fullMask).flag F.ENCT_BASE_V = true)
    ∧ (set [(F.VRF_CTL_EN 63, 1)] base).vrfOn 63 = true
    ∧ ((∀ g < 256, base.vrfOn g = false ∧ base.flag (F.VRH_STAT_RSTBUSY g) = false) ∧ base.rnQuiesce ≠ bit (1 : Word) 0) := by decide +kernel
def lnk (j : Nat) (f : LinkSt → LinkSt) (s : State) : State := s.setLk j (f (s.lk j))
theorem wit_DieLinks : (base.dlState 23 = 0 ∧ (set [(F.DL_STAT_STATE 23, 3)] base).dlState 23 = 3)
    ∧ (let s := set [(F.DL_STAT_STATE 23, 1)] base; s.dlState 23 = 1 ∧ (s.lk 23).checked = false
      ∧ effWidth 0 (s.mapWords (A.DL_MAPUj 23)) (s.rd (F.DL_CTL_WIDTH 23)) = some 0 ∧ effWidth 0 (s.mapWords (A.DL_MAPDj 23)) 0 = some 0
      ∧ 8 ≤ passing 0 ∧ (effMap 0 (s.mapWords (A.DL_MAPUj 23)) 0).isSome = true
      ∧ effWidth 0x3FFFFFFFF (s.mapWords (A.DL_MAPUj 23)) 0 = none ∧ passing 0x3FFFFFFFF < 8)
    ∧ (let s := lnk 23 (fun x => { x with checked := true, adopted := true }) (set [(F.DL_STAT_STATE 23, 1)] base);
      (s.lk 23).checked = true ∧ (s.lk 23).adopted = true ∧ s.rd (F.PKG_DIEd_STATE 11) = 5 ∧ s.dlState 22 ≠ 1)
    ∧ (let s := set [(F.DL_STAT_STATE 0, 2), (F.PL_STATk_STATE 3, 2)] base;
      s.dlState 0 = 2 ∧ s.plinkUp 3 = true ∧ (s.lk 0).out.length < 1024 ∧ s.linkOn 0 = true ∧ s.linkOn 27 = true
      ∧ s.rd (F.PKG_DIEd_STATE 0) ≠ 3 ∧ (s.lk 0).rewound = false) ∧ base.dieRunning 0 = true := by decide +kernel
def pk0 : LinkPacket := ⟨6, 9, 7, true, true, none, none⟩
def peer0 : PlPeer := ⟨1, 4, 0, false, 0, 16, 5, true⟩
/-- D-link 0 and P-link 3 are up, and packet 5 was the last good one of D-link 0. -/
def lk0 : State :=
  lnk 0 (fun x => { x with good := some 5, out := [⟨8, 0⟩, ⟨9, 0⟩, ⟨10, 1⟩] }) (set [(F.DL_STAT_STATE 0, 2), (F.DL_STAT_STATE 1, 2), (F.PL_STATk_STATE 3, 2)] base)
theorem wit_PacketsAndMembers : (lk0.linkOn 0 = true ∧ lk0.rd (F.PKG_DIEd_STATE 0) ≠ 3 ∧ pk0.seq.toNat = (5 + 1) % 4096 ∧ pk0.crcOk = true ∧ pk0.chan.val = 7)
    ∧ ((lk0.lk 0).good = some 5 ∧ ({ pk0 with seq := 9 } : LinkPacket).seq.toNat ≠ (5 + 1) % 4096 ∧ (lk0.lk 0).rewound = false)
    ∧ ((lnk 0 (fun x => { x with rewound := true }) lk0).lk 0).rewound = true
    ∧ ((∀ y ∈ ackOut 8 (lk0.lk 0).out, y.resent < lk0.rd (F.DL_CTL_REPLAY_LIMIT 0))
      ∧ ∃ y ∈ ackOut 8 ((lnk 0 (fun x => { x with out := [⟨8, 0⟩, ⟨9, 255⟩] }) lk0).lk 0).out, lk0.rd (F.DL_CTL_REPLAY_LIMIT 0) ≤ y.resent)
    ∧ (lk0.dieRunning 0 = true ∧ lk0.dlState 1 = 2 ∧ lk0.dlState 0 = 2 ∧ lk0.rd (F.DL_STAT_MOVED 0) = 0)
    ∧ (let s := set [(F.GRP_CFG_SIZE, 2)] base; s.gpos < s.groupSize ∧ 2 ^ 0 < s.groupSize) ∧ ({ base with gpos := 15 } : State).groupSize ≤ 15
    ∧ ((set [(F.PL_STATk_STATE 0, 1)] base).rd (F.PL_STATk_STATE 0) = 1 ∧ lk0.rd (F.PL_STATk_STATE 3) = 2)
    ∧ (let s := set [(F.PL_STATk_STATE 0, 2), (F.GRP_STAT_MEMBER, 3)] base; s.gpos < 16 ∧ s.member (s.neighbour 0) = true) ∧ 15 ≠ base.gpos := by decide +kernel
/-- Root port 0 is up, its window 31 maps bus addresses from 0 to the memory, vector 9 may be raised from it. -/
def rp0 : State :=
  set [(F.GP_STATr_UP 0, 1), (F.GP_CTLr_EN 0, 1), (F.IW_SIZErj_LOG2 0 31, 20), (F.IW_PArj_PA 0 31, 2), (F.GP_STATr_CXLM 0, 1),
    (F.GP_PMr_L0S_US 0, 4), (F.GP_PMr_L1_US 0, 8)] (mem0.wrw (A.IW_ATTRrj 0 31) 7)
def msi0 : State := set [(F.GP_MSIr_V 0, 1), (F.GP_MSIr_ADDR 0, 0x7), (F.CUEV_MSIM 8191, 1)] rp0
theorem wit_RootPorts : (rp0.rootUp 0 = true ∧ rp0.streamClear 0 = true) ∧ (let s1 := rp0.wakeLink 0;
      s1.inMsi 0 0x40 = false ∧ s1.winMap (iwAll 0) 0x40 4 true = some (0x200040, iwRef 0 31) ∧ s1.targetOk 0x200040 4 = true ∧ s1.portMay 0 = true
      ∧ s1.winMap (iwAll 0) 0x40 4 false = some (0x200040, iwRef 0 31) ∧ s1.winMap (iwAll 0) 0xFFFFD 4 true = none ∧ s1.winMap (iwAll 0) 0xFFFFD 4 false = none)
    ∧ (let s1 := msi0.wakeLink 0; s1.inMsi 0 0x7FFC = true ∧ 0x7FFC % 4 = 0 ∧ (s1.rd (F.CUEV_MSIM 8191)).testBit 0 = true)
    ∧ (let s := th (fun x => { x with run := .ioWait 0 3 6 }) (rp0.setGpx 0 { rp0.gpx 0 with reads := [some 0, none] });
      (s.gpx 0).reads = some 0 :: [none] ∧ (s.thr 0).run = .ioWait 0 3 6 ∧ szOf 6 = 8 ∧ 0 ∉ s.sec.stepping)
    ∧ (rp0.power = .run ∧ rp0.gaf.deep = none ∧ rp0.flag (F.GP_STATr_CXLM 0) = true)
    ∧ (rp0.endpoint = false ∧ rp0.rd (F.GP_CTLr_EN 0) = 1 ∧ (rp0.setGpx 0 { rp0.gpx 0 with training := true }).gpx 0 = { rp0.gpx 0 with training := true })
    ∧ (rp0.portUp 0 = true ∧ (rp0.gpx 0).reads = [] ∧ (rp0.gpx 0).aspm = 0 ∧ rp0.l0sUs 0 ≠ 0 ∧ rp0.l1Us 0 ≠ 0) := by decide +kernel
/-- The package is an endpoint whose mirror port is up and whose window A lies in the memory. -/
def mir0 : State :=
  set [(F.MIR_STAT_ENDPOINT, 1), (F.MIR_STAT_UP, 1), (F.MIR_CTL_EN, 1), (F.TDn_CFG_MIRTRIG 0, 1)]
    (((pd0.wrw (A.MWx_LOCAL 0) 0x200000).wrw (A.MWx_LEN 0) 0x1000).wrw (A.MWx_ATTR 0) 7)
theorem wit_MirrorPort : (mir0.endpoint = true ∧ mir0.streamClear 3 = true ∧ mir0.tlp.portMay 3 = true ∧ mir0.mirUp = true ∧ mir0.power = .run ∧ mir0.gaf.deep = none)
    ∧ (mir0.tlp.mwMap 0 0xFFC 4 true = some 0x200FFC ∧ mir0.tlp.mwMap 0 0xFFD 4 true = none ∧ mir0.tlp.mwMap 0 0xFFC 4 false = some 0x200FFC
      ∧ mir0.tlp.mwMap 0 0xFFD 4 false = none)
    ∧ (mir0.domEn 0 = true ∧ mir0.flag (F.TDn_CFG_MIRTRIG 0) = true ∧ (set [(F.TDn_STAT_SPOILED 0, 1)] mir0).spoiled 0 = true)
    ∧ (let s : State := { mir0 with views := [(47 * 8, 5)] }; s.spoiled 0 = false ∧ s.rolling 0 = false ∧ s.follows 0 = false
      ∧ s.rd (F.TDn_STAT_CUTTING 0) = 0 ∧ s.cutTake 0 < (s.view 47 0).toNat)
    ∧ mir0.domEn 7 = false ∧ (mir0.rd F.MIR_DB_PEND).testBit 15 = false ∧ mir0.rd F.MIR_CTL_EN = 1 ∧ mir0.rd F.MW_COMMIT_BUSY = 0
    ∧ (mir0.setCode 0 0 0 0 = 0 ∧ mir0.setCode 0 (mir0.rdw (A.MWx_NLOCAL 0)) (mir0.rdw (A.MWx_NLEN 0)) (mir0.rdw (A.MWx_NATTR 0)) = 0)
    ∧ (let s := mir0.wrw (A.MWx_NATTR 0) 1; s.setCode 0 (s.rdw (A.MWx_NLOCAL 0)) (s.rdw (A.MWx_NLEN 0)) (s.rdw (A.MWx_NATTR 0)) ≠ 0)
    ∧ (set [(F.MIR_STAT_UP, 0)] mir0).mirUp = false := by decide +kernel
/-- Function 0 is enabled with rings of 16 entries, and its window 0 maps addresses from 0 to the memory. -/
def rn0 : State :=
  set [(F.VRH_WIN_SIZE_LOG2 0 0, 20), (F.VRH_WIN_PA_PA 0 0, 2), (F.VRH_CTL_ALLOW 0, 1), (F.VRF_CTL_EN 0, 1), (F.VRF_SQCFG_LOG2 0, 4),
    (F.VRF_SQTAIL_TAIL 0, 1), (F.VRF_CQBASE_BASE 0, 1), (F.VRH_ENG_MASK 0, 1), (F.VRH_CTL_SHIPEN 0, 1)] (rp0.wrw (A.VRH_WIN_ATTR 0 0) 7)
/-- A descriptor of length 4 from 0x4000 to a destination. -/
def job0 (op : Nat) (dst : Word := 0x8000) : Job :=
  { index := 0, dw := [BitVec.ofNat 64 (op + 4 * 2 ^ 32), 0x4000, dst, 0, 0, 0, 0, 0], engine := none, port := 0, cls := 0, pos := 0, acc := 0, ended := none, sent := false }
/-- Function 0 holds the jobs l. -/
def jobs0 (l : List Job) (next : Option Nat := none) (s : State := rn0) : State := s.setVrf 0 { jobs := l, next := next, cues := 0 }
/-- What a descriptor must meet to start. -/
def starts (s : State) (j : Job) (op : Nat) : Bool :=
  (s.vrf 0).jobs == [j] && j.engine == none && j.ended == none && j.pos == 0 && j.op == op && j.len == 4 && !s.flag (F.VRH_CTL_QUIESCE 0)
    && s.engines 0 == [0]
def reads4 (s : State) (n : Nat) : Bool :=
  let v := s.tick.homeReads (rnAgent 0 0) n 0x204000 4 0
  v.1 == [0, 0, 0, 0] && !v.2.1
theorem wit_Runners : (rn0.vrfHere 0 = true ∧ rn0.vrfOn 0 = true ∧ rn0.vrfDepth 0 < (fget 17 0 16 + 65536 - rn0.rd (F.VRF_SQHEAD_HEAD 0)) % 65536)
    ∧ (rn0.rd (F.VRH_CTL_ALLOW 0) = 1 ∧ base.rd (F.VRH_CTL_ALLOW 0) = 0 ∧ fget 0x400 8 5 = 4 ∧ fget 0xF00 8 5 = 15)
    ∧ (rn0.rnQuiesce = false ∧ rn0.rd (F.VRH_STAT_RSTBUSY 0) = 0 ∧ rn0.flag (F.VRH_CTL_QUIESCE 0) = false)
    ∧ (let s := jobs0 [] (some 5) (set [(F.VRF_SQTAIL_TAIL 0, 0)] rn0); (s.vrf 0).next = some 5 ∧ s.vrfOn 0 = true
      ∧ s.rd (F.VRF_SQHEAD_HEAD 0) = s.rd (F.VRF_SQTAIL_TAIL 0) ∧ s.rd (F.VRF_CQHEAD_HEAD 0) = s.rd (F.VRF_CQTAIL_TAIL 0) ∧ (s.vrf 0).jobs = [])
    ∧ (rn0.vrfFetches 0 = true ∧ rn0.vrfMap 0 0 64 false = some 0x200000 ∧ (rn0.homeReads hubAgent 65 0x200000 64 0).1.length = 64
      ∧ (let s := set [(F.VRF_SQBASE_BASE 0, 0x100)] rn0; s.vrfFetches 0 = true ∧ s.vrfMap 0 0x100000 64 false = none))
    ∧ (starts (jobs0 [job0 1]) (job0 1) 1 = true ∧ rn0.vrfMap 0 0x4000 4 false = some 0x204000 ∧ 4 ≤ 64 - 0x204000 % 64 ∧ reads4 (jobs0 [job0 1]) 2 = true
      ∧ rn0.vrfMap 0 0x8000 4 true = some 0x208000)
    ∧ (starts (jobs0 [job0 1 0x200000]) (job0 1 0x200000) 1 = true ∧ rn0.vrfMap 0 0x200000 4 true = none)
    ∧ starts (jobs0 [job0 2]) (job0 2) 2 = true ∧ starts (jobs0 [job0 3]) (job0 3) 3 = true ∧ starts (jobs0 [job0 4]) (job0 4) 4 = true
    ∧ (starts (jobs0 [job0 5]) (job0 5) 5 = true ∧ (job0 5).db = false ∧ rn0.rd (F.VRH_CTL_SHIPEN 0) = 1 ∧ rn0.rootUp (rn0.rd (F.VRH_CTL_SHIPPORT 0)) = true
      ∧ reads4 (jobs0 [job0 5]) 5 = true)
    ∧ (let j := { job0 1 with engine := some 0 }; (jobs0 [j]).engineMay 0 = true ∧ (jobs0 [j]).nextTurn 0 = some (0, 15) ∧ j.busy = true)
    ∧ (let s := set [(F.VRF_CQBASE_BASE 0, 0x100)] rn0; rn0.vrfMap 0 0x1000 16 true = some 0x201000 ∧ s.vrfMap 0 0x100000 16 true = none ∧ (job0 1).cue = false
      ∧ (let j := { job0 1 with ended := some (0, 0) }; (jobs0 [j]).jobSettled 0 j = true ∧ ((jobs0 [j]).vrf 0).cues = 0 ∧ { j with sent := true }.cue = false))
    ∧ (let s := set [(F.RN_CFG_MODE, 1)] rn0; s.rnQuiesce = true ∧ s.rd (F.VRH_STAT_RSTBUSY 0) = 0 ∧ s.rd (F.VRF_STAT_QUIESCED 0) = 0
      ∧ (set [(F.VRF_STAT_QUIESCED 0, 1)] s).rd (F.VRF_STAT_QUIESCED 0) = 1 ∧ s.vrfHere 255 = true)
    ∧ (let s := set [(F.VRH_CTL_QUIESCE 0, 1)] (jobs0 [job0 1]); s.flag (F.VRH_CTL_QUIESCE 0) = true ∧ (∀ y ∈ (s.vrf 0).jobs, y.engine = none) ∧ s.vrfSettled 0 = true) := by
  decide +kernel
/-- The one engine that function 0 may use takes its next descriptor. -/
theorem wit_Runners_engine (s : State) (h : s.engines 0 = [0]) : (s.engines 0)[Config.freeNat s.freeCtr % (s.engines 0).length]? = some 0 := by
  simp [h, Nat.mod_one]
/-- Die 0's copy of the slate is settled, and physical vector 0 is valid and pending at thread 0 at level 3. -/
def cue0 : State :=
  set [(F.CORE_MAPl_POP 0 0, 1), (F.CUEV_V 0, 1), (F.CUEV_PEND 0, 1), (F.CUEV_LEVEL 0, 3), (F.QOS_FREE_FREE, 6), (F.VRH_CTL_VMID 0, 5), (F.CUEV_VMID 0, 5)]
    (status 0x10)
theorem wit_CuesAndMachines : (bit (0x1005 : Word) 12 = true ∧ cue0.flag (F.QOS_MAPv_V 5) = false ∧ (cue0.rd F.QOS_FREE_FREE).testBit 1 = true)
    ∧ (let s := set [(F.QOS_FREE_FREE, 1)] base; ∀ y ∈ List.range 64, 0 < y → (s.rd F.QOS_FREE_FREE).testBit y = false)
    ∧ (cue0.rd F.VMRST_STAT_BUSY = 0 ∧ fget (0x1000 : Word) 0 12 = 0 ∧ fget (0x1005 : Word) 0 12 = 5 ∧ cue0.vmFns 5 = [0] ∧ cue0.rnQuiesce = false)
    ∧ (let s := set [(F.RN_CFG_MODE, 1), (F.VRF_CTL_EN 0, 1)] cue0; s.rnQuiesce = true ∧ 0 ∈ s.vmFns 5 ∧ s.vrfOn 0 = true ∧ s.rd (F.VRF_STAT_QUIESCED 0) = 0)
    ∧ (cue0.rd (F.CUEV_V 1) = 0 ∧ cue0.rd (F.CUEV_V 0) = 1 ∧ cue0.rd (F.CUEV_VIRT 0) = 0 ∧ cue0.rd (F.CUEV_TARGET 0) < 2 ^ 22
      ∧ cue0.cueTarget (cue0.rd (F.CUEV_TARGET 0)) = some 0 ∧ (set [(F.CUEV_TARGET 0, 0x3FFFFF)] cue0).cueTarget 0x3FFFFF = none)
    ∧ (cue0.atBoundary 0 = true ∧ cue0.mcDue 0 = false ∧ (cue0.thr 0).enc = false ∧ cue0.cueNow 0 = some (3, ⟨0, 0⟩))
    ∧ (let s : State := { cue0 with mcPend := [(0x92, 0)] }; s.mcRoute = some (0, false) ∧ s.atBoundary 0 = true ∧ (s.thr 0).mcOpen = true)
    ∧ (set [(F.MC_ROUTE_PRIMARY, 0x3FF), (F.MC_ROUTE_SECONDARY, 0x3FF)] cue0).mcRoute = some (0, true) := by decide +kernel
/-- The enclave table of encFull holds no FREE entry. -/
def encFull : State :=
  { set [(F.ENCT_BASE_V, 1), (F.ENCT_BASE_BASE, 4)] mem0 with
    lines := (List.range' 0 4096).map fun i => (0x8000 + 2 * i, { LineRec.empty with data := some 1 }) }
theorem encFull_reg (pa : Nat) (h : pa / 2 ^ 21 = 1) : encFull.regionOf pa = encFull.regionOf 0x200000 := by
  have e : encFull.regions = [encFull.region 0] := by decide +kernel
  have b : (encFull.region 0).base = 0x200000 ∧ 0x3FFFFF ≤ (encFull.region 0).last := by decide +kernel
  simp only [State.regionOf, e, List.find?_cons, b.1]
  have h1 : decide (0x200000 ≤ pa) = true := by simp; omega
  have h2 : decide (pa ≤ (encFull.region 0).last) = true := by simp; omega
  have h3 : decide (0x200000 ≤ (encFull.region 0).last) = true := by simp; omega
  simp [h1, h2, h3]
theorem encFull_state (e : Nat) (h : e < 4096) : encFull.encState e = 1 := by
  have ha : encFull.encAddr e = 0x200000 + 128 * e := by
    have : encFull.rd F.ENCT_BASE_BASE = 4 := by decide +kernel
    simp only [State.encAddr, this]; omega
  have hl : encFull.line (0x8000 + 2 * e) = { LineRec.empty with data := some 1 } := by
    simp only [State.line, SMap.get, encFull]
    rw [SMap.find?_range' _ _ _ _ _ _ (by omega) (by omega)]; rfl
  have hb : encFull.lsBase = 0xFF0000000000 := by decide +kernel
  have hg : encFull.gpos = 0 := by decide +kernel
  have hc0 : encFull.cacheable 0x200000 = true := by decide +kernel
  have hls : ∀ pa, pa < 0x400000 → encFull.lsOf pa = none := by
    intro pa hp; simp only [State.lsOf, hb]; exact if_neg (by simp; omega)
  have hr := encFull_reg (0x200000 + 128 * e) (by omega)
  have hc : encFull.cacheable (0x200000 + 128 * e) = true := by
    simp only [State.cacheable, hls _ (show 0x200000 + 128 * e < 0x400000 by omega), hr] at *
    simpa only [hls 0x200000 (by omega)] using hc0
  have hh : encFull.homedHere (0x200000 + 128 * e) = true := by
    simp only [State.homedHere, hg, Nat.div_eq_of_lt (show 0x200000 + 128 * e < 2 ^ 48 by omega),
      Nat.div_eq_of_lt (show 0x200000 + 128 * e < 2 ^ 45 by omega)]; rfl
  have hd : (0x200000 + 128 * e) / 64 = 0x8000 + 2 * e := by omega
  have hm : (0x200000 + 128 * e) % 64 = 0 := by omega
  have hq : (encFull.line ((0x200000 + 128 * e) / 64)).queue = [] := by rw [hd, hl]; rfl
  have hp : encFull.promote (viewAgent hubAgent) = encFull := by
    have hd : ∀ d, encFull.dom d = TakeDom.reset := fun _ => rfl
    refine foldl_keeps (fun u => u = encFull) _ (fun u d hu => ?_) _ _ rfl
    simp [hu, hd, TakeDom.reset]
  have hv := homeRead_data encFull hubAgent (0x200000 + 128 * e) 8 0 1 hp (hls _ (by omega)) hc hh hq (by rw [hd, hl]) (by rw [hd, hl]; rfl)
  simp only [State.encState, State.entDw, State.engDw, ha, Nat.mul_zero, Nat.add_zero]
  rw [homeReads_one _ _ _ _ _ _ (by omega) (by omega), hv, hm]
  decide +kernel
theorem wit_EnclavesAndKeys_full : encFull.rd F.ENCT_BASE_V = 1 ∧ (List.range 4096).find? (fun y => y != 0 && encFull.encState y == 0) = none := by
  refine ⟨by decide +kernel, ?_⟩
  rw [List.find?_eq_none]; intro y hy; simp [encFull_state y (List.mem_range.mp hy)]

/-- The enclave table of enc0 with the bytes l, owner tables, page map and the arguments of ADD: enclave 1, page 0x300000. -/
def enc1 (l : SMap Byte) (arg0 : Word := 1) : State :=
  let s := set [(F.ENCT_BASE_V, 1), (F.ENCT_BASE_BASE, 4), (F.POT_SPAN_TOP, 4), (F.POT_BASE_BASE, 0xA0), (F.POT_SUMBASE_BASE, 0xB0),
    (F.ERMAP_LO_ADDR, 0x80), (F.ERMAP_HI_ADDR, 0x200), (F.ERMAP_BASE_ADDR, 0xB4)] mem0
  dev l ((((s.wrw (A.ENC_ARGk 0) arg0).wrw (A.ENC_ARGk 1) 0x300000).wrw (A.ENC_ARGk 2) 0x304000).wrw (A.ENC_ARGk 3) 0x10000)
def tgtOk (s : State) (pa : Nat) : Bool := s.memRegion pa && s.ownIn pa && s.inMap pa && ownType (s.ownEntry pa) == 0
theorem wit_EnclavesAndKeys_engine : (base.rd F.ENCT_BASE_V = 0 ∧ (enc1 []).rd F.ENCT_BASE_V = 1)
    ∧ ((List.range 4096).find? (fun y => y != 0 && (enc1 []).encState y == 0) = some 1
      ∧ (List.range 1024).find? (fun y => !(enc1 []).ksValid y) = some 1 ∧ tgtOk (enc1 []) 0x304000 = true ∧ tgtOk base 0x304000 = false)
    ∧ ((enc1 []).encState 1 = 0 ∧ (enc1 [(128, 1)]).encState 1 = 1 ∧ tgtOk (enc1 [(128, 1)]) 0x300000 = true ∧ tgtOk (enc1 [(128, 1), (0x80300, 0x80)]) 0x300000 = true
      ∧ tgtOk (enc1 [(128, 1), (0x80303, 0x80)]) 0x300000 = false ∧ bit (0x4001 : Word) 14 = true)
    ∧ (canonical 0x10000 = true ∧ canonical 0x7FFFFFFFC000 = true ∧ (0x10000 : Word).toNat % 2 ^ 14 = 0 ∧ (0x10008 : Word).toNat % 2 ^ 14 ≠ 0)
    ∧ (let s := enc1 [(128, 1)]; (s.homeReads hubAgent 257 0x304000 16384 0).2.1 = false ∧ (s.homeReads hubAgent 257 0x304000 16384 0).2.2.sec = s.sec
      ∧ (s.regionOf 0x304000).isSome = true)
    ∧ ((enc1 [(128, 2), (152, 1)]).encBusy 1 = true ∧ (enc1 []).encBusy 1 = true)
    ∧ (let s := enc1 [(128, 2), (156, 1), (0x80300, 0x40), (0x80303, 0x80)]; s.encBusy 1 = false ∧ ownType (s.ownEntry 0x300000) = 2
      ∧ ownEnc (s.ownEntry 0x300000) = 1 ∧ (0x300000 : Nat) ≠ granOf (s.entDw 1 2) ∧ fget (s.entDw 1 3) 32 32 ≤ 1)
    ∧ (let s := enc1 [(128, 2), (156, 2)]; s.encBusy 1 = false ∧ ownType (s.ownEntry 0x300000) ≠ 2 ∧ 1 < fget (s.entDw 1 3) 32 32
      ∧ s.encState 1 = 2 ∧ fget (0x300000 : Word) 0 3 ≤ fget (s.entDw 1 0) 5 3 ∧ fget (s.entDw 1 0) 5 3 < fget (0x300001 : Word) 0 3) := by
  decide +kernel
/-- The keys of slots 2 (random) and 3 (of an enclave) are loaded. -/
def key0 : State := set [(F.KS_ATTRs_V 2, 1), (F.KS_ATTRs_V 3, 1), (F.KS_ATTRs_ENC 3, 1)] base
/-- A call sheet with a debug key and nothing else. -/
def sheet0 : SheetCopy :=
  { version := 1, formatOk := true, keyHashOk := true, sigOk := true, part := 0x3428, uidBind := false, uid := 0, commit := false, criticalOk := true,
    dlink := [], dead := [], repair := [], gaffer := [], memory := [], keyContext := 0, keys := [], debugKey := true, mirror := [], mirrorIds := 0,
    monitor := none, regulators := [], locks := [] }
/-- At STEP 8 with a debug key, a certificate that asks for want. -/
def dbg0 (want : Word) : State :=
  let s : State := set [(F.BOOT_STAT_STEP, 8), (F.PKG_DBG_STATE, 1), (F.DBG_AUTH_NLEVEL, 2), (F.DBG_AUTH_SLEVEL, 2)] base
  ({ s with boot := { s.boot with sheet := some sheet0 } }).wrw (A.DBG_CERTk 3) want
theorem wit_EnclavesAndKeys : (key0.ksValid 2 = true ∧ key0.ksValid 1 = false ∧ key0.sec.sealOff = false ∧ key0.rd (F.KS_ATTRs_ENC 3) = 1
      ∧ key0.rd (F.KS_ATTRs_ENC 2) = 0 ∧ (1023 : Fin 1024) ≠ 0 ∧ key0.ksValid 1023 = false)
    ∧ (base.dbgReason true = 5 ∧ (dbg0 2).dbgReason false = 1 ∧ (dbg0 2).dbgReason true = 0 ∧ (dbg0 2).dbgWant = 2 ∧ (dbg0 1).dbgReason true = 4)
    ∧ (base.tapOn = false ∧ let s := (dbg0 2).wrw A.PIN_LVL 0x40;
      s.tapOn = true ∧ s.dbgThread 0 = true ∧ (s.thr 0).run = .running ∧ (th (fun x => { x with run := .debugHalt }) s).dbgThread 0 = true
      ∧ (set [(F.PKG_DBG_STATE, 0)] s).dbgThread 0 = false ∧ ((set [(F.PKG_DBG_STATE, 0)] s).dbgReg A.ENC_CMD).isNone = true
      ∧ (set [(F.PKG_DBG_STATE, 0)] s).dbgMem true 0x200000 = false) := by decide +kernel
/-- Every key slot holds a key, and the enclave table lies in no region. -/
def encKeys : State :=
  { base with io := (A.ENCT_BASE, 1) :: (List.range' 0 1024).map fun i => (A.KS_ATTRs 0 + 8 * i, 1) }
theorem wit_EnclavesAndKeys_slots : encKeys.rd F.ENCT_BASE_V = 1 ∧ (List.range 4096).find? (fun y => y != 0 && encKeys.encState y == 0) = some 1
    ∧ (List.range 1024).find? (fun y => !encKeys.ksValid y) = none := by
  refine ⟨by decide +kernel, by decide +kernel, ?_⟩
  rw [List.find?_eq_none]; intro y hy
  have h := SMap.find?_range' (A.KS_ATTRs 0) 8 (1 : Word) 1024 0 y (Nat.zero_le y) (by simpa using hy)
  have ha : A.KS_ATTRs y = A.KS_ATTRs 0 + 8 * y := by simp only [A.KS_ATTRs]; omega
  have hn : A.KS_ATTRs 0 + 8 * y ≠ A.ENCT_BASE := by simp only [A.KS_ATTRs, A.ENCT_BASE]; omega
  have hr : encKeys.rdw (A.KS_ATTRs y) = 1 := by rw [ha]; simp only [State.rdw, SMap.get, encKeys, SMap.find?, if_neg hn, h]; rfl
  simp only [State.ksValid, State.flag, State.rd, hr]; decide +kernel
/-- Die 0 has core 0 populated and one spare, physical core 18. -/
def sp0 : State := set [(F.CORE_MAPl_POP 0 0, 1), (F.CORE_PHYS_SPARE 0, 0x40000)] base
theorem wit_Containment : (sp0.rd (F.CORE_SPARE_BUSY 0) = 0 ∧ sp0.populated 0 0 = true ∧ (set [(F.CORE_MAPl_POP 0 17, 0)] sp0).populated 0 17 = false ∧ sp0.phys 0 0 < 20
      ∧ (set [(F.CORE_SPARE_BUSY 0, 1)] sp0).rd (F.CORE_SPARE_BUSY 0) = 1)
    ∧ (let s : State := { sp0 with sparing := [(0, ⟨0, 0, false⟩)] }; SMap.find? s.sparing 0 = some ⟨0, 0, false⟩)
    ∧ (let s : State := { sp0 with sparing := [(0, ⟨0, 0, true⟩)] }; SMap.find? s.sparing 0 = some ⟨0, 0, true⟩ ∧ s.lowSpare 0 = some 18
      ∧ (set [(F.CORE_PHYS_SPARE 0, 0)] s).lowSpare 0 = none)
    ∧ ((sp0.rd (F.CORE_SPARE_BUSY 0) = 0 ∧ sp0.dieRunning 0 = true) ∧ sp0.dieRunning 11 = false) ∧ (0 : DieNo).val ∈ ({ sp0 with reclaims := [0] } : State).reclaims := by decide +kernel
/-- Cluster 0 may run, its thread 0 is at S; die 0's root is locked. -/
def gaf0 : State := set [(F.CORE_MAPl_POP 0 0, 1), (F.CLK_CTL_LOCKED 0, 1), (F.CLK_CTL_ROOT_MHZ 0, 4800), (F.GAF_LIMIT_BURST_W, 650), (F.GAF_LIMIT_SUSTAIN_W, 520),
    (F.GAF_LIMIT_WINDOW_MS, 10000), (F.GAF_STAT_CAP_MHZ, 3400), (F.GAF_PWR_SLEEPEN, 1)] (status 2)
def sam (w : Nat) (t : Nat) : GafSample := ⟨w, (List.range 13).map fun _ => some (t, 800)⟩
def gf (f : GafSt → GafSt) (s : State := gaf0) : State := { s with gaf := f s.gaf }
theorem wit_GafferRequests : (sampleTj (sam 300 110) = 110 ∧ sampleTj (sam 300 111) = 111 ∧ gaf0.gaf.deep = none ∧ gaf0.gaf.held = [] ∧ gaf0.sec.thermal = []
      ∧ gaf0.capMhz ≤ gaf0.peakMhz ∧ 0 < gaf0.capMhz ∧ gaf0.prochot = false ∧ gaf0.power = .run ∧ (set [(F.PIN_LOCK_IN, 0x20)] gaf0).prochot = true)
    ∧ (gaf0.rd F.GAF_LIMIT_BURST_W < 651 ∧ gaf0.rd F.GAF_LIMIT_SUSTAIN_W < 521 ∧ 10 ≤ (gf fun x => { x with sust := 9 }).gaf.sust + 1
      ∧ meanOver 2 520 [521, 520] = true ∧ 9 ≤ (gf fun x => { x with calm := 9 }).gaf.calm)
    ∧ (gaf0.rd (F.CLK_CTL_LOCKED 0) = 1 ∧ gaf0.bus0Stuck = false ∧ gaf0.rootTarget 0 = 4800 ∧ (gf fun x => { x with req := [(0, 3000)] }).rootTarget 0 = 6000)
    ∧ (gaf0.rd (F.GAF_RSPt_BUSY 0) = 0 ∧ (set [(F.GAF_RSPt_BUSY 0, 1)] gaf0).rd (F.GAF_RSPt_BUSY 0) = 1)
    ∧ (gaf0.clusterOk 0 = true ∧ gaf0.clusterOk 59 = false ∧ gaf0.clusterQuiet 0 = true ∧ 3400 < (3401 : BitVec 16).toNat ∧ (gaf0.thr 0).pl = 2 ∧ (th (fun x => x.setC 0 0) gaf0).clusterOk 0 = true
      ∧ ((th (fun x => x.setC 0 0) gaf0).thr 0).pl = 0 ∧ gaf0.secHeld 0 = false)
    ∧ (let s := th (fun x => x.setC 0 3) gaf0; (s.thr 0).pl = 3 ∧ s.deepReason = 0 ∧ s.anyAtM 0 = true ∧ s.secHeld 0 = true ∧ 0 ∈ ({ s with sec := { s.sec with thermal := [0] } } : State).sec.thermal
      ∧ (set [(F.VRF_STAT_ACTIVE 0, 1)] s).deepReason ≠ 0)
    ∧ (∃ y ∈ (gf fun x => { x with held := [(0, 3)] }).gaf.held, y.1 = 0)
    ∧ ((gf fun x => { x with deep := some ⟨0, false, none, none⟩ }).gaf.deep = some ⟨0, false, none, none⟩ ∧ ({ gaf0 with power := .deep } : State).power = .deep)
    ∧ (let s := th (fun x => { x with run := .waiting }) gaf0; s.rd F.GAF_PWR_SLEEPEN = 1 ∧ s.clusterOk 0 = true
      ∧ ∀ y ∈ s.clusterThreads 0, ((s.thrN y).run = .waiting ∨ (s.thrN y).run = .halted) ∧ s.cuePending y = false) := by decide +kernel
/-! Words written out from the spec's encodings and worked examples. -/

/-- R80: ORI g0, g0, 0 has OP 0x06. R92, its example: REP g7, then ST.D g0 with AM 2 and IMM8 1. R70, its example: ST.D g6 with AM 3,
J 1 and INC6 1. -/
theorem test_encode : encode (.ori 0 0 0 0) = 0x18000000 ∧ encode (.repG 0 7 0x8C096201) = 0x06700000
    ∧ encode (.storex 0 0 9 6 false 2 0x01) = 0x8C096201 ∧ encode (.storex 0 6 5 6 false 3 0x41) = 0x8CC56341 := by decide +kernel
/-- The words of the masked sum: MASKLD g10, g11, g12 (entry 5), ACLR a0, SLOAD v0 from g13 with post-increment, AADDF a0 with G = 10 and
X = 8k, ARDF f4. -/
theorem test_encode_sift : encode (.udi 0 5 10 11 12 0) = 0xEC552D80 ∧ encode (.aclr 0 0) = 0xF8000000 ∧ encode (.sload 0 0 13 true) = 0xF4006808
    ∧ encode (.aaddf 0 0 0 10 0 56) = 0xF8101438 := by decide +kernel
/-- The words that follow REP in R92's example are read back as that store. -/
theorem test_decode_repeated : decodeRep 0 0x8C096201 = some (.storex 0 0 9 6 false 2 0x01) ∧ decodeRep 0 0x18000000 = some (.ori 0 0 0 0)
    ∧ decodeRep 0 0x06700000 = none := by decide +kernel
/-- The image of MASKLD loads with RESULT 0. -/
theorem test_image : (imageResult [0x11, 0x8543030085220300, 0x5C4200080C295000, 0x5C630008, 0, 0, 0, 0, 0]).1 = 0 := by decide +kernel
/-- R18's example: thread 3.7.10.2.1.0 has GTID 0xDE92. -/
theorem test_gtid : ({ (set [(F.FAB_ID_G, 3)] base) with gpos := 7 } : State).gtid (36 * 10 + 9 * 2) = 0xDE92 := by decide +kernel
/-- R70's first example: post-increment 8 at the end of a modulo buffer goes back to its start. -/
theorem test_modulo : modeIs ((th (fun x => ((x.setC 0x191 0x4000200000).setC 0x195 0x3000).setGr 5 0x4000202FF8)).mode 0 5 3 0x41 8)
    0x4000202FF8 0x4000200000 = true := by decide +kernel
/-- R70's second example: after offset 32 comes 16. -/
theorem test_bitrev : modeIs ((th (fun x => ((x.setC 0x192 0x4000100000).setC 0x196 64).setGr 5 0x4000100020)).mode 0 5 5 0x84 8)
    0x4000100020 0x4000100010 = true := by decide +kernel
/-- R80's example: SHORI shifts the register up by 16 and ORs its immediate in. -/
theorem test_shori : (match exec (.shori 0 5 0x2FF8) (th (fun x => x.setGr 5 0x400020)) with | .next s => s.g 0 5 | _ => 0) = 0x40 * 2 ^ 32 + 0x202FF8 := by
  decide +kernel
/-- R133's example: 2^53 + 1.0 - 2^53 is read as 1.0 with no flag. -/
theorem test_sum : ([0x4340000000000000, 0x3FF0000000000000, 0xC340000000000000].foldl (fun r b => r.addFv (fmt64.unpack b)) SumAcc.zero).readout
    = (0x3FF0000000000000, 0) := by decide +kernel
/-- R295's example: the address 0x0000_0040_0137_6A40 in the hashed set 2 of four ways. -/
theorem test_interleave : isDecode 0x4000000000 (64 * 2 ^ 30) 2 1 1 0x200000000 (fun k => 4 + k) 0x4001376A40 = (7, 0x2004DDA40) := by decide +kernel
/-- R313's example: up lanes 13 and 27 fail; later lane 2 fails as well and only 16 lanes remain, logical 2 on 16, 13 on 17. -/
theorem test_lanes : let id : List Word := [0x0706050403020100, 0x0F0E0D0C0B0A0908, 0x1716151413121110, 0x1F1E1D1C1B1A1918];
    effMap (BitVec.ofNat 34 (2 ^ 13 + 2 ^ 27)) id 0 = some [0x0706050403020100, 0x0F0E200C0B0A0908, 0x1716151413121110, 0x1F1E1D1C211A1918]
    ∧ effWidth (BitVec.ofNat 34 (2 ^ 2 + 2 ^ 13 + 2 ^ 27)) id 0 = some 1
    ∧ (effMap (BitVec.ofNat 34 (2 ^ 2 + 2 ^ 13 + 2 ^ 27)) id 1).map (fun m => (mapLane m 2, mapLane m 13)) = some (16, 17) := by decide +kernel
/-- R442's example: five clusters of a die at a root of 6.8 GHz. -/
theorem test_dividers : [3400, 2800, 2000, 1000, 1800].map (divFor 6800) = [2, 3, 4, 8, 4] := by decide +kernel
/-- R484's example: 87,660 units used and 33.94 units a day leave 7,748 days. -/
theorem test_life : (({ base with aon := { base.aon with hist := [(4, [3394 * 2 ^ 32 / 100])] } } : State).wr (F.DLY_WEARi_UNITS 4) (87660 * 2 ^ 32)).remainDays 4
    = some 0x1E44 := by decide +kernel
/-- R285's example: an unc_h of 460 ps gives U = 5. -/
theorem test_uncertainty : uncUnits 460 = 5 ∧ uncUnits 461 = 6 := by decide +kernel
/-! Ill-formed terms that WellFormed refuses, one for each of its checks, beside well-formed ones. -/

theorem test_wf_line : (Instr.rdS .hub (2 ^ 46) none).wf = false ∧ (Instr.rdS .hub (2 ^ 46 - 1) none).wf = true := by
  decide +kernel
theorem test_wf_span : (Instr.rdNc .hub 0x3C 8).wf = false ∧ (Instr.rdNc .hub 0x38 8).wf = true ∧ (Instr.rdNc .hub (2 ^ 52) 8).wf = false
    ∧ (Instr.rdNc .hub 0 0).wf = false := by decide +kernel
theorem test_wf_register : (Instr.registerWrite A.ENC_CMD 3 0 3).wf = false ∧ (Instr.registerWrite (A.ENC_CMD + 4) 8 0 3).wf = false
    ∧ (Instr.registerWrite (A.ENC_CMD + 4) 4 0 3).wf = true := by decide +kernel
theorem test_wf_shape : (Instr.gafferSample ⟨300, []⟩).wf = false ∧ (Instr.gafferSample (sam 300 80)).wf = true := by decide +kernel

/-! Hypotheses of the statements about every state. -/

theorem wit_MemoryFormKept : base.memOk ∧ (match step { base with pending := [.add 0 3 1 2] } with | .next u => u.g 0 3 == 0x2005 | _ => false) = true :=
  ⟨⟨by decide +kernel, by decide +kernel⟩, by decide +kernel⟩
theorem wit_RepeatWords : decodeRep 0 0x18000000 = some (.ori 0 0 0 0) ∧ reservedEnc (.loadx 0 1 2 6 false 0 0) = false
    ∧ reservedEnc (.storex 0 6 5 6 false 3 0x41) = false ∧ (3 : Fin 8) ≠ 0 := by decide +kernel

end Sys2Proof.Tests
end

section
/-!
FRAME RULES. What a function of the model does to its other parts leaves the memory of the state as it is: one rule per function,
in the order of the definitions, each by the rules of the functions it calls.
-/
namespace Sys2Proof.Machine

-- One proof at a time: each thread of the elaborator reserves its whole stack, and the check bounds the memory reserved.
set_option Elab.async false

@[simp] theorem State.ite_mem (c : Prop) [Decidable c] (s u : State) : (if c then s else u).mem = if c then s.mem else u.mem :=
  apply_ite State.mem c s u

/-- That every turn of a loop leaves memory alone. -/
def LoopFrame {α : Type} (f : State → α → State) : Prop := ∀ s a, (f s a).mem = s.mem

@[simp] theorem loopFrame_iff {α : Type} (f : State → α → State) : LoopFrame f ↔ ∀ s a, (f s a).mem = s.mem := ⟨id, id⟩

/-- A loop whose every turn leaves memory alone. -/
@[simp] theorem State.foldl_mem {α : Type} (f : State → α → State) (hf : LoopFrame f) (l : List α) (s : State) :
    (l.foldl f s).mem = s.mem := by
  induction l generalizing s with
  | nil => rfl
  | cons a l ih => rw [List.foldl_cons, ih, hf]

@[simp] theorem State.wrIf_mem (s : State) (c : Bool) (f : FRef) (v : Nat) : (s.wrIf c f v).mem = s.mem := by simp [State.wrIf]

@[simp] theorem State.discard_mem (s : State) (t : Tid) : (s.discard t).mem = s.mem := by simp [State.discard]

@[simp] theorem State.coreForget_mem (s : State) (d l : Nat) : (s.coreForget d l).mem = s.mem := by simp [State.coreForget]

@[simp] theorem State.fillBank_mem (s : State) (b : Nat) (e : ErrRec) (ce : Nat) (ov : Bool) :
    (s.fillBank b e ce ov).mem = s.mem := by simp [State.fillBank]

@[simp] theorem State.logErr_mem (s : State) (b : Nat) (e : ErrRec) : (s.logErr b e).mem = s.mem := by simp [State.logErr]

@[simp] theorem State.mcQueue_mem (s : State) (code : Nat) (v : Word) : (s.mcQueue code v).mem = s.mem := by
  simp only [State.mcQueue]
  split <;> simp

@[simp] theorem State.logAsync_mem (s : State) (b : Nat) (e : ErrRec) : (s.logAsync b e).mem = s.mem := by simp [State.logAsync]

@[simp] theorem State.logAsyncFree_mem (s : State) (b struct : Nat) : (s.logAsyncFree b struct).mem = s.mem := by simp [State.logAsyncFree]

@[simp] theorem State.linkPush_mem (s : State) (l : Nat) : (s.linkPush l).mem = s.mem := by simp [State.linkPush]

@[simp] theorem State.packetOut_mem (s : State) (a : Agent) (line : Nat) : (s.packetOut a line).mem = s.mem := by
  unfold State.packetOut; split <;> simp

@[simp] theorem State.laneCount_mem (s : State) (j : Nat) : (s.laneCount j).mem = s.mem := by simp [State.laneCount]

@[simp] theorem State.lanesCount_mem (s : State) (base lo hi : Nat) : (s.lanesCount base lo hi).mem = s.mem := by simp [State.lanesCount]

@[simp] theorem State.undecodable_mem (s : State) (bank pa : Nat) : (s.undecodable bank pa).mem = s.mem := by simp [State.undecodable]

@[simp] theorem State.setCache_mem (s : State) (k : Nat) (l : List CacheEnt) : (s.setCache k l).mem = s.mem := by simp [State.setCache]

@[simp] theorem State.uncache_mem (s : State) (line k : Nat) : (s.uncache line k).mem = s.mem := by simp [State.uncache]

@[simp] theorem State.allocate_mem (s : State) (k cls line : Nat) : (s.allocate k cls line).1.mem = s.mem := by
  simp only [State.allocate]
  repeat' split
  all_goals simp

@[simp] theorem State.forget_mem (s : State) (d line : Nat) : (s.forget d line).mem = s.mem := by
  unfold State.forget
  dsimp only
  split <;> rw [State.uncache_mem, State.foldl_mem _ (by simp)]

@[simp] theorem State.l2Clean_mem (s : State) (d line : Nat) : (s.l2Clean d line).mem = s.mem := by simp [State.l2Clean]

@[simp] theorem State.listWrite_mem (s : State) (u line dom : Nat) (par : Bool) :
    (s.listWrite u line dom par).mem = s.mem := by simp [State.listWrite]

@[simp] theorem State.listFree_mem (s : State) (u : Slice) (dom : Nat) (par : Bool) :
    (s.listFree u dom par).mem = s.mem := by simp [State.listFree]

@[simp] theorem State.l2Evict_mem (s : State) (clu : Nat) (v : CacheEnt) : (s.l2Evict clu v).mem = s.mem := by simp [State.l2Evict]

@[simp] theorem State.l3Choose_mem (s : State) (d line : Nat) : (s.l3Choose d line).mem = s.mem := by simp [State.l3Choose]

@[simp] theorem State.l3Fill_mem (s : State) (d cls line : Nat) : (s.l3Fill d cls line).mem = s.mem := by
  simp only [State.l3Fill]
  repeat' split
  all_goals simp

@[simp] theorem State.l2Fill_mem (s : State) (clu cls line : Nat) : (s.l2Fill clu cls line).mem = s.mem := by
  simp only [State.l2Fill]
  split <;> simp

@[simp] theorem State.l1Fill_mem (s : State) (clu k cls line : Nat) : (s.l1Fill clu k cls line).mem = s.mem := by simp [State.l1Fill]

@[simp] theorem State.l2Dirtied_mem (s : State) (clu line : Nat) : (s.l2Dirtied clu line).mem = s.mem := by simp [State.l2Dirtied]

@[simp] theorem State.wayEmpty_mem (s : State) (k slice way : Nat) : (s.wayEmpty k slice way).mem = s.mem := by simp [State.wayEmpty]

@[simp] theorem State.headStep_mem (s : State) (d : Nat) : (s.headStep d).mem = s.mem := by simp [State.headStep]

@[simp] theorem State.promote_mem (s : State) (a : Nat) : (s.promote a).mem = s.mem := by simp [State.promote]

@[simp] theorem State.setViews_mem (s : State) (d take : Nat) : (s.setViews d take).mem = s.mem := by simp [State.setViews]

@[simp] theorem State.cutStart_mem (s : State) (d : Nat) : (s.cutStart d).mem = s.mem := by simp [State.cutStart]

@[simp] theorem State.cutTrigger_mem (s : State) (d : Nat) : (s.cutTrigger d).mem = s.mem := by simp [State.cutTrigger]

@[simp] theorem State.returnCredits_mem (s : State) (d : Nat) (p : Nat → Bool) :
    (s.returnCredits d p).mem = s.mem := by simp [State.returnCredits]

@[simp] theorem State.rcFresh_mem (s : State) (d : Nat) : (s.rcFresh d).mem = s.mem := by simp [State.rcFresh]

@[simp] theorem State.spoil_mem (s : State) (d : Nat) : (s.spoil d).mem = s.mem := by simp [State.spoil]

@[simp] theorem State.reelTrigger_mem (s : State) (d : Nat) : (s.reelTrigger d).mem = s.mem := by simp [State.reelTrigger]

@[simp] theorem State.writeBlock_mem (s : State) (d take : Nat) (kind : BlockKind) (ents : List StagedUndo) :
    (s.writeBlock d take kind ents).mem = s.mem := by simp [State.writeBlock]

@[simp] theorem State.flushOne_mem (s : State) (d take : Nat) : (s.flushOne d take).mem = s.mem := by simp [State.flushOne]

@[simp] theorem State.flush_mem (s : State) (part : Bool) : (s.flush part).mem = s.mem := by simp [State.flush]

@[simp] theorem State.acceptUndo_mem (s : State) (e : UndoEntry) : (s.acceptUndo e).mem = s.mem := by simp [State.acceptUndo]

@[simp] theorem State.cutSweep_mem (s : State) (d : Nat) : (s.cutSweep d).mem = s.mem := by simp [State.cutSweep]

@[simp] theorem State.cutMarker_mem (s : State) (d : Nat) : (s.cutMarker d).mem = s.mem := by simp [State.cutMarker]

@[simp] theorem State.cutRecord_mem (s : State) (d : Nat) : (s.cutRecord d).mem = s.mem := by simp [State.cutRecord]

@[simp] theorem State.rewriteAnchor_mem (s : State) (d : Nat) (cut : Option (Nat × Nat)) :
    (s.rewriteAnchor d cut).mem = s.mem := by simp [State.rewriteAnchor]

@[simp] theorem State.cutFinish_mem (s : State) (d take : Nat) (rb : ReelBlock) :
    (s.cutFinish d take rb).mem = s.mem := by simp [State.cutFinish]

@[simp] theorem State.post_mem (s : State) (m : Msg) : (s.post m).mem = s.mem := by
  unfold State.post; split <;> simp

@[simp] theorem State.send_mem (s : State) (k : MsgKind) (a : Agent) (line : Nat) :
    (s.send k a line).mem = s.mem := by simp [State.send]

@[simp] theorem State.recv_mem (s : State) (k : MsgKind) (a : Agent) (line : Nat) :
    (s.recv k a line).mem = s.mem := by
  simp only [State.recv]
  split <;> simp

@[simp] theorem State.sendAll_mem (s : State) (k : MsgKind) (as : List Agent) (line : Nat) :
    (s.sendAll k as line).mem = s.mem := by simp [State.sendAll]

@[simp] theorem State.stale_mem (s : State) (a : Agent) : (s.stale a).mem = s.mem := by
  unfold State.stale
  split <;> simp

@[simp] theorem State.fillRemote_mem (s : State) (line ks : Nat) : (s.fillRemote line ks).mem = s.mem := by simp [State.fillRemote]

@[simp] theorem State.recallPkg_mem (s : State) (line : Nat) : (s.recallPkg line).mem = s.mem := by simp [State.recallPkg]

@[simp] theorem State.foreign_mem (s : State) (a : Agent) (line dom : Nat) (v : LineData) :
    (s.foreign a line dom v).mem = s.mem := by simp [State.foreign]

@[simp] theorem State.pkgData_mem (s : State) (a : Agent) (line : Nat) (data : Option LineData) (tag : Option Bool) :
    (s.pkgData a line data tag).mem = s.mem := by
  simp only [State.pkgData]
  split <;> simp

@[simp] theorem State.dropLine_mem (s : State) (line : Nat) : (s.dropLine line).mem = s.mem := by simp [State.dropLine]

@[simp] theorem State.grant_mem (s : State) (go : MsgKind) (a : Agent) (line : Nat) (dat : Option Bool) :
    (s.grant go a line dat).mem = s.mem := by
  unfold State.grant; split <;> simp

@[simp] theorem State.grantNc_mem (s : State) (a : Agent) (line : Nat) (dat : Option (List Byte × Bool)) :
    (s.grantNc a line dat).mem = s.mem := by
  unfold State.grantNc; split <;> simp

@[simp] theorem State.await_mem (s : State) (line : Nat) (req : HomeReq) (k : MsgKind) (as : List Agent) :
    (s.await line req k as).mem = s.mem := by simp [State.await]

@[simp] theorem State.dirAlloc_mem (s : State) (line : Nat) : (s.dirAlloc line).mem = s.mem := by simp [State.dirAlloc]

@[simp] theorem State.consumeKept_mem (s : State) (line : Nat) : (s.consumeKept line).mem = s.mem := by simp [State.consumeKept]

@[simp] theorem State.forward_mem (s : State) (line : Nat) (req : HomeReq) : (s.forward line req).mem = s.mem := by simp [State.forward]

@[simp] theorem State.lsRead_mem (s : State) (d ofs n : Nat) (src : Option Nat) :
    (s.lsRead d ofs n src).2.2.mem = s.mem := by
  unfold State.lsRead; split <;> simp

@[simp] theorem State.ncRead_mem (s : State) (pa n ks : Nat) : (s.ncRead pa n ks).2.2.mem = s.mem := by
  simp only [State.ncRead]
  repeat' split
  all_goals simp

@[simp] theorem State.captureL2_mem (s : State) (line d dom take : Nat) :
    (s.captureL2 line d dom take).mem = s.mem := by simp [State.captureL2]

@[simp] theorem State.putBytes_mem (s : State) (pa : Nat) (bs : List Byte) (ks : Nat) :
    (s.putBytes pa bs ks).mem = s.mem := by simp [State.putBytes]

@[simp] theorem State.homeRead_mem (s : State) (agent pa n ks : Nat) : (s.homeRead agent pa n ks).2.2.mem = s.mem := by
  unfold State.homeRead
  dsimp only
  split
  · simp
  · rw [apply_ite (fun x : List Byte × Bool × State => x.2.2.mem)]
    simp

@[simp] theorem State.homeReads_mem (s : State) (agent fuel pa n ks : Nat) : (s.homeReads agent fuel pa n ks).2.2.mem = s.mem := by
  induction fuel generalizing s pa n with
  | zero => rfl
  | succ fuel ih =>
    unfold State.homeReads
    split
    · rfl
    · simp only [ih, State.homeRead_mem]

@[simp] theorem State.missFree_mem (s : State) (d line : Nat) : (s.missFree d line).mem = s.mem := by simp [State.missFree]

@[simp] theorem State.missTake_mem (s : State) (k line who : Nat) : (s.missTake k line who).mem = s.mem := by simp [State.missTake]

@[simp] theorem State.snooped_mem (s : State) (d line : Nat) (x : LineSt) : (s.snooped d line x).mem = s.mem := by
  unfold State.snooped
  simp

@[simp] theorem State.snoopFar_mem (s : State) (d : DieNo) (line : Nat) (after : LineSt → LineSt) :
    (s.snoopFar d line after).mem = s.mem := by simp [State.snoopFar]

@[simp] theorem State.snoop_mem (s : State) (k : MsgKind) (d : DieNo) (line : Nat) (after : LineSt → LineSt) (answer : LineSt → MsgKind) :
    (s.snoop k d line after answer).mem = s.mem := by simp [State.snoop]

@[simp] theorem State.landed_mem (s : State) (d line : Nat) : (s.landed d line).mem = s.mem := by simp [State.landed]

@[simp] theorem State.ncRecv_mem (s : State) (m : Msg) : (s.ncRecv m).mem = s.mem := by simp [State.ncRecv]

@[simp] theorem State.l3Evict_mem (s : State) (d : Nat) (line : Nat) (dirty : Bool) :
    (s.l3Evict d line dirty).mem = s.mem := by simp [State.l3Evict]

@[simp] theorem State.rollDrop_mem (s : State) (line : Nat) : (s.rollDrop line).mem = s.mem := by
  unfold State.rollDrop; split <;> simp

@[simp] theorem State.sweepLine_mem (s : State) (d dom line : Nat) : (s.sweepLine d dom line).mem = s.mem := by simp [State.sweepLine]

@[simp] theorem State.sweepEnd_mem (s : State) (d : Nat) : (s.sweepEnd d).mem = s.mem := by simp [State.sweepEnd]

@[simp] theorem State.purgeLine_mem (s : State) (d line : Nat) : (s.purgeLine d line).mem = s.mem := by simp [State.purgeLine]

@[simp] theorem State.tell_mem (s : State) (d : Nat) : (s.tell d).mem = s.mem := by simp [State.tell]

@[simp] theorem State.domStart_mem (s : State) (d : Nat) : (s.domStart d).mem = s.mem := by simp [State.domStart]

@[simp] theorem State.writeTdCfg_mem (s : State) (d : Nat) (val mask : Word) :
    (s.writeTdCfg d val mask).mem = s.mem := by simp [State.writeTdCfg]

@[simp] theorem State.writeTdSeg1_mem (s : State) (d : Nat) (val mask : Word) :
    (s.writeTdSeg1 d val mask).mem = s.mem := by simp [State.writeTdSeg1]

@[simp] theorem State.dlyStore_mem (s : State) : s.dlyStore.mem = s.mem := by simp [State.dlyStore]

@[simp] theorem State.logEvent_mem (s : State) (code data : Nat) : (s.logEvent code data).mem = s.mem := by simp [State.logEvent]

@[simp] theorem State.wrDrop_mem (s : State) (agent : Nat) : (s.wrDrop agent).1.mem = s.mem := by simp [State.wrDrop]

@[simp] theorem State.mirLost_mem (s : State) : s.mirLost.mem = s.mem := by simp [State.mirLost]

@[simp] theorem State.chatter_mem (s : State) : s.chatter.mem = s.mem := by simp [State.chatter]

@[simp] theorem State.wrapFinish_mem (s : State) : s.wrapFinish.mem = s.mem := by simp [State.wrapFinish]

@[simp] theorem State.respond_mem (s : State) (t result reason : Nat) (busy : Bool) :
    (s.respond t result reason busy).mem = s.mem := by simp [State.respond]

@[simp] theorem State.wakeClock_mem (s : State) (d k : Nat) : (s.wakeClock d k).mem = s.mem := by simp [State.wakeClock]

@[simp] theorem State.deepExit_mem (s : State) : s.deepExit.mem = s.mem := by
  simp only [State.deepExit]
  split <;> simp

@[simp] theorem State.wake_mem (s : State) : s.wake.mem = s.mem := by
  simp only [State.wake]
  repeat' split
  all_goals simp

@[simp] theorem State.cueDrop_mem (s : State) : s.cueDrop.mem = s.mem := by simp [State.cueDrop]

@[simp] theorem State.notice_mem (s : State) (t lvl pti : Nat) : (s.notice t lvl pti).mem = s.mem := by simp [State.notice]

@[simp] theorem State.cueTaken_mem (s : State) (t lvl : Nat) (c : Cue) : (s.cueTaken t lvl c).mem = s.mem := by simp [State.cueTaken]

@[simp] theorem State.ceRecord_mem (s : State) (d struct addr : Nat) : (s.ceRecord d struct addr).mem = s.mem := by
  simp only [State.ceRecord]
  repeat' split
  all_goals simp

@[simp] theorem State.ownStore_mem (s : State) (clu : Nat) (o : OwnerRes) : (s.ownStore clu o).mem = s.mem := by simp [State.ownStore]

@[simp] theorem State.pmEvent_mem (s : State) (t : Tid) (ev : Nat) : (s.pmEvent t ev).mem = s.mem := by simp [State.pmEvent]

@[simp] theorem State.coreFlush_mem (s : State) (t : Tid) : (s.coreFlush t).mem = s.mem := by simp [State.coreFlush]

@[simp] theorem State.encBoundary_mem (s : State) (t : Tid) (keep : Option Nat) :
    (s.encBoundary t keep).mem = s.mem := by simp [State.encBoundary]

@[simp] theorem State.hostBack_mem (s : State) (t : Tid) (pa ks : Nat) : (s.hostBack t pa ks).mem = s.mem := by simp [State.hostBack]

@[simp] theorem State.encOff_mem (s : State) (t : Tid) : (s.encOff t).mem = s.mem := by simp [State.encOff]

@[simp] theorem State.enterSet_mem (s : State) (t : Tid) (lvl : Nat) (nested : Bool) (e : Exc) (space : Nat) (encx : Option Nat) :
    (s.enterSet t lvl nested e space encx).mem = s.mem := by simp [State.enterSet]

@[simp] theorem State.unsleep_mem (s : State) (t : Tid) : (s.unsleep t).mem = s.mem := by simp [State.unsleep]

@[simp] theorem State.count_mem (s : State) (t : Tid) (ev n : Nat) : (s.count t ev n).mem = s.mem := by simp [State.count]

@[simp] theorem State.counts_mem (s : State) (t : Tid) (l : List (Nat × Nat)) : (s.counts t l).mem = s.mem := by simp [State.counts]

@[simp] theorem State.giveHints_mem (s : State) (t : Tid) (ks : List (Word × Nat)) :
    (s.giveHints t ks).mem = s.mem := by simp [State.giveHints]

@[simp] theorem State.homed_mem (s : State) (t : Tid) (va : Word) (i : Instr) : (s.homed t va i).mem = s.mem := by simp [State.homed]

@[simp] theorem State.carry_mem (s : State) (t : Tid) (z : Steer) : (s.carry t z).mem = s.mem := by simp [State.carry]

@[simp] theorem State.steered_mem (s : State) (t : Tid) (va : Word) (i : Instr) : (s.steered t va i).mem = s.mem := by simp [State.steered]

@[simp] theorem State.holds_mem (s : State) (t : Tid) : (s.holds t).mem = s.mem := by simp [State.holds]

@[simp] theorem State.branched_mem (s : State) (t : Tid) : (s.branched t).mem = s.mem := by simp [State.branched]

@[simp] theorem State.steerCount_mem (s : State) (t : Tid) (g : Rn) : (s.steerCount t g).mem = s.mem := by simp [State.steerCount]

@[simp] theorem State.idles_mem (s : State) (t : Tid) (ev0 ev : Nat) : (s.idles t ev0 ev).mem = s.mem := by simp [State.idles]

@[simp] theorem State.sdqPush_mem (s : State) (t : Tid) : (s.sdqPush t).mem = s.mem := by simp [State.sdqPush]

@[simp] theorem State.sdqPop_mem (s : State) (t : Tid) : (s.sdqPop t).mem = s.mem := by simp [State.sdqPop]

@[simp] theorem State.storeDataWait_mem (s : State) (t : Tid) (n : Nat) : (s.storeDataWait t n).mem = s.mem := by
  simp only [State.storeDataWait]
  split <;> simp

@[simp] theorem State.drainEvent_mem (s : State) (t : Tid) : (s.drainEvent t).mem = s.mem := by simp [State.drainEvent]

@[simp] theorem State.siftWait_mem (s : State) (t : Tid) : (s.siftWait t).mem = s.mem := by simp [State.siftWait]

@[simp] theorem State.missDrop_mem (s : State) (k line : Nat) : (s.missDrop k line).mem = s.mem := by simp [State.missDrop]

@[simp] theorem State.l2Waits_mem (s : State) (t : Tid) (who line : Nat) (own : Bool) :
    (s.l2Waits t who line own).mem = s.mem := by simp [State.l2Waits]

@[simp] theorem State.serveWait_mem (s : State) (t : Tid) (k line : Nat) (own : Bool) :
    (s.serveWait t k line own).mem = s.mem := by simp [State.serveWait]

@[simp] theorem State.regPut_mem (s : State) (a : Nat) (v mask : Word) : (s.regPut a v mask).mem = s.mem := by
  unfold State.regPut; split <;> simp

@[simp] theorem State.withdrawCues_mem (s : State) (d : Nat) : (s.withdrawCues d).mem = s.mem := by simp [State.withdrawCues]

@[simp] theorem State.setDie_mem (s : State) (d st : Nat) : (s.setDie d st).mem = s.mem := by simp [State.setDie]

@[simp] theorem State.dlinksDown_mem (s : State) (d : Nat) : (s.dlinksDown d).mem = s.mem := 
  s.foldl_mem _ (by simp) _

@[simp] theorem State.dieRecord_mem (s : State) (d : Nat) (r : BankRec) : (s.dieRecord d r).mem = s.mem := by simp [State.dieRecord]

@[simp] theorem State.mcPoll_mem (s : State) : s.mcPoll.mem = s.mem := by simp [State.mcPoll]

@[simp] theorem State.stopDie_mem (s : State) (d : Nat) : (s.stopDie d).mem = s.mem := by simp [State.stopDie]

@[simp] theorem State.wayDisable_mem (s : State) (e : ArrayErr) : (s.wayDisable e).mem = s.mem := by simp [State.wayDisable]

@[simp] theorem State.wayCount_mem (s : State) (e : ArrayErr) : (s.wayCount e).mem = s.mem := by simp [State.wayCount]

@[simp] theorem State.dropEntry_mem (s : State) (e : ArrayErr) : (s.dropEntry e).mem = s.mem := by
  simp only [State.dropEntry]
  repeat' split
  all_goals simp

@[simp] theorem State.stopCore_mem (s : State) (d p : Nat) : (s.stopCore d p).mem = s.mem := by
  unfold State.stopCore; split <;> simp

@[simp] theorem State.coreSpare_mem (s : State) (d l : Nat) : (s.coreSpare d l).mem = s.mem := by simp [State.coreSpare]

@[simp] theorem State.countCores_mem (s : State) (d : Nat) : (s.countCores d).mem = s.mem := by simp [State.countCores]

@[simp] theorem State.fetchWait_mem (s : State) (t : Tid) : (s.fetchWait t).mem = s.mem := by
  unfold State.fetchWait; split <;> simp

@[simp] theorem State.mcRecord_mem (s : State) (t : Tid) (code type pa : Nat) :
    (s.mcRecord t code type pa).mem = s.mem := by simp [State.mcRecord]

@[simp] theorem State.retire_mem (s : State) (t : Tid) : (s.retire t).mem = s.mem := by simp [State.retire]

@[simp] theorem State.ends_mem (s : State) (t : Tid) (va : Word) (i : Instr) : (s.ends t va i).mem = s.mem := by simp [State.ends]

@[simp] theorem State.branchEnds_mem (s : State) (t : Tid) (va : Word) (i : Instr) :
    (s.branchEnds t va i).mem = s.mem := by simp [State.branchEnds]

@[simp] theorem State.stepped_mem (s : State) (t : Nat) : (s.stepped t).mem = s.mem := by
  simp only [State.stepped]
  repeat' split
  all_goals simp

@[simp] theorem State.commitWait_mem (s : State) (t : Tid) : (s.commitWait t).mem = s.mem := by
  unfold State.commitWait; split <;> simp

@[simp] theorem State.pushStore_mem (s : State) (t : Tid) (pa ks : Nat) (bs : List Byte) :
    (s.pushStore t pa ks bs).mem = s.mem := by simp [State.pushStore]

@[simp] theorem State.loadTo_mem (s : State) (t : Tid) (d : Rn) (k : Nat) (bs : List Byte) :
    (s.loadTo t d k bs).mem = s.mem := by simp [State.loadTo]

@[simp] theorem State.amoTo_mem (s : State) (t : Tid) (q : Bool) (d : Rn) (v : Nat) :
    (s.amoTo t q d v).mem = s.mem := by simp [State.amoTo]

@[simp] theorem State.writeCr_mem (s : State) (t : Tid) (n : Nat) (v : Word) : (s.writeCr t n v).mem = s.mem := by
  unfold State.writeCr; split <;> simp

@[simp] theorem State.repNext_mem (s : State) (t : Tid) (i : Instr) : (s.repNext t i).mem = s.mem := by simp [State.repNext]

@[simp] theorem State.repEnd_mem (s : State) (t : Tid) : (s.repEnd t).mem = s.mem := by simp [State.repEnd]

@[simp] theorem State.repCount_mem (s : State) (t : Tid) (g : Rn) : (s.repCount t g).mem = s.mem := by simp [State.repCount]

@[simp] theorem State.setV_mem (s : State) (t : Tid) (r : Fin 16) (v : BitVec 512) : (s.setV t r v).mem = s.mem := by simp [State.setV]

@[simp] theorem State.redTo_mem (s : State) (t : Tid) (g : Rn) (ew : Fin 4) (x : Nat) (r : Nat) :
    (s.redTo t g ew x r).mem = s.mem := by simp [State.redTo]

@[simp] theorem State.setAc_mem (s : State) (t : Tid) (a : Fin 4) (v : SumAcc) : (s.setAc t a v).mem = s.mem := by simp [State.setAc]

@[simp] theorem State.uncFresh_mem (s : State) : s.uncFresh.mem = s.mem := by simp [State.uncFresh]

@[simp] theorem State.slateDrift_mem (s : State) (st unc : Nat) (fast : Bool) :
    (s.slateDrift st unc fast).mem = s.mem := by simp [State.slateDrift]

@[simp] theorem State.sourceLost_mem (s : State) : s.sourceLost.mem = s.mem := by simp [State.sourceLost]

@[simp] theorem State.phase_mem (s : State) : s.phase.mem = s.mem := by simp [State.phase]

@[simp] theorem State.xtalTick_mem (s : State) : s.xtalTick.mem = s.mem := by simp [State.xtalTick]

@[simp] theorem State.idle_mem (s : State) : s.idle.mem = s.mem := by simp [State.idle]

@[simp] theorem State.slateStep_mem (s : State) (ps : Nat) : (s.slateStep ps).mem = s.mem := by simp [State.slateStep]

@[simp] theorem State.correct_mem (s : State) (ofs : Int) : (s.correct ofs).mem = s.mem := by simp [State.correct]

@[simp] theorem State.applySource_mem (s : State) (src depth phops unc : Nat) (m : Option (Int × Int)) :
    (s.applySource src depth phops unc m).mem = s.mem := by
  unfold State.applySource; split <;> simp

@[simp] theorem State.refFault_mem (s : State) : s.refFault.mem = s.mem := by
  simp only [State.refFault]
  split <;> simp

@[simp] theorem State.slateInit_mem (s : State) (cal : Nat) : (s.slateInit cal).mem = s.mem := by simp [State.slateInit]

@[simp] theorem State.slateSet_mem (s : State) (v : Word) : (s.slateSet v).mem = s.mem := by simp [State.slateSet]

@[simp] theorem State.slateAdj_mem (s : State) (v : Word) : (s.slateAdj v).mem = s.mem := by simp [State.slateAdj]

@[simp] theorem State.slateCtl_mem (s : State) (v mask : Word) : (s.slateCtl v mask).mem = s.mem := by simp [State.slateCtl]

@[simp] theorem State.mpLanes_mem (s : State) (n : Nat) : (s.mpLanes n).mem = s.mem := by simp [State.mpLanes]

@[simp] theorem State.mpRefuse_mem (s : State) (n code : Nat) : (s.mpRefuse n code).mem = s.mem := by simp [State.mpRefuse]

@[simp] theorem State.failRead_mem (s : State) (line : Nat) : (s.failRead line).mem = s.mem := by simp [State.failRead]

@[simp] theorem State.mpReport_mem (s : State) (n : Nat) (d : DevInfo) : (s.mpReport n d).mem = s.mem := by simp [State.mpReport]

@[simp] theorem State.readLine_mem (s : State) (n : Nat) (q : PortReq) (line : Nat) :
    (s.readLine n q line).mem = s.mem := by
  unfold State.readLine; split <;> simp

@[simp] theorem State.acceptRead_mem (s : State) (n : Nat) (q : PortReq) : (s.acceptRead n q).mem = s.mem := by simp [State.acceptRead]

@[simp] theorem State.arbDecide_mem (s : State) (n cycles : Nat) : (s.arbDecide n cycles).mem = s.mem := by
  unfold State.arbDecide; split <;> simp

@[simp] theorem State.isCtl_mem (s : State) (i : Nat) (v mask : Word) : (s.isCtl i v mask).mem = s.mem := by simp [State.isCtl]

@[simp] theorem State.isOther_mem (s : State) (i a : Nat) (v mask : Word) : (s.isOther i a v mask).mem = s.mem := by simp [State.isOther]

@[simp] theorem State.prtAttr_mem (s : State) (n : Nat) (v mask : Word) : (s.prtAttr n v mask).mem = s.mem := by simp [State.prtAttr]

@[simp] theorem State.prtOther_mem (s : State) (n a : Nat) (v mask : Word) : (s.prtOther n a v mask).mem = s.mem := by simp [State.prtOther]

@[simp] theorem State.wrapCtl_mem (s : State) (v mask : Word) : (s.wrapCtl v mask).mem = s.mem := by simp [State.wrapCtl]

@[simp] theorem State.setMapWords_mem (s : State) (a : Nat → Nat) (m : List Word) :
    (s.setMapWords a m).mem = s.mem := by simp [State.setMapWords]

@[simp] theorem State.dlLanes_mem (s : State) (base : Nat) (fail : BitVec 34) (call eff : List Word) (w : Nat) :
    (s.dlLanes base fail call eff w).mem = s.mem := by simp [State.dlLanes]

@[simp] theorem State.dlTrain_mem (s : State) (j : Nat) : (s.dlTrain j).mem = s.mem := by simp [State.dlTrain]

@[simp] theorem State.dlStart_mem (s : State) (j : Nat) : (s.dlStart j).mem = s.mem := by simp [State.dlStart]

@[simp] theorem State.dlReset_mem (s : State) (j : Nat) : (s.dlReset j).mem = s.mem := by simp [State.dlReset]

@[simp] theorem State.featNow_mem (s : State) : s.featNow.mem = s.mem := by simp [State.featNow]

@[simp] theorem State.featCheck_mem (s : State) : s.featCheck.mem = s.mem := by simp [State.featCheck]

@[simp] theorem State.dieStarted_mem (s : State) (d : Nat) : (s.dieStarted d).mem = s.mem := by simp [State.dieStarted]

@[simp] theorem State.dlFail_mem (s : State) (j : Nat) (type : Option Nat) : (s.dlFail j type).mem = s.mem := by
  unfold State.dlFail; split <;> simp

@[simp] theorem State.laneCheck_mem (s : State) (j : Nat) (up down : BitVec 34) :
    (s.laneCheck j up down).mem = s.mem := by
  simp only [State.laneCheck]
  split <;> simp

@[simp] theorem State.dieHold_mem (s : State) (d st : Nat) : (s.dieHold d st).mem = s.mem := by simp [State.dieHold]

@[simp] theorem State.dlAnswer_mem (s : State) (j pos step : Nat) : (s.dlAnswer j pos step).mem = s.mem := by
  unfold State.dlAnswer; split <;> simp

@[simp] theorem State.flushed_mem (s : State) (l : Nat) : (s.flushed l).mem = s.mem := by simp [State.flushed]

@[simp] theorem State.rewind_mem (s : State) (l : Nat) : (s.rewind l).mem = s.mem := by simp [State.rewind]

@[simp] theorem State.commitPkt_mem (s : State) (l seq ack : Nat) : (s.commitPkt l seq ack).mem = s.mem := by simp [State.commitPkt]

@[simp] theorem State.diePkt_mem (s : State) (l : Nat) (p : LinkPacket) : (s.diePkt l p).mem = s.mem := by simp [State.diePkt]

@[simp] theorem State.pkgPkt_mem (s : State) (k : Nat) (p : LinkPacket) : (s.pkgPkt k p).mem = s.mem := by
  simp only [State.pkgPkt]
  repeat' split
  all_goals simp

@[simp] theorem State.moveLink_mem (s : State) (j o : Nat) (seq : Option Nat) : (s.moveLink j o seq).mem = s.mem := by simp [State.moveLink]

@[simp] theorem State.dlFlush_mem (s : State) (j : Nat) : (s.dlFlush j).mem = s.mem := by simp [State.dlFlush]

@[simp] theorem State.dlResume_mem (s : State) (j : Nat) : (s.dlResume j).mem = s.mem := by simp [State.dlResume]

@[simp] theorem State.dlCtl_mem (s : State) (j : Nat) (v mask : Word) : (s.dlCtl j v mask).mem = s.mem := by simp [State.dlCtl]

@[simp] theorem State.fwTgt_mem (s : State) (w : Nat) (v mask : Word) : (s.fwTgt w v mask).mem = s.mem := by simp [State.fwTgt]

@[simp] theorem State.fwOther_mem (s : State) (w a : Nat) (v mask : Word) : (s.fwOther w a v mask).mem = s.mem := by simp [State.fwOther]

@[simp] theorem State.say_mem (s : State) (a : Answer) : (s.say a).mem = s.mem := by simp [State.say]

@[simp] theorem State.linkAwake_mem (s : State) (r : Nat) : (s.linkAwake r).mem = s.mem := by simp [State.linkAwake]

@[simp] theorem State.wakeLink_mem (s : State) (r : Nat) : (s.wakeLink r).mem = s.mem := by simp [State.wakeLink]

@[simp] theorem State.winAttr_mem (s : State) (w : WinRef) (others : List WinRef) (vk : State → Nat × Nat) (v mask : Word) :
    (s.winAttr w others vk v mask).mem = s.mem := by simp [State.winAttr]

@[simp] theorem State.winOther_mem (s : State) (w : WinRef) (a : Nat) (v mask : Word) :
    (s.winOther w a v mask).mem = s.mem := by simp [State.winOther]

@[simp] theorem State.iwAttr_mem (s : State) (r j : Nat) (v mask : Word) : (s.iwAttr r j v mask).mem = s.mem := by simp [State.iwAttr]

@[simp] theorem State.inRefuse_mem (s : State) (r addr : Nat) (np : Bool) : (s.inRefuse r addr np).mem = s.mem := by simp [State.inRefuse]

@[simp] theorem State.inRead_mem (s : State) (r addr n : Nat) : (s.inRead r addr n).mem = s.mem := by
  unfold State.inRead; split <;> simp

@[simp] theorem State.ioFinish_mem (s : State) (t : Nat) (bs : List Byte) : (s.ioFinish t bs).mem = s.mem := by
  simp only [State.ioFinish]
  repeat' split
  all_goals simp

@[simp] theorem State.ioAnswer_mem (s : State) (t : Nat) (v : Option Word) : (s.ioAnswer t v).mem = s.mem := by
  unfold State.ioAnswer; split <;> simp

@[simp] theorem State.vrfActive_mem (s : State) (f : Nat) : (s.vrfActive f).mem = s.mem := by simp [State.vrfActive]

@[simp] theorem State.shipsDown_mem (s : State) (r : Nat) : (s.shipsDown r).mem = s.mem := by simp [State.shipsDown]

@[simp] theorem State.gpDown_mem (s : State) (r : Nat) : (s.gpDown r).mem = s.mem := by
  unfold State.gpDown
  simp only [State.ite_mem, State.wr_mem, ite_self]
  rw [State.foldl_mem _ (fun s t => by cases t <;> simp)]
  simp

@[simp] theorem State.gpLoss_mem (s : State) (r : Nat) : (s.gpLoss r).mem = s.mem := by simp [State.gpLoss]

@[simp] theorem State.gpTrain_mem (s : State) (r : Nat) : (s.gpTrain r).mem = s.mem := by simp [State.gpTrain]

@[simp] theorem State.gpRetrain_mem (s : State) (r : Nat) : (s.gpRetrain r).mem = s.mem := by simp [State.gpRetrain]

@[simp] theorem State.gpCtl_mem (s : State) (r : Nat) (v mask : Word) : (s.gpCtl r v mask).mem = s.mem := by simp [State.gpCtl]

@[simp] theorem State.mirConfigReset_mem (s : State) : s.mirConfigReset.mem = s.mem := by simp [State.mirConfigReset]

@[simp] theorem State.mwSwitch_mem (s : State) : s.mwSwitch.mem = s.mem := by simp [State.mwSwitch]

@[simp] theorem State.mirDown_mem (s : State) : s.mirDown.mem = s.mem := by simp [State.mirDown]

@[simp] theorem State.mirTrain_mem (s : State) : s.mirTrain.mem = s.mem := by simp [State.mirTrain]

@[simp] theorem State.mirRetrain_mem (s : State) : s.mirRetrain.mem = s.mem := by simp [State.mirRetrain]

@[simp] theorem State.mirCtl_mem (s : State) (v mask : Word) : (s.mirCtl v mask).mem = s.mem := by simp [State.mirCtl]

@[simp] theorem State.mirBarsz_mem (s : State) (v mask : Word) : (s.mirBarsz v mask).mem = s.mem := by simp [State.mirBarsz]

@[simp] theorem State.gdwTgt_mem (s : State) (w : Nat) (v mask : Word) : (s.gdwTgt w v mask).mem = s.mem := by simp [State.gdwTgt]

@[simp] theorem State.gdwOther_mem (s : State) (w a : Nat) (v mask : Word) : (s.gdwOther w a v mask).mem = s.mem := by simp [State.gdwOther]

@[simp] theorem State.mwCommit_mem (s : State) (v mask : Word) : (s.mwCommit v mask).mem = s.mem := by
  simp only [State.mwCommit]
  repeat' split
  all_goals simp

@[simp] theorem State.mwDrop_mem (s : State) (x ofs : Nat) (np : Bool) : (s.mwDrop x ofs np).mem = s.mem := by simp [State.mwDrop]

@[simp] theorem State.tlp_mem (s : State) : s.tlp.mem = s.mem := by simp [State.tlp]

@[simp] theorem State.ksAttr_mem (s : State) (k encid kind : Nat) (enc v : Bool) :
    (s.ksAttr k encid kind enc v).mem = s.mem := by simp [State.ksAttr]

@[simp] theorem State.ksRandom_mem (s : State) (k encid : Nat) (enc : Bool) :
    (s.ksRandom k encid enc).mem = s.mem := by simp [State.ksRandom]

@[simp] theorem State.ksSealed_mem (s : State) (k : Nat) (label : BitVec 128) : (s.ksSealed k label).mem = s.mem := by simp [State.ksSealed]

@[simp] theorem State.ledgerDel_mem (s : State) (k : Nat) : (s.ledgerDel k).mem = s.mem := by simp [State.ledgerDel]

@[simp] theorem State.loadRandom_mem (s : State) (k : Nat) : (s.loadRandom k).mem = s.mem := by simp [State.loadRandom]

@[simp] theorem State.loadSealed_mem (s : State) (k : Nat) : (s.loadSealed k).mem = s.mem := by simp [State.loadSealed]

@[simp] theorem State.dropGranule_mem (s : State) (pa : Nat) : (s.dropGranule pa).mem = s.mem := 
  s.foldl_mem _ (by simp) _

@[simp] theorem State.measure_mem (s : State) (id : Nat) (r : List Byte) : (s.measure id r).mem = s.mem := by simp [State.measure]

@[simp] theorem State.encResult_mem (s : State) (r : Nat) : (s.encResult r).mem = s.mem := by simp [State.encResult]

@[simp] theorem State.dbgAuth_mem (s : State) (v mask : Word) : (s.dbgAuth v mask).mem = s.mem := by simp [State.dbgAuth]

@[simp] theorem State.calTick_mem (s : State) : s.calTick.mem = s.mem := by
  unfold State.calTick
  dsimp only
  split
  · rfl
  · split
    · rw [State.setAon_mem]
    · rw [State.wrw_mem, State.setAon_mem]

@[simp] theorem State.calPut_mem (s : State) (v : Word) : (s.calPut v).mem = s.mem := by simp [State.calPut]

@[simp] theorem State.calRetrim_mem (s : State) : s.calRetrim.mem = s.mem := by simp [State.calRetrim]

@[simp] theorem State.discipline_mem (s : State) : s.discipline.mem = s.mem := by simp [State.discipline]

@[simp] theorem State.calSet_mem (s : State) (v : Word) : (s.calSet v).mem = s.mem := by simp [State.calSet]

@[simp] theorem State.wearAdd_mem (s : State) (i t mv : Nat) : (s.wearAdd i t mv).mem = s.mem := by simp [State.wearAdd]

@[simp] theorem State.cycleAdd_mem (s : State) (i j t : Nat) : (s.cycleAdd i j t).mem = s.mem := by simp [State.cycleAdd]

@[simp] theorem State.wearSample_mem (s : State) (dies : List (Option (Nat × Nat))) : (s.wearSample dies).mem = s.mem := 
  s.foldl_mem _ (fun s i => by split <;> simp) _

@[simp] theorem State.vrfStop_mem (s : State) (f err : Nat) : (s.vrfStop f err).mem = s.mem := by simp [State.vrfStop]

@[simp] theorem State.vrfCheck_mem (s : State) (f : Nat) : (s.vrfCheck f).mem = s.mem := by simp [State.vrfCheck]

@[simp] theorem State.vrhAttr_mem (s : State) (f i : Nat) (v mask : Word) : (s.vrhAttr f i v mask).mem = s.mem := by simp [State.vrhAttr]

@[simp] theorem State.vrfFetch_mem (s : State) (f : Nat) : (s.vrfFetch f).mem = s.mem := by
  simp only [State.vrfFetch]
  split <;> simp

@[simp] theorem State.sqTail_mem (s : State) (f : Nat) (v mask : Word) : (s.sqTail f v mask).mem = s.mem := by simp [State.sqTail]

@[simp] theorem State.vrfCtl_mem (s : State) (f : Nat) (v mask : Word) : (s.vrfCtl f v mask).mem = s.mem := by simp [State.vrfCtl]

@[simp] theorem State.ringBase_mem (s : State) (f a : Nat) (v mask : Word) : (s.ringBase f a v mask).mem = s.mem := by simp [State.ringBase]

@[simp] theorem State.sqCfg_mem (s : State) (f : Nat) (v mask : Word) : (s.sqCfg f v mask).mem = s.mem := by simp [State.sqCfg]

@[simp] theorem State.shipOut_mem (s : State) (port fuel a : Nat) (bs : List Byte) : (s.shipOut port fuel a bs).mem = s.mem := by
  induction fuel generalizing s a bs with
  | zero => rfl
  | succ fuel ih => unfold State.shipOut; split <;> simp [ih]

@[simp] theorem State.setJob_mem (s : State) (f i : Nat) (j : Job) : (s.setJob f i j).mem = s.mem := by simp [State.setJob]

@[simp] theorem State.countRecord_mem (s : State) (f st : Nat) : (s.countRecord f st).mem = s.mem := by simp [State.countRecord]

@[simp] theorem State.vrfClear_mem (s : State) (f : Nat) : (s.vrfClear f).mem = s.mem := by simp [State.vrfClear]

@[simp] theorem State.vrfDrop_mem (s : State) (f : Nat) : (s.vrfDrop f).mem = s.mem := by simp [State.vrfDrop]

@[simp] theorem State.vrfQuiesce_mem (s : State) (f : Nat) : (s.vrfQuiesce f).mem = s.mem := by simp [State.vrfQuiesce]

@[simp] theorem State.rnCfg_mem (s : State) (v mask : Word) : (s.rnCfg v mask).mem = s.mem := by simp [State.rnCfg]

@[simp] theorem State.rnEng_mem (s : State) (e : Nat) (v mask : Word) : (s.rnEng e v mask).mem = s.mem := by simp [State.rnEng]

@[simp] theorem State.setClocks_mem (s : State) (d : Nat) : (s.setClocks d).mem = s.mem := by simp [State.setClocks]

@[simp] theorem State.freqDone_mem (s : State) (d : Nat) : (s.freqDone d).mem = s.mem := by simp [State.freqDone]

@[simp] theorem State.capChange_mem (s : State) (c : Nat) : (s.capChange c).mem = s.mem := by simp [State.capChange]

@[simp] theorem State.sleepIn_mem (s : State) (c : Nat) : (s.sleepIn c).mem = s.mem := by simp [State.sleepIn]

@[simp] theorem State.gateOn_mem (s : State) (c : Nat) : (s.gateOn c).mem = s.mem := by simp [State.gateOn]

@[simp] theorem State.gateOff_mem (s : State) (c : Nat) : (s.gateOff c).mem = s.mem := by simp [State.gateOff]

@[simp] theorem State.holdPoll_mem (s : State) : s.holdPoll.mem = s.mem := by simp [State.holdPoll]

@[simp] theorem State.padLatch_mem (s : State) : s.padLatch.mem = s.mem := by simp [State.padLatch]

@[simp] theorem State.deepReq_mem (s : State) (t lvl : Nat) (off : Bool) : (s.deepReq t lvl off).mem = s.mem := by simp [State.deepReq]

@[simp] theorem State.gafReq_mem (s : State) (t op target arg tag : Nat) :
    (s.gafReq t op target arg tag).mem = s.mem := by
  simp only [State.gafReq]
  repeat' split
  all_goals simp

@[simp] theorem State.gafWrite_mem (s : State) (t : Nat) (u : Option Nat) (v : Word) :
    (s.gafWrite t u v).mem = s.mem := by simp [State.gafWrite]

@[simp] theorem State.capDrop_mem (s : State) : s.capDrop.mem = s.mem := by simp [State.capDrop]

@[simp] theorem State.resTick_mem (s : State) : s.resTick.mem = s.mem := by
  unfold State.resTick
  split
  · rfl
  · exact s.foldl_mem _ (by simp) _

@[simp] theorem State.reelFound_mem (s : State) (d : Nat) (a : Anchor) (bs : List ReelBlock) :
    (s.reelFound d a bs).mem = s.mem := by simp [State.reelFound]

@[simp] theorem State.dieCores_mem (s : State) (d : Nat) : (s.dieCores d).mem = s.mem := by
  unfold State.dieCores
  dsimp only
  rw [State.wr_mem, State.wr_mem, State.foldl_mem _ (by simp)]

@[simp] theorem State.dieClear_mem (s : State) (d : Nat) : (s.dieClear d).mem = s.mem := by simp [State.dieClear]

@[simp] theorem State.dieQueue_mem (s : State) (d : Nat) : (s.dieQueue d).mem = s.mem := by simp [State.dieQueue]

@[simp] theorem State.startDie_mem (s : State) (d : Nat) (vcoreOk : Bool) : (s.startDie d vcoreOk).mem = s.mem := by simp [State.startDie]

@[simp] theorem State.startThread_mem (s : State) (d l th : Nat) (pc : Word) :
    (s.startThread d l th pc).mem = s.mem := by simp [State.startThread]

@[simp] theorem State.thrStart_mem (s : State) (d l th : Nat) : (s.thrStart d l th).mem = s.mem := by simp [State.thrStart]

@[simp] theorem State.coldRecord_mem (s : State) : s.coldRecord.mem = s.mem := by simp [State.coldRecord]

@[simp] theorem State.wrapReport_mem (s : State) : s.wrapReport.mem = s.mem := by simp [State.wrapReport]

@[simp] theorem State.partFigures_mem (s : State) (cold : Bool) : (s.partFigures cold).mem = s.mem := by simp [State.partFigures]

@[simp] theorem State.pinAssert_mem (s : State) (i n : Nat) : (s.pinAssert i n).mem = s.mem := by simp [State.pinAssert]

@[simp] theorem State.pinLevel_mem (s : State) (i : Nat) (high : Bool) : (s.pinLevel i high).mem = s.mem := by simp [State.pinLevel]

@[simp] theorem State.pwrfailStuck_mem (s : State) : s.pwrfailStuck.mem = s.mem := by simp [State.pwrfailStuck]

@[simp] theorem State.sparedStart_mem (s : State) (d l th : Nat) : (s.sparedStart d l th).mem = s.mem := by
  simp only [State.sparedStart]
  split <;> simp

@[simp] theorem State.spareEnd_mem (s : State) (d l dropped : Nat) : (s.spareEnd d l dropped).mem = s.mem := by
  simp only [State.spareEnd]
  split <;> simp

@[simp] theorem State.bankClear_mem (s : State) (b : Nat) : (s.bankClear b).mem = s.mem := by simp [State.bankClear]

@[simp] theorem State.recordClear_mem (s : State) (d : Nat) : (s.recordClear d).mem = s.mem := by simp [State.recordClear]

@[simp] theorem State.peakClear_mem (s : State) (p : Nat) : (s.peakClear p).mem = s.mem := by simp [State.peakClear]

@[simp] theorem State.bwCtl_mem (s : State) (p : Nat) (v mask : Word) : (s.bwCtl p v mask).mem = s.mem := by simp [State.bwCtl]

@[simp] theorem State.qosAlloc_mem (s : State) (v : Nat) : (s.qosAlloc v).mem = s.mem := by
  simp only [State.qosAlloc]
  repeat' split
  all_goals simp

@[simp] theorem State.qosReturn_mem (s : State) (v : Nat) : (s.qosReturn v).mem = s.mem := by simp [State.qosReturn]

@[simp] theorem State.qosWrite_mem (s : State) (v : Word) : (s.qosWrite v).mem = s.mem := by simp [State.qosWrite]

@[simp] theorem State.vmCues_mem (s : State) (v : Nat) : (s.vmCues v).1.mem = s.mem := by simp [State.vmCues]

@[simp] theorem State.ptBase_mem (s : State) (i : Nat) (v mask : Word) : (s.ptBase i v mask).mem = s.mem := by
  simp only [State.ptBase]
  repeat' split
  all_goals simp

@[simp] theorem State.coreSpareWrite_mem (s : State) (d : Nat) (v mask : Word) :
    (s.coreSpareWrite d v mask).mem = s.mem := by simp [State.coreSpareWrite]

@[simp] theorem State.thrStartWrite_mem (s : State) (d : Nat) (v : Word) : (s.thrStartWrite d v).mem = s.mem := by simp [State.thrStartWrite]

@[simp] theorem State.gafLimit_mem (s : State) (v mask : Word) : (s.gafLimit v mask).mem = s.mem := by
  unfold State.gafLimit
  dsimp only
  rw [State.wr_mem, State.wr_mem, State.regPut_mem]

@[simp] theorem State.partMask_mem (s : State) (a : Nat) (v mask : Word) : (s.partMask a v mask).mem = s.mem := by simp [State.partMask]

@[simp] theorem State.clearWrite_mem (s : State) (v : Word) (i : Nat) (f : State → State) (hf : (f s).mem = s.mem) :
    (s.clearWrite v i f).mem = s.mem := by
  simp [State.clearWrite, hf]

@[simp] theorem State.regRead_mem (s : State) (a : Nat) : (s.regRead a).2.mem = s.mem := by
  simp only [State.regRead]
  repeat' split
  all_goals simp

@[simp] theorem State.bootTo_mem (s : State) (n : Nat) : (s.bootTo n).mem = s.mem := by simp [State.bootTo]

@[simp] theorem State.bootHold_mem (s : State) (why : Nat) : (s.bootHold why).mem = s.mem := by simp [State.bootHold]

@[simp] theorem State.bootPick_mem (s : State) : s.bootPick.mem = s.mem := by
  simp only [State.bootPick]
  repeat' split
  all_goals simp

@[simp] theorem State.buildMap_mem (s : State) (d dead : Nat) : (s.buildMap d dead).mem = s.mem := by
  unfold State.buildMap
  dsimp only
  rw [State.wr_mem, State.wr_mem, State.foldl_mem _ (by simp)]

@[simp] theorem State.repair_mem (s : State) (x : Nat × Nat × Nat) : (s.repair x).mem = s.mem := by simp [State.repair]

@[simp] theorem State.repairs_mem (s : State) (d : Nat) : (s.repairs d).mem = s.mem := by
  unfold State.repairs; split <;> simp

@[simp] theorem State.fillLocality_mem (s : State) : s.fillLocality.mem = s.mem := by simp [State.fillLocality]

@[simp] theorem State.bootDies_mem (s : State) : s.bootDies.mem = s.mem := by simp [State.bootDies]

@[simp] theorem State.loadKeys_mem (s : State) : s.loadKeys.mem = s.mem := by
  unfold State.loadKeys; split <;> simp

@[simp] theorem State.pinEvt_mem (s : State) (i : Nat) : (s.pinEvt i).mem = s.mem := by simp [State.pinEvt]

@[simp] theorem State.unstick_mem (s : State) (i : Nat) : (s.unstick i).mem = s.mem := by simp [State.unstick]

@[simp] theorem State.stick_mem (s : State) (i : Nat) : (s.stick i).mem = s.mem := by simp [State.stick]

@[simp] theorem State.dbgHalt_mem (s : State) (t : Nat) : (s.dbgHalt t).mem = s.mem := by simp [State.dbgHalt]

@[simp] theorem State.dbgGo_mem (s : State) (t : Nat) (one : Bool) : (s.dbgGo t one).mem = s.mem := by simp [State.dbgGo]

@[simp] theorem State.strike_mem (s : State) : s.strike.mem = s.mem := by
  unfold State.strike; split <;> simp

end Sys2Proof.Machine
end

section
/-!
KEEPING THE FORM OF MEMORY. The functions that may write memory keep its canonical form (R9, R187, R250, R300), in the order of the
definitions; where one only calls others, the frame rules and the rules above it give it.
-/
namespace Sys2Proof.Machine

set_option Elab.async false

theorem State.memOk_of_mem {s u : State} (h : s.memOk) (hu : u.mem = s.mem) : u.memOk :=
  s.memOk_congr u h (congrArg Mem.dev hu) (congrArg Mem.ls hu)

theorem State.memOk_foldl {α : Type} (f : State → α → State) (hf : ∀ s a, s.memOk → (f s a).memOk) (l : List α) (s : State)
    (h : s.memOk) : (l.foldl f s).memOk := foldl_keeps State.memOk f hf l s h

/-- The state that an instruction's own effect leaves. -/
@[simp] def Out.state : Out → State
  | .done s => s
  | .branch s _ => s
  | .skip s => s
  | .go s => s
  | .trap s _ => s
  | .hold s => s

theorem State.memOk_setWq (s : State) (n : Nat) (q : List WqEnt) (h : s.memOk) : (s.setWq n q).memOk := by
  unfold State.setWq
  grind [State.memOk, State.wr_mem]

theorem State.memOk_portPut (s : State) (n dev : Nat) (mask : BitVec 64) (d : LineData) (poison undo : Bool) (ks : Nat) (h : s.memOk) :
    (s.portPut n dev mask d poison undo ks).memOk := by
  unfold State.portPut
  grind [State.memOk, State.logAsync_mem, State.memOk_setWq, State.tick_mem]

theorem State.memOk_setHeld (s : State) (q : List Held) (h : s.memOk) : (s.setHeld q).memOk := h

theorem State.memOk_toMemory (s : State) (line : Nat) (mask : BitVec 64) (d : LineData) (poison undo : Bool) (ks : Nat) (h : s.memOk) :
    (s.toMemory line mask d poison undo ks).memOk := by
  unfold State.toMemory
  grind [State.memOk, State.memOk_portPut, State.undecodable_mem]

theorem State.memOk_releaseHeld (s : State) (h : s.memOk) : s.releaseHeld.memOk := by
  unfold State.releaseHeld
  grind [State.memOk, State.memOk_setHeld, State.wr_mem, State.memOk_toMemory, State.memOk_foldl]

theorem State.memOk_hold (s : State) (line : Nat) (d : LineData) (poison : Bool) (ks dom : Nat) (h : s.memOk) :
    (s.hold line d poison ks dom).memOk := by
  unfold State.hold
  grind [State.memOk, State.memOk_setHeld, State.memOk_releaseHeld]

theorem State.memOk_writeLine (s : State) (line : Nat) (d : LineData) (poison pd : Bool) (ks : Nat) (h : s.memOk) :
    (s.writeLine line d poison pd ks).memOk := by
  unfold State.writeLine
  grind [State.memOk_hold, State.memOk_toMemory]

theorem State.memOk_reelStore (s : State) (d : Nat) (b : ReelBlock) (h : s.memOk) : (s.reelStore d b).memOk := by
  refine s.memOk_foldl _ (fun s i h => ?_) _ h
  split
  · exact s.memOk_devComplete _ _ h
  · exact h

theorem State.memOk_cleanLine (s : State) (line : Nat) (h : s.memOk) : (s.cleanLine line).memOk := by
  unfold State.cleanLine
  grind [State.memOk, State.memOk_writeLine, State.setLine_mem, State.l2Clean_mem, State.foldl_mem, LoopFrame]

theorem State.memOk_homeWriteNow (s : State) (agent pa : Nat) (bs : List Byte) (ks : Nat) (h : s.memOk) :
    (s.homeWriteNow agent pa bs ks).memOk := by
  unfold State.homeWriteNow
  grind [State.memOk, State.dropLine_mem, State.recallPkg_mem, State.memOk_hold, State.memOk_writeLine, State.tick_mem, State.inc_mem,
    State.acceptUndo_mem, State.promote_mem]

theorem State.memOk_homeGo (s : State) (line : Nat) (req : HomeReq) (h : s.memOk) : (s.homeGo line req).memOk := by
  unfold State.homeGo
  grind [State.memOk, State.memOk_homeWriteNow, State.await_mem, State.grantNc_mem, State.grant_mem, State.dirAlloc_mem, State.setLine_mem]

theorem State.memOk_homeStart (s : State) (line : Nat) (req : HomeReq) (vict : Option Nat) (h : s.memOk) :
    (s.homeStart line req vict).memOk := by
  unfold State.homeStart
  grind [State.memOk, State.memOk_homeGo, State.await_mem, State.inc_mem, State.setLine_mem]

theorem State.memOk_homeNext (fuel : Nat) (s : State) (line : Nat) (h : s.memOk) : (State.homeNext fuel s line).memOk := by
  induction fuel generalizing s with
  | zero => exact h
  | succ fuel ih =>
    unfold State.homeNext
    dsimp only
    split
    · grind [State.memOk_homeStart, State.setLine_mem, State.memOk]
    · exact h

theorem State.memOk_wrRun (fuel : Nat) (s : State) (h : s.memOk) : (State.wrRun fuel s).memOk := by
  induction fuel generalizing s with
  | zero => exact h
  | succ fuel ih =>
    unfold State.wrRun
    split
    · exact ih _ (State.memOk_homeNext _ s _ h)
    · exact h

theorem State.memOk_homeRun (s : State) (line : Nat) (h : s.memOk) : (s.homeRun line).memOk := by
  unfold State.homeRun
  grind [State.memOk_homeNext, State.memOk_wrRun]

theorem State.memOk_orphan (s : State) (line : Nat) (dirty : Bool) (h : s.memOk) : (s.orphan line dirty).memOk := by
  unfold State.orphan
  grind [State.memOk, State.memOk_cleanLine, State.setLine_mem]

theorem State.memOk_homeFinish (s : State) (line : Nat) (h : s.memOk) : (s.homeFinish line).memOk := by
  unfold State.homeFinish
  grind [State.memOk, State.memOk_homeGo, State.grantNc_mem, State.memOk_homeRun, State.grant_mem, State.consumeKept_mem,
    State.memOk_orphan, State.memOk_cleanLine, State.setLine_mem]

theorem State.memOk_homeReq (s : State) (a : Agent) (line : Nat) (req : HomeReq) (vict : Option Nat) (h : s.memOk) :
    (s.homeReq a line req vict).memOk := by
  unfold State.homeReq
  grind [State.memOk, State.forward_mem, State.memOk_homeStart, State.setLine_mem, State.stale_mem]

theorem State.memOk_homeAnswer (s : State) (a : Agent) (line : Nat) (dirty evx : Bool) (h : s.memOk) :
    (s.homeAnswer a line dirty evx).memOk := by
  unfold State.homeAnswer
  grind [State.memOk, State.setLine_mem, State.memOk_homeFinish]

theorem State.memOk_dirEvict (s : State) (v : Nat) (h : s.memOk) : (s.dirEvict v).memOk := by
  unfold State.dirEvict
  grind [State.memOk, State.recallPkg_mem, State.inc_mem, State.forget_mem, State.memOk_cleanLine, State.setLine_mem, State.foldl_mem,
    LoopFrame]

theorem State.memOk_dirMake (s : State) (line : Nat) (h : s.memOk) : (s.dirMake line).memOk := by
  unfold State.dirMake
  grind [State.memOk, State.memOk_dirEvict, State.dirAlloc_mem]

theorem State.memOk_askHome (s : State) (line d ks : Nat) (h : s.memOk) : (s.askHome line d ks).memOk := by
  unfold State.askHome
  grind [State.memOk, State.recallPkg_mem, State.memOk_dirMake, State.fillRemote_mem, State.forget_mem, State.packetOut_mem]

theorem State.memOk_acqShared (s : State) (line d ks : Nat) (h : s.memOk) : (s.acqShared line d ks).memOk := by
  unfold State.acqShared
  grind [State.memOk, State.tick_mem, State.memOk_cleanLine, State.setLine_mem, State.memOk_askHome]

theorem State.memOk_acqOwn (s : State) (line d ks : Nat) (h : s.memOk) : (s.acqOwn line d ks).memOk := by
  unfold State.acqOwn
  grind [State.memOk, State.forget_mem, State.setLine_mem, State.memOk_askHome, State.foldl_mem, LoopFrame]

theorem State.memOk_holdEnd (s : State) (d line : Nat) (h : s.memOk) : (s.holdEnd d line).memOk := by
  unfold State.holdEnd
  grind [State.memOk, State.memOk_homeRun, State.setLine_mem]

theorem State.memOk_ncWrite (s : State) (pa : Nat) (bs : List Byte) (ks : Nat) (h : s.memOk) :
    (s.ncWrite pa bs ks).memOk := by
  unfold State.ncWrite
  grind [State.memOk, State.memOk_portPut, State.packetOut_mem, State.undecodable_mem, State.memOk_lsWrite]

theorem State.memOk_readIn (s : State) (d pa n ks : Nat) (h : s.memOk) : (s.readIn d pa n ks).2.2.memOk := by
  unfold State.readIn
  grind [State.memOk, State.l3Fill_mem, State.memOk_acqShared, State.tick_mem, State.promote_mem, State.memOk_holdEnd,
    State.ncRead_mem, State.lsRead_mem]

theorem State.memOk_readBytes (s : State) (d fuel pa n ks : Nat) (h : s.memOk) : (s.readBytes d fuel pa n ks).2.2.memOk := by
  induction fuel generalizing s pa n with
  | zero => exact h
  | succ fuel ih =>
    unfold State.readBytes
    split
    · exact h
    · exact ih _ _ _ (s.memOk_readIn d pa _ ks h)

theorem State.memOk_storeIn (s : State) (d clu pa : Nat) (bs : List Byte) (ks : Nat) (h : s.memOk) :
    (s.storeIn d clu pa bs ks).memOk := by
  unfold State.storeIn
  grind [State.memOk, State.memOk_ncWrite, State.putBytes_mem, State.memOk_acqOwn, State.l2Dirtied_mem, State.inc_mem,
    State.promote_mem, State.listWrite_mem, State.memOk_holdEnd, State.memOk_lsWrite, State.captureL2_mem]

theorem State.memOk_homeWrite (s : State) (agent n pa : Nat) (bs : List Byte) (ks : Nat) (h : s.memOk) :
    (s.homeWrite agent n pa bs ks).memOk := by
  unfold State.homeWrite
  grind [State.memOk, State.memOk_homeWriteNow, State.memOk_ncWrite, State.setLine_mem, State.memOk_lsWrite]

theorem State.memOk_homePieces (s : State) (agent n fuel pa : Nat) (bs : List Byte) (ks : Nat) (h : s.memOk) :
    (s.homePieces agent n fuel pa bs ks).memOk := by
  induction fuel generalizing s pa bs with
  | zero => exact h
  | succ fuel ih =>
    unfold State.homePieces
    split
    · exact h
    · exact ih _ _ _ (s.memOk_homeWrite _ _ _ _ _ h)

theorem State.memOk_homeWrites (s : State) (agent fuel pa : Nat) (bs : List Byte) (ks : Nat) (h : s.memOk) :
    (s.homeWrites agent fuel pa bs ks).memOk := by
  unfold State.homeWrites
  grind [State.memOk, State.memOk_homePieces]

theorem State.memOk_dieAsks (s : State) (d : DieNo) (line : Nat) (req : HomeReq) (vict : Option Nat) (h : s.memOk) :
    (s.dieAsks d line req vict).memOk := by
  unfold State.dieAsks
  grind [State.memOk, State.missTake_mem, State.tick_mem, State.memOk_homeReq]

theorem State.memOk_pkgAsks (s : State) (a : Agent) (line : Nat) (req : HomeReq) (vict : Option Nat) (h : s.memOk) :
    (s.pkgAsks a line req vict).memOk := by
  unfold State.pkgAsks
  grind [State.memOk_homeReq]

theorem State.memOk_missDone (s : State) (d line : Nat) (h : s.memOk) : (s.missDone d line).memOk := by
  unfold State.missDone
  grind [State.memOk, State.l3Fill_mem, State.missFree_mem, State.landed_mem, State.forget_mem, State.memOk_homeRun, State.setLine_mem]

theorem State.memOk_go (s : State) (k : MsgKind) (st : LineSt) (d : DieNo) (line : Nat) (h : s.memOk) :
    (s.go k st d line).memOk := by
  unfold State.go
  grind [State.memOk, State.recv_mem, State.memOk_missDone, State.fillRemote_mem, State.setLine_mem]

theorem State.memOk_homeEvict (s : State) (a : Agent) (line : Nat) (dirty : Bool) (h : s.memOk) :
    (s.homeEvict a line dirty).memOk := by
  unfold State.homeEvict
  grind [State.memOk, State.send_mem, State.packetOut_mem, State.memOk_cleanLine, State.setLine_mem, State.memOk_homeFinish]

theorem State.memOk_takeSwb (s : State) (line : Nat) (v : LineData) (poison : Bool) (ks dom : Nat) (h : s.memOk) :
    (s.takeSwb line v poison ks dom).memOk := by
  unfold State.takeSwb
  grind [State.memOk, State.memOk_hold, State.inc_mem]

theorem State.memOk_purgeEnd (s : State) (d : Nat) (h : s.memOk) : (s.purgeEnd d).memOk := by
  unfold State.purgeEnd
  grind [State.memOk, State.memOk_setHeld, State.flushOne_mem, State.setDom_mem, State.foldl_mem, LoopFrame]

theorem State.memOk_persistBlock (s : State) (d : Nat) (b : ReelBlock) (h : s.memOk) :
    (s.persistBlock d b).memOk := by
  unfold State.persistBlock
  grind [State.memOk, State.cutRecord_mem, State.setDom_mem, State.memOk_releaseHeld, State.memOk_homeRun, State.memOk_reelStore,
    State.memOk_foldl]

theorem State.memOk_rollStart (s : State) (d : Nat) (h : s.memOk) : (s.rollStart d).memOk := by
  unfold State.rollStart
  grind [State.memOk, State.tell_mem, State.memOk_purgeEnd, State.setDom_mem, State.wr_mem]

theorem State.memOk_wqLine (s : State) (n dev : Nat) (h : s.memOk) : (s.wqLine n dev).memOk := by
  unfold State.wqLine
  dsimp only
  split
  · refine State.memOk_setWq _ n _ ?_
    refine foldl_keeps (fun m : Mem => ({ s with mem := m } : State).memOk) _ (fun m e hm => ?_) _ s.mem h
    exact State.memOk_devComplete { s with mem := m } _ e hm
  · exact h

theorem State.memOk_applyUndo (s : State) (e : UndoEntry) (h : s.memOk) : (s.applyUndo e).memOk := by
  unfold State.applyUndo
  dsimp only
  split
  · exact State.memOk_devComplete _ _ _ (s.memOk_wqLine _ _ h)
  · exact h

theorem State.memOk_applyBlocks (s : State) (bs : List ReelBlock) (h : s.memOk) : (s.applyBlocks bs).memOk := by
  unfold State.applyBlocks
  grind [State.memOk_applyUndo, State.memOk_foldl]

theorem State.memOk_openRolled (s : State) (d take : Nat) (h : s.memOk) : (s.openRolled d take).memOk := by
  unfold State.openRolled
  grind [State.memOk, State.setDom_mem, State.headStep_mem, State.wr_mem, State.memOk_reelStore]

theorem State.memOk_wqEnd (s : State) (wait : Bool) (n : Nat) (h : s.memOk) : (s.wqEnd wait n).memOk := by
  refine State.memOk_setWq _ n _ (s.memOk_foldl _ (fun s x h => ?_) _ h)
  dsimp only
  split
  · exact State.memOk_devComplete s.tick.tick _ _ h
  · exact h

theorem State.memOk_blocksEnd (s : State) (d : Nat) (h : s.memOk) : (s.blocksEnd d).memOk := by
  unfold State.blocksEnd
  grind [State.memOk, State.setDom_mem, State.tick_mem, State.memOk_reelStore, State.memOk_foldl]

theorem State.memOk_discardAll (s : State) (wait : Bool) (h : s.memOk) : (s.discardAll wait).memOk := by
  unfold State.discardAll
  grind [State.memOk, State.memOk_setHeld, State.memOk_wqEnd, State.memOk_blocksEnd, State.memOk_foldl]

theorem State.memOk_wrapStart (s : State) (cause : Nat) (h : s.memOk) : (s.wrapStart cause).memOk := by
  unfold State.wrapStart
  grind [State.memOk, State.wrapFinish_mem, State.logEvent_mem, State.memOk_loseVolatile, State.wr_mem, State.memOk_discardAll,
    State.mirLost_mem, State.incSat_mem, State.foldl_mem, LoopFrame]

theorem State.memOk_fatal (s : State) (b : Nat) (e : ErrRec) (h : s.memOk) : (s.fatal b e).memOk := by
  unfold State.fatal
  grind [State.memOk, State.logErr_mem, State.memOk_wrapStart, State.wr_mem, State.wrw_mem]

theorem State.memOk_cannotProceed (s : State) (t : Nat) (h : s.memOk) : (s.cannotProceed t).memOk := by
  unfold State.cannotProceed
  grind [State.memOk_fatal]

theorem State.memOk_homeOr (s : State) (pa : Nat) (b : Byte) (h : s.memOk) : (s.homeOr pa b).memOk := by
  unfold State.homeOr
  grind [State.memOk, State.homeReads_mem, State.memOk_homeWrites]

theorem State.memOk_cueVirtual (s : State) (target : Nat) (h : s.memOk) : (s.cueVirtual target).memOk := by
  unfold State.cueVirtual
  grind [State.memOk, State.notice_mem, State.homeReads_mem, State.cueDrop_mem, State.memOk_homeOr]

theorem State.memOk_cueRaise (s : State) (v : Nat) (h : s.memOk) : (s.cueRaise v).memOk := by
  unfold State.cueRaise
  grind [State.memOk, State.memOk_cueVirtual, State.cueDrop_mem, State.wr_mem, State.wake_mem]

theorem State.memOk_logCe (s : State) (b : Nat) (e : ErrRec) (h : s.memOk) : (s.logCe b e).memOk := by
  unfold State.logCe
  grind [State.memOk, State.ceRecord_mem, State.memOk_cueRaise, State.logErr_mem]

theorem State.memOk_logDeferred (s : State) (b : Nat) (e : ErrRec) (h : s.memOk) : (s.logDeferred b e).memOk := by
  unfold State.logDeferred
  grind [State.memOk, State.memOk_cueRaise, State.logErr_mem]

theorem State.memOk_tlbScrub (s : State) (t : Tid) (h : s.memOk) : (s.tlbScrub t).memOk := by
  unfold State.tlbScrub
  grind [State.memOk, State.tick_mem, State.setCore_mem, State.memOk_logCe, State.memOk_foldl]

theorem State.memOk_tableRead (s : State) (d pa n : Nat) (h : s.memOk) : (s.tableRead d pa n).2.memOk := by
  unfold State.tableRead
  grind [State.memOk_readBytes]

theorem State.memOk_ownSummary (s : State) (d clu blk : Nat) (h : s.memOk) : (s.ownSummary d clu blk).2.2.memOk := by
  unfold State.ownSummary
  grind [State.memOk, State.memOk_tableRead, State.ownStore_mem]

theorem State.memOk_ownResult (s : State) (d clu : Nat) (q : OwnReq) (gran : Nat) (e : BitVec 32) (h : s.memOk) :
    (s.ownResult d clu q gran e).2.memOk := by
  unfold State.ownResult
  grind [State.memOk, State.memOk_tableRead, State.ownStore_mem]

theorem State.memOk_ownGranule (s : State) (d clu : Nat) (q : OwnReq) (gran : Nat) (h : s.memOk) :
    (s.ownGranule d clu q gran).2.memOk := by
  unfold State.ownGranule
  grind [State.memOk, State.memOk_tableRead, State.ownStore_mem, State.memOk_ownSummary, State.memOk_ownResult]

theorem State.memOk_ownGranules (s : State) (d clu : Nat) (q : OwnReq) (gs : List Nat) (h : s.memOk) :
    (s.ownGranules d clu q gs).2.memOk := by
  induction gs generalizing s with
  | nil => exact h
  | cons g gs ih =>
    have hg := s.memOk_ownGranule d clu q g h
    unfold State.ownGranules
    dsimp only
    split
    · exact ih _ hg
    · exact hg

theorem State.memOk_ownBlocks (s : State) (d clu : Nat) (q : OwnReq) (was : Nat) (bs : List Nat) (h : s.memOk) :
    (s.ownBlocks d clu q was bs).2.memOk := by
  induction bs generalizing s was with
  | nil => exact h
  | cons b bs ih =>
    have hb := s.memOk_ownSummary d clu b h
    unfold State.ownBlocks
    dsimp only
    split
    · exact hb
    · split
      · exact hb
      · exact ih _ _ hb

theorem State.memOk_ownCheck (s : State) (d clu : Nat) (q : OwnReq) (r : Region) (h : s.memOk) :
    (s.ownCheck d clu q r).2.memOk := by
  unfold State.ownCheck
  grind [State.memOk_ownBlocks, State.memOk_ownSummary, State.memOk_ownGranules]

theorem State.memOk_encDw (s : State) (d id k : Nat) (h : s.memOk) : (s.encDw d id k).2.memOk := by
  unfold State.encDw
  grind [State.memOk_tableRead]

theorem State.memOk_insCheck (s : State) (t : Tid) (e : TlbSlot) (composed : Bool) (slot lfsr : Nat) (h : s.memOk) :
    (s.insCheck t e composed slot lfsr).2.memOk := by
  have owned (q : OwnReq) (r : Region) := s.memOk_ownCheck (dieOf t) (s.clusterOf t) q r h
  have read (q : OwnReq) (r : Region) (id : Nat) := State.memOk_encDw _ (dieOf t) id 0 (owned q r)
  unfold State.insCheck
  dsimp only
  repeat' split
  all_goals grind only

theorem State.memOk_tlbw (s : State) (t : Tid) (slot : Option Nat) (h : s.memOk) : (s.tlbw t slot).2.memOk := by
  unfold State.tlbw
  grind [State.memOk_insCheck]

theorem State.memOk_saveWords (s : State) (t : Tid) (pa ks : Nat) (ws : List (Nat × Word)) (h : s.memOk) :
    (s.saveWords t pa ks ws).memOk := by
  unfold State.saveWords
  grind [State.memOk_storeIn, State.memOk_foldl]

theorem State.memOk_slotSet (s : State) (t : Tid) (id slot v : Nat) (h : s.memOk) :
    (s.slotSet t id slot v).memOk := by
  unfold State.slotSet
  grind [State.memOk_storeIn, State.memOk_encDw]

theorem State.memOk_forcedExit (s : State) (t : Tid) (epc etgt : Word) (bd : Bool) (rep : Option Nat) (h : s.memOk) :
    (s.forcedExit t epc etgt bd rep).1.memOk := by
  unfold State.forcedExit
  grind [State.memOk, State.hostBack_mem, State.memOk_saveWords, State.encBoundary_mem, State.memOk_slotSet, State.encOff_mem,
    State.setThr_mem]

theorem State.memOk_enterAt (s : State) (t : Tid) (e : Exc) (space : Nat) (encx : Option Nat) (fuel lvl : Nat) (h : s.memOk) :
    (s.enterAt t e space encx fuel lvl).memOk := by
  induction fuel generalizing e lvl with
  | zero => exact s.memOk_cannotProceed t.val h
  | succ fuel ih =>
    unfold State.enterAt
    grind [State.memOk, State.enterSet_mem, State.memOk_cannotProceed]

theorem State.memOk_take (s : State) (t : Tid) (e : Exc) (space lvl : Nat) (h : s.memOk) :
    (s.take t e space lvl).memOk := by
  unfold State.take
  grind [State.memOk, State.discard_mem, State.memOk_forcedExit, State.memOk_cannotProceed, State.memOk_enterAt, State.pmEvent_mem]

theorem State.memOk_takeSync (s : State) (t : Tid) (e : Exc) (space : Nat) (h : s.memOk) :
    (s.takeSync t e space).memOk := by
  unfold State.takeSync
  grind [State.memOk_take]

theorem State.memOk_mcTake (s : State) (t : Tid) (rerouted : Bool) (h : s.memOk) : (s.mcTake t rerouted).memOk := by
  unfold State.mcTake
  grind [State.memOk, State.promote_mem, State.unsleep_mem, State.memOk_take, State.wr_mem, State.setThr_mem, State.wrIf_mem]

theorem State.memOk_given (s : State) (line d ks : Nat) (own : Bool) (h : s.memOk) :
    (s.given line d ks own).memOk := by
  unfold State.given
  grind [State.memOk, State.memOk_acqOwn, State.memOk_acqShared, State.promote_mem]

theorem State.memOk_serve (s : State) (t : Tid) (k line ks : Nat) (own : Bool) (u : State) (h : s.memOk)
    (hu : s.serve t k line ks own = some u) : u.memOk := by
  unfold State.serve at hu
  grind [State.memOk, State.counts_mem, State.memOk_given, State.missDrop_mem, State.l1Fill_mem]

theorem State.memOk_serveL2 (s : State) (t : Tid) (line ks : Nat) (u : State) (h : s.memOk)
    (hu : s.serveL2 t line ks = some u) : u.memOk := by
  unfold State.serveL2 at hu
  grind [State.memOk, State.memOk_given, State.missDrop_mem, State.l2Fill_mem]

theorem State.memOk_reclaimOwned (s : State) (line : Nat) (h : s.memOk) : (s.reclaimOwned line).memOk := by
  unfold State.reclaimOwned
  grind [State.memOk, State.spoil_mem, State.inc_mem, State.memOk_toMemory, State.setLine_mem]

theorem State.memOk_reclaimLine (s : State) (a : Agent) (line : Nat) (h : s.memOk) :
    (s.reclaimLine a line).memOk := by
  unfold State.reclaimLine
  grind [State.memOk, State.forget_mem, State.memOk_homeRun, State.memOk_reclaimOwned, State.setLine_mem, State.memOk_homeFinish]

theorem State.memOk_reclaim (s : State) (a : Agent) (remote : Bool) (n : Nat) (h : s.memOk) :
    (s.reclaim a remote n).memOk := by
  unfold State.reclaim
  grind [State.memOk, State.wr_mem, State.memOk_reclaimLine, State.memOk_foldl]

theorem State.memOk_unwait (s : State) (d k : Nat) (h : s.memOk) : (s.unwait d k).memOk := by
  unfold State.unwait
  grind [State.memOk, State.sweepEnd_mem, State.cutSweep_mem, State.memOk_purgeEnd, State.setDom_mem]

theorem State.memOk_fence (s : State) (d : Nat) (h : s.memOk) : (s.fence d).memOk := by
  unfold State.fence
  grind [State.memOk, State.mcPoll_mem, State.dlinksDown_mem, State.wr_mem, State.setDie_mem, State.memOk_reclaim, State.memOk_unwait,
    State.withdrawCues_mem, State.memOk_foldl]

theorem State.memOk_poisonLine (s : State) (e : ArrayErr) (h : s.memOk) : (s.poisonLine e).memOk := by
  unfold State.poisonLine
  grind [State.memOk, State.setLine_mem]

theorem State.memOk_dieFatal (s : State) (b : Nat) (e : ArrayErr) (h : s.memOk) : (s.dieFatal b e).memOk := by
  unfold State.dieFatal
  grind [State.memOk, State.logErr_mem, State.memOk_fence, State.dieRecord_mem]

theorem State.memOk_arrayErr (s : State) (e : ArrayErr) (h : s.memOk) : (s.arrayErr e).memOk := by
  unfold State.arrayErr
  grind [State.memOk, State.logAsync_mem, State.memOk_dieFatal, State.spoil_mem, State.wayCount_mem, State.memOk_poisonLine,
    State.dropEntry_mem, State.memOk_logCe, State.memOk_fatal, State.memOk_logDeferred, State.stopCore_mem]

theorem State.memOk_scrub (s : State) (d : Nat) (h : s.memOk) : (s.scrub d).memOk := by
  unfold State.scrub
  grind [State.memOk, State.memOk_arrayErr, State.memOk_foldl]

theorem State.memOk_fetched (s : State) (t : Tid) (u : State) (h : s.memOk) (hu : s.fetched t = some u) : u.memOk := by
  unfold State.fetched at hu
  grind [State.memOk_serve]

theorem State.memOk_raise (s : State) (t : Tid) (x : Trap) (rep : Option Nat) (h : s.memOk) :
    (s.raise t x rep).memOk := by
  unfold State.raise
  grind [State.memOk_takeSync]

theorem Out.memOk_finish (t : Tid) (va : Word) (i : Instr) (o : Out) (h : o.state.memOk) : (o.finish t va i).memOk := by
  cases o <;> grind [Out.finish, Out.state, State.memOk, State.ends_mem, State.branchEnds_mem, State.setThr_mem, State.memOk_raise,
    State.holds_mem]

theorem State.memOk_run1 (s : State) (t : Tid) (i : Instr) (body : State → Out) (h : s.memOk)
    (hb : ∀ v, v.memOk → (body v).state.memOk) : (s.run1 t i body).memOk := by
  have hs : ((s.running t).tlbScrub t).memOk := State.memOk_tlbScrub _ t (by grind [State.memOk, State.running_mem])
  unfold State.run1
  dsimp only
  split
  · split
    · grind [State.memOk, State.mcRecord_mem, State.memOk_raise]
    · split
      · grind [State.memOk, State.fetchWait_mem]
      · next v hv =>
        have hf := State.memOk_fetched _ t v hs hv
        grind [State.memOk, State.memOk_raise, State.siftWait_mem, State.steered_mem, Out.memOk_finish]
  · exact h

theorem State.memOk_issue (s : State) (t : Tid) (i : Instr) (body : State → Out) (h : s.memOk)
    (hb : ∀ v, v.memOk → (body v).state.memOk) : (s.issue t i body).memOk := by
  unfold State.issue
  grind [State.memOk, State.memOk_scrub, State.memOk_run1, State.stepped_mem]

theorem State.memOk_writable (s : State) (t : Tid) (pa ks : Nat) (u : State) (h : s.memOk)
    (hu : s.writable t pa ks = some u) : u.memOk := by
  unfold State.writable at hu
  grind [State.memOk_serve]

theorem State.memOk_commitOne (s : State) (t : Tid) (u : State) (h : s.memOk) (hu : s.commitOne t = some u) : u.memOk := by
  unfold State.commitOne at hu
  split at hu
  · simp at hu
  · split at hu
    · split at hu
      · simp at hu
      · next p q _ _ v hv =>
        have hw := State.memOk_writable s t _ _ v h hv
        obtain rfl := Option.some.inj hu
        refine State.memOk_storeIn _ _ _ _ _ _ ?_
        grind [State.memOk, State.setThr_mem, State.sdqPop_mem]
    · simp at hu

theorem State.memOk_drainN (t : Tid) (fuel : Nat) (s u : State) (h : s.memOk) (hu : State.drainN t fuel s = some u) : u.memOk := by
  induction fuel generalizing s with
  | zero => grind [State.drainN]
  | succ fuel ih =>
    unfold State.drainN at hu
    grind [State.memOk_commitOne]

theorem State.memOk_drain (s : State) (t : Tid) (u : State) (h : s.memOk) (hu : s.drain t = some u) : u.memOk := 
  State.memOk_drainN t _ s u h hu

theorem State.memOk_saqWait (s : State) (t : Tid) (h : s.memOk) : (s.saqWait t).memOk := by
  have hi : (s.idles t 0 0x019).memOk := by grind [State.memOk, State.idles_mem]
  unfold State.saqWait
  dsimp only
  cases hu : (s.idles t 0 0x019).commitOne t with
  | some u => exact State.memOk_commitOne _ t u hi hu
  | none => grind [State.memOk, State.commitWait_mem]

theorem State.memOk_repFetchRaise (s : State) (t : Tid) (x : Trap) (pa : Option Nat) (rep : Option Nat) (h : s.memOk) :
    (s.repFetchRaise t x pa rep).memOk := by
  unfold State.repFetchRaise
  grind [State.memOk, State.mcRecord_mem, State.memOk_raise]

theorem State.memOk_poisonRead (s : State) (n line : Nat) (h : s.memOk) : (s.poisonRead n line).memOk := by
  unfold State.poisonRead
  dsimp only
  split <;> split <;> exact h

theorem State.memOk_mpLoss (s : State) (n : Nat) (h : s.memOk) : (s.mpLoss n).memOk := by
  unfold State.mpLoss
  grind [State.memOk, State.logAsync_mem, State.memOk_setWq, State.spoil_mem, State.inc_mem, State.wr_mem, State.failRead_mem,
    State.setPt_mem, State.mpLanes_mem, State.foldl_mem, LoopFrame]

theorem State.memOk_mpRetrain (s : State) (n : Nat) (h : s.memOk) : (s.mpRetrain n).memOk := by
  unfold State.mpRetrain
  grind [State.memOk, State.memOk_mpLoss, State.setPt_mem]

theorem State.memOk_mpCtl (s : State) (n : Nat) (v mask : Word) (h : s.memOk) : (s.mpCtl n v mask).memOk := by
  unfold State.mpCtl
  grind [State.memOk, State.regPut_mem, State.memOk_mpLoss, State.wr_mem, State.memOk_mpRetrain]

theorem State.memOk_memberLost (s : State) (q : Nat) (h : s.memOk) : (s.memberLost q).memOk := by
  unfold State.memberLost
  grind [State.memOk, State.tell_mem, State.spoil_mem, State.wr_mem, State.memOk_reclaim, State.foldl_mem, LoopFrame]

theorem State.memOk_membership (s : State) (h : s.memOk) : s.membership.memOk := by
  unfold State.membership
  grind [State.memOk, State.wr_mem, State.memOk_memberLost, State.memOk_foldl]

theorem State.memOk_linksChanged (s : State) (h : s.memOk) : s.linksChanged.memOk := by
  unfold State.linksChanged
  grind [State.memOk, State.memOk_membership, State.packetOut_mem, State.foldl_mem, LoopFrame]

theorem State.memOk_plinkLost (s : State) (k st : Nat) (h : s.memOk) : (s.plinkLost k st).memOk := by
  unfold State.plinkLost
  grind [State.memOk, State.memOk_linksChanged, State.lanesCount_mem, State.wr_mem, State.setSl_mem, State.setLk_mem]

theorem State.memOk_plReset (s : State) (k : Nat) (h : s.memOk) : (s.plReset k).memOk := by
  unfold State.plReset
  grind [State.memOk, State.memOk_plinkLost, State.wr_mem]

theorem State.memOk_plTrain (s : State) (k : Nat) (m : PlPeer) (h : s.memOk) : (s.plTrain k m).memOk := by
  unfold State.plTrain
  grind [State.memOk, State.logEvent_mem, State.tick_mem, State.memOk_linksChanged, State.lanesCount_mem, State.wr_mem,
    State.logAsyncFree_mem, State.setLk_mem]

theorem State.memOk_replayDown (s : State) (l : Nat) (h : s.memOk) : (s.replayDown l).memOk := by
  unfold State.replayDown
  grind [State.memOk, State.memOk_plinkLost, State.wr_mem, State.setLk_mem]

theorem State.memOk_plCtl (s : State) (k : Nat) (v mask : Word) (h : s.memOk) : (s.plCtl k v mask).memOk := by
  unfold State.plCtl
  grind [State.memOk, State.memOk_plReset, State.regPut_mem]

theorem State.memOk_msi (s : State) (r : Nat) (data : Nat) (h : s.memOk) : (s.msi r data).memOk := by
  unfold State.msi
  grind [State.memOk, State.memOk_cueRaise, State.cueDrop_mem]

theorem State.memOk_inWrite (s : State) (r addr : Nat) (bs : List Byte) (h : s.memOk) :
    (s.inWrite r addr bs).memOk := by
  unfold State.inWrite
  grind [State.memOk, State.memOk_msi, State.inRefuse_mem, State.memOk_homeWrites]

theorem State.memOk_ksSweep (s : State) (k : Nat) (h : s.memOk) : (s.ksSweep k).memOk := by
  unfold State.ksSweep
  grind [State.memOk, State.dropLine_mem, State.memOk_cleanLine, State.memOk_foldl]

theorem State.memOk_ksErase (s : State) (k : Nat) (h : s.memOk) : (s.ksErase k).memOk := by
  unfold State.ksErase
  grind [State.memOk, State.ksAttr_mem, State.memOk_ksSweep]

theorem State.memOk_ksClear (s : State) (k : Nat) (h : s.memOk) : (s.ksClear k).memOk := by
  unfold State.ksClear
  grind [State.memOk, State.memOk_ksErase, State.wr_mem, State.ledgerDel_mem]

theorem State.memOk_ksCmd (s : State) (v : Word) (h : s.memOk) : (s.ksCmd v).memOk := by
  unfold State.ksCmd
  grind [State.memOk, State.loadSealed_mem, State.memOk_ksClear, State.loadRandom_mem]

theorem State.memOk_engWrite (s : State) (pa : Nat) (bs : List Byte) (ks : Nat) (h : s.memOk) :
    (s.engWrite pa bs ks).memOk := by
  unfold State.engWrite
  grind [State.memOk_homeWrites]

theorem State.memOk_engPut (s : State) (pa : Nat) (v : Word) (h : s.memOk) : (s.engPut pa v).memOk := by
  unfold State.engPut
  grind [State.memOk_engWrite]

theorem State.memOk_engZero (s : State) (pa n : Nat) (h : s.memOk) : (s.engZero pa n).memOk := by
  unfold State.engZero
  grind [State.memOk_engWrite, State.memOk_foldl]

theorem State.memOk_putOwner (s : State) (pa : Nat) (e : BitVec 32) (h : s.memOk) : (s.putOwner pa e).memOk := by
  unfold State.putOwner
  grind [State.memOk_engWrite]

theorem State.memOk_unUniform (s : State) (pa : Nat) (h : s.memOk) : (s.unUniform pa).memOk := by
  unfold State.unUniform
  grind [State.memOk_engWrite]

theorem State.memOk_putMap (s : State) (pa : Nat) (v : Word) (h : s.memOk) : (s.putMap pa v).memOk := by
  unfold State.putMap
  grind [State.memOk_engPut]

theorem State.memOk_putEnt (s : State) (id k : Nat) (v : Word) (h : s.memOk) : (s.putEnt id k v).memOk := by
  unfold State.putEnt
  grind [State.memOk_engPut]

theorem State.memOk_putGranules (s : State) (id n : Nat) (h : s.memOk) : (s.putGranules id n).memOk := by
  unfold State.putGranules
  grind [State.memOk_putEnt]

theorem State.memOk_encPrivate (s : State) (id : Nat) (h : s.memOk) : (s.encPrivate id).memOk := by
  unfold State.encPrivate
  grind [State.memOk, State.tick_mem, State.memOk_putEnt, State.memOk_foldl]

theorem State.memOk_encCreateAt (s : State) (id slot : Option Nat) (h : s.memOk) : (s.encCreateAt id slot).memOk := by
  unfold State.encCreateAt
  grind [State.memOk, State.memOk_encPrivate, State.measure_mem, State.encResult_mem, State.memOk_putMap, State.ksRandom_mem,
    State.wr_mem, State.memOk_putEnt, State.memOk_unUniform, State.memOk_putOwner, State.memOk_engWrite]

theorem State.memOk_encCreate (s : State) (h : s.memOk) : s.encCreate.memOk := by
  unfold State.encCreate
  grind [State.memOk_encCreateAt]

theorem State.memOk_encAdd (s : State) (h : s.memOk) : s.encAdd.memOk := by
  unfold State.encAdd
  grind [State.memOk, State.homeReads_mem, State.memOk_encPrivate, State.measure_mem, State.encResult_mem, State.memOk_putMap,
    State.memOk_unUniform, State.memOk_putGranules, State.memOk_putOwner, State.memOk_engWrite]

theorem State.memOk_encFinal (s : State) (h : s.memOk) : s.encFinal.memOk := by
  unfold State.encFinal
  grind [State.memOk, State.measure_mem, State.encResult_mem, State.memOk_putEnt, State.memOk_engWrite]

theorem State.memOk_encRelease (s : State) (id pa : Nat) (h : s.memOk) : (s.encRelease id pa).memOk := by
  unfold State.encRelease
  grind [State.memOk, State.memOk_putMap, State.dropGranule_mem, State.memOk_putGranules, State.memOk_putOwner, State.memOk_engWrite]

theorem State.memOk_encRemove (s : State) (h : s.memOk) : s.encRemove.memOk := by
  unfold State.encRemove
  grind [State.memOk, State.encResult_mem, State.memOk_encRelease]

theorem State.memOk_encDestroy (s : State) (h : s.memOk) : s.encDestroy.memOk := by
  unfold State.encDestroy
  grind [State.memOk, State.memOk_ksErase, State.encResult_mem, State.memOk_encRelease, State.memOk_putEnt]

theorem State.memOk_encSlotclr (s : State) (h : s.memOk) : s.encSlotclr.memOk := by
  unfold State.encSlotclr
  grind [State.memOk, State.encResult_mem, State.memOk_putEnt, State.memOk_engWrite]

theorem State.memOk_encCmd (s : State) (f : State → State) (h : s.memOk) (hf : (f s).memOk) : (s.encCmd f).memOk := by
  unfold State.encCmd
  split
  · exact hf
  · exact h

theorem State.memOk_encWrite (s : State) (v : Word) (h : s.memOk) : (s.encWrite v).memOk := by
  unfold State.encWrite
  grind [State.memOk_encCmd, State.memOk_encCreate, State.memOk_encAdd, State.memOk_encFinal, State.memOk_encRemove,
    State.memOk_encDestroy, State.memOk_encSlotclr]

theorem State.memOk_enctBase (s : State) (v mask : Word) (h : s.memOk) : (s.enctBase v mask).memOk := by
  unfold State.enctBase
  grind [State.memOk, State.regPut_mem, State.memOk_engZero, State.wr_mem]

theorem State.memOk_exitStop (s : State) (t : Tid) (r : Run) (h : s.memOk) : (s.exitStop t r).memOk := by
  unfold State.exitStop
  grind [State.memOk, State.memOk_forcedExit, State.setThr_mem]

theorem State.memOk_exitAll (s : State) (p : Nat → Bool) (r : Run) (h : s.memOk) : (s.exitAll p r).memOk := by
  unfold State.exitAll
  grind [State.memOk_exitStop, State.memOk_foldl]

theorem State.memOk_ksEraseAll (l : List Nat) (s : State) (h : s.memOk) :
    (l.foldl (fun s k => if s.ksValid (k + 1) then s.ksErase (k + 1) else s) s).memOk :=
  State.memOk_foldl _ (fun s k h => by split; exacts [s.memOk_ksErase _ h, h]) l s h

theorem State.memOk_sealOff (s : State) (h : s.memOk) : ((({ s with sec := { s.sec with sealOff := true } } : State).wr
    F.DBG_AUTH_NLEVEL 2).wr F.DBG_AUTH_SLEVEL 2).memOk := h

theorem State.memOk_dbgFull (s : State) (h : s.memOk) : s.dbgFull.memOk :=
  State.memOk_sealOff _ (State.memOk_ksEraseAll _ _ (s.memOk_exitAll _ _ h))

theorem State.memOk_dbgCheck (s : State) (sigOk : Bool) (h : s.memOk) : (s.dbgCheck sigOk).memOk := by
  unfold State.dbgCheck
  grind [State.memOk, State.logEvent_mem, State.tick_mem, State.wr_mem, State.wrw_mem, State.memOk_dbgFull]

theorem memOk_unitRead (f agent op ks dst fuel src ofs n : Nat) (r : UnitRes) (h : r.s.memOk) :
    (unitRead f agent op ks dst fuel src ofs n r).s.memOk := by
  induction fuel generalizing src ofs n r with
  | zero => exact h
  | succ fuel ih =>
    have hv := fun k => (State.memOk_congr _ _ h (congrArg Mem.dev (r.s.homeReads_mem agent 2 src k ks))
      (congrArg Mem.ls (r.s.homeReads_mem agent 2 src k ks)))
    unfold unitRead
    dsimp only
    split
    · exact h
    · split
      · exact hv _
      · refine ih _ _ _ _ ?_
        split
        · exact State.memOk_homeWrites _ _ _ _ _ _ (hv _)
        all_goals exact hv _

theorem State.memOk_runUnit (s : State) (f e : Nat) (j : Job) (h : s.memOk) : (s.runUnit f e j).1.memOk := by
  unfold State.runUnit
  dsimp only
  repeat' split
  all_goals grind [State.memOk, State.homeReads_mem, State.memOk_homeWrites, memOk_unitRead, State.shipOut_mem, State.say_mem]

theorem State.memOk_jobStart (s : State) (f op : Nat) (h : s.memOk) : (s.jobStart f op).memOk := by
  unfold State.jobStart
  grind [State.memOk, State.tick_mem, State.vrfActive_mem, State.memOk_runUnit, State.setJob_mem]

theorem State.memOk_sendRecord (s : State) (f : Nat) (j : Job) (st res gen : Nat) (u : State) (h : s.memOk)
    (hu : s.sendRecord f j st res gen = some u) : u.memOk := by
  unfold State.sendRecord at hu
  obtain ⟨pa, _, rfl⟩ := Option.map_eq_some_iff.mp hu
  exact s.memOk_homeWrites _ _ _ _ _ h

theorem State.memOk_recordCue (s : State) (f : Nat) (h : s.memOk) : (s.recordCue f).memOk := by
  unfold State.recordCue
  grind [State.memOk_cueRaise]

theorem State.memOk_cuesOwed (s : State) (f : Nat) (h : s.memOk) : (s.cuesOwed f).memOk := by
  unfold State.cuesOwed
  grind [State.memOk, State.setVrf_mem, State.memOk_recordCue, State.memOk_foldl]

theorem State.memOk_recordDone (s : State) (f : Nat) (j : Job) (st : Nat) (h : s.memOk) :
    (s.recordDone f j st).memOk := by
  unfold State.recordDone
  grind [State.memOk, State.setVrf_mem, State.memOk_recordCue, State.vrfActive_mem, State.countRecord_mem]

theorem State.memOk_record (s : State) (f : Nat) (h : s.memOk) : (s.record f).memOk := by
  unfold State.record
  split
  · split
    · split
      · exact s.memOk_recordDone _ _ _ h
      · split
        · next v hv =>
          have := s.memOk_sendRecord _ _ _ _ _ v h hv
          grind [State.memOk, State.memOk_recordDone, State.setJob_mem]
        · grind [State.memOk, State.vrfStop_mem]
    · exact h
  · exact h

theorem State.memOk_recordSent (s : State) (f : Nat) (h : s.memOk) : (s.recordSent f).memOk := by
  unfold State.recordSent
  grind [State.memOk_record]

theorem State.memOk_discardJobs (s : State) (f gen : Nat) (h : s.memOk) : (s.discardJobs f gen).memOk := by
  refine s.memOk_foldl _ (fun s j h => ?_) _ h
  split
  · next v hv =>
    have := s.memOk_sendRecord _ _ _ _ _ v h hv
    grind [State.memOk, State.countRecord_mem, State.memOk_recordCue, State.setVrf_mem]
  · exact h

theorem State.memOk_vrfResetGen (s : State) (f : Nat) (h : s.memOk) : (s.vrfResetGen f).memOk := by
  unfold State.vrfResetGen
  grind [State.memOk, State.memOk_discardJobs, State.memOk_recordSent, State.wr_mem, State.vrfDrop_mem, State.vrfClear_mem]

theorem State.memOk_vrfResetQuiesce (s : State) (f : Nat) (h : s.memOk) : (s.vrfResetQuiesce f).memOk := by
  unfold State.vrfResetQuiesce
  grind [State.memOk, State.memOk_discardJobs, State.memOk_recordSent, State.wr_mem, State.vrfClear_mem]

theorem State.memOk_vrfReset (s : State) (f : Nat) (h : s.memOk) : (s.vrfReset f).memOk := by
  unfold State.vrfReset
  grind [State.memOk_vrfResetGen, State.memOk_vrfResetQuiesce]

theorem State.memOk_vrhCtl (s : State) (f : Nat) (v mask : Word) (h : s.memOk) : (s.vrhCtl f v mask).memOk := by
  unfold State.vrhCtl
  dsimp only
  split
  · exact State.memOk_vrfReset _ _ (State.memOk_of_mem h (by simp))
  · exact State.memOk_of_mem h (by simp)

theorem State.memOk_deepClean (s : State) (h : s.memOk) : s.deepClean.memOk := by
  unfold State.deepClean
  grind [State.memOk_cleanLine, State.memOk_foldl]

theorem State.memOk_deepFlush (s : State) (h : s.memOk) : s.deepFlush.memOk := by
  refine State.memOk_foldl _ (fun s n h => State.memOk_setWq _ n _ ?_) _ _ h
  refine foldl_keeps (fun m : Mem => ({ s with mem := m } : State).memOk) _ (fun m e hm => ?_) _ s.mem h
  exact State.memOk_devComplete { s with mem := m } _ e hm

theorem State.memOk_offPark (s : State) (h : s.memOk) : s.offPark.memOk := by
  unfold State.offPark
  grind [State.memOk, State.padLatch_mem, State.memOk_loseVolatile, State.dlyStore_mem, State.memOk_discardAll, State.wrw_mem,
    State.incSat_mem]

theorem State.memOk_deepDown (s : State) (x : DeepSt) (h : s.memOk) : (s.deepDown x).memOk := by
  unfold State.deepDown
  grind [State.memOk, State.padLatch_mem, State.inc_mem, State.setGaf_mem, State.memOk_offPark]

theorem State.memOk_deepPoll (s : State) (h : s.memOk) : s.deepPoll.memOk := by
  unfold State.deepPoll
  grind [State.memOk, State.memOk_deepClean, State.setGaf_mem, State.cutTrigger_mem, State.memOk_deepFlush, State.memOk_deepDown,
    State.foldl_mem, LoopFrame]

theorem State.memOk_owedCommits (s : State) (d c : Nat) (h : s.memOk) : (s.owedCommits d c).memOk := by
  unfold State.owedCommits
  grind [State.memOk, State.setDom_mem, State.headStep_mem, State.memOk_reelStore, State.memOk_foldl]

theorem State.memOk_rolledBack (s : State) (d : Nat) (up : List ReelBlock) (h : s.memOk) :
    (s.rolledBack d up).memOk := by
  unfold State.rolledBack
  grind [State.memOk, State.wr_mem, State.memOk_applyBlocks]

theorem State.memOk_restartDom (s : State) (d : Nat) (lead : Option Nat) (h : s.memOk) :
    (s.restartDom d lead).memOk := by
  unfold State.restartDom
  grind [State.memOk, State.memOk_openRolled, State.rewriteAnchor_mem, State.spoil_mem, State.setDom_mem, State.memOk_rolledBack,
    State.memOk_owedCommits, State.wr_mem, State.reelFound_mem, State.setViews_mem]

theorem State.memOk_dieReset (s : State) (d : Nat) (h : s.memOk) : (s.dieReset d).memOk := by
  unfold State.dieReset
  dsimp only
  have h1 : (((s.dlinksDown d).setDie d 5).dieClear d).memOk := by grind [State.memOk, State.dlinksDown_mem, State.setDie_mem,
    State.dieClear_mem]
  have h2 := State.memOk_keepLs { ((s.dlinksDown d).setDie d 5).dieClear d with io := (((s.dlinksDown d).setDie d 5).dieClear d).dieIo d }
    (fun a _ => !(a / lsSize == d)) ((((s.dlinksDown d).setDie d 5).dieClear d).mem.lsPoison.filter fun a => !(a / lsSize == d)) h1
  grind [State.memOk, State.wr_mem, State.dieCores_mem, State.dieQueue_mem]

theorem State.memOk_resetPoll (s : State) (h : s.memOk) : s.resetPoll.memOk := by
  unfold State.resetPoll
  grind [State.memOk, State.memOk_dieReset, State.dlinksDown_mem, State.setDie_mem, State.memOk_foldl]

theorem State.memOk_dieRst (s : State) (d : Nat) (h : s.memOk) : (s.dieRst d).memOk := by
  unfold State.dieRst
  grind [State.memOk, State.setBoot_mem, State.memOk_fence, State.memOk_resetPoll]

theorem State.memOk_holdRelease (s : State) (d : Nat) (h : s.memOk) : (s.holdRelease d).memOk := by
  unfold State.holdRelease
  grind [State.memOk, State.memOk_dieRst, State.wr_mem, State.memOk_resetPoll]

theorem State.memOk_coldReset (s : State) (h : s.memOk) : s.coldReset.memOk := by
  unfold State.coldReset
  dsimp only
  split <;> grind [State.memOk, State.slateInit_mem, State.wrapReport_mem, State.coldRecord_mem, State.partFigures_mem, State.wr_mem,
    State.tick_mem, State.wrw_mem, SMap.sorted, SMap.sortedFrom]

theorem State.memOk_warmReset (s : State) (h : s.memOk) : s.warmReset.memOk := by
  unfold State.warmReset
  grind [State.memOk, State.partFigures_mem, State.dieCores_mem, State.dlinksDown_mem, State.memOk_loseVolatile, State.wr_mem,
    State.setDie_mem, State.dieClear_mem, State.memOk_discardAll, State.foldl_mem, LoopFrame]

theorem State.memOk_coldAct (s : State) (h : s.memOk) : s.coldAct.memOk := by
  unfold State.coldAct
  grind [State.memOk_coldReset, State.memOk_loseVolatile, State.memOk_discardAll]

theorem State.memOk_gpfEnd (s : State) (h : s.memOk) : s.gpfEnd.memOk := by
  unfold State.gpfEnd
  grind [State.memOk, State.wrapFinish_mem, State.memOk_offPark]

theorem State.memOk_stopNow (s : State) (h : s.memOk) : s.stopNow.memOk := by
  unfold State.stopNow
  grind [State.memOk, State.memOk_loseVolatile, State.memOk_discardAll]

theorem State.memOk_stopAct (s : State) (h : s.memOk) : s.stopAct.memOk := by
  unfold State.stopAct
  grind [State.memOk, State.memOk_stopNow]

theorem State.memOk_vmReset (s : State) (v : Nat) (h : s.memOk) : (s.vmReset v).memOk := by
  unfold State.vmReset
  grind [State.memOk, State.memOk_discardJobs, State.memOk_vrfResetGen, State.vmCues_mem, State.inc_mem, State.memOk_recordSent,
    State.wr_mem, State.qosReturn_mem, State.vrfClear_mem, State.memOk_foldl]

theorem State.memOk_vmrstWrite (s : State) (v : Word) (h : s.memOk) : (s.vmrstWrite v).memOk := by
  unfold State.vmrstWrite
  grind [State.memOk_vmReset]

theorem State.memOk_dieRstWrite (s : State) (d : Nat) (v mask : Word) (h : s.memOk) :
    (s.dieRstWrite d v mask).memOk := by
  unfold State.dieRstWrite
  grind [State.memOk, State.memOk_dieRst, State.memOk_fence, State.wr_mem, State.memOk_holdRelease]

theorem State.memOk_tdCmd (s : State) (d : Nat) (v : Word) (h : s.memOk) : (s.tdCmd d v).memOk := by
  unfold State.tdCmd
  grind [State.memOk, State.memOk_rollStart, State.cutTrigger_mem]

theorem State.memOk_dbgCmd (s : State) (v : Word) (h : s.memOk) : (s.dbgCmd v).memOk := by
  unfold State.dbgCmd
  grind [State.memOk_dbgCheck]

theorem State.memOk_pkgRst (s : State) (v : Word) (h : s.memOk) : (s.pkgRst v).memOk := by
  unfold State.pkgRst
  grind [State.memOk_coldAct, State.memOk_warmReset]

/-- Where an answer is given, it keeps the canonical form. -/
def AnswerOk (o : Option State) : Prop := ∀ u, o = some u → u.memOk

theorem answerOk_some (u : State) : AnswerOk (some u) ↔ u.memOk := by simp [AnswerOk]

theorem answerOk_none : AnswerOk none ↔ True := by simp [AnswerOk]

theorem AnswerOk.ite {c : Prop} [Decidable c] {o p : Option State} (ho : AnswerOk o) (hp : AnswerOk p) :
    AnswerOk (if c then o else p) := by
  split
  · exact ho
  · exact hp

theorem AnswerOk.or {o p : Option State} (ho : AnswerOk o) (hp : AnswerOk p) : AnswerOk (o.or p) := by
  cases o
  · exact hp
  · exact ho

theorem AnswerOk.getD {o : Option State} {s : State} (ho : AnswerOk o) (h : s.memOk) : (o.getD s).memOk := by
  cases o with
  | none => exact h
  | some u => exact ho u rfl

theorem State.answerOk_regHub (s : State) (r : RegDesc) (i a : Nat) (v mask : Word) (h : s.memOk) :
    AnswerOk (s.regHub r i a v mask) := by
  unfold State.regHub
  dsimp only
  repeat' refine AnswerOk.ite ?_ ?_
  all_goals simp only [answerOk_some, answerOk_none]
  all_goals grind [State.memOk, State.wrapCtl_mem, State.isCtl_mem, State.isOther_mem, State.memOk_pkgRst, State.memOk_dieRstWrite,
    State.writeTdCfg_mem, State.writeTdSeg1_mem, State.memOk_tdCmd, State.slateCtl_mem, State.slateSet_mem, State.slateAdj_mem,
    State.uncFresh_mem, State.regPut_mem, State.memOk_cueRaise, State.ptBase_mem, State.gafLimit_mem, State.qosWrite_mem,
    State.memOk_vmrstWrite, State.rnCfg_mem, State.rnEng_mem, State.clearWrite_mem, State.bankClear_mem, State.recordClear_mem,
    State.bwCtl_mem, State.calSet_mem]

theorem State.answerOk_regPort (s : State) (r : RegDesc) (i j a : Nat) (v mask : Word) (h : s.memOk) :
    AnswerOk (s.regPort r i j a v mask) := by
  unfold State.regPort
  dsimp only
  repeat' refine AnswerOk.ite ?_ ?_
  all_goals simp only [answerOk_some, answerOk_none]
  all_goals grind [State.memOk, State.memOk_mpCtl, State.gpCtl_mem, State.iwAttr_mem, State.winOther_mem, State.gdwTgt_mem,
    State.gdwOther_mem, State.memOk_plCtl, State.fwTgt_mem, State.fwOther_mem, State.dlCtl_mem, State.mirCtl_mem, State.mirBarsz_mem,
    State.mwCommit_mem, State.ringBase_mem, State.sqCfg_mem, State.sqTail_mem, State.vrfCtl_mem, State.memOk_vrhCtl, State.vrhAttr_mem]

theorem State.answerOk_regSec (s : State) (r : RegDesc) (i a : Nat) (v mask : Word) (h : s.memOk) :
    AnswerOk (s.regSec r i a v mask) := by
  unfold State.regSec
  dsimp only
  repeat' refine AnswerOk.ite ?_ ?_
  all_goals simp only [answerOk_some, answerOk_none]
  all_goals grind [State.memOk, State.prtAttr_mem, State.prtOther_mem, State.memOk_enctBase, State.holdPoll_mem, State.regPut_mem,
    State.dbgAuth_mem, State.memOk_dbgCmd, State.memOk_ksCmd, State.memOk_encWrite, State.partMask_mem, State.coreSpareWrite_mem,
    State.thrStartWrite_mem]

theorem State.memOk_regWrite (s : State) (u : Option Nat) (lvl a : Nat) (v mask : Word) (h : s.memOk) :
    (s.regWrite u lvl a v mask).memOk := by
  have hp : (s.regPut a v mask).memOk := State.memOk_of_mem h (by simp)
  unfold State.regWrite
  split
  · exact h
  · split
    · exact h
    · split
      · grind [State.memOk, State.gafWrite_mem]
      · exact (((s.answerOk_regHub _ _ _ _ _ h).or (s.answerOk_regPort _ _ _ _ _ _ h)).or (s.answerOk_regSec _ _ _ _ _ h)).getD hp

theorem State.memOk_ioWrite (s : State) (u : Option Nat) (lvl a n : Nat) (v : Word) (h : s.memOk) :
    (s.ioWrite u lvl a n v).memOk := by
  unfold State.ioWrite
  grind [State.memOk, State.linkAwake_mem, State.say_mem, State.memOk_regWrite, State.incSat_mem]

theorem State.memOk_imagePut (s : State) (x : Nat × Word) (h : s.memOk) : (s.imagePut x).memOk := by
  unfold State.imagePut
  grind [State.memOk_ioWrite]

theorem State.memOk_images (s : State) (ok : Nat → Bool) (l : List (Nat × Word)) (h : s.memOk) :
    (s.images ok l).memOk := by
  unfold State.images
  grind [State.memOk, State.bootHold_mem, State.memOk_imagePut, State.memOk_foldl]

theorem State.memOk_bootApply (s : State) (h : s.memOk) : s.bootApply.memOk := by
  unfold State.bootApply
  grind [State.memOk, State.bootTo_mem, State.fillLocality_mem, State.repairs_mem, State.memOk_images, State.buildMap_mem,
    State.foldl_mem, LoopFrame]

theorem State.memOk_domDone (s : State) (d : Nat) (c : Option Nat) (h : s.memOk) : (s.domDone d c).memOk := by
  unfold State.domDone
  grind [State.memOk, State.setBoot_mem, State.memOk_restartDom, State.wr_mem]

theorem State.memOk_bootScan (s : State) (h : s.memOk) : s.bootScan.memOk := by
  unfold State.bootScan
  grind [State.memOk, State.bootTo_mem, State.setBoot_mem, State.loadKeys_mem, State.memOk_domDone, State.wr_mem, State.wrw_mem,
    State.memOk_foldl]

theorem State.memOk_bootImage (s : State) (h : s.memOk) : s.bootImage.memOk := by
  unfold State.bootImage
  grind [State.memOk, State.setBoot_mem, State.bootHold_mem, State.memOk_imagePut, State.memOk_bootScan]

theorem State.memOk_loadMonitor (s : State) (d : Nat) (m : MonitorImage) (h : s.memOk) :
    (s.loadMonitor d m).memOk := by
  unfold State.loadMonitor
  grind [State.memOk_lsWrite]

theorem State.memOk_bootMonitor (s : State) (h : s.memOk) : s.bootMonitor.memOk := by
  unfold State.bootMonitor
  grind [State.memOk, State.bootTo_mem, State.memOk_loadMonitor, State.setThrN_mem, State.setBoot_mem, State.bootHold_mem,
    State.tick_mem, State.memOk_images, State.startThread_mem, State.dlyStore_mem, State.wrw_mem]

theorem State.memOk_bootStep (s : State) (h : s.memOk) : s.bootStep.memOk := by
  unfold State.bootStep
  grind [State.memOk, State.bootTo_mem, State.memOk_bootImage, State.memOk_bootApply, State.memOk_bootMonitor, State.bootPick_mem,
    State.bootDies_mem]

theorem State.memOk_offWake (s : State) (src : Nat) (h : s.memOk) : (s.offWake src).memOk := by
  unfold State.offWake
  grind [State.memOk, State.setAon_mem, State.memOk_coldReset, State.wr_mem, State.wrw_mem]

theorem State.memOk_wakeSrc (s : State) (src : Nat) (h : s.memOk) : (s.wakeSrc src).memOk := by
  unfold State.wakeSrc
  grind [State.memOk, State.memOk_offWake, State.wr_mem]

theorem State.memOk_parkPoll (s : State) (h : s.memOk) : s.parkPoll.memOk := by
  unfold State.parkPoll
  grind [State.memOk_offWake, State.memOk_coldReset]

theorem State.memOk_pass (s : State) (h : s.memOk) : s.pass.memOk := by
  unfold State.pass
  grind [State.memOk, State.resTick_mem, State.calTick_mem, State.memOk_bootStep, State.memOk_deepPoll, State.idle_mem,
    State.holdPoll_mem, State.memOk_parkPoll, State.memOk_resetPoll, State.strike_mem]

end Sys2Proof.Machine
end

section
/-!
WHAT INSTRUCTIONS DO. The reads of memory, the bodies of the instructions and the iterations of REP keep the canonical form.
-/
namespace Sys2Proof.Machine

set_option Elab.async false

/-- The state that a read of memory leaves. -/
@[simp] def Got.state : Got → State
  | .ok _ _ s => s
  | .wait s => s

/-- The state that a read of a checked area leaves. -/
@[simp] def AreaRead.state : AreaRead → State
  | .ok _ s => s
  | .poison _ _ s => s
  | .wait s => s

/-- The state that a run of micro-ops leaves. -/
@[simp] def URun.state : URun → State
  | .ok _ s => s
  | .trap s _ => s
  | .wait s => s

/-- The state that a stream read leaves. -/
@[simp] def Stream.state : Stream → State
  | .ok _ s => s
  | .bad s _ => s
  | .wait s => s

/-- The state that a read of I/O space leaves. -/
@[simp] def IoRead.state : IoRead → State
  | .now _ s => s
  | .wait _ s => s

theorem State.memOk_gotIn (s : State) (t : Tid) (pa n ks : Nat) (h : s.memOk) : (s.gotIn t pa n ks).state.memOk :=
  s.memOk_readIn _ _ _ _ h

theorem State.memOk_readCached (s : State) (t : Tid) (pa n ks : Nat) (h : s.memOk) : (s.readCached t pa n ks).state.memOk := by
  unfold State.readCached
  split
  · split
    · next u hu => exact u.memOk_gotIn _ _ _ _ (s.memOk_serve _ _ _ _ _ u h hu)
    · exact State.memOk_of_mem h (by simp)
  · exact s.memOk_gotIn _ _ _ _ h

theorem State.memOk_of_readCached {s : State} {t : Tid} {pa n ks : Nat} {r : Got} (h : s.memOk)
    (hr : s.readCached t pa n ks = r) : r.state.memOk := by
  subst hr
  exact s.memOk_readCached t pa n ks h

theorem State.memOk_readParts (s : State) (t : Tid) (pa n ks : Nat) (h : s.memOk) : (s.readParts t pa n ks).state.memOk := by
  unfold State.readParts
  dsimp only
  split
  · next hv => exact State.memOk_of_readCached h hv
  · next v hv =>
    have hv : v.memOk := State.memOk_of_readCached h hv
    split
    · exact hv
    · exact State.memOk_of_mem hv (by simp)

theorem State.memOk_loadBytes (s : State) (t : Tid) (pa n ks : Nat) (whole : Bool) (h : s.memOk) :
    (s.loadBytes t pa n ks whole).state.memOk := by
  have read (u : State) (hu : u.memOk) : (if whole then u.readCached t pa n ks else u.readParts t pa n ks).state.memOk := by
    split
    · exact u.memOk_readCached _ _ _ _ hu
    · exact u.memOk_readParts _ _ _ _ hu
  have event : (s.drainEvent t).memOk := State.memOk_of_mem h (by simp)
  unfold State.loadBytes
  dsimp only
  split
  · exact read s h
  · split
    · exact State.memOk_of_mem h (by simp)
    · split
      · next u hu => exact read u (State.memOk_drain _ _ _ event hu)
      · exact State.memOk_of_mem event (by simp)

/-- A load that has its bytes: their state has the canonical form. -/
theorem State.memOk_loadBytes_ok {s u : State} {t : Tid} {pa n ks : Nat} {whole poison : Bool} {bs : List Byte} (h : s.memOk)
    (hu : s.loadBytes t pa n ks whole = .ok bs poison u) : u.memOk := by
  simpa [hu, Got.state] using s.memOk_loadBytes t pa n ks whole h

/-- A load that waits. -/
theorem State.memOk_loadBytes_wait {s u : State} {t : Tid} {pa n ks : Nat} {whole : Bool} (h : s.memOk)
    (hu : s.loadBytes t pa n ks whole = .wait u) : u.memOk := by
  simpa [hu, Got.state] using s.memOk_loadBytes t pa n ks whole h

theorem State.memOk_readArea (t : Tid) (l : List (Nat × Nat × Nat)) (n i : Nat) (s : State) (h : s.memOk) :
    (State.readArea t l n i s).state.memOk := by
  induction n generalizing i s with
  | zero => exact h
  | succ n ih =>
    unfold State.readArea
    dsimp only
    split
    · next u hu => exact s.memOk_loadBytes_wait h hu
    · next bs p u hu =>
      have hu := s.memOk_loadBytes_ok h hu
      have hrest := ih (i + 1) u hu
      split
      · exact hu
      · split
        · next ws v hv => simpa [hv] using hrest
        · exact hrest

theorem memOk_uRun (t : Tid) (ws : List (BitVec 32)) (e : UEnv) (s : State) (h : s.memOk) : (uRun t ws e s).state.memOk := by
  induction ws generalizing e s with
  | nil => exact h
  | cons w ws ih =>
    unfold uRun
    dsimp only
    split
    · split
      · exact h
      · split
        · exact ih _ _ h
        · split
          · next u hu => exact s.memOk_loadBytes_wait h hu
          · next bs p u hu =>
            have hu := s.memOk_loadBytes_ok h hu
            split
            · exact State.memOk_of_mem hu (by simp)
            · exact ih _ _ hu
    · exact ih _ _ h

theorem State.memOk_readSift (s : State) (t : Tid) (pa n ks : Nat) (h : s.memOk) : (s.readSift t pa n ks).state.memOk := by
  unfold State.readSift
  split
  · split
    · next u hu => exact u.memOk_gotIn _ _ _ _ (s.memOk_serveL2 _ _ _ u h hu)
    · exact State.memOk_of_mem h (by simp)
  · exact s.memOk_gotIn _ _ _ _ h

theorem State.memOk_streamRead (s : State) (t : Tid) (ks fuel pa : Nat) (va : Word) (n : Nat) (h : s.memOk) :
    (s.streamRead t ks fuel pa va n).state.memOk := by
  induction fuel generalizing s pa va n with
  | zero => exact h
  | succ fuel ih =>
    have hr (k) := s.memOk_readSift t pa k ks h
    unfold State.streamRead
    dsimp only
    split
    · exact h
    · split
      · next u hu => simpa [hu] using hr (Nat.min n (64 - pa % 64))
      · next bs p u hu =>
        have hu : u.memOk := by simpa [hu] using hr (Nat.min n (64 - pa % 64))
        have hrest := ih u (pa + Nat.min n (64 - pa % 64)) (va + BitVec.ofNat 64 (Nat.min n (64 - pa % 64))) (n - Nat.min n (64 - pa % 64)) hu
        split
        · exact State.memOk_of_mem hu (by simp)
        · split
          · next ws v hv => simpa [hv] using hrest
          · exact hrest

theorem State.memOk_stream (s : State) (t : Tid) (va : Word) (n align : Nat) (h : s.memOk) : (s.stream t va n align).state.memOk := by
  unfold State.stream
  split
  · exact h
  · split
    · exact h
    · split
      · exact h
      · split
        · split
          · next u hu => exact u.memOk_streamRead _ _ _ _ _ _ (s.memOk_drain _ _ h hu)
          · exact State.memOk_of_mem h (by simp)
        · exact s.memOk_streamRead _ _ _ _ _ _ h

theorem State.memOk_ioRead (s : State) (t a n : Nat) (h : s.memOk) : (s.ioRead t a n).state.memOk := by
  have ask (r) : (s.ioAsk t r).state.memOk := State.memOk_of_mem h (by simp [State.ioAsk])
  have none (r) : (s.ioNone r).state.memOk := State.memOk_of_mem h (by simp [State.ioNone])
  have free : s.ioFree.state.memOk := State.memOk_of_mem h (by simp [State.ioFree])
  unfold State.ioRead
  split
  · exact State.memOk_of_mem h (by simp)
  · grind
  · grind
  · exact free
  · exact free

/-! ## What the instructions do -/

/-- That an instruction's own effect keeps the canonical form of memory. -/
def KeepsForm (body : State → Out) : Prop := ∀ s, s.memOk → (body s).state.memOk

theorem Out.memOk_ite {c : Prop} [Decidable c] {o p : Out} (ho : o.state.memOk) (hp : p.state.memOk) :
    (if c then o else p).state.memOk := by
  split
  · exact ho
  · exact hp

theorem State.memOk_fpEnd (s : State) (t : Tid) (flags : Nat) (wb : State → State) (h : s.memOk) (hw : ∀ u, (wb u).mem = u.mem) :
    (s.fpEnd t flags wb).state.memOk := by
  unfold State.fpEnd
  dsimp only
  split <;> exact State.memOk_of_mem h (by simp [hw])

theorem State.memOk_fpTo (s : State) (t : Tid) (d : Rn) (r : Nat × Nat) (h : s.memOk) : (s.fpTo t d r).state.memOk :=
  s.memOk_fpEnd _ _ _ h fun _ => rfl

theorem State.memOk_fpToG (s : State) (t : Tid) (d : Rn) (v : Word) (flags : Nat) (h : s.memOk) : (s.fpToG t d v flags).state.memOk :=
  s.memOk_fpEnd _ _ _ h fun _ => rfl

theorem State.memOk_condBranch (s : State) (t : Tid) (taken an : Bool) (disp : BitVec 15) (h : s.memOk) :
    (s.condBranch t taken an disp).state.memOk := by
  unfold State.condBranch
  split
  · exact h
  · split <;> exact h

theorem State.memOk_callTo (s : State) (t : Tid) (target : Word) (h : s.memOk) : (s.callTo t target).state.memOk := by
  unfold State.callTo
  dsimp only
  split
  · split <;> exact h
  · exact h

theorem keepsForm_ret (t : Tid) : KeepsForm (bodyRet t) := by
  intro s h
  unfold bodyRet
  dsimp only
  split <;> exact h

theorem State.memOk_doLoad (s : State) (t : Tid) (d a : Rn) (k : Nat) (va : Word) (upd : Option Word) (h : s.memOk) :
    (s.doLoad t d a k va upd).state.memOk := by
  unfold State.doLoad
  split
  · exact h
  · split
    · next u hu => exact s.memOk_loadBytes_wait h hu
    · next bs p u hu =>
      have hu := s.memOk_loadBytes_ok h hu
      dsimp only
      split
      · exact State.memOk_of_mem hu (by simp)
      · split <;> exact State.memOk_of_mem hu (by simp)

theorem State.memOk_doStore (s : State) (t : Tid) (d a : Rn) (k : Nat) (va : Word) (upd : Option Word) (h : s.memOk) :
    (s.doStore t d a k va upd).state.memOk := by
  unfold State.doStore
  split
  · exact h
  · dsimp only
    split
    · split <;> exact State.memOk_of_mem h (by simp)
    · exact s.memOk_saqWait t h

theorem keepsForm_loadx (t : Tid) (d a : Rn) (szk : Fin 16) (ord : Bool) (am : Fin 8) (amf : BitVec 8) :
    KeepsForm (bodyLoadx t d a szk ord am amf) := by
  intro s h
  unfold bodyLoadx
  split
  · exact h
  · exact s.memOk_doLoad _ _ _ _ _ _ h

theorem keepsForm_storex (t : Tid) (d a : Rn) (szk : Fin 16) (ord : Bool) (am : Fin 8) (amf : BitVec 8) :
    KeepsForm (bodyStorex t d a szk ord am amf) := by
  intro s h
  unfold bodyStorex
  split
  · exact h
  · exact s.memOk_doStore _ _ _ _ _ _ h

theorem keepsForm_ldi (t : Tid) (d a : Rn) (szk : Fin 16) (ord : Bool) (disp : BitVec 11) : KeepsForm (bodyLdi t d a szk ord disp) := by
  intro s h
  unfold bodyLdi
  dsimp only
  split
  · exact h
  · next pa ks _ =>
    have hr := s.memOk_readParts t pa (szOf szk.val) ks h
    split
    · next u hu => simpa [hu] using hr
    · next bs p u hu =>
      have hu : u.memOk := by simpa [hu] using hr
      split <;> exact State.memOk_of_mem hu (by simp)

theorem State.memOk_doAmo (s : State) (t : Tid) (q : Bool) (d a b : Rn) (op : Nat → Nat → Nat → Option Nat) (h : s.memOk) :
    (s.doAmo t q d a b op).state.memOk := by
  unfold State.doAmo
  dsimp only
  split
  · exact h
  · next pa ks _ =>
    split
    · exact State.memOk_of_mem h (by simp)
    · next v hv =>
      have hv := s.memOk_drain _ _ h hv
      split
      · exact State.memOk_of_mem hv (by simp)
      · split
        · exact State.memOk_of_mem hv (by simp)
        · next w hw =>
          have hw := v.memOk_writable _ _ _ _ hv hw
          have hg (n) := w.memOk_gotIn t pa n ks hw
          split
          · next x hx => simpa [hx] using hg (if q = true then 16 else 8)
          · next bs p x hx =>
            have hx : x.memOk := by simpa [hx] using hg (if q = true then 16 else 8)
            split
            · exact State.memOk_of_mem hx (by simp)
            · split
              · exact State.memOk_of_mem (x.memOk_storeIn _ _ _ _ _ hx) (State.amoTo_mem ..)
              · exact State.memOk_of_mem hx (by simp)

theorem State.memOk_afterDrain (s : State) (t : Tid) (h : s.memOk) : (s.afterDrain t).state.memOk := by
  unfold State.afterDrain
  split
  · next u hu => exact s.memOk_drain _ _ h hu
  · exact State.memOk_of_mem h (by simp)

theorem keepsForm_mtc (t : Tid) (a : Rn) (num : BitVec 12) : KeepsForm (bodyMtc t a num) := by
  intro s h
  exact State.memOk_of_mem h (by simp [bodyMtc])

theorem keepsForm_eret (t : Tid) : KeepsForm (bodyEret t) := by
  intro s h
  unfold bodyEret
  dsimp only
  split
  · exact State.memOk_mcTake _ _ _ (State.memOk_of_mem h (by simp))
  · exact State.memOk_of_mem h (by simp)

theorem keepsForm_wait (t : Tid) : KeepsForm (bodyWait t) := by
  intro s h
  unfold bodyWait
  split <;> exact h

theorem State.memOk_tlbwEnd (t : Tid) (r : Ins × State) (h : r.2.memOk) : (State.tlbwEnd t r).state.memOk := by
  unfold State.tlbwEnd
  dsimp only
  split <;> exact h

theorem keepsForm_tlbrd (t : Tid) (a : Rn) : KeepsForm (bodyTlbrd t a) := by
  intro s h
  unfold bodyTlbrd
  dsimp only
  split
  · exact h
  · split <;> exact h

theorem keepsForm_cutreq (t : Tid) (d a : Rn) : KeepsForm (bodyCutreq t d a) := by
  intro s h
  unfold bodyCutreq
  dsimp only
  split
  · exact h
  · split
    · exact h
    · split
      · exact State.memOk_of_mem h (by simp)
      · next u hu =>
        have hu := s.memOk_drain _ _ h hu
        exact State.memOk_of_mem hu (by simp)

theorem keepsForm_cutwait (t : Tid) (d a : Rn) : KeepsForm (bodyCutwait t d a) := by
  intro s h
  unfold bodyCutwait
  dsimp only
  split <;> exact State.memOk_of_mem h (by simp)

theorem keepsForm_slatewait (t : Tid) (d a : Rn) : KeepsForm (bodySlatewait t d a) := by
  intro s h
  unfold bodySlatewait
  dsimp only
  split <;> exact h

theorem keepsForm_rssave (t : Tid) (a : Rn) : KeepsForm (bodyRssave t a) := by
  intro s h
  unfold bodyRssave
  dsimp only
  split
  · exact h
  · split
    · exact s.memOk_saqWait t h
    · exact State.memOk_of_mem h (by simp)

theorem State.memOk_of_readArea {s : State} {t : Tid} {l : List (Nat × Nat × Nat)} {n i : Nat} {r : AreaRead} (h : s.memOk)
    (hr : State.readArea t l n i s = r) : r.state.memOk := by
  subst hr
  exact State.memOk_readArea t l n i s h

theorem keepsForm_rsload (t : Tid) (a : Rn) : KeepsForm (bodyRsload t a) := by
  intro s h
  unfold bodyRsload
  dsimp only
  split
  · exact h
  · split
    · next hu => exact State.memOk_of_readArea h hu
    · next hu => exact State.memOk_of_mem (State.memOk_of_readArea h hu) (by simp)
    · next hu => exact State.memOk_of_mem (State.memOk_of_readArea h hu) (by simp)

theorem keepsForm_dtload (t : Tid) (a b : Rn) : KeepsForm (bodyDtload t a b) := by
  intro s h
  unfold bodyDtload
  dsimp only
  split
  · exact h
  · split
    · next hu => exact State.memOk_of_readArea h hu
    · next hu => exact State.memOk_of_mem (State.memOk_of_readArea h hu) (by simp)
    · next hu => exact State.memOk_of_mem (State.memOk_of_readArea h hu) (by simp)

theorem State.memOk_encEnter (s : State) (t : Tid) (id slot : Nat) (resume : Bool) (dw0 entry : Word) (area : Nat) (hrp : Word)
    (h : s.memOk) : (s.encEnter t id slot resume dw0 entry area hrp).state.memOk := by
  unfold State.encEnter
  dsimp only
  split
  · exact s.memOk_slotSet _ _ _ _ h
  · exact State.memOk_of_mem (s.memOk_saveWords _ _ _ _ h) ((State.setThr_mem ..).trans (State.encBoundary_mem ..))

theorem keepsForm_encrun (t : Tid) (a b : Rn) : KeepsForm (bodyEncrun t a b) := by
  intro s h
  have hw (u : State) (k) (hu : u.memOk) := u.memOk_encDw (dieOf t) (fget (s.g t a) 0 12) k hu
  have hs := hw _ 3 (hw _ 2 (hw _ 1 (hw _ 0 h)))
  unfold bodyEncrun
  dsimp only
  split
  · exact h
  · split
    · exact Out.memOk_ite hs (Out.memOk_ite hs (State.memOk_encEnter _ _ _ _ _ _ _ _ _ (State.memOk_slotSet _ _ _ _ _ hs)))
    · exact hs

theorem keepsForm_encdone (t : Tid) (a : Rn) : KeepsForm (bodyEncdone t a) := by
  intro s h
  unfold bodyEncdone
  dsimp only
  split
  · exact State.memOk_of_mem (s.memOk_slotSet _ _ _ _ h)
      ((((State.setThr_mem ..).trans (State.encOff_mem ..)).trans (State.hostBack_mem ..)).trans (State.encBoundary_mem ..))
  · exact h

theorem keepsForm_udi (t : Tid) (sel : Fin 64) (f1 f2 f3 f4 : Rn) : KeepsForm (bodyUdi t sel f1 f2 f3 f4) := by
  intro s h
  unfold bodyUdi
  split
  · exact h
  · next e _ =>
    have hr := memOk_uRun t (e.uops.take (fget e.hdr 2 4 + 1)) { fs := [f1, f2, f3, f4], g := [], u := [0, 0, 0, 0], st := none } s h
    split
    · next u x hu => rw [hu] at hr; exact hr
    · next u hu => rw [hu] at hr; exact hr
    · next env u hu =>
      rw [hu] at hr
      have hu : u.memOk := hr
      dsimp only
      split
      · exact u.memOk_saqWait t hu
      · split <;> exact State.memOk_of_mem hu (by simp)

theorem State.memOk_streamThen (s : State) (t : Tid) (va : Word) (n align : Nat) (k : List Byte → State → State) (h : s.memOk)
    (hk : ∀ bs u, (k bs u).mem = u.mem) : (s.streamThen t va n align k).state.memOk := by
  have hr := s.memOk_stream t va n align h
  unfold State.streamThen
  split
  · next u hu => simpa [hu] using hr
  · next u x hu => simpa [hu] using hr
  · next bs u hu =>
    have hu : u.memOk := by simpa [hu] using hr
    exact State.memOk_of_mem hu (hk bs u)

theorem keepsForm_iold (t : Tid) (d a : Rn) (szk : Fin 16) (disp : BitVec 11) : KeepsForm (bodyIold t d a szk disp) := by
  intro s h
  unfold bodyIold
  dsimp only
  split
  · exact h
  · next pa _ _ =>
    have hr := s.memOk_ioRead t.val pa (szOf szk.val) h
    split
    · next v u hu =>
      have hu : u.memOk := by simpa [hu] using hr
      exact State.memOk_of_mem hu (by simp)
    · next r u hu =>
      have hu : u.memOk := by simpa [hu] using hr
      exact State.memOk_of_mem hu (by simp)

theorem keepsForm_iost (t : Tid) (d a : Rn) (szk : Fin 16) (disp : BitVec 11) : KeepsForm (bodyIost t d a szk disp) := by
  intro s h
  unfold bodyIost
  dsimp only
  split
  · exact h
  · split
    · exact State.memOk_of_mem h (by simp)
    · next u hu =>
      have hio (l pa n v) := u.memOk_ioWrite (some t.val) l pa n v (s.memOk_drain _ _ h hu)
      split <;> exact hio _ _ _ _

theorem keepsForm_repBody (i : Instr) : KeepsForm (repBody i) := by
  cases i with
  | fadd | fsub | fmul | fdiv | fsqrt | fmin | fmax | fcvtf | fcvtfu | fcvtx | fmadd | fmsub | fnmsub | fnmadd =>
    exact fun s h => s.memOk_fpTo _ _ _ h
  | feq | flt | fle | fcvti | fcvtiu => exact fun s h => s.memOk_fpToG _ _ _ _ h
  | loadx t d a k o m f => exact keepsForm_loadx t d a k o m f
  | storex t d a k o m f => exact keepsForm_storex t d a k o m f
  | udi => exact keepsForm_udi _ _ _ _ _ _
  | _ => exact fun _ h => h

theorem State.memOk_repOne (s : State) (t : Tid) (i : Instr) (h : s.memOk) : (s.repOne t i).state.memOk := by
  unfold State.repOne
  exact Out.memOk_ite (keepsForm_repBody i _ (State.memOk_of_mem h (by simp))) h

theorem memOk_repLoop (t : Tid) (i : Instr) (left : Nat) (s : State) (h : s.memOk) : (repLoop t i left s).memOk := by
  induction left generalizing s with
  | zero => exact State.memOk_of_mem h (by simp [repLoop])
  | succ left ih =>
    have hr := s.memOk_repOne t i h
    unfold repLoop
    split
    · next u hu =>
      rw [hu] at hr
      exact ih _ (State.memOk_of_mem hr (by simp))
    · next u x hu =>
      rw [hu] at hr
      exact u.memOk_raise _ _ _ hr
    · next u hu =>
      rw [hu] at hr
      exact State.memOk_of_mem hr (by simp)
    · exact h

theorem memOk_repGLoop (t : Tid) (g : Rn) (i : Instr) (fuel : Nat) (s : State) (h : s.memOk) : (repGLoop t g i fuel s).memOk := by
  induction fuel generalizing s with
  | zero => exact h
  | succ fuel ih =>
    have hr := s.memOk_repOne t i h
    unfold repGLoop
    split
    · exact State.memOk_of_mem h (by simp)
    · split
      · next u hu =>
        rw [hu] at hr
        exact ih _ (State.memOk_of_mem hr (by simp))
      · next u x hu =>
        rw [hu] at hr
        exact u.memOk_raise _ _ _ hr
      · next u hu =>
        rw [hu] at hr
        exact State.memOk_of_mem hr (by simp)
      · exact h

theorem keepsForm_repN (t : Tid) (nm1 : BitVec 6) (next : BitVec 32) : KeepsForm (bodyRepN t nm1 next) := by
  intro s h
  unfold bodyRepN
  dsimp only
  split
  · exact s.memOk_repFetchRaise _ _ _ _ h
  · split
    · exact h
    · exact memOk_repLoop _ _ _ _ h

theorem keepsForm_repG (t : Tid) (g : Rn) (next : BitVec 32) : KeepsForm (bodyRepG t g next) := by
  intro s h
  unfold bodyRepG
  split
  · exact s.memOk_repFetchRaise _ _ _ _ h
  · split
    · exact h
    · exact memOk_repGLoop _ _ _ _ _ (State.memOk_of_mem h (by simp))

end Sys2Proof.Machine
end

section
/-!
EVERY COMMAND keeps the canonical form: the instructions through their bodies, the other commands each by a rule of its own, and so every
step.
-/
namespace Sys2Proof.Machine

set_option Elab.async false

theorem answers_next {u : State} {P : State → Prop} (h : P u) : answers (.next u) P := ⟨u, rfl, h⟩

theorem answers_ite {c : Prop} [Decidable c] {q r : Res} {P : State → Prop} (hq : answers q P) (hr : answers r P) :
    answers (if c then q else r) P := by
  split
  · exact hq
  · exact hr

theorem State.memOk_withPins {s : State} (h : s.memOk) (p : PinSt) : ({ s with pins := p } : State).memOk := h

theorem State.memOk_withWrap {s : State} (h : s.memOk) (w : WrapSt) : ({ s with wrap := w } : State).memOk := h

theorem State.memOk_ite {c : Prop} [Decidable c] {u v : State} (hu : u.memOk) (hv : v.memOk) : (if c then u else v).memOk := by
  split
  · exact hu
  · exact hv

theorem memOk_execSlatewaitRelease (t : Tid) (s : State) (h : s.memOk) : answers (execSlatewaitRelease t s) State.memOk := by
  unfold execSlatewaitRelease
  split
  · exact answers_ite (answers_next (State.memOk_of_mem h (by simp))) (answers_next h)
  · exact answers_next h

theorem memOk_execCueTake (t : Tid) (s : State) (h : s.memOk) : answers (execCueTake t s) State.memOk := by
  unfold execCueTake
  refine answers_ite ?_ (answers_next h)
  split
  · exact answers_next (State.memOk_take _ _ _ _ _ (State.memOk_of_mem h (by simp)))
  · exact answers_next h

theorem memOk_execMcAsyncTake (s : State) (h : s.memOk) : answers (execMcAsyncTake s) State.memOk := by
  unfold execMcAsyncTake
  split
  · exact answers_ite (answers_next (s.memOk_mcTake _ _ h)) (answers_next h)
  · exact answers_next h

theorem memOk_execStoreCommit (t : Tid) (s : State) (h : s.memOk) : answers (execStoreCommit t s) State.memOk := by
  refine answers_next ?_
  cases hc : s.commitOne t with
  | some u => exact s.memOk_commitOne t u h hc
  | none => exact State.memOk_of_mem h (by simp)

theorem memOk_execRdS (a : Agent) (line : LineNo) (vict : Option LineNo) (s : State) (h : s.memOk) :
    answers (execRdS a line vict s) State.memOk := by
  unfold execRdS
  refine answers_next ?_
  grind [State.memOk_pkgAsks, State.memOk_dieAsks]

theorem memOk_execRdX (a : Agent) (line : LineNo) (vict : Option LineNo) (s : State) (h : s.memOk) :
    answers (execRdX a line vict s) State.memOk := by
  unfold execRdX
  refine answers_next ?_
  grind [State.memOk_pkgAsks, State.memOk_dieAsks]

theorem memOk_execUpg (a : Agent) (line : LineNo) (vict : Option LineNo) (s : State) (h : s.memOk) :
    answers (execUpg a line vict s) State.memOk := by
  unfold execUpg
  refine answers_next ?_
  grind [State.memOk_pkgAsks, State.memOk_dieAsks]

theorem memOk_execRdNc (a : Agent) (pa size : Nat) (s : State) (h : s.memOk) : answers (execRdNc a pa size s) State.memOk := by
  unfold execRdNc
  refine answers_next ?_
  grind [State.memOk, State.grantNc_mem, State.homeRead_mem, State.memOk_homeReq, State.undecodable_mem, State.stale_mem]

theorem memOk_execWrNc (a : Agent) (view : ViewAgent) (pa : Nat) (data : List Byte) (s : State) (h : s.memOk) :
    answers (execWrNc a view pa data s) State.memOk := by
  unfold execWrNc
  refine answers_next ?_
  grind [State.memOk, State.grantNc_mem, State.memOk_homeWrites, State.undecodable_mem, State.stale_mem]

theorem memOk_execLsr (d : DieNo) (pa size : Nat) (s : State) (h : s.memOk) : answers (execLsr d pa size s) State.memOk := by
  unfold execLsr
  refine answers_next ?_
  grind [State.memOk, State.grantNc_mem, State.stale_mem, State.post_mem]

theorem memOk_execLsw (d : DieNo) (pa : Nat) (data : List Byte) (s : State) (h : s.memOk) :
    answers (execLsw d pa data s) State.memOk := by
  unfold execLsw
  refine answers_next ?_
  grind [State.memOk, State.grantNc_mem, State.stale_mem, State.post_mem]

theorem memOk_execSnpLsr (d : DieNo) (pa size : Nat) (s : State) (h : s.memOk) : answers (execSnpLsr d pa size s) State.memOk := by
  unfold execSnpLsr
  refine answers_next ?_
  grind [State.memOk, State.grantNc_mem, State.promote_mem, State.lsRead_mem]

theorem memOk_execSnpLsw (d : DieNo) (pa : Nat) (data : List Byte) (s : State) (h : s.memOk) :
    answers (execSnpLsw d pa data s) State.memOk := by
  unfold execSnpLsw
  refine answers_next ?_
  grind [State.memOk, State.grantNc_mem, State.promote_mem, State.memOk_lsWrite]

theorem memOk_execRspI (a : Agent) (line : LineNo) (s : State) (h : s.memOk) : answers (execRspI a line s) State.memOk := by
  unfold execRspI
  refine answers_next ?_
  grind [State.memOk, State.recv_mem, State.memOk_homeAnswer, State.stale_mem]

theorem memOk_execRspS (a : Agent) (line : LineNo) (s : State) (h : s.memOk) : answers (execRspS a line s) State.memOk := by
  unfold execRspS
  refine answers_next ?_
  grind [State.memOk, State.recv_mem, State.memOk_homeAnswer, State.stale_mem]

theorem memOk_execRspEvx (a : Agent) (line : LineNo) (s : State) (h : s.memOk) : answers (execRspEvx a line s) State.memOk := by
  unfold execRspEvx
  refine answers_next ?_
  grind [State.memOk, State.recv_mem, State.memOk_homeAnswer, State.stale_mem]

theorem memOk_execGoNc (d : DieNo) (s : State) (h : s.memOk) : answers (execGoNc d s) State.memOk := by
  unfold execGoNc
  refine answers_next ?_
  grind [State.memOk, State.ncRecv_mem]

theorem memOk_execDat (d : DieNo) (line : LineNo) (dirty : Bool) (s : State) (h : s.memOk) :
    answers (execDat d line dirty s) State.memOk := by
  unfold execDat
  refine answers_next ?_
  grind [State.memOk, State.recv_mem, State.memOk_missDone, State.ncRecv_mem, State.setLine_mem]

theorem memOk_execFwd (a : Agent) (line : LineNo) (dirty : Bool) (far : FarData) (s : State) (h : s.memOk) :
    answers (execFwd a line dirty far s) State.memOk := by
  unfold execFwd
  refine answers_next ?_
  grind [State.memOk, State.pkgData_mem, State.recv_mem, State.memOk_homeAnswer, State.stale_mem]

theorem memOk_execWbd (a : Agent) (line : LineNo) (far : FarData) (s : State) (h : s.memOk) :
    answers (execWbd a line far s) State.memOk := by
  unfold execWbd
  refine answers_next ?_
  grind [State.memOk, State.pkgData_mem, State.rollDrop_mem, State.recv_mem, State.memOk_homeAnswer, State.memOk_homeEvict,
    State.l3Evict_mem, State.stale_mem]

theorem memOk_execEvc (a : Agent) (line : LineNo) (s : State) (h : s.memOk) : answers (execEvc a line s) State.memOk := by
  unfold execEvc
  refine answers_next ?_
  grind [State.memOk, State.memOk_homeEvict, State.l3Evict_mem, State.stale_mem]

theorem memOk_execUndo (a : Agent) (e : UndoEntry) (s : State) (h : s.memOk) : answers (execUndo a e s) State.memOk := by
  unfold execUndo
  refine answers_next ?_
  grind [State.memOk, State.send_mem, State.acceptUndo_mem, State.packetOut_mem, State.stale_mem]

theorem memOk_execUndoAcc (d : DieNo) (line : LineNo) (s : State) (h : s.memOk) : answers (execUndoAcc d line s) State.memOk := by
  unfold execUndoAcc
  refine answers_next ?_
  grind [State.memOk, State.recv_mem, State.memOk_homeRun, State.setLine_mem]

theorem memOk_execSwb (a : Agent) (dom : Dom) (m : SwbData) (s : State) (h : s.memOk) : answers (execSwb a dom m s) State.memOk := by
  unfold execSwb
  refine answers_next ?_
  grind [State.memOk, State.send_mem, State.memOk_takeSwb, State.tick_mem, State.packetOut_mem, State.stale_mem]

theorem memOk_execPurged (u : Slice) (dom : Dom) (s : State) (h : s.memOk) : answers (execPurged u dom s) State.memOk := by
  unfold execPurged
  refine answers_next ?_
  grind [State.memOk, State.memOk_purgeEnd, State.setDom_mem]

theorem memOk_execReelBlockPersist (dom : Dom) (seq : BitVec 32) (s : State) (h : s.memOk) :
    answers (execReelBlockPersist dom seq s) State.memOk := by
  unfold execReelBlockPersist
  refine answers_next ?_
  grind [State.memOk, State.setDom_mem, State.memOk_persistBlock, State.cutFinish_mem, State.incSat_mem]

theorem memOk_execPersistenceMarkerDone (port : Fin 16) (dom : Dom) (s : State) (h : s.memOk) :
    answers (execPersistenceMarkerDone port dom s) State.memOk := by
  unfold execPersistenceMarkerDone
  refine answers_next ?_
  grind [State.memOk, State.cutRecord_mem, State.setDom_mem]

theorem memOk_execCutRecordPersist (dom : Dom) (s : State) (h : s.memOk) : answers (execCutRecordPersist dom s) State.memOk := by
  unfold execCutRecordPersist
  refine answers_next ?_
  grind [State.memOk, State.tell_mem, State.memOk_persistBlock, State.cutFinish_mem, State.incSat_mem]

theorem memOk_execTdCmdRollback (dom : Dom) (s : State) (h : s.memOk) : answers (execTdCmdRollback dom s) State.memOk := by
  unfold execTdCmdRollback
  refine answers_next ?_
  grind [State.memOk_rollStart]

theorem memOk_execOnlineRollbackDone (e : RollEnd) (s : State) (h : s.memOk) : answers (execOnlineRollbackDone e s) State.memOk := by
  unfold execOnlineRollbackDone
  refine answers_next ?_
  grind [State.memOk, State.memOk_openRolled, State.setDom_mem, State.wr_mem, State.memOk_applyBlocks]

theorem memOk_execPwrfailAssert (s : State) (h : s.memOk) : answers (execPwrfailAssert s) State.memOk := by
  unfold execPwrfailAssert
  refine answers_next ?_
  grind [State.memOk, State.chatter_mem, State.memOk_wrapStart]

theorem memOk_execFatalError (bank : Fin 354) (struct type : BitVec 8) (addr : BitVec 52) (s : State) (h : s.memOk) :
    answers (execFatalError bank struct type addr s) State.memOk := by
  unfold execFatalError
  refine answers_next ?_
  grind [State.memOk_fatal]

theorem memOk_execGpfPhase2Done (port : Fin 16) (s : State) (h : s.memOk) : answers (execGpfPhase2Done port s) State.memOk := by
  unfold execGpfPhase2Done
  refine answers_next ?_
  grind [State.memOk, State.memOk_gpfEnd, State.setGaf_mem]

theorem memOk_execGpfTimeoutExpiry (s : State) (h : s.memOk) : answers (execGpfTimeoutExpiry s) State.memOk := by
  unfold execGpfTimeoutExpiry
  refine answers_next ?_
  grind [State.memOk, State.memOk_gpfEnd, State.setGaf_mem]

theorem memOk_execPwrfailDeassertHold (s : State) (h : s.memOk) : answers (execPwrfailDeassertHold s) State.memOk := by
  unfold execPwrfailDeassertHold
  refine answers_next ?_
  grind [State.memOk_coldReset]

theorem memOk_execAutorestart (s : State) (h : s.memOk) : answers (execAutorestart s) State.memOk := by
  unfold execAutorestart
  refine answers_next ?_
  grind [State.memOk_coldReset]

theorem memOk_execPwrgoodRise (b : BootInput) (s : State) (h : s.memOk) : answers (execPwrgoodRise b s) State.memOk := by
  unfold execPwrgoodRise
  refine answers_next ?_
  grind [State.memOk, State.setBoot_mem, State.pinEvt_mem, State.memOk_coldReset, State.setSl_mem, State.pinLevel_mem,
    State.foldl_mem, LoopFrame]

theorem memOk_execPwrgoodFall (s : State) (h : s.memOk) : answers (execPwrgoodFall s) State.memOk := by
  have hp : ((s.pinAssert 0 4).pinLevel 0 false).memOk := State.memOk_of_mem h (by simp)
  refine answers_next ?_
  split
  · exact h
  · exact State.memOk_stopAct _ (State.memOk_withPins hp _)

theorem memOk_execResetNAssert (s : State) (h : s.memOk) : answers (execResetNAssert s) State.memOk := by
  have hp : (s.pinAssert 2 8).memOk := State.memOk_of_mem h (by simp)
  refine answers_next (State.memOk_ite h ?_)
  obtain ⟨v, hv⟩ : ∃ v, s.pinAssert 2 8 = v := ⟨_, rfl⟩
  rw [hv] at hp ⊢
  dsimp only
  split
  · exact State.memOk_withWrap hp _
  · exact hp
  · exact hp
  · exact v.memOk_coldAct hp

theorem memOk_execWarmNAssert (s : State) (h : s.memOk) : answers (execWarmNAssert s) State.memOk := by
  have hp : (s.pinAssert 3 8).memOk := State.memOk_of_mem h (by simp)
  refine answers_next (State.memOk_ite h (State.memOk_ite hp (State.memOk_ite (State.memOk_warmReset _ hp) (State.memOk_ite ?_ hp))))
  exact State.memOk_withWrap hp _

theorem memOk_execPkgRstCold (lvl : Lvl) (s : State) (h : s.memOk) : answers (execPkgRstCold lvl s) State.memOk := by
  unfold execPkgRstCold
  refine answers_next ?_
  grind [State.memOk_coldAct]

theorem memOk_execPkgRstWarm (lvl : Lvl) (s : State) (h : s.memOk) : answers (execPkgRstWarm lvl s) State.memOk := by
  unfold execPkgRstWarm
  refine answers_next ?_
  grind [State.memOk_warmReset]

theorem memOk_execRestartRollbackDone (dom : Dom) (s : State) (h : s.memOk) : answers (execRestartRollbackDone dom s) State.memOk := by
  unfold execRestartRollbackDone
  refine answers_next ?_
  grind [State.memOk_domDone]

theorem memOk_execLeadC (dom : Dom) (c : Word) (s : State) (h : s.memOk) : answers (execLeadC dom c s) State.memOk := by
  unfold execLeadC
  refine answers_next ?_
  grind [State.memOk, State.setBoot_mem, State.memOk_domDone]

theorem memOk_execWakeNAssert (s : State) (h : s.memOk) : answers (execWakeNAssert s) State.memOk := by
  have hp : (s.pinAssert 4 8).memOk := State.memOk_of_mem h (by simp)
  refine answers_next (State.memOk_ite h ?_)
  obtain ⟨v, hv⟩ : ∃ v, s.pinAssert 4 8 = v := ⟨_, rfl⟩
  rw [hv] at hp ⊢
  have hw := v.memOk_wakeSrc 1 hp
  refine State.memOk_ite hp ?_
  dsimp only
  split
  · exact State.memOk_of_mem hw (by simp)
  · exact State.memOk_of_mem hw (by simp)
  · exact State.memOk_of_mem hw (by simp)
  · exact hw

theorem memOk_execThermalTrip (s : State) (h : s.memOk) : answers (execThermalTrip s) State.memOk := by
  unfold execThermalTrip
  refine answers_next ?_
  grind [State.memOk, State.memOk_stopAct]

theorem memOk_execRefclkLoss (s : State) (h : s.memOk) : answers (execRefclkLoss s) State.memOk := by
  unfold execRefclkLoss
  refine answers_next ?_
  grind [State.memOk, State.pinEvt_mem, State.memOk_stopAct]

theorem memOk_execVaonLoss (s : State) (h : s.memOk) : answers (execVaonLoss s) State.memOk := by
  unfold execVaonLoss
  refine answers_next ?_
  grind [State.memOk, State.memOk_stopAct]

theorem memOk_execInputStuck (i : Fin 10) (s : State) (h : s.memOk) : answers (execInputStuck i s) State.memOk := by
  unfold execInputStuck
  refine answers_next ?_
  grind [State.memOk, State.stick_mem, State.pwrfailStuck_mem, State.memOk_coldAct]

theorem memOk_execTrefclkReturn (s : State) (h : s.memOk) : answers (execTrefclkReturn s) State.memOk := by
  unfold execTrefclkReturn
  repeat' refine answers_ite ?_ ?_
  all_goals exact answers_next (State.memOk_of_mem h (by simp))

theorem memOk_execTsymSend (d : DieNo) (s : State) (h : s.memOk) : answers (execTsymSend d s) State.memOk := by
  unfold execTsymSend
  dsimp only
  split <;> refine answers_next ?_ <;> grind [State.memOk, State.setSl_mem]

theorem memOk_execTsym (d : DieNo) (s : State) (h : s.memOk) : answers (execTsym d s) State.memOk := by
  unfold execTsym
  dsimp only
  split <;> refine answers_next ?_ <;> grind [State.memOk, State.setSl_mem]

theorem memOk_execTret (d : DieNo) (s : State) (h : s.memOk) : answers (execTret d s) State.memOk := by
  unfold execTret
  dsimp only
  split <;> refine answers_next ?_ <;> grind [State.memOk, State.setSl_mem]

theorem memOk_execSlateCopySettled (d : DieNo) (s : State) (h : s.memOk) : answers (execSlateCopySettled d s) State.memOk := by
  unfold execSlateCopySettled
  dsimp only
  split <;> refine answers_next ?_ <;> grind [State.memOk, State.setSl_mem]

theorem memOk_execPtsymSend (k : Fin 4) (s : State) (h : s.memOk) : answers (execPtsymSend k s) State.memOk := by
  unfold execPtsymSend
  dsimp only
  split <;> refine answers_next ?_ <;> grind [State.memOk, State.setSl_mem]

theorem memOk_execPtsym (k : Fin 4) (m : PtSym) (s : State) (h : s.memOk) : answers (execPtsym k m s) State.memOk := by
  unfold execPtsym
  repeat' refine answers_ite ?_ ?_
  all_goals exact answers_next (State.memOk_of_mem h (by simp))

theorem memOk_execClfSend (s : State) (h : s.memOk) : answers (execClfSend s) State.memOk := by
  unfold execClfSend
  dsimp only
  split <;> refine answers_next ?_ <;> grind [State.memOk, State.tick_mem, State.setSl_mem]

theorem memOk_execClf (m : ClfFrame) (s : State) (h : s.memOk) : answers (execClf m s) State.memOk := by
  unfold execClf
  repeat' refine answers_ite ?_ ?_
  all_goals refine answers_next ?_
  case refine_2.refine_2.refine_2.refine_2.refine_1 => 
    dsimp only
    split <;> exact State.memOk_of_mem h (by simp)
  all_goals exact State.memOk_of_mem h (by simp)

theorem memOk_execClrSend (s : State) (h : s.memOk) : answers (execClrSend s) State.memOk := by
  unfold execClrSend
  dsimp only
  split <;> refine answers_next ?_ <;> grind [State.memOk, State.setSl_mem]

theorem memOk_execClr (m : ClrFrame) (s : State) (h : s.memOk) : answers (execClr m s) State.memOk := by
  unfold execClr
  repeat' refine answers_ite ?_ ?_
  all_goals exact answers_next (State.memOk_of_mem h (by simp))

theorem memOk_execSlateSourceLost (s : State) (h : s.memOk) : answers (execSlateSourceLost s) State.memOk := by
  unfold execSlateSourceLost
  refine answers_next ?_
  grind [State.memOk, State.sourceLost_mem, State.setSl_mem, State.wrIf_mem]

theorem memOk_execSlateSaturate (s : State) (h : s.memOk) : answers (execSlateSaturate s) State.memOk :=
  answers_ite (answers_next (State.memOk_of_mem h (by simp))) (answers_next h)

theorem memOk_execSlateAlarmFire (t : Tid) (lvl : Lvl) (s : State) (h : s.memOk) : answers (execSlateAlarmFire t lvl s) State.memOk := by
  unfold execSlateAlarmFire
  dsimp only
  split <;> refine answers_next ?_ <;> grind [State.memOk, State.setThr_mem, State.wake_mem]

theorem memOk_execSlcmpWrite (t : Tid) (lvl : Lvl) (v : Word) (s : State) (h : s.memOk) :
    answers (execSlcmpWrite t lvl v s) State.memOk :=
  answers_ite (answers_next h) (answers_next h)

theorem memOk_execMpLinkUp (n : Fin 16) (dev : DevInfo) (s : State) (h : s.memOk) : answers (execMpLinkUp n dev s) State.memOk := by
  unfold execMpLinkUp
  dsimp only
  split <;> refine answers_next ?_ <;> grind [State.memOk, State.mpRefuse_mem, State.lanesCount_mem, State.wr_mem,
    State.setPt_mem, State.mpReport_mem]

theorem memOk_execMemoryActive (n : Fin 16) (ideOk : Bool) (s : State) (h : s.memOk) :
    answers (execMemoryActive n ideOk s) State.memOk := by
  unfold execMemoryActive
  repeat' refine answers_ite ?_ ?_
  all_goals exact answers_next (State.memOk_of_mem h (by simp))

theorem memOk_execMpRetrain (n : Fin 16) (s : State) (h : s.memOk) : answers (execMpRetrain n s) State.memOk := by
  unfold execMpRetrain
  refine answers_next ?_
  grind [State.memOk_mpRetrain]

theorem memOk_execPortWrite (n : Fin 16) (line : LineNo) (mask : BitVec 64) (data : LineData) (s : State) (h : s.memOk) :
    answers (execPortWrite n line mask data s) State.memOk := by
  unfold execPortWrite
  refine answers_next ?_
  grind [State.memOk, State.memOk_portPut, State.undecodable_mem]

theorem memOk_execPortRead (n : Fin 16) (rq : Fin 32) (span : LineSpan) (cls : Fin 64) (s : State) (h : s.memOk) :
    answers (execPortRead n rq span cls s) State.memOk := by
  unfold execPortRead
  refine answers_next ?_
  grind [State.memOk, State.inc_mem, State.acceptRead_mem, State.undecodable_mem, State.setPt_mem]

theorem memOk_execUrgencyRise (n : Fin 16) (rq : Fin 32) (ageNs : Nat) (s : State) (h : s.memOk) :
    answers (execUrgencyRise n rq ageNs s) State.memOk := by
  unfold execUrgencyRise
  refine answers_next ?_
  grind [State.memOk, State.inc_mem, State.setPt_mem]

theorem memOk_execArbGrant (n : Fin 16) (cycles : Nat) (s : State) (h : s.memOk) : answers (execArbGrant n cycles s) State.memOk := by
  unfold execArbGrant
  refine answers_next ?_
  grind [State.memOk, State.arbDecide_mem, State.acceptRead_mem, State.setPt_mem]

theorem memOk_execDeviceWriteCompletion (n : Fin 16) (line : LineNo) (s : State) (h : s.memOk) :
    answers (execDeviceWriteCompletion n line s) State.memOk := by
  refine answers_next ?_
  split
  · exact h
  · split
    · split
      · exact State.memOk_setWq _ _ _ (s.memOk_devComplete _ _ h)
      · exact h
    · exact h

theorem memOk_execDeviceReadResponse (n : Fin 16) (line : LineNo) (poison overload : Bool) (s : State) (h : s.memOk) :
    answers (execDeviceReadResponse n line poison overload s) State.memOk := by
  unfold execDeviceReadResponse
  refine answers_next ?_
  grind [State.memOk, State.memOk_poisonRead, State.setPt_mem]

theorem memOk_execNak (l : Fin 28) (seq : BitVec 12) (s : State) (h : s.memOk) : answers (execNak l seq s) State.memOk := by
  unfold execNak
  refine answers_next ?_
  grind [State.memOk, State.flushed_mem, State.inc_mem, State.memOk_replayDown, State.setLk_mem, State.incSat_mem]

theorem memOk_execHeartbeatTimeout (d : DieNo) (atHub : Bool) (s : State) (h : s.memOk) :
    answers (execHeartbeatTimeout d atHub s) State.memOk := by
  unfold execHeartbeatTimeout
  refine answers_next ?_
  grind [State.memOk, State.memOk_fence, State.stopDie_mem, State.dieRecord_mem]

theorem memOk_execPlinkTrain (k : Fin 4) (peer : PlPeer) (s : State) (h : s.memOk) : answers (execPlinkTrain k peer s) State.memOk := by
  unfold execPlinkTrain
  refine answers_next ?_
  grind [State.memOk, State.memOk_plTrain, State.wr_mem]

theorem memOk_execPlinkDown (k : Fin 4) (s : State) (h : s.memOk) : answers (execPlinkDown k s) State.memOk := by
  unfold execPlinkDown
  refine answers_next ?_
  grind [State.memOk_plinkLost]

theorem memOk_execLinkStateNotice (p : Fin 16) (up : BitVec 4) (s : State) (h : s.memOk) :
    answers (execLinkStateNotice p up s) State.memOk := by
  unfold execLinkStateNotice
  refine answers_next ?_
  grind [State.memOk, State.memOk_membership]

theorem memOk_execGpInboundWrite (r : Fin 4) (addr : Nat) (data : List Byte) (s : State) (h : s.memOk) :
    answers (execGpInboundWrite r addr data s) State.memOk := by
  unfold execGpInboundWrite
  refine answers_next ?_
  grind [State.memOk, State.wakeLink_mem, State.memOk_inWrite]

theorem memOk_execInboundMsi (r : Fin 4) (addr : Nat) (data : BitVec 32) (s : State) (h : s.memOk) :
    answers (execInboundMsi r addr data s) State.memOk := by
  unfold execInboundMsi
  refine answers_next ?_
  grind [State.memOk, State.wakeLink_mem, State.memOk_inWrite]

theorem memOk_execCxlCacheRequest (r : Fin 3) (addr : Nat) (wantsCopy : Bool) (data : Option LineData) (s : State) (h : s.memOk) :
    answers (execCxlCacheRequest r addr wantsCopy data s) State.memOk := by
  unfold execCxlCacheRequest
  refine answers_next ?_
  grind [State.memOk, State.say_mem, State.inRead_mem, State.wakeLink_mem, State.memOk_inWrite, State.incSat_mem]

theorem memOk_execPcieCompletion (r : Fin 4) (ok : Bool) (v : Word) (s : State) (h : s.memOk) :
    answers (execPcieCompletion r ok v s) State.memOk := by
  unfold execPcieCompletion
  refine answers_next ?_
  grind [State.memOk, State.ioAnswer_mem, State.setGpx_mem, State.incSat_mem]

theorem memOk_execCompletionTimeout (r : Fin 4) (s : State) (h : s.memOk) : answers (execCompletionTimeout r s) State.memOk := by
  unfold execCompletionTimeout
  refine answers_next ?_
  grind [State.memOk, State.ioAnswer_mem, State.setGpx_mem, State.incSat_mem]

theorem memOk_execMirrorInboundWrite (winB : Bool) (ofs : Nat) (data : List Byte) (s : State) (h : s.memOk) :
    answers (execMirrorInboundWrite winB ofs data s) State.memOk := by
  unfold execMirrorInboundWrite
  refine answers_next ?_
  grind [State.memOk, State.memOk_homeWrites, State.tlp_mem, State.mwDrop_mem]

theorem memOk_execMirrorInboundRead (win : Fin 3) (ofs : Nat) (len : Nat) (s : State) (h : s.memOk) :
    answers (execMirrorInboundRead win ofs len s) State.memOk := by
  unfold execMirrorInboundRead
  refine answers_next ?_
  grind [State.memOk, State.homeReads_mem, State.say_mem, State.tlp_mem, State.mwDrop_mem]

theorem memOk_execHostDb (i : Fin 16) (s : State) (h : s.memOk) : answers (execHostDb i s) State.memOk := by
  unfold execHostDb
  refine answers_next ?_
  grind [State.memOk, State.memOk_cueRaise, State.tlp_mem, State.wr_mem]

theorem memOk_execRunnerUnitDone (e : Fin 32) (s : State) (h : s.memOk) : answers (execRunnerUnitDone e s) State.memOk := by
  unfold execRunnerUnitDone
  refine answers_next ?_
  grind [State.memOk, State.vrfActive_mem, State.memOk_runUnit, State.setJob_mem]

theorem memOk_execCompletionRecord (f : Fin 256) (s : State) (h : s.memOk) : answers (execCompletionRecord f s) State.memOk := by
  unfold execCompletionRecord
  refine answers_next ?_
  grind [State.memOk_cuesOwed, State.memOk_record]

theorem memOk_execRingResize (f : Fin 256) (s : State) (h : s.memOk) : answers (execRingResize f s) State.memOk := by
  unfold execRingResize
  refine answers_next ?_
  grind [State.memOk, State.setVrf_mem, State.wr_mem]

theorem memOk_execVrfResetGen (f : Fin 256) (s : State) (h : s.memOk) : answers (execVrfResetGen f s) State.memOk := by
  unfold execVrfResetGen
  refine answers_next ?_
  grind [State.memOk_vrfReset]

theorem memOk_execVrfResetQuiesce (f : Fin 256) (s : State) (h : s.memOk) : answers (execVrfResetQuiesce f s) State.memOk := by
  unfold execVrfResetQuiesce
  refine answers_next ?_
  grind [State.memOk_vrfReset]

theorem memOk_execThermalEmergency (c : Fin 60) (s : State) (h : s.memOk) : answers (execThermalEmergency c s) State.memOk := by
  unfold execThermalEmergency
  refine answers_next ?_
  grind [State.memOk, State.memOk_cueRaise, State.memOk_exitAll, State.holdPoll_mem]

theorem memOk_execGraceExpiry (c : Fin 60) (s : State) (h : s.memOk) : answers (execGraceExpiry c s) State.memOk := by
  unfold execGraceExpiry
  refine answers_next ?_
  grind [State.memOk, State.tick_mem, State.holdPoll_mem, State.memOk_fatal]

theorem memOk_execSpareL1Answer (d : DieNo) (s : State) (h : s.memOk) : answers (execSpareL1Answer d s) State.memOk := by
  unfold execSpareL1Answer
  refine answers_next ?_
  grind [State.memOk]

theorem memOk_execSpareL1Timeout (d : DieNo) (l : Fin 18) (s : State) (h : s.memOk) : answers (execSpareL1Timeout d l s) State.memOk := by
  unfold execSpareL1Timeout
  refine answers_next ?_
  grind [State.memOk, State.wr_mem, State.memOk_reclaimLine, State.memOk_foldl]

theorem memOk_execSpareDrainDone (d : DieNo) (dropped : Nat) (s : State) (h : s.memOk) :
    answers (execSpareDrainDone d dropped s) State.memOk := by
  unfold execSpareDrainDone
  refine answers_next ?_
  grind [State.memOk, State.spareEnd_mem]

theorem memOk_execDieFence (d : DieNo) (lvl : Lvl) (s : State) (h : s.memOk) : answers (execDieFence d lvl s) State.memOk := by
  unfold execDieFence
  refine answers_next ?_
  grind [State.memOk_fence]

theorem memOk_execFatalDieReport (d : DieNo) (bank : Option BankRec) (s : State) (h : s.memOk) :
    answers (execFatalDieReport d bank s) State.memOk := by
  unfold execFatalDieReport
  refine answers_next ?_
  grind [State.memOk, State.memOk_fence, State.dieRecord_mem, State.stale_mem]

theorem memOk_execWatchdogExpiry (bank : Fin 354) (s : State) (h : s.memOk) : answers (execWatchdogExpiry bank s) State.memOk := by
  unfold execWatchdogExpiry
  refine answers_next ?_
  grind [State.memOk_fatal]

theorem memOk_execGafferSample (g : GafSample) (s : State) (h : s.memOk) : answers (execGafferSample g s) State.memOk := by
  unfold execGafferSample
  refine answers_next ?_
  grind [State.memOk, State.capDrop_mem, State.setGaf_mem, State.memOk_deepPoll, State.holdPoll_mem, State.memOk_wrapStart,
    State.wr_mem, State.wearSample_mem, State.capChange_mem]

theorem memOk_execDeepIdleTimeout (s : State) (h : s.memOk) : answers (execDeepIdleTimeout s) State.memOk := by
  unfold execDeepIdleTimeout
  refine answers_next ?_
  grind [State.memOk, State.respond_mem, State.setGaf_mem]

theorem memOk_execDieRstReset (d : DieNo) (lvl : Lvl) (s : State) (h : s.memOk) : answers (execDieRstReset d lvl s) State.memOk := by
  unfold execDieRstReset
  refine answers_next ?_
  grind [State.memOk_dieRst]

theorem memOk_execDieRstHoldRelease (d : DieNo) (lvl : Lvl) (s : State) (h : s.memOk) :
    answers (execDieRstHoldRelease d lvl s) State.memOk := by
  unfold execDieRstHoldRelease
  refine answers_next ?_
  grind [State.memOk_holdRelease]

theorem memOk_execWearDay (s : State) (h : s.memOk) : answers (execWearDay s) State.memOk := by
  unfold execWearDay
  refine answers_next ?_
  grind [State.memOk, State.setAon_mem, State.wr_mem, State.dlyStore_mem, State.foldl_mem, LoopFrame]

theorem memOk_execCalAlarmFire (s : State) (h : s.memOk) : answers (execCalAlarmFire s) State.memOk := by
  unfold execCalAlarmFire
  refine answers_next ?_
  grind [State.memOk, State.memOk_wakeSrc, State.wr_mem]

theorem memOk_execRegisterWrite (addr size : Nat) (v : Word) (lvl : Lvl) (s : State) (h : s.memOk) :
    answers (execRegisterWrite addr size v lvl s) State.memOk := by
  unfold execRegisterWrite
  refine answers_next ?_
  grind [State.memOk_ioWrite]

theorem memOk_execMirrorConfigRequest (wr : Bool) (reg : Nat) (v : Word) (s : State) (h : s.memOk) :
    answers (execMirrorConfigRequest wr reg v s) State.memOk := by
  unfold execMirrorConfigRequest
  refine answers_next ?_
  grind [State.memOk, State.tick_mem, State.say_mem, State.tlp_mem]

theorem memOk_execRollbackForward (dom : Dom) (s : State) (h : s.memOk) : answers (execRollbackForward dom s) State.memOk := by
  unfold execRollbackForward
  refine answers_next ?_
  grind [State.memOk_rollStart]

theorem memOk_execJtagDebugAccess (op : JtagOp) (s : State) (h : s.memOk) : answers (execJtagDebugAccess op s) State.memOk := by
  unfold execJtagDebugAccess
  refine answers_next ?_
  grind [State.memOk, State.dbgHalt_mem, State.homeReads_mem, State.tick_mem, State.say_mem, State.memOk_regWrite,
    State.regRead_mem, State.setG_mem, State.memOk_engWrite, State.dbgGo_mem]

theorem answers_issue {s : State} {t : Tid} {i : Instr} {body : State → Out} (h : s.memOk) (hb : KeepsForm body) :
    answers (.next (s.issue t i body)) State.memOk :=
  answers_next (s.memOk_issue t i body h hb)

theorem memOk_exec (i : Instr) (s : State) (h : s.memOk) : answers (exec i s) State.memOk := by
  cases i with
  | addi | andi | ori | xori | slti | sltui | lui | shori | addpc | slli | srli | srai | rori | add | sub | and | or | xor
  | andn | orn | slt | sltu | min | max | minu | maxu | sll | srl | sra | ror | mul | mulh | mulhu | div | divu | rem | remu
  | clz | ctz | popc | bswap | sextb | sexth | sextw | zextw | fneg | fabs | fmov | fclass | fmvg | fmvf | j | jr | fenceLl
  | fenceLs | fenceSs | isync | mfc | brk | sysc | hvc | monc | rdpmc | keyset | keyget | tlbfind | tlbiVa | tlbiAsid | tlbiVmid
  | tlbiAll | gpmw | gpmr | gpmi | ownersync | cutstat | rdslate | rdslateu | cust | vbcast | vins | vext | vmov | pscan
  | compress | unpack | vhash | vcrc | vcnt | aclr | aaddf | amacf | aaddi | acnt | ardi | ardw | awrw =>
    exact answers_issue h fun _ h => h
  | fadd | fsub | fmul | fdiv | fsqrt | fmin | fmax | fcvtf | fcvtfu | fcvtx | fmadd | fmsub | fnmsub | fnmadd | ardf =>
    exact answers_issue h fun s h => s.memOk_fpTo _ _ _ h
  | feq | flt | fle | fcvti | fcvtiu =>
    exact answers_issue h fun s h => s.memOk_fpToG _ _ _ _ h
  | beq | bne | blt | bge | bltu | bgeu =>
    exact answers_issue h fun s h => s.memOk_condBranch _ _ _ _ h
  | call | callr =>
    exact answers_issue h fun s h => s.memOk_callTo _ _ h
  | ret t => exact answers_issue h (keepsForm_ret t)
  | load => exact answers_issue h fun s h => s.memOk_doLoad _ _ _ _ _ _ h
  | store => exact answers_issue h fun s h => s.memOk_doStore _ _ _ _ _ _ h
  | loadx t d a szk ord am amf => exact answers_issue h (keepsForm_loadx t d a szk ord am amf)
  | storex t d a szk ord am amf => exact answers_issue h (keepsForm_storex t d a szk ord am amf)
  | ldi t d a szk ord disp => exact answers_issue h (keepsForm_ldi t d a szk ord disp)
  | iold t d a szk disp => exact answers_issue h (keepsForm_iold t d a szk disp)
  | iost t d a szk disp => exact answers_issue h (keepsForm_iost t d a szk disp)
  | swap | cas | fetchAdd | fetchAnd | fetchOr | fetchMax | fetchMaxu =>
    exact answers_issue h fun s h => s.memOk_doAmo _ _ _ _ _ _ h
  | fenceSl | fenceAll =>
    exact answers_issue h fun s h => s.memOk_afterDrain _ h
  | mtc t a num => exact answers_issue h (keepsForm_mtc t a num)
  | eret t => exact answers_issue h (keepsForm_eret t)
  | wait t => exact answers_issue h (keepsForm_wait t)
  | tlbwRnd | tlbwSlot =>
    exact answers_issue h fun s h => State.memOk_tlbwEnd _ _ (s.memOk_tlbw _ _ h)
  | tlbrd t a => exact answers_issue h (keepsForm_tlbrd t a)
  | cutreq t d a => exact answers_issue h (keepsForm_cutreq t d a)
  | cutwait t d a => exact answers_issue h (keepsForm_cutwait t d a)
  | slatewait t d a => exact answers_issue h (keepsForm_slatewait t d a)
  | rssave t a => exact answers_issue h (keepsForm_rssave t a)
  | rsload t a => exact answers_issue h (keepsForm_rsload t a)
  | dtload t a b => exact answers_issue h (keepsForm_dtload t a b)
  | repN t nm1 next => exact answers_issue h (keepsForm_repN t nm1 next)
  | repG t g next => exact answers_issue h (keepsForm_repG t g next)
  | udi t sel f1 f2 f3 f4 => exact answers_issue h (keepsForm_udi t sel f1 f2 f3 f4)
  | sload | sscan | sgather | sdict | saccadd =>
    exact answers_issue h fun s h => s.memOk_streamThen _ _ _ _ _ h fun _ _ => by simp
  | redmin | redmax =>
    exact answers_issue h fun s h => State.memOk_of_mem h (State.redTo_mem ..)
  | encrun t a b => exact answers_issue h fun s h => keepsForm_encrun t a b _ (State.memOk_of_mem h (by simp))
  | encdone t a => exact answers_issue h fun s h => keepsForm_encdone t a _ (State.memOk_of_mem h (by simp))
  | snpS | snpX | snpCur | snpBinv | eva | swbAcc | advance | advAck | sweep | swept | purge | gAdvance | gSwept | gPrepare
  | gPrepared | gCommit | groupCutTimeout | cutPeriodExpiry | reelBlockError | tdCmdCut | tdCfgEn | tdSeg1Link | pwrfailStuck
  | dieStartSlot | clusterStartSlot | leadwaitExpiry | prochotAssert | prochotRelease | jtagTrst | xtalLoss | railOutOfRange
  | vaonReturn | inputUnlock | i3cBusRecovery | trefclkFault | slateSettled | slateSet | slateAdj | slateRoleWrite
  | slateEpochWrite | mpTrainTimeout | memoryActiveTimeout | isValidate | isInvalidate | prtValidate | prtInvalidate
  | gpfTimeoutWrite | dlReset | laneCheckDone | trainingPacket | trainingAnswer | dlinkTrainTimeout | packetReceive | failover
  | dlFlush | dlResume | heartbeatSend | heartbeat | fabIdAssign | fwValidate | gpInboundRead | gpLinkLoss | gpRetrain
  | iwValidate | iwInvalidate | gdwValidate | aspmL0sEntry | aspmL1Entry | ptmRequest | cutDb | mwCommit | mirrorLinkDown
  | mirRetrain | vrfSqtail | descriptorFetch | vrfEn | vrfNlog2Write | vrfQuiesce | vrfQuiesced | lateResponse | rnModeWrite
  | rnCreditsWrite | vrhWinValidate | qosAlloc | cuePtbaseValidate | loadRandom | loadSealed | coreSpareGo | fenceReclaimDone
  | mcBankClear | mcDiebankClear | rootStep | setFreq | gate | ungate | deep | off | withdraw | deepExit | sleepEntry | thrStart
  | padReleaseBus | padReleaseGpio | dailiesUpdate | calSet | bwWindowEnd | bwWinWrite | bwPclr | pcieLinkUp | trefclkWarn
  | xtalReturn | railInRange | clapDnPresentLoss | cutTriggerForward | domainSpoilForward =>
    exact answers_next (State.memOk_of_mem h (by simp))
  | goE => exact answers_next (s.memOk_go _ _ _ _ h)
  | goF => exact answers_next (s.memOk_go _ _ _ _ h)
  | goS => exact answers_next (s.memOk_go _ _ _ _ h)
  | holdWindowEnd => exact answers_next (s.memOk_holdEnd _ _ h)
  | mpEnable => exact answers_next (s.memOk_mpCtl _ _ _ h)
  | mpLinkLoss => exact answers_next (s.memOk_mpLoss _ h)
  | plReset => exact answers_next (s.memOk_plReset _ h)
  | runCopy => exact answers_next (s.memOk_jobStart _ _ h)
  | runFill => exact answers_next (s.memOk_jobStart _ _ h)
  | runCrc => exact answers_next (s.memOk_jobStart _ _ h)
  | runCsum => exact answers_next (s.memOk_jobStart _ _ h)
  | runShip => exact answers_next (s.memOk_jobStart _ _ h)
  | vmrstCmd => exact answers_next (s.memOk_vmrstWrite _ h)
  | cueRaise => exact answers_next (s.memOk_cueRaise _ h)
  | enclaveCreate => exact answers_next (s.memOk_encCmd _ h (s.memOk_encCreate h))
  | enclaveAdd => exact answers_next (s.memOk_encCmd _ h (s.memOk_encAdd h))
  | enclaveFinal => exact answers_next (s.memOk_encCmd _ h (s.memOk_encFinal h))
  | enclaveRemove => exact answers_next (s.memOk_encCmd _ h (s.memOk_encRemove h))
  | enclaveDestroy => exact answers_next (s.memOk_encCmd _ h (s.memOk_encDestroy h))
  | enclaveSlotclr => exact answers_next (s.memOk_encCmd _ h (s.memOk_encSlotclr h))
  | enctBaseValidate => exact answers_next (s.memOk_enctBase _ _ h)
  | ksClear => exact answers_next (s.memOk_ksClear _ h)
  | dbgCheck => exact answers_next (s.memOk_dbgCheck _ h)
  | slatewaitRelease t => exact memOk_execSlatewaitRelease t s h
  | cueTake t => exact memOk_execCueTake t s h
  | mcAsyncTake => exact memOk_execMcAsyncTake s h
  | storeCommit t => exact memOk_execStoreCommit t s h
  | rdS a line vict => exact memOk_execRdS a line vict s h
  | rdX a line vict => exact memOk_execRdX a line vict s h
  | upg a line vict => exact memOk_execUpg a line vict s h
  | rdNc a pa size => exact memOk_execRdNc a pa size s h
  | wrNc a view pa data => exact memOk_execWrNc a view pa data s h
  | lsr d pa size => exact memOk_execLsr d pa size s h
  | lsw d pa data => exact memOk_execLsw d pa data s h
  | snpLsr d pa size => exact memOk_execSnpLsr d pa size s h
  | snpLsw d pa data => exact memOk_execSnpLsw d pa data s h
  | rspI a line => exact memOk_execRspI a line s h
  | rspS a line => exact memOk_execRspS a line s h
  | rspEvx a line => exact memOk_execRspEvx a line s h
  | goNc d => exact memOk_execGoNc d s h
  | dat d line dirty => exact memOk_execDat d line dirty s h
  | fwd a line dirty far => exact memOk_execFwd a line dirty far s h
  | wbd a line far => exact memOk_execWbd a line far s h
  | evc a line => exact memOk_execEvc a line s h
  | undo a e => exact memOk_execUndo a e s h
  | undoAcc d line => exact memOk_execUndoAcc d line s h
  | swb a dom m => exact memOk_execSwb a dom m s h
  | purged u dom => exact memOk_execPurged u dom s h
  | reelBlockPersist dom seq => exact memOk_execReelBlockPersist dom seq s h
  | persistenceMarkerDone port dom => exact memOk_execPersistenceMarkerDone port dom s h
  | cutRecordPersist dom => exact memOk_execCutRecordPersist dom s h
  | tdCmdRollback dom => exact memOk_execTdCmdRollback dom s h
  | onlineRollbackDone e => exact memOk_execOnlineRollbackDone e s h
  | pwrfailAssert => exact memOk_execPwrfailAssert s h
  | fatalError bank struct type addr => exact memOk_execFatalError bank struct type addr s h
  | gpfPhase2Done port => exact memOk_execGpfPhase2Done port s h
  | gpfTimeoutExpiry => exact memOk_execGpfTimeoutExpiry s h
  | pwrfailDeassertHold => exact memOk_execPwrfailDeassertHold s h
  | autorestart => exact memOk_execAutorestart s h
  | pwrgoodRise b => exact memOk_execPwrgoodRise b s h
  | pwrgoodFall => exact memOk_execPwrgoodFall s h
  | resetNAssert => exact memOk_execResetNAssert s h
  | warmNAssert => exact memOk_execWarmNAssert s h
  | pkgRstCold lvl => exact memOk_execPkgRstCold lvl s h
  | pkgRstWarm lvl => exact memOk_execPkgRstWarm lvl s h
  | restartRollbackDone dom => exact memOk_execRestartRollbackDone dom s h
  | leadC dom c => exact memOk_execLeadC dom c s h
  | wakeNAssert => exact memOk_execWakeNAssert s h
  | thermalTrip => exact memOk_execThermalTrip s h
  | refclkLoss => exact memOk_execRefclkLoss s h
  | vaonLoss => exact memOk_execVaonLoss s h
  | inputStuck i0 => exact memOk_execInputStuck i0 s h
  | trefclkReturn => exact memOk_execTrefclkReturn s h
  | tsymSend d => exact memOk_execTsymSend d s h
  | tsym d => exact memOk_execTsym d s h
  | tret d => exact memOk_execTret d s h
  | slateCopySettled d => exact memOk_execSlateCopySettled d s h
  | ptsymSend k => exact memOk_execPtsymSend k s h
  | ptsym k m => exact memOk_execPtsym k m s h
  | clfSend => exact memOk_execClfSend s h
  | clf m => exact memOk_execClf m s h
  | clrSend => exact memOk_execClrSend s h
  | clr m => exact memOk_execClr m s h
  | slateSourceLost => exact memOk_execSlateSourceLost s h
  | slateSaturate => exact memOk_execSlateSaturate s h
  | slateAlarmFire t lvl => exact memOk_execSlateAlarmFire t lvl s h
  | slcmpWrite t lvl v => exact memOk_execSlcmpWrite t lvl v s h
  | mpLinkUp n dev => exact memOk_execMpLinkUp n dev s h
  | memoryActive n ideOk => exact memOk_execMemoryActive n ideOk s h
  | mpRetrain n => exact memOk_execMpRetrain n s h
  | portWrite n line mask data => exact memOk_execPortWrite n line mask data s h
  | portRead n rq span cls => exact memOk_execPortRead n rq span cls s h
  | urgencyRise n rq ageNs => exact memOk_execUrgencyRise n rq ageNs s h
  | arbGrant n cycles => exact memOk_execArbGrant n cycles s h
  | deviceWriteCompletion n line => exact memOk_execDeviceWriteCompletion n line s h
  | deviceReadResponse n line poison overload => exact memOk_execDeviceReadResponse n line poison overload s h
  | nak l seq => exact memOk_execNak l seq s h
  | heartbeatTimeout d atHub => exact memOk_execHeartbeatTimeout d atHub s h
  | plinkTrain k peer => exact memOk_execPlinkTrain k peer s h
  | plinkDown k => exact memOk_execPlinkDown k s h
  | linkStateNotice p up => exact memOk_execLinkStateNotice p up s h
  | gpInboundWrite r addr data => exact memOk_execGpInboundWrite r addr data s h
  | inboundMsi r addr data => exact memOk_execInboundMsi r addr data s h
  | cxlCacheRequest r addr wantsCopy data => exact memOk_execCxlCacheRequest r addr wantsCopy data s h
  | pcieCompletion r ok v => exact memOk_execPcieCompletion r ok v s h
  | completionTimeout r => exact memOk_execCompletionTimeout r s h
  | mirrorInboundWrite winB ofs data => exact memOk_execMirrorInboundWrite winB ofs data s h
  | mirrorInboundRead win ofs len => exact memOk_execMirrorInboundRead win ofs len s h
  | hostDb i0 => exact memOk_execHostDb i0 s h
  | runnerUnitDone e => exact memOk_execRunnerUnitDone e s h
  | completionRecord f => exact memOk_execCompletionRecord f s h
  | ringResize f => exact memOk_execRingResize f s h
  | vrfResetGen f => exact memOk_execVrfResetGen f s h
  | vrfResetQuiesce f => exact memOk_execVrfResetQuiesce f s h
  | thermalEmergency c => exact memOk_execThermalEmergency c s h
  | graceExpiry c => exact memOk_execGraceExpiry c s h
  | spareL1Answer d => exact memOk_execSpareL1Answer d s h
  | spareL1Timeout d l => exact memOk_execSpareL1Timeout d l s h
  | spareDrainDone d dropped => exact memOk_execSpareDrainDone d dropped s h
  | dieFence d lvl => exact memOk_execDieFence d lvl s h
  | fatalDieReport d bank => exact memOk_execFatalDieReport d bank s h
  | watchdogExpiry bank => exact memOk_execWatchdogExpiry bank s h
  | gafferSample g => exact memOk_execGafferSample g s h
  | deepIdleTimeout => exact memOk_execDeepIdleTimeout s h
  | dieRstReset d lvl => exact memOk_execDieRstReset d lvl s h
  | dieRstHoldRelease d lvl => exact memOk_execDieRstHoldRelease d lvl s h
  | wearDay => exact memOk_execWearDay s h
  | calAlarmFire => exact memOk_execCalAlarmFire s h
  | registerWrite addr size v lvl => exact memOk_execRegisterWrite addr size v lvl s h
  | mirrorConfigRequest wr reg v => exact memOk_execMirrorConfigRequest wr reg v s h
  | rollbackForward dom => exact memOk_execRollbackForward dom s h
  | jtagDebugAccess op => exact memOk_execJtagDebugAccess op s h

theorem memOk_step (s u : State) (h : s.memOk) (hu : step s = .next u) : u.memOk := by
  unfold step at hu
  split at hu
  · obtain rfl := Host.Outcome.next.inj hu
    exact s.memOk_pass h
  · next c rest _ =>
    obtain ⟨v, hv, hok⟩ := memOk_exec c { s with pending := rest } h
    obtain rfl := Host.Outcome.next.inj (hv.symm.trans hu)
    exact hok

/-- Settles O59: every function that steps are made of keeps the canonical form of memory, so every command does. -/
theorem memoryFormKept : Obligations.MemoryFormKept := memOk_step

end Sys2Proof.Machine
end

section
/-!
THE COLD START. What coldReset sets, and that the rest of the start (figures, records, the wrap's report, the slate) leaves it as it is.
-/
namespace Sys2Proof.Machine

set_option Elab.async false

/-- An address that is neither BOOT_STAT nor among the PRT_ATTR registers of the physical regions. -/
abbrev offStart (a : Nat) : Prop := a ≠ A.BOOT_STAT ∧ (a < A.PRT_ATTRn 0 ∨ A.PRT_ATTRn 63 < a)

/-- What a cold start sets and the rest of the start leaves as it is. -/
structure ColdBase (s : State) : Prop where
  power : s.power = .boot
  threads : s.threads = []
  lines : s.lines = []
  ls : s.mem.ls = []
  held : s.mem.held = []
  wq : s.mem.wq = []
  slots : s.boot.slots = List.range 12
  stat : s.rdw A.BOOT_STAT = ioReset A.BOOT_STAT
  attr : ∀ n < 64, s.rdw (A.PRT_ATTRn n) = ioReset (A.PRT_ATTRn n)

theorem ioReset_prtAttr : ∀ n < 64, fget (ioReset (A.PRT_ATTRn n)) 0 1 = 0 := by decide +kernel

theorem ColdBase.coldStarted {s : State} (h : ColdBase s) : s.coldStarted := by
  have step : s.rd F.BOOT_STAT_STEP = 1 := by
    rw [State.rd, h.stat]
    decide +kernel
  have regions : s.regions = [] := by
    refine List.filterMap_eq_nil_iff.mpr fun n hn => ?_
    have hv : s.regionV n = false := by
      rw [State.regionV, State.flag, State.rd, h.attr n (List.mem_range.mp hn), ioReset_prtAttr n (List.mem_range.mp hn)]
      rfl
    simp [hv]
  exact ⟨h.power, step, h.threads, h.lines, regions, h.ls, h.held, h.wq, h.slots⟩

section
variable {s : State}

theorem ColdBase.wrw (h : ColdBase s) (a : Nat) (v : Word) (ha : offStart a) : ColdBase (s.wrw a v) :=
  { h with
    stat := (s.rdw_wrw_ne a _ v ha.1.symm).trans h.stat
    attr := fun n hn => by
      have hne : A.PRT_ATTRn n ≠ a := by
        have := ha.2
        dsimp only [A.PRT_ATTRn] at this ⊢
        omega
      rw [s.rdw_wrw_ne a _ v hne, h.attr n hn] }

theorem ColdBase.wr (h : ColdBase s) (f : FRef) (v : Nat) (ha : offStart f.addr) : ColdBase (s.wr f v) := h.wrw _ _ ha

theorem ColdBase.ite {c : Prop} [Decidable c] {u : State} (h : ColdBase s) (hu : ColdBase u) : ColdBase (if c then s else u) := by
  split
  · exact h
  · exact hu

theorem ColdBase.wrIf (h : ColdBase s) (c : Bool) (f : FRef) (v : Nat) (ha : offStart f.addr) : ColdBase (s.wrIf c f v) :=
  (h.wr f v ha).ite h

theorem ColdBase.incSat (h : ColdBase s) (f : FRef) (n : Nat) (ha : offStart f.addr) : ColdBase (s.incSat f n) := h.wr f _ ha

theorem ColdBase.setSl (h : ColdBase s) (x : SlateSt) : ColdBase (s.setSl x) := { h with }

theorem ColdBase.tick (h : ColdBase s) : ColdBase s.tick := { h with }

theorem ColdBase.withGpos (h : ColdBase s) (g : Nat) : ColdBase { s with gpos := g } := { h with }

theorem ColdBase.withWrap (h : ColdBase s) (w : WrapSt) : ColdBase { s with wrap := w } := { h with }

theorem ColdBase.dlyStore (h : ColdBase s) : ColdBase s.dlyStore := { h with }

theorem ColdBase.uncFresh (h : ColdBase s) : ColdBase s.uncFresh := h.wr _ _ (by decide)

theorem ColdBase.slateDrift (h : ColdBase s) (st unc : Nat) (fast : Bool) : ColdBase (s.slateDrift st unc fast) :=
  ((h.setSl _).wr _ _ (by decide)).uncFresh

theorem ColdBase.fillBank (h : ColdBase s) (b : Nat) (hb : b < 354) (e : ErrRec) (ce : Nat) (ov : Bool) :
    ColdBase (s.fillBank b e ce ov) := by
  have off (k o : Nat) (hk : k = 0xfe0004001000 + o) (ho : o < 64) : offStart (k + b * 0x40) := by
    dsimp only [offStart, A.BOOT_STAT, A.PRT_ATTRn]
    omega
  exact (((h.wrw _ _ (off _ 0 rfl (by decide))).wr _ _ (off _ 8 rfl (by decide))).wrw _ _ (off _ 16 rfl (by decide))).wrw _ _
    (off _ 24 rfl (by decide))

theorem State.mcNamed_of_halted (h : s.threads = []) (g : Nat) : s.mcNamed g = none := by
  have able (t) : s.mcAble t = false := by simp [State.mcAble, State.thrN, h, SMap.get, SMap.find?, Thread.reset]
  unfold State.mcNamed
  split
  · simp [able]
  · rfl

theorem State.mcRoute_of_halted (h : s.threads = []) : s.mcRoute = none := by
  have able (t) : s.mcAble t = false := by simp [State.mcAble, State.thrN, h, SMap.get, SMap.find?, Thread.reset]
  have fallback : s.mcFallback = none := by
    unfold State.mcFallback
    split
    · split
      · simp [able]
      · rfl
    · rfl
  simp [State.mcRoute, State.mcNamed_of_halted h, fallback]

theorem ColdBase.mcQueue (h : ColdBase s) (code : Nat) (v : Word) : ColdBase (s.mcQueue code v) := by
  have hq : ColdBase (if s.mcPend.contains (code, v) then s else { s with mcPend := s.mcPend ++ [(code, v)] }) :=
    h.ite { h with }
  unfold State.mcQueue
  dsimp only
  rw [State.mcRoute_of_halted hq.threads]
  exact hq.wr _ _ (by decide)

theorem ColdBase.logAsync (h : ColdBase s) (b : Nat) (hb : b < 354) (e : ErrRec) : ColdBase (s.logAsync b e) := by
  have off : offStart (F.MCb_STATUS_OVER b).addr := by
    dsimp only [offStart, A.BOOT_STAT, A.PRT_ATTRn, F.MCb_STATUS_OVER, A.MCb_STATUS]
    omega
  refine ColdBase.mcQueue ?_ _ _
  simp only [State.logErr, reduceCtorEq, if_false]
  exact ((h.fillBank b hb _ _ _).ite (h.wr _ _ off)).ite (h.fillBank b hb _ _ _)

theorem ColdBase.refFault (h : ColdBase s) : ColdBase s.refFault := by
  have hw (x) := ((h.logAsync 330 (by decide) (ErrRec.plain .recoverable 24 11)).wr F.SLATE_STAT_REFFAULT 1 (by decide)).setSl x
  exact (hw _).ite ((hw _).slateDrift _ _ _)

theorem ColdBase.slateInit (h : ColdBase s) (cal : Nat) : ColdBase (s.slateInit cal) := by
  have hr (c : Bool) (x w) : ColdBase ({ (if c then s.setSl x else (s.setSl x).refFault) with slate := w }) := by
    have hi : ColdBase (if c then s.setSl x else (s.setSl x).refFault) := (h.setSl x).ite (h.setSl x).refFault
    exact { hi with }
  exact ((hr _ _ _).slateDrift _ _ _).ite (((hr _ _ _).wr _ _ (by decide)).uncFresh.ite ((hr _ _ _).slateDrift _ _ _))

theorem ColdBase.logEvent (h : ColdBase s) (code data : Nat) : ColdBase (s.logEvent code data) := by
  have he : s.rd F.DLY_LOGWR_NEXT < 256 := fget_lt _ _ _
  have off (k : Nat) (hk : 0xfe0006003000 ≤ k ∧ k < 0xfe0006004000) : offStart (k + s.rd F.DLY_LOGWR_NEXT * 0x10) := by
    dsimp only [offStart, A.BOOT_STAT, A.PRT_ATTRn]
    omega
  exact ((((h.wrw _ _ (off _ (by decide))).wr _ _ (off _ (by decide))).wr _ _ (off _ (by decide))).wr _ _ (by decide)).dlyStore

theorem ColdBase.wrapReport (h : ColdBase s) : ColdBase s.wrapReport := by
  have done := ((h.wr F.WRAP_STAT_VALID 1 (by decide)).wr F.WRAP_STAT_CAUSE s.wrap.cause (by decide)).wr F.WRAP_STAT_GPF_LATE
    s.wrap.late (by decide)
  have missing := ((h.wr F.WRAP_STAT_MISSING 1 (by decide)).incSat F.DLY_EVENTS_MISSING 1 (by decide)).logEvent 4 0
  exact (done.ite (missing.ite h)).withWrap _

theorem ColdBase.coldRecord (h : ColdBase s) : ColdBase s.coldRecord :=
  (((h.incSat _ _ (by decide)).wrIf _ _ _ (by decide)).wrIf _ _ _ (by decide)).dlyStore

theorem ColdBase.partFigures (h : ColdBase s) (cold : Bool) : ColdBase (s.partFigures cold) :=
  (((h.wr _ _ (by decide)).wr _ _ (by decide)).ite h).wr _ _ (by decide)

end

theorem SMap.find?_keep_of_not {α : Type} (p : Nat → α → Bool) (m : SMap α) (a : Nat) (h : ∀ v, p a v = false) :
    SMap.find? (SMap.keep p m) a = none := by
  induction m with
  | nil => rfl
  | cons c m ih =>
    obtain ⟨k, v⟩ := c
    by_cases hp : p k v
    · have hk : a ≠ k := by
        rintro rfl
        simp [h] at hp
      simpa [SMap.keep, hp, SMap.find?, hk] using ih
    · simpa [SMap.keep, hp] using ih

theorem isAon_start : isAon A.BOOT_STAT = false ∧ ∀ n < 64, isAon (A.PRT_ATTRn n) = false := by decide +kernel

theorem State.coldIo_reset (s : State) (a : Nat) (h : isAon a = false) (hf : isFused a = false) (hc : a ≠ A.PKG_CAPS)
    (hp : a ≠ A.PAD_RELEASE) (hw : a ≠ A.WRAP_STAT) : SMap.get (ioReset a) s.coldIo a = ioReset a := by
  unfold State.coldIo
  rw [SMap.get_put_ne _ _ _ _ _ hw, SMap.get_put_ne _ _ _ _ _ hp, SMap.get_put_ne _ _ _ _ _ hc, SMap.get,
    SMap.find?_keep_of_not _ _ _ fun _ => by simp [h, hf]]
  rfl

theorem ColdBase.coldReset (s : State) : ColdBase s.coldReset := by
  have attr (n : Nat) (hn : n < 64) : SMap.get (ioReset (A.PRT_ATTRn n)) s.coldIo (A.PRT_ATTRn n) = ioReset (A.PRT_ATTRn n) := by
    refine s.coldIo_reset _ (isAon_start.2 n hn) ?_ ?_ ?_ ?_ <;> simp only [isFused, A.PRT_ATTRn, A.DBG_UID0, A.DBG_UID1, A.PKG_CAPS,
      A.PAD_RELEASE, A.WRAP_STAT] <;> simp <;> omega
  have stat := s.coldIo_reset A.BOOT_STAT isAon_start.1 (by decide) (by decide) (by decide) (by decide)
  unfold State.coldReset
  refine ColdBase.slateInit (ColdBase.wrapReport (ColdBase.coldRecord (ColdBase.partFigures ?_ _))) _
  dsimp only
  generalize hu : State.tick _ = u
  have hb : ColdBase u := by
    rw [← hu]
    refine ColdBase.tick (ColdBase.wrw ?_ _ _ (by decide))
    exact { power := rfl, threads := rfl, lines := rfl, ls := rfl, held := rfl, wq := rfl, slots := rfl, stat := stat, attr := attr }
  split
  · exact (hb.withGpos _).wr _ _ (by decide)
  · exact hb

end Sys2Proof.Machine
end

section
/-!
REGISTER WRITES. Where a write of a register goes, what THR_PC and PKG_RST do with it, and what a write below M does.
-/
namespace Sys2Proof.Machine

set_option Elab.async false

theorem State.ioAt_register (s : State) (a : Nat) (h : 0xFE0000000000 ≤ a)
    (h' : a < 0xFE0002000000 ∨ 0xFE0002100000 ≤ a ∧ a < 0xFE8000000000) : s.ioAt a = .reg := by
  have bus : ¬ a < 4 * 2 ^ 44 := by omega
  have ecam : ¬ a < 0xFD0040000000 := by omega
  have rn : ¬ a < 0xFD0050000000 := by omega
  have dev : ¬ (0xFE8000000000 ≤ a ∧ a < 0xFE8400000000) := by omega
  have cfg : ¬ (0xFE0002000000 ≤ a ∧ a < 0xFE0002100000) := by omega
  simp only [State.ioAt]
  grind

/-- A register write of a size and at an alignment that an encoding admits. -/
theorem execRegisterWrite_aligned (s : State) (a n : Nat) (v : Word) (lvl : Lvl) (hn : n ∈ [1, 2, 4, 8]) (ha : a % n = 0) :
    exec (.registerWrite a n v lvl) s = .next (s.ioWrite none lvl.val a n v) := by
  have hn : (n == 1 || n == 2 || n == 4 || n == 8) = true := by simpa [or_assoc] using hn
  simp [exec, execRegisterWrite, hn, ha]

theorem execRegisterWrite_misaligned (s : State) (a n : Nat) (v : Word) (lvl : Lvl) (h : n ∉ [1, 2, 4, 8] ∨ a % n ≠ 0) :
    exec (.registerWrite a n v lvl) s = .next s := by
  have hc : ((n == 1 || n == 2 || n == 4 || n == 8) && a % n == 0) = false := by
    rcases h with h | h
    · simp at h
      simp [h]
    · simp [h]
  simp [exec, execRegisterWrite, hc]

theorem State.ioWrite_register (s : State) (u : Option Nat) (lvl a n : Nat) (v : Word) (h : s.ioAt a = .reg) :
    s.ioWrite u lvl a n v
      = s.regWrite u lvl (a / 8 * 8) (BitVec.ofNat 64 (v.toNat * 2 ^ (8 * (a % 8)))) (byteMask (a % 8) n) := by
  rw [State.ioWrite, h]

/-- A register that only M may write ignores the writes from below. -/
theorem State.regWrite_below (s : State) (u : Option Nat) (lvl a : Nat) (v mask : Word) (r : RegDesc) (i j : Nat)
    (hr : regAt regTable a = some (r, i, j)) (hm : r.mOnly = true) (hl : lvl ≠ 3) : s.regWrite u lvl a v mask = s := by
  have may : regMay r a lvl = false := by simp [regMay, hm, hl]
  rw [State.regWrite, hr]
  simp [may]

theorem regAt_thrPc : ∀ d : DieNo, regAt regTable (A.THR_PC d) = some (D.THR_PC, d.val, 0) := by decide +kernel

theorem regAt_pkgRst : regAt regTable A.PKG_RST = some (D.PKG_RST, 0, 0) := by decide +kernel

theorem State.regHub_thrPc (s : State) (i a : Nat) (v mask : Word) : s.regHub D.THR_PC i a v mask = none := rfl

theorem State.regSec_thrPc (s : State) (i a : Nat) (v mask : Word) : s.regSec D.THR_PC i a v mask = none := rfl

theorem State.regPort_thrPc (s : State) (d : DieNo) (i j : Nat) (v mask : Word) :
    s.regPort D.THR_PC i j (A.THR_PC d) v mask = none := by
  have mir : mirOnly (A.THR_PC d) = false := by
    revert d
    decide
  have ring : ¬ A.THR_PC d < A.VRH_CTL 256 := by
    revert d
    decide
  unfold State.regPort
  dsimp only
  rw [mir, decide_eq_false ring, Bool.and_false]
  rfl

theorem getLsbD_byteMask (o n j : Nat) (hj : j < 64) :
    (byteMask o n).getLsbD j = decide (8 * o ≤ j ∧ j < 8 * (o + n)) := by
  simp only [byteMask, BitVec.getLsbD_ofNat, Nat.testBit_mul_two_pow, Nat.testBit_two_pow_sub_one, hj, decide_true, Bool.true_and,
    Bool.decide_and]
  grind

/-- A byte of a word, bit by bit. -/
theorem testBit_byte (w : Nat) (i k : Nat) : (w / 256 ^ i % 256).testBit k = (decide (k < 8) && w.testBit (8 * i + k)) := by
  have h256 : 256 ^ i = 2 ^ (8 * i) := by rw [Nat.pow_mul]
  rw [h256, show 256 = 2 ^ 8 from rfl, Nat.testBit_mod_two_pow, Nat.testBit_div_two_pow, Nat.add_comm]

theorem byte_merge (old v : Word) (o n i : Nat) (hi : i < 8) :
    ((old &&& ~~~byteMask o n) ||| (BitVec.ofNat 64 (v.toNat * 2 ^ (8 * o)) &&& byteMask o n)).toNat / 256 ^ i % 256
      = if o ≤ i ∧ i < o + n then v.toNat / 256 ^ (i - o) % 256 else old.toNat / 256 ^ i % 256 := by
  refine Nat.eq_of_testBit_eq fun k => ?_
  by_cases hk : k < 8
  · have hj : 8 * i + k < 64 := by omega
    have here : (8 * o ≤ 8 * i + k ∧ 8 * i + k < 8 * (o + n)) ↔ (o ≤ i ∧ i < o + n) := by omega
    rw [testBit_byte, BitVec.testBit_toNat]
    simp only [hk, decide_true, Bool.true_and, BitVec.getLsbD_or, BitVec.getLsbD_and, BitVec.getLsbD_not, hj, getLsbD_byteMask _ _ _ hj,
      here]
    split
    · next h =>
      have hs : 8 * i + k - 8 * o = 8 * (i - o) + k := by omega
      have ho : 8 * o ≤ 8 * i + k := by omega
      have shifted : (BitVec.ofNat 64 (v.toNat * 2 ^ (8 * o))).getLsbD (8 * i + k) = v.toNat.testBit (8 * (i - o) + k) := by
        rw [BitVec.getLsbD_ofNat, Nat.testBit_mul_two_pow, hs, decide_eq_true hj, decide_eq_true ho, Bool.true_and, Bool.true_and]
      rw [testBit_byte, shifted, decide_eq_true h, decide_eq_true hk]
      simp
    · next h => simp [testBit_byte, hk, h, BitVec.testBit_toNat]
  · split <;> simp [testBit_byte, hk]

theorem toNat_and_not (w m : Word) : w.toNat - (w.toNat &&& m.toNat) = (w &&& ~~~m).toNat := by
  have apart : (w &&& ~~~m) &&& (w &&& m) = 0#64 := by
    ext i
    simp
    tauto
  have whole : (w &&& ~~~m) + (w &&& m) = w := by
    rw [BitVec.add_eq_or_of_and_eq_zero _ _ apart]
    ext i
    simp
    grind
  have sum := BitVec.toNat_add_of_and_eq_zero apart
  rw [whole, BitVec.toNat_and w m] at sum
  omega

theorem fldsWrite_whole (old new mask : Word) (locked : Bool) :
    fldsWrite D.THR_PC.flds old new mask locked = (old &&& ~~~mask) ||| (new &&& mask) := by
  have whole (w : Word) : fget w 0 64 = w.toNat := by
    simp [fget, Nat.mod_eq_of_lt w.isLt]
  have lt : (old &&& ~~~mask ||| new &&& mask).toNat < 2 ^ 64 := BitVec.isLt _
  have mix : old.toNat - (old.toNat &&& mask.toNat) ||| new.toNat &&& mask.toNat = (old &&& ~~~mask ||| new &&& mask).toNat := by
    rw [toNat_and_not, BitVec.toNat_or, BitVec.toNat_and new]
  have hi : (old &&& ~~~mask ||| new &&& mask).toNat ≤ 2 ^ 64 - 1 := by omega
  simp only [fldsWrite, D.THR_PC, fld, Fld.write, List.foldl, whole, mix, Nat.zero_le, hi, decide_true, Bool.and_true, if_true]
  rw [fset, whole, Nat.mod_eq_of_lt lt]
  simp only [pow_zero, mul_one, Nat.sub_self, zero_add, BitVec.ofNat_toNat, BitVec.setWidth_eq]

theorem State.regPut_thrPc (s : State) (d : DieNo) (v mask : Word) :
    s.regPut (A.THR_PC d) v mask = s.wrw (A.THR_PC d) ((s.rdw (A.THR_PC d) &&& ~~~mask) ||| (v &&& mask)) := by
  rw [State.regPut, regAt_thrPc]
  dsimp only
  rw [fldsWrite_whole]

theorem State.regWrite_thrPc (s : State) (u : Option Nat) (d : DieNo) (v mask : Word) :
    s.regWrite u 3 (A.THR_PC d) v mask = s.wrw (A.THR_PC d) ((s.rdw (A.THR_PC d) &&& ~~~mask) ||| (v &&& mask)) := by
  have may : (!regMay D.THR_PC (A.THR_PC d) 3) = false := by simp [regMay]
  have mail : ¬ D.THR_PC.base = D.GAF_REQt.base := by decide
  rw [State.regWrite, regAt_thrPc]
  dsimp only
  rw [may, if_neg Bool.false_ne_true, if_neg mail, State.regHub_thrPc, State.regPort_thrPc, State.regSec_thrPc, Option.none_or,
    Option.none_or, Option.getD_none, State.regPut_thrPc]


theorem thrPc_range (d : DieNo) : 0xFE0002100000 ≤ A.THR_PC d ∧ A.THR_PC d + 8 ≤ 0xFE8000000000 ∧ A.THR_PC d % 8 = 0 := by
  revert d
  decide

/-- A write of bytes of THR_PC from M replaces them. -/
theorem answers_thrPcWrite (s : State) (d : DieNo) (o n : Nat) (v : Word) (hn : n ∈ [1, 2, 4, 8]) (ho : o % n = 0) (h8 : o + n ≤ 8) :
    answers (exec (.registerWrite (A.THR_PC d + o) n v 3) s) fun u =>
      (∀ i, i < 8 → (u.rdw (A.THR_PC d)).toNat / 256 ^ i % 256
        = if o ≤ i ∧ i < o + n then v.toNat / 256 ^ (i - o) % 256 else (s.rdw (A.THR_PC d)).toNat / 256 ^ i % 256)
      ∧ (∀ a, a ≠ A.THR_PC d → u.rdw a = s.rdw a) ∧ u.threads = s.threads := by
  obtain ⟨lo, hi, h0⟩ := thrPc_range d
  have ha : (A.THR_PC d + o) % n = 0 := by
    generalize A.THR_PC d = a at h0
    simp only [List.mem_cons, List.not_mem_nil, or_false] at hn
    rcases hn with rfl | rfl | rfl | rfl <;> omega
  have hn0 : 0 < n := by
    simp only [List.mem_cons, List.not_mem_nil, or_false] at hn
    omega
  have whole : (A.THR_PC d + o) / 8 * 8 = A.THR_PC d ∧ (A.THR_PC d + o) % 8 = o := by omega
  rw [execRegisterWrite_aligned _ _ _ _ _ hn ha, State.ioWrite_register _ _ _ _ _ _ (s.ioAt_register _ (by omega) (by omega)),
    whole.1, whole.2]
  refine ⟨_, rfl, ?_⟩
  rw [show (3 : Lvl).val = 3 from rfl, State.regWrite_thrPc]
  refine ⟨fun i hi => ?_, fun a ha => s.rdw_wrw_ne _ _ _ ha, rfl⟩
  rw [State.rdw_wrw_same]
  exact byte_merge _ _ _ _ _ hi

theorem execRegisterWrite_below (s : State) (a : Nat) (v : Word) (lvl : Lvl) (r : RegDesc) (i j : Nat) (hl : lvl ≠ 3)
    (hr : regAt regTable a = some (r, i, j)) (hm : r.mOnly = true) (h0 : a % 8 = 0) (hio : s.ioAt a = .reg) :
    exec (.registerWrite a 8 v lvl) s = .next s := by
  have hl : lvl.val ≠ 3 := fun h => hl (Fin.ext h)
  have ha : a / 8 * 8 = a := by omega
  rw [execRegisterWrite_aligned _ _ _ _ _ (by simp) h0, State.ioWrite_register _ _ _ _ _ _ hio, ha,
    s.regWrite_below _ _ _ _ _ r i j hr hm hl]

theorem State.ioAt_pkgRst (s : State) : s.ioAt A.PKG_RST = .reg := s.ioAt_register _ (by decide) (by decide)

/-- Below M, the commands that M alone may give change nothing. -/
theorem exec_below (s : State) (d : DieNo) (p : Fin 48) (v : Word) (lvl : Lvl) (hl : lvl ≠ 3) :
    ∀ c ∈ [Instr.calSet v lvl, .padReleaseBus lvl, .padReleaseGpio lvl, .bwWinWrite p v lvl, .bwPclr p lvl,
      .registerWrite (A.THR_PC d) 8 v lvl, .registerWrite A.PKG_RST 8 v lvl], exec c s = .next s := by
  have hv : lvl.val ≠ 3 := fun h => hl (Fin.ext h)
  obtain ⟨lo, hi, h0⟩ := thrPc_range d
  have own (u : State) : (Host.Outcome.next (if lvl.val = 3 then u else s) : Res) = .next s := by rw [if_neg hv]
  have thrPc := execRegisterWrite_below s (A.THR_PC d) v lvl _ _ _ hl (regAt_thrPc d) rfl h0 (s.ioAt_register _ (by omega) (by omega))
  have pkgRst := execRegisterWrite_below s A.PKG_RST v lvl _ _ _ hl regAt_pkgRst rfl (by decide) s.ioAt_pkgRst
  simp only [List.forall_mem_cons, List.not_mem_nil, false_imp_iff, implies_true, and_true]
  exact ⟨own _, own _, own _, own _, own _, thrPc, pkgRst⟩

theorem State.regHub_pkgRst (s : State) (i a : Nat) (v mask : Word) :
    s.regHub D.PKG_RST i a v mask = some (s.pkgRst (v &&& mask)) := rfl

/-- Bit 0 of PKG_RST starts the package cold. -/
theorem answers_pkgRst (s : State) (v : Word) (hp : s.power = .run) (hv : bit v 0 = true) :
    answers (exec (.registerWrite A.PKG_RST 8 v 3) s) State.coldStarted := by
  have may : (!regMay D.PKG_RST A.PKG_RST 3) = false := by simp [regMay]
  have mail : ¬ D.PKG_RST.base = D.GAF_REQt.base := by decide
  have word : BitVec.ofNat 64 (v.toNat * 2 ^ (8 * 0)) &&& byteMask 0 8 = v := by
    have hm : byteMask 0 8 = BitVec.allOnes 64 := by decide
    rw [hm, BitVec.and_allOnes, Nat.mul_zero, Nat.pow_zero, Nat.mul_one, BitVec.ofNat_toNat, BitVec.setWidth_eq]
  rw [execRegisterWrite_aligned _ _ _ _ _ (by simp) (by decide), State.ioWrite_register _ _ _ _ _ _ s.ioAt_pkgRst]
  refine ⟨_, rfl, ?_⟩
  rw [show A.PKG_RST / 8 * 8 = A.PKG_RST from by decide, show A.PKG_RST % 8 = 0 from by decide, show (3 : Lvl).val = 3 from rfl,
    State.regWrite, regAt_pkgRst]
  dsimp only
  rw [may, if_neg Bool.false_ne_true, if_neg mail, State.regHub_pkgRst, Option.some_or,
    Option.some_or, Option.getD_some, word]
  have act : s.pkgRst v = ((s.discardAll true).loseVolatile).coldReset := by
    rw [State.pkgRst, if_pos hv, State.coldAct, if_neg (by simp [hp])]
  rw [act]
  exact (ColdBase.coldReset _).coldStarted

end Sys2Proof.Machine
end

section
/-!
THE CALENDAR, THE PADS, THE DAILIES AND THE BANDWIDTH WINDOWS, one lemma per command.
-/
namespace Sys2Proof.Machine

set_option Elab.async false

theorem ite_fromM {α : Type} (u s : α) : (if (3 : Lvl).val = 3 then u else s) = u := if_pos rfl

/-- The calendar takes the value and is VALID and disciplined. -/
theorem State.calPut_fields (s : State) (v : Word) :
    (s.calPut v).rdw A.CAL_NOW = v ∧ (s.calPut v).rd F.CAL_STAT_VALID = 1 ∧ (s.calPut v).rd F.CAL_STAT_DISC = 1 := by
  unfold State.calPut
  dsimp only
  refine ⟨?_, ?_, ?_⟩
  · rw [State.rdw_wr_ne _ _ _ _ (by decide), State.rdw_wr_ne _ _ _ _ (by decide), State.rdw_wrw_same]
  · rw [State.rd_wr_ne _ _ _ _ (by decide) (by decide), State.rd_wr_same _ _ _ (by decide)]
    rfl
  · rw [State.rd_wr_same _ _ _ (by decide)]
    rfl

theorem answers_calSet (s : State) (v : Word) (h : s.slateState ≠ 3) :
    answers (exec (.calSet v 3) s) fun u => u.rdw A.CAL_NOW = v ∧ u.rd F.CAL_STAT_VALID = 1 ∧ u.rd F.CAL_STAT_DISC = 1 := by
  refine ⟨_, rfl, ?_⟩
  rw [ite_fromM, State.calSet, if_neg h]
  exact State.calPut_fields _ v

/-- While the slate is settled the calendar follows it: CAL_SET changes nothing. -/
theorem exec_calSet_settled (s : State) (v : Word) (h : s.slateState = 3) : exec (.calSet v 3) s = .next s := by
  have same : s.calSet v = s := by rw [State.calSet, if_pos h]
  exact congrArg Host.Outcome.next ((ite_fromM _ _).trans same)

/-- A wake by source 2 or another, while the package runs, is at most a second source: it writes WAKESRC alone. -/
theorem State.wakeSrc_of_run (s : State) (src : Nat) (h : s.power = .run) :
    s.wakeSrc src = s ∨ s.wakeSrc src = s.wr F.AON_STAT_WAKESRC 3 := by
  unfold State.wakeSrc
  split
  · exact .inr rfl
  · rw [if_neg (by simp [h])]
    exact .inl rfl

theorem answers_calAlarmFire (s : State) (ha : s.aon.up = true) (hp : s.power = .run) (he : s.rd F.CAL_ALARM_EN = 1)
    (hs : s.rd F.CAL_ALARM_SECONDS ≤ s.rd F.CAL_NOW_SECONDS) :
    answers (exec .calAlarmFire s) fun u => u.rd F.CAL_ALARM_EN = 0 ∧ u.rd F.AON_STAT_ALARM = 1 ∧ u.power = .run := by
  have due : (s.aon.up && s.flag F.CAL_ALARM_EN && decide (s.rd F.CAL_ALARM_SECONDS ≤ s.rd F.CAL_NOW_SECONDS)) = true := by
    simp [ha, State.flag, he, hs]
  refine ⟨_, rfl, ?_⟩
  rw [if_pos due]
  have en : ((s.wr F.CAL_ALARM_EN 0).wr F.AON_STAT_ALARM 1).rd F.CAL_ALARM_EN = 0 := by
    rw [State.rd_wr_ne _ _ _ _ (by decide) (by decide), State.rd_wr_same _ _ _ (by decide), Nat.zero_mod]
  have alarm : ((s.wr F.CAL_ALARM_EN 0).wr F.AON_STAT_ALARM 1).rd F.AON_STAT_ALARM = 1 := by
    rw [State.rd_wr_same _ _ _ (by decide)]
    rfl
  rcases State.wakeSrc_of_run ((s.wr F.CAL_ALARM_EN 0).wr F.AON_STAT_ALARM 1) 2 hp with h | h <;> rw [h]
  · exact ⟨en, alarm, hp⟩
  · refine ⟨?_, ?_, hp⟩
    · rw [State.rd_wr_ne _ _ _ _ (by decide) (by decide), en]
    · rw [State.rd_wr_ne _ _ _ _ (by decide) (by decide), alarm]

theorem answers_padReleaseBus (s : State) : answers (exec (.padReleaseBus 3) s) fun u =>
    u.rd F.PAD_RELEASE_BUS = 0 ∧ u.rd F.PAD_RELEASE_GPIO = s.rd F.PAD_RELEASE_GPIO := by
  refine ⟨_, rfl, ?_⟩
  rw [ite_fromM]
  exact ⟨State.rd_wr_same _ _ _ (by decide), State.rd_wr_ne _ _ _ _ (by decide) (by decide)⟩

theorem answers_padReleaseGpio (s : State) : answers (exec (.padReleaseGpio 3) s) fun u =>
    u.rd F.PAD_RELEASE_GPIO = 0 ∧ u.rd F.PAD_RELEASE_BUS = s.rd F.PAD_RELEASE_BUS := by
  refine ⟨_, rfl, ?_⟩
  rw [ite_fromM]
  exact ⟨State.rd_wr_same _ _ _ (by decide), State.rd_wr_ne _ _ _ _ (by decide) (by decide)⟩

theorem State.rd_lt (s : State) (f : FRef) : s.rd f < 2 ^ f.w := fget_lt _ _ _

theorem State.rd_wr_addr (s : State) (f g : FRef) (v : Nat) (ha : g.addr ≠ f.addr) : (s.wr f v).rd g = s.rd g := by
  rw [State.rd, State.rd, State.rdw_wr_ne _ _ _ _ ha]

theorem answers_bwWindowEnd (s : State) (p : Fin 48) (rb wb : BitVec 48) : answers (exec (.bwWindowEnd p rb wb) s) fun u =>
    u.rd (F.BW_LASTRp_BYTES p) = rb.toNat ∧ u.rd (F.BW_LASTWp_BYTES p) = wb.toNat
      ∧ u.rd (F.BW_PEAKRp_BYTES p) = max (s.rd (F.BW_PEAKRp_BYTES p)) rb.toNat
      ∧ u.rd (F.BW_PEAKWp_BYTES p) = max (s.rd (F.BW_PEAKWp_BYTES p)) wb.toNat
      ∧ u.rd (F.BW_CTLp_SEQ p) = (s.rd (F.BW_CTLp_SEQ p) + 1) % 2 ^ 32 := by
  have hr := rb.isLt
  have hw := wb.isLt
  have hpr : max (s.rd (F.BW_PEAKRp_BYTES p)) rb.toNat < 2 ^ 48 := max_lt (s.rd_lt _) hr
  have hpw : max (s.rd (F.BW_PEAKWp_BYTES p)) wb.toNat < 2 ^ 48 := max_lt (s.rd_lt _) hw
  refine ⟨_, rfl, ?_⟩
  simp (disch := simp) only [State.inc, State.rd_wr_same, State.rd_wr_addr]
  exact ⟨Nat.mod_eq_of_lt hr, Nat.mod_eq_of_lt hw, Nat.mod_eq_of_lt hpr, Nat.mod_eq_of_lt hpw, trivial⟩

theorem fget_zero (lo n : Nat) : fget 0 lo n = 0 := by simp [fget]

theorem State.peakClear_rd (s : State) (p : Nat) :
    (s.peakClear p).rd (F.BW_PEAKRp_BYTES p) = 0 ∧ (s.peakClear p).rd (F.BW_PEAKWp_BYTES p) = 0 := by
  have apart : A.BW_PEAKRp p ≠ A.BW_PEAKWp p := by
    dsimp only [A.BW_PEAKRp, A.BW_PEAKWp]
    omega
  unfold State.peakClear
  refine ⟨?_, ?_⟩
  · rw [State.rd, State.rdw_wrw_ne _ _ _ _ apart, State.rdw_wrw_same, fget_zero]
  · rw [State.rd, State.rdw_wrw_same, fget_zero]

theorem answers_bwPclr (s : State) (p : Fin 48) : answers (exec (.bwPclr p 3) s) fun u =>
    u.rd (F.BW_PEAKRp_BYTES p) = 0 ∧ u.rd (F.BW_PEAKWp_BYTES p) = 0 := by
  refine ⟨_, rfl, ?_⟩
  rw [ite_fromM]
  exact s.peakClear_rd p

theorem answers_bwWinWrite (s : State) (p : Fin 48) (v : Word) : answers (exec (.bwWinWrite p v 3) s) fun u =>
    bit v 20 = true → u.rd (F.BW_PEAKRp_BYTES p) = 0 ∧ u.rd (F.BW_PEAKWp_BYTES p) = 0 := by
  refine ⟨_, rfl, fun hv => ?_⟩
  rw [ite_fromM, State.bwCtl]
  dsimp only
  rw [if_pos]
  · exact State.peakClear_rd _ p
  · rw [fullMask, BitVec.and_allOnes, hv, Bool.or_true]

/-! ### The dailies -/

theorem SMap.find?_keep_of {α : Type} (p : Nat → α → Bool) (m : SMap α) (a : Nat) (h : ∀ v, p a v = true) :
    SMap.find? (SMap.keep p m) a = SMap.find? m a := by
  induction m with
  | nil => rfl
  | cons c m ih =>
    obtain ⟨k, v⟩ := c
    by_cases hk : a = k
    · subst hk
      simp [SMap.keep, h, SMap.find?]
    · by_cases hp : p k v
      · simpa [SMap.keep, hp, SMap.find?, hk] using ih
      · simpa [SMap.keep, hp, SMap.find?, hk] using ih

theorem State.find?_wrw_ne (s : State) (a b : Nat) (v : Word) (h : b ≠ a) : SMap.find? (s.wrw a v).io b = SMap.find? s.io b := by
  rw [State.wrw_io, SMap.find?_put, if_neg h]

/-- The calendar's discipline touches CAL_NOW and CAL_STAT alone. -/
theorem State.find?_discipline (s : State) (a : Nat) (h1 : a ≠ A.CAL_NOW) (h2 : a ≠ A.CAL_STAT) :
    SMap.find? s.discipline.io a = SMap.find? s.io a := by
  have retrim (u : State) : SMap.find? u.calRetrim.io a = SMap.find? u.io a := u.find?_wrw_ne _ _ _ h2
  have put (u : State) (v : Word) : SMap.find? (u.calPut v).io a = SMap.find? u.io a := by
    unfold State.calPut
    dsimp only [State.wr]
    rw [State.find?_wrw_ne _ _ _ _ h2, State.find?_wrw_ne _ _ _ _ h2, State.find?_wrw_ne _ _ _ _ h1]
    rfl
  unfold State.discipline
  split
  · dsimp only [State.setAon]
    rw [put]
    split
    · exact retrim s
    · rfl
  · rfl

theorem answers_dailiesUpdate (s : State) (hp : s.powered = true) : answers (exec .dailiesUpdate s) fun u =>
    u.rd F.DLY_POWERON_SECONDS = min (s.rd F.DLY_POWERON_SECONDS + 64) (2 ^ 32 - 1)
      ∧ SMap.find? u.aon.array A.DLY_POWERON = some (u.rdw A.DLY_POWERON) := by
  have kept := (s.incSat F.DLY_POWERON_SECONDS 64).find?_discipline A.DLY_POWERON (by decide) (by decide)
  have listed : SMap.find? (s.incSat F.DLY_POWERON_SECONDS 64).io A.DLY_POWERON
      = some ((s.incSat F.DLY_POWERON_SECONDS 64).rdw A.DLY_POWERON) := by
    rw [State.incSat, State.wr, State.rdw_wrw_same, State.wrw_io, SMap.find?_put, if_pos rfl]
  have word : (s.incSat F.DLY_POWERON_SECONDS 64).discipline.rdw A.DLY_POWERON
      = (s.incSat F.DLY_POWERON_SECONDS 64).rdw A.DLY_POWERON := by
    rw [State.rdw, State.rdw, SMap.get, SMap.get, kept]
  refine ⟨_, rfl, ?_⟩
  rw [if_pos hp]
  refine ⟨?_, ?_⟩
  · calc (s.incSat F.DLY_POWERON_SECONDS 64).discipline.rd F.DLY_POWERON_SECONDS
        = (s.incSat F.DLY_POWERON_SECONDS 64).rd F.DLY_POWERON_SECONDS := congrArg (fget · 0 32) word
      _ = min (s.rd F.DLY_POWERON_SECONDS + 64) (2 ^ 32 - 1) := by
        rw [State.incSat, State.rd_wr_same _ _ _ (by decide)]
        exact Nat.mod_eq_of_lt (lt_of_le_of_lt (min_le_right _ _) (by decide))
  · refine (SMap.find?_keep_of (fun a _ => 0xFE0006001000 ≤ a && a < 0xFE0006005000) _ A.DLY_POWERON fun _ => by decide).trans ?_
    rw [kept, listed, ← word]
    rfl

/-- One die's wear of the day, as WEAR_DAY records it. -/
def State.wearOne (s : State) (i : Nat) : State :=
  let u := s.rd (F.DLY_WEARi_UNITS i)
  let h := (u - SMap.get 0 s.aon.wearDay i) :: SMap.get [] s.aon.hist i
  s.setAon { s.aon with hist := SMap.put s.aon.hist i (h.take 30), wearDay := SMap.put s.aon.wearDay i u }

/-- The record of a list of dies, each once: what is recorded of those in it, and nothing changes of the others. -/
theorem State.foldl_wearOne (l : List Nat) (hl : l.Nodup) (s : State) :
    (∀ i ∈ l, SMap.get 0 (l.foldl State.wearOne s).aon.wearDay i = s.rd (F.DLY_WEARi_UNITS i)
      ∧ ∃ h, SMap.get [] (l.foldl State.wearOne s).aon.hist i = (s.rd (F.DLY_WEARi_UNITS i) - SMap.get 0 s.aon.wearDay i) :: h)
    ∧ ∀ i ∉ l, SMap.get 0 (l.foldl State.wearOne s).aon.wearDay i = SMap.get 0 s.aon.wearDay i
      ∧ SMap.get [] (l.foldl State.wearOne s).aon.hist i = SMap.get [] s.aon.hist i := by
  induction l generalizing s with
  | nil => simp
  | cons a l ih =>
    obtain ⟨hal, hl⟩ := List.nodup_cons.mp hl
    obtain ⟨inside, outside⟩ := ih hl (s.wearOne a)
    have units (i) : (s.wearOne a).rd (F.DLY_WEARi_UNITS i) = s.rd (F.DLY_WEARi_UNITS i) := rfl
    have day : SMap.get 0 (s.wearOne a).aon.wearDay a = s.rd (F.DLY_WEARi_UNITS a) := SMap.get_put_same _ _ _ _
    have hist : SMap.get [] (s.wearOne a).aon.hist a
        = (s.rd (F.DLY_WEARi_UNITS a) - SMap.get 0 s.aon.wearDay a) :: (SMap.get [] s.aon.hist a).take 29 :=
      SMap.get_put_same _ _ _ _
    have day_ne (i) (hi : i ≠ a) : SMap.get 0 (s.wearOne a).aon.wearDay i = SMap.get 0 s.aon.wearDay i :=
      SMap.get_put_ne _ _ _ _ _ hi
    have hist_ne (i) (hi : i ≠ a) : SMap.get [] (s.wearOne a).aon.hist i = SMap.get [] s.aon.hist i :=
      SMap.get_put_ne _ _ _ _ _ hi
    rw [List.foldl_cons]
    refine ⟨fun i hi => ?_, fun i hi => ?_⟩
    · rcases List.mem_cons.mp hi with rfl | hi
      · rw [(outside i hal).1, (outside i hal).2]
        exact ⟨day, _, hist⟩
      · have hia : i ≠ a := fun h => hal (h ▸ hi)
        rw [← units, ← day_ne i hia]
        exact inside i hi
    · obtain ⟨hia, hi⟩ := not_or.mp (mt List.mem_cons.mpr hi)
      rw [(outside i hi).1, (outside i hi).2]
      exact ⟨day_ne i hia, hist_ne i hia⟩

theorem answers_wearDay (s : State) : answers (exec .wearDay s) fun u => ∀ i, i < 13 →
    SMap.get 0 u.aon.wearDay i = s.rd (F.DLY_WEARi_UNITS i)
      ∧ ∃ h, SMap.get [] u.aon.hist i = (s.rd (F.DLY_WEARi_UNITS i) - SMap.get 0 s.aon.wearDay i) :: h := by
  refine ⟨_, rfl, fun i hi => ?_⟩
  have recorded := (s.foldl_wearOne (List.range 13) List.nodup_range).1 i (List.mem_range.mpr hi)
  generalize hw : List.foldl _ s (List.range 13) = w
  rw [show (List.range 13).foldl State.wearOne s = w from hw] at recorded
  split <;> exact recorded

/-- Settles O44: each clause is the lemma above of its command. -/
theorem wellAndRegisters : Obligations.WellAndRegisters := by
  intro s d p rb wb o n v
  exact ⟨fun lvl hl => exec_below s d p v lvl hl, answers_thrPcWrite s d o n v,
    fun a h => execRegisterWrite_misaligned s a n v 3 h, answers_pkgRst s v, answers_calSet s v, exec_calSet_settled s v,
    answers_calAlarmFire s, answers_padReleaseBus s, answers_padReleaseGpio s, answers_dailiesUpdate s, answers_wearDay s,
    answers_bwWindowEnd s p rb wb, answers_bwPclr s p, answers_bwWinWrite s p v⟩

end Sys2Proof.Machine
end

section
/-!
RESET.
-/
namespace Sys2Proof.Machine

set_option Elab.async false

/-- Settles O58: no list of the reset state has an entry, so every register and thread reads as its reset value. -/
theorem resetState : Obligations.ResetState := by
  refine ⟨⟨rfl, rfl⟩, rfl, rfl, ?_, fun _ => rfl, fun t => ⟨rfl, rfl, ?_, fun r => ?_, fun _ => rfl, fun _ => rfl, rfl, rfl, rfl, rfl⟩,
    rfl, rfl, rfl, ?_, ?_, ?_, ?_⟩
  · decide +kernel
  · show fget (Thread.reset.c 0) 0 2 = 3
    decide
  · show Thread.reset.gr r = 0
    unfold Thread.gr
    split <;> rfl
  · decide +kernel
  · decide +kernel
  · decide +kernel
  · decide +kernel

end Sys2Proof.Machine
end

section
/-!
REPEATED WORDS. The fields of an instruction word (R77) and the reading of the word after REP: a word is put together again from its
fields, and the fields of an encoding are the operands it was made of.
-/
namespace Sys2Proof.Machine

set_option Elab.async false

/-! The fields of format RI, of which the other formats cut the low sixteen bits. -/

theorem toNat_encRI {op imm : Nat} (d a : Rn) (hop : op < 64) (him : imm < 2 ^ 16) :
    (encRI op d a imm).toNat = op * 2 ^ 26 + d.val * 2 ^ 21 + a.val * 2 ^ 16 + imm := by
  have hd := d.isLt
  have ha := a.isLt
  rw [encRI, BitVec.toNat_ofNat]
  omega

theorem wf_encRI_op {op imm : Nat} (d a : Rn) (hop : op < 64) (him : imm < 2 ^ 16) : wf (encRI op d a imm) 26 6 = op := by
  have hd := d.isLt
  have ha := a.isLt
  rw [wf, toNat_encRI d a hop him]
  omega

theorem wr5_encRI_d {op imm : Nat} (d a : Rn) (hop : op < 64) (him : imm < 2 ^ 16) : wr5 (encRI op d a imm) 21 = d := by
  have hd := d.isLt
  have ha := a.isLt
  rw [wr5, wf, toNat_encRI d a hop him]
  apply Fin.ext
  rw [Fin.val_ofNat]
  omega

theorem wr5_encRI_a {op imm : Nat} (d a : Rn) (hop : op < 64) (him : imm < 2 ^ 16) : wr5 (encRI op d a imm) 16 = a := by
  have hd := d.isLt
  have ha := a.isLt
  rw [wr5, wf, toNat_encRI d a hop him]
  apply Fin.ext
  rw [Fin.val_ofNat]
  omega

theorem wf_encRI_low {op imm : Nat} (d a : Rn) (hop : op < 64) (him : imm < 2 ^ 16) (lo n : Nat) (h : lo + n ≤ 16) :
    wf (encRI op d a imm) lo n = imm / 2 ^ lo % 2 ^ n := by
  rw [wf, toNat_encRI d a hop him,
    show op * 2 ^ 26 + d.val * 2 ^ 21 + a.val * 2 ^ 16 + imm = imm + 2 ^ lo * (2 ^ n * (2 ^ (16 - (lo + n)) * (op * 2 ^ 10 + d.val * 2 ^ 5 + a.val))) by
      rw [← Nat.mul_assoc (2 ^ n), ← Nat.pow_add, ← Nat.mul_assoc (2 ^ lo), ← Nat.pow_add, show lo + (n + (16 - (lo + n))) = 16 by omega]
      ring,
    Nat.add_mul_div_left _ _ (Nat.two_pow_pos lo), Nat.add_mul_mod_self_left]

/-- A word is what its fields make in format RI. -/
theorem encRI_fields (w : BitVec 32) : encRI (wf w 26 6) (wr5 w 21) (wr5 w 16) (wf w 0 16) = w := by
  apply BitVec.eq_of_toNat_eq
  have hw := w.isLt
  rw [toNat_encRI _ _ (by unfold wf; omega) (by unfold wf; omega)]
  simp only [wr5, wf, Fin.val_ofNat]
  omega

/-- A field of the word is its two parts. -/
theorem wf_split (w : BitVec 32) (k m : Nat) : wf w 0 (k + m) = wf w k m * 2 ^ k + wf w 0 k := by
  simp only [wf, pow_zero, Nat.div_one, Nat.pow_add, Nat.mod_mul]
  ring

/-! Reading a word: what it spells has that word as its encoding. -/

theorem encode_of_decInt {t : Tid} {d a b : Rn} {fn : Nat} {i : Instr} (h : decInt t d a b fn = some i) :
    encode i = encInt d a b fn := by
  unfold decInt at h
  split at h <;> simp only [Option.ite_none_right_eq_some, Option.some.injEq, reduceCtorEq] at h
  all_goals (obtain ⟨rfl, rfl⟩ := h; rfl)

theorem encode_of_decFp {t : Tid} {w : Bool} {d a b : Rn} {fn : Nat} {i : Instr} (h : decFp t w d a b fn = some i) :
    encode i = encFp w d a b fn := by
  unfold decFp at h
  split at h <;> simp only [Option.ite_none_right_eq_some, Option.some.injEq, reduceCtorEq] at h
  all_goals (obtain ⟨rfl, rfl⟩ := h; rfl)

theorem encode_decShift (t : Tid) (d a : Rn) (sh : BitVec 6) {k : Nat} (hk : k < 4) :
    encode (decShift t d a k sh) = encSH d a k sh.toNat := by
  interval_cases k <;> rfl

theorem encode_decFma (t : Tid) (w : Bool) (d a b c : Rn) {k : Nat} (hk : k < 4) :
    encode (decFma t w d a b c k) = encFma w d a b c k := by
  interval_cases k <;> rfl

/-! The fields of each format, put together again. -/

theorem wf_lt (w : BitVec 32) (lo n : Nat) : wf w lo n < 2 ^ n := Nat.mod_lt _ (Nat.two_pow_pos n)

theorem val_wr5 (w : BitVec 32) (lo : Nat) : (wr5 w lo).val = wf w lo 5 := Nat.mod_eq_of_lt (wf_lt w lo 5)

theorem b2n_wf (w : BitVec 32) (lo : Nat) : b2n (wf w lo 1 == 1) = wf w lo 1 := by
  have h := wf_lt w lo 1
  interval_cases wf w lo 1 <;> rfl

theorem toNat_ofNat_wf (w : BitVec 32) (n : Nat) : (BitVec.ofNat n (wf w 0 n)).toNat = wf w 0 n := by
  rw [BitVec.toNat_ofNat, Nat.mod_eq_of_lt (wf_lt w 0 n)]

/-- A word with a given OP is format RI of its fields. -/
theorem eq_encRI {w : BitVec 32} {op : Nat} (h : wf w 26 6 = op) : encRI op (wr5 w 21) (wr5 w 16) (wf w 0 16) = w := by
  rw [← h, encRI_fields]

theorem eq_encRI_imm {w : BitVec 32} {op : Nat} (h : wf w 26 6 = op) :
    encRI op (wr5 w 21) (wr5 w 16) (BitVec.ofNat 16 (wf w 0 16)).toNat = w := by
  rw [toNat_ofNat_wf, eq_encRI h]

/-- LUI and SHORI, whose field A is 0. -/
theorem eq_encRI_upper {w : BitVec 32} {op : Nat} (h : wf w 26 6 = op) (ha : wr5 w 16 = 0) :
    encRI op (wr5 w 21) 0 (BitVec.ofNat 16 (wf w 0 16)).toNat = w := by
  have hw := eq_encRI_imm h
  rwa [ha] at hw

theorem eq_encInt {w : BitVec 32} (h : wf w 26 6 = 0x02) : encInt (wr5 w 21) (wr5 w 16) (wr5 w 11) (wf w 0 11) = w := by
  rw [encInt, val_wr5 w 11, ← wf_split w 11 5, eq_encRI h]

theorem eq_encFp {w : BitVec 32} (h : wf w 26 6 = 0x03) :
    encFp (wf w 10 1 == 1) (wr5 w 21) (wr5 w 16) (wr5 w 11) (wf w 0 10) = w := by
  rw [encFp, b2n_wf, val_wr5 w 11, Nat.add_assoc, ← wf_split w 10 1, ← wf_split w 11 5, eq_encRI h]

theorem eq_encSH {w : BitVec 32} (h : wf w 26 6 = 0x0D) (h0 : wf w 6 8 = 0) :
    encSH (wr5 w 21) (wr5 w 16) (wf w 14 2) (wf w 0 6) = w := by
  rw [encSH, show wf w 0 6 = wf w 0 14 by rw [wf_split w 6 8, h0]; omega, ← wf_split w 14 2, eq_encRI h]

theorem eq_encFma {w : BitVec 32} (h : wf w 26 6 = 0x0E) (h0 : wf w 0 3 = 0) :
    encFma (wf w 3 1 == 1) (wr5 w 21) (wr5 w 16) (wr5 w 11) (wr5 w 6) (wf w 4 2) = w := by
  have hl : wf w 3 1 * 2 ^ 3 = wf w 0 4 := by rw [wf_split w 3 1, h0, Nat.add_zero]
  rw [encFma, b2n_wf, val_wr5 w 11, val_wr5 w 6, hl, Nat.add_assoc, ← wf_split w 4 2, Nat.add_assoc, ← wf_split w 6 5,
    ← wf_split w 11 5, eq_encRI h]

theorem eq_encMx {w : BitVec 32} {op : Nat} (h : wf w 26 6 = op) :
    encMx op (wr5 w 21) (wr5 w 16) (Fin.ofNat 16 (wf w 12 4) : Fin 16) (wf w 11 1 == 1) (Fin.ofNat 8 (wf w 8 3) : Fin 8)
      (BitVec.ofNat 8 (wf w 0 8)).toNat = w := by
  have hk : (Fin.ofNat 16 (wf w 12 4) : Fin 16).val = wf w 12 4 := Nat.mod_eq_of_lt (wf_lt w 12 4)
  have hm : (Fin.ofNat 8 (wf w 8 3) : Fin 8).val = wf w 8 3 := Nat.mod_eq_of_lt (wf_lt w 8 3)
  rw [encMx, b2n_wf, toNat_ofNat_wf, hk, hm, Nat.add_assoc, ← wf_split w 8 3, Nat.add_assoc, ← wf_split w 11 1,
    ← wf_split w 12 4, eq_encRI h]

theorem toNat_encode_udi (t : Tid) (e : Fin 64) (a b c d : Rn) : (encode (.udi t e a b c d)).toNat
    = 0x3B * 2 ^ 26 + e.val * 2 ^ 20 + a.val * 2 ^ 15 + b.val * 2 ^ 10 + c.val * 2 ^ 5 + d.val := by
  show (BitVec.ofNat 32 _).toNat = _
  rw [BitVec.toNat_ofNat]
  omega

theorem eq_encode_udi (t : Tid) {w : BitVec 32} (h : wf w 26 6 = 0x3B) :
    encode (.udi t (Fin.ofNat 64 (wf w 20 6)) (wr5 w 15) (wr5 w 10) (wr5 w 5) (wr5 w 0)) = w := by
  apply BitVec.eq_of_toNat_eq
  have hw := w.isLt
  simp only [toNat_encode_udi, wr5, Fin.val_ofNat]
  unfold wf at *
  omega

/-- A word that the reading after REP gives an instruction for is that instruction's encoding, and no reserved one. -/
theorem decodeRep_sound {t : Tid} {w : BitVec 32} {i : Instr} (h : decodeRep t w = some i) :
    encode i = w ∧ reservedEnc i = false := by
  unfold decodeRep at h
  dsimp only at h
  split at h
  case h_2 => simp at h
  rename_i j hj
  simp only [Option.ite_none_left_eq_some, Bool.not_eq_true, Option.some.injEq] at h
  obtain ⟨hres, rfl⟩ := h
  refine ⟨?_, hres⟩
  split at hj <;> rename_i hop
  · rw [encode_of_decInt hj, eq_encInt hop]
  · rw [encode_of_decFp hj, eq_encFp hop]
  iterate 6
    · exact Option.some.inj hj ▸ eq_encRI_imm hop
  iterate 2
    · obtain ⟨ha, hi⟩ := Option.ite_none_right_eq_some.mp hj
      exact Option.some.inj hi ▸ eq_encRI_upper hop ha
  · obtain ⟨h0, hi⟩ := Option.ite_none_right_eq_some.mp hj
    rw [← Option.some.inj hi, encode_decShift _ _ _ _ (wf_lt w 14 2), toNat_ofNat_wf, eq_encSH hop h0]
  · obtain ⟨h0, hi⟩ := Option.ite_none_right_eq_some.mp hj
    rw [← Option.some.inj hi, encode_decFma _ _ _ _ _ _ (wf_lt w 4 2), eq_encFma hop h0]
  iterate 2
    · obtain ⟨_, hi⟩ := Option.ite_none_left_eq_some.mp hj
      exact Option.some.inj hi ▸ eq_encMx hop
  · exact Option.some.inj hj ▸ eq_encode_udi t hop
  · cases hj

/-! Reading back an encoding. -/

theorem wr5_encRI_low {op imm : Nat} (d a : Rn) (hop : op < 64) (him : imm < 2 ^ 16) (lo : Nat) (h : lo + 5 ≤ 16) (r : Rn)
    (hr : imm / 2 ^ lo % 2 ^ 5 = r.val) : wr5 (encRI op d a imm) lo = r := by
  rw [wr5, wf_encRI_low d a hop him lo 5 h, hr]
  exact Fin.ofNat_val_eq_self r

/-! What each OP is read as. -/

section
variable {t : Tid} {w : BitVec 32} {i : Instr}

theorem decodeRep_int (h : wf w 26 6 = 0x02) (hi : decInt t (wr5 w 21) (wr5 w 16) (wr5 w 11) (wf w 0 11) = some i)
    (hr : reservedEnc i = false) : decodeRep t w = some i := by
  unfold decodeRep
  simp only [h, hi, hr, Bool.false_eq_true, if_false]

theorem decodeRep_fp (h : wf w 26 6 = 0x03)
    (hi : decFp t (wf w 10 1 == 1) (wr5 w 21) (wr5 w 16) (wr5 w 11) (wf w 0 10) = some i)
    (hr : reservedEnc i = false) : decodeRep t w = some i := by
  unfold decodeRep
  simp only [h, hi, hr, Bool.false_eq_true, if_false]

theorem decodeRep_shift (h : wf w 26 6 = 0x0D) (h0 : wf w 6 8 = 0)
    (hi : decShift t (wr5 w 21) (wr5 w 16) (wf w 14 2) (BitVec.ofNat 6 (wf w 0 6)) = i)
    (hr : reservedEnc i = false) : decodeRep t w = some i := by
  unfold decodeRep
  simp only [h, h0, hi, hr, Bool.false_eq_true, if_false, if_true]

theorem decodeRep_fma (h : wf w 26 6 = 0x0E) (h0 : wf w 0 3 = 0)
    (hi : decFma t (wf w 3 1 == 1) (wr5 w 21) (wr5 w 16) (wr5 w 11) (wr5 w 6) (wf w 4 2) = i)
    (hr : reservedEnc i = false) : decodeRep t w = some i := by
  unfold decodeRep
  simp only [h, h0, hi, hr, Bool.false_eq_true, if_false, if_true]

theorem decodeRep_loadx {d a : Rn} {k : Fin 16} {o : Bool} {m : Fin 8} {f : BitVec 8} (h : wf w 26 6 = 0x22) (hd : wr5 w 21 = d)
    (ha : wr5 w 16 = a) (hk : Fin.ofNat 16 (wf w 12 4) = k) (ho : (wf w 11 1 == 1) = o) (hm : Fin.ofNat 8 (wf w 8 3) = m)
    (hf : BitVec.ofNat 8 (wf w 0 8) = f) (hr : reservedEnc (.loadx t d a k o m f) = false) :
    decodeRep t w = if m = 0 then none else some (.loadx t d a k o m f) := by
  unfold decodeRep
  simp only [h, hd, ha, hk, ho, hm, hf]
  by_cases h0 : m = 0
  · simp only [h0, if_true]
  · simp only [h0, if_false, hr, Bool.false_eq_true]

theorem decodeRep_storex {d a : Rn} {k : Fin 16} {o : Bool} {m : Fin 8} {f : BitVec 8} (h : wf w 26 6 = 0x23) (hd : wr5 w 21 = d)
    (ha : wr5 w 16 = a) (hk : Fin.ofNat 16 (wf w 12 4) = k) (ho : (wf w 11 1 == 1) = o) (hm : Fin.ofNat 8 (wf w 8 3) = m)
    (hf : BitVec.ofNat 8 (wf w 0 8) = f) (hr : reservedEnc (.storex t d a k o m f) = false) :
    decodeRep t w = if m = 0 then none else some (.storex t d a k o m f) := by
  unfold decodeRep
  simp only [h, hd, ha, hk, ho, hm, hf]
  by_cases h0 : m = 0
  · simp only [h0, if_true]
  · simp only [h0, if_false, hr, Bool.false_eq_true]

theorem decodeRep_udi {e : Fin 64} {a b c d : Rn} (h : wf w 26 6 = 0x3B) (he : Fin.ofNat 64 (wf w 20 6) = e) (ha : wr5 w 15 = a)
    (hb : wr5 w 10 = b) (hc : wr5 w 5 = c) (hd : wr5 w 0 = d) : decodeRep t w = some (.udi t e a b c d) := by
  unfold decodeRep
  simp only [h, he, ha, hb, hc, hd]
  rfl

end

/-! Reading back the encodings of each format. -/

theorem decodeRep_encInt {t : Tid} {d a b : Rn} {fn : Nat} {i : Instr} (hfn : fn < 2 ^ 11) (hi : decInt t d a b fn = some i)
    (hr : reservedEnc i = false) : decodeRep t (encInt d a b fn) = some i := by
  have hb := b.isLt
  have him : b.val * 2 ^ 11 + fn < 2 ^ 16 := by omega
  refine decodeRep_int (wf_encRI_op d a (by decide) him) ?_ hr
  rw [encInt, wr5_encRI_d d a (by decide) him, wr5_encRI_a d a (by decide) him, wr5_encRI_low d a (by decide) him 11 (by decide) b (by omega),
    wf_encRI_low d a (by decide) him 0 11 (by decide), show (b.val * 2 ^ 11 + fn) / 2 ^ 0 % 2 ^ 11 = fn by omega, hi]

theorem b2n_eq_one (w : Bool) : (b2n w == 1) = w := by cases w <;> rfl

theorem b2n_le (w : Bool) : b2n w ≤ 1 := by cases w <;> decide

theorem decodeRep_encFp {t : Tid} {w : Bool} {d a b : Rn} {fn : Nat} {i : Instr} (hfn : fn < 2 ^ 10) (hi : decFp t w d a b fn = some i)
    (hr : reservedEnc i = false) : decodeRep t (encFp w d a b fn) = some i := by
  have hb := b.isLt
  have hw := b2n_le w
  have him : b.val * 2 ^ 11 + b2n w * 2 ^ 10 + fn < 2 ^ 16 := by omega
  refine decodeRep_fp (wf_encRI_op d a (by decide) him) ?_ hr
  rw [encFp, wr5_encRI_d d a (by decide) him, wr5_encRI_a d a (by decide) him, wr5_encRI_low d a (by decide) him 11 (by decide) b (by omega),
    wf_encRI_low d a (by decide) him 10 1 (by decide), wf_encRI_low d a (by decide) him 0 10 (by decide),
    show (b.val * 2 ^ 11 + b2n w * 2 ^ 10 + fn) / 2 ^ 10 % 2 ^ 1 = b2n w by omega,
    show (b.val * 2 ^ 11 + b2n w * 2 ^ 10 + fn) / 2 ^ 0 % 2 ^ 10 = fn by omega, b2n_eq_one, hi]

theorem decodeRep_encSH {t : Tid} {d a : Rn} {k : Nat} {n : BitVec 6} {i : Instr} (hk : k < 4) (hi : decShift t d a k n = i)
    (hr : reservedEnc i = false) : decodeRep t (encSH d a k n.toNat) = some i := by
  have hn := n.isLt
  have him : k * 2 ^ 14 + n.toNat < 2 ^ 16 := by omega
  refine decodeRep_shift (wf_encRI_op d a (by decide) him) ?_ ?_ hr
  · rw [encSH, wf_encRI_low d a (by decide) him 6 8 (by decide)]
    omega
  · rw [encSH, wr5_encRI_d d a (by decide) him, wr5_encRI_a d a (by decide) him, wf_encRI_low d a (by decide) him 14 2 (by decide),
      wf_encRI_low d a (by decide) him 0 6 (by decide), show (k * 2 ^ 14 + n.toNat) / 2 ^ 14 % 2 ^ 2 = k by omega,
      show (k * 2 ^ 14 + n.toNat) / 2 ^ 0 % 2 ^ 6 = n.toNat by omega, BitVec.ofNat_toNat, BitVec.setWidth_eq, hi]

theorem decodeRep_encFma {t : Tid} {w : Bool} {d a b c : Rn} {k : Nat} {i : Instr} (hk : k < 4) (hi : decFma t w d a b c k = i)
    (hr : reservedEnc i = false) : decodeRep t (encFma w d a b c k) = some i := by
  have hb := b.isLt
  have hc := c.isLt
  have hw := b2n_le w
  have him : b.val * 2 ^ 11 + c.val * 2 ^ 6 + k * 2 ^ 4 + b2n w * 2 ^ 3 < 2 ^ 16 := by omega
  refine decodeRep_fma (wf_encRI_op d a (by decide) him) ?_ ?_ hr
  · rw [encFma, wf_encRI_low d a (by decide) him 0 3 (by decide)]
    omega
  · rw [encFma, wr5_encRI_d d a (by decide) him, wr5_encRI_a d a (by decide) him, wr5_encRI_low d a (by decide) him 11 (by decide) b (by omega),
      wr5_encRI_low d a (by decide) him 6 (by decide) c (by omega), wf_encRI_low d a (by decide) him 3 1 (by decide),
      wf_encRI_low d a (by decide) him 4 2 (by decide),
      show (b.val * 2 ^ 11 + c.val * 2 ^ 6 + k * 2 ^ 4 + b2n w * 2 ^ 3) / 2 ^ 3 % 2 ^ 1 = b2n w by omega,
      show (b.val * 2 ^ 11 + c.val * 2 ^ 6 + k * 2 ^ 4 + b2n w * 2 ^ 3) / 2 ^ 4 % 2 ^ 2 = k by omega, b2n_eq_one, hi]

/-- The fields of an immediate form. -/
theorem fields_encRI_imm {op : Nat} (hop : op < 64) (d a : Rn) (im : BitVec 16) :
    wf (encRI op d a im.toNat) 26 6 = op ∧ wr5 (encRI op d a im.toNat) 21 = d ∧ wr5 (encRI op d a im.toNat) 16 = a
      ∧ BitVec.ofNat 16 (wf (encRI op d a im.toNat) 0 16) = im := by
  refine ⟨wf_encRI_op d a hop im.isLt, wr5_encRI_d d a hop im.isLt, wr5_encRI_a d a hop im.isLt, ?_⟩
  rw [wf_encRI_low d a hop im.isLt 0 16 (by decide), pow_zero, Nat.div_one, Nat.mod_eq_of_lt im.isLt, BitVec.ofNat_toNat, BitVec.setWidth_eq]

/-- An immediate form is read back when its OP is read as that form of the fields. -/
theorem decodeRep_encRI_imm {t : Tid} {op : Nat} {d a : Rn} {im : BitVec 16} (form : Rn → Rn → BitVec 16 → Instr) (hop : op < 64)
    (hread : ∀ w : BitVec 32, wf w 26 6 = op → wr5 w 16 = a →
      decodeRep t w = some (form (wr5 w 21) (wr5 w 16) (BitVec.ofNat 16 (wf w 0 16)))) :
    decodeRep t (encRI op d a im.toNat) = some (form d a im) := by
  obtain ⟨h26, hd, ha, hi⟩ := fields_encRI_imm hop d a im
  rw [hread _ h26 ha, hd, ha, hi]

theorem decodeRep_immediates (t : Tid) (d a : Rn) (im : BitVec 16) :
    ∀ i ∈ [Instr.addi t d a im, .andi t d a im, .ori t d a im, .xori t d a im, .slti t d a im, .sltui t d a im],
      decodeRep t (encode i) = some i := by
  simp only [List.forall_mem_cons, List.not_mem_nil, false_imp_iff, implies_true, and_true]
  refine ⟨decodeRep_encRI_imm (op := 0x04) (.addi t) (by decide) ?_, decodeRep_encRI_imm (op := 0x05) (.andi t) (by decide) ?_,
    decodeRep_encRI_imm (op := 0x06) (.ori t) (by decide) ?_, decodeRep_encRI_imm (op := 0x07) (.xori t) (by decide) ?_,
    decodeRep_encRI_imm (op := 0x08) (.slti t) (by decide) ?_, decodeRep_encRI_imm (op := 0x09) (.sltui t) (by decide) ?_⟩
  all_goals
    intro w h _
    unfold decodeRep
    simp only [h]
    rfl

theorem decodeRep_uppers (t : Tid) (d : Rn) (im : BitVec 16) :
    ∀ i ∈ [Instr.lui t d im, .shori t d im], decodeRep t (encode i) = some i := by
  simp only [List.forall_mem_cons, List.not_mem_nil, false_imp_iff, implies_true, and_true]
  refine ⟨decodeRep_encRI_imm (op := 0x0A) (a := 0) (fun d _ => .lui t d) (by decide) ?_,
    decodeRep_encRI_imm (op := 0x0B) (a := 0) (fun d _ => .shori t d) (by decide) ?_⟩
  all_goals
    intro w h ha
    unfold decodeRep
    simp only [h, ha]
    rfl

theorem decodeRep_shifts (t : Tid) (d a : Rn) (n : BitVec 6) :
    ∀ i ∈ [Instr.slli t d a n, .srli t d a n, .srai t d a n, .rori t d a n], decodeRep t (encode i) = some i := by
  simp only [List.forall_mem_cons, List.not_mem_nil, false_imp_iff, implies_true, and_true]
  refine ⟨?_, ?_, ?_, ?_⟩ <;> exact decodeRep_encSH (by decide) rfl rfl

theorem decodeRep_integers (t : Tid) (d a b : Rn) :
    ∀ i ∈ [Instr.add t d a b, .sub t d a b, .and t d a b, .or t d a b, .xor t d a b, .andn t d a b, .orn t d a b,
      .slt t d a b, .sltu t d a b, .min t d a b, .max t d a b, .minu t d a b, .maxu t d a b, .sll t d a b,
      .srl t d a b, .sra t d a b, .ror t d a b, .mul t d a b, .mulh t d a b, .mulhu t d a b, .div t d a b,
      .divu t d a b, .rem t d a b, .remu t d a b], decodeRep t (encode i) = some i := by
  simp only [List.forall_mem_cons, List.not_mem_nil, false_imp_iff, implies_true, and_true]
  repeat' apply And.intro
  all_goals exact decodeRep_encInt (by decide) rfl rfl

theorem decodeRep_unaries (t : Tid) (d a : Rn) :
    ∀ i ∈ [Instr.clz t d a, .ctz t d a, .popc t d a, .bswap t d a, .sextb t d a, .sexth t d a, .sextw t d a, .zextw t d a],
      decodeRep t (encode i) = some i := by
  simp only [List.forall_mem_cons, List.not_mem_nil, false_imp_iff, implies_true, and_true]
  repeat' apply And.intro
  all_goals exact decodeRep_encInt (b := 0) (by decide) rfl rfl

theorem decodeRep_floats (t : Tid) (w : Bool) (d a b : Rn) :
    ∀ i ∈ [Instr.fadd t w d a b, .fsub t w d a b, .fmul t w d a b, .fdiv t w d a b, .fmin t w d a b, .fmax t w d a b,
      .feq t w d a b, .flt t w d a b, .fle t w d a b], decodeRep t (encode i) = some i := by
  simp only [List.forall_mem_cons, List.not_mem_nil, false_imp_iff, implies_true, and_true]
  repeat' apply And.intro
  all_goals exact decodeRep_encFp (by decide) rfl rfl

theorem decodeRep_float_unaries (t : Tid) (w : Bool) (d a : Rn) :
    ∀ i ∈ [Instr.fsqrt t w d a, .fneg t w d a, .fabs t w d a, .fmov t w d a, .fclass t w d a, .fcvti t w d a,
      .fcvtiu t w d a, .fcvtf t w d a, .fcvtfu t w d a, .fcvtx t w d a, .fmvg t w d a, .fmvf t w d a], decodeRep t (encode i) = some i := by
  simp only [List.forall_mem_cons, List.not_mem_nil, false_imp_iff, implies_true, and_true]
  repeat' apply And.intro
  all_goals exact decodeRep_encFp (b := 0) (by decide) rfl rfl

theorem decodeRep_fmas (t : Tid) (w : Bool) (d a b c : Rn) :
    ∀ i ∈ [Instr.fmadd t w d a b c, .fmsub t w d a b c, .fnmsub t w d a b c, .fnmadd t w d a b c], decodeRep t (encode i) = some i := by
  simp only [List.forall_mem_cons, List.not_mem_nil, false_imp_iff, implies_true, and_true]
  refine ⟨?_, ?_, ?_, ?_⟩ <;> exact decodeRep_encFma (by decide) rfl rfl

/-- The fields of format MX. -/
theorem fields_encMx {op : Nat} (hop : op < 64) (d a : Rn) (k : Fin 16) (o : Bool) (m : Fin 8) (f : BitVec 8) :
    let w := encMx op d a k o m f.toNat
    wf w 26 6 = op ∧ wr5 w 21 = d ∧ wr5 w 16 = a ∧ Fin.ofNat 16 (wf w 12 4) = k ∧ (wf w 11 1 == 1) = o ∧ Fin.ofNat 8 (wf w 8 3) = m
      ∧ BitVec.ofNat 8 (wf w 0 8) = f := by
  have hk := k.isLt
  have hm := m.isLt
  have hf := f.isLt
  have ho := b2n_le o
  have him : k.val * 2 ^ 12 + b2n o * 2 ^ 11 + m.val * 2 ^ 8 + f.toNat < 2 ^ 16 := by omega
  dsimp only [encMx]
  refine ⟨wf_encRI_op d a hop him, wr5_encRI_d d a hop him, wr5_encRI_a d a hop him, ?_, ?_, ?_, ?_⟩
  · rw [wf_encRI_low d a hop him 12 4 (by decide)]
    exact Fin.ext (by rw [Fin.val_ofNat]; omega)
  · rw [wf_encRI_low d a hop him 11 1 (by decide),
      show (k.val * 2 ^ 12 + b2n o * 2 ^ 11 + m.val * 2 ^ 8 + f.toNat) / 2 ^ 11 % 2 ^ 1 = b2n o by omega, b2n_eq_one]
  · rw [wf_encRI_low d a hop him 8 3 (by decide)]
    exact Fin.ext (by rw [Fin.val_ofNat]; omega)
  · rw [wf_encRI_low d a hop him 0 8 (by decide)]
    exact BitVec.eq_of_toNat_eq (by rw [BitVec.toNat_ofNat]; omega)

theorem decodeRep_loadx_storex (t : Tid) (d a : Rn) (k : Fin 16) (o : Bool) (m : Fin 8) (f : BitVec 8) :
    ∀ i ∈ [Instr.loadx t d a k o m f, .storex t d a k o m f], reservedEnc i = false →
      decodeRep t (encode i) = if m = 0 then none else some i := by
  simp only [List.forall_mem_cons, List.not_mem_nil, false_imp_iff, implies_true, and_true]
  constructor
  · intro hr
    obtain ⟨h26, hd, ha, hk, ho, hm, hf⟩ := fields_encMx (op := 0x22) (by decide) d a k o m f
    exact decodeRep_loadx h26 hd ha hk ho hm hf hr
  · intro hr
    obtain ⟨h26, hd, ha, hk, ho, hm, hf⟩ := fields_encMx (op := 0x23) (by decide) d a k o m f
    exact decodeRep_storex h26 hd ha hk ho hm hf hr

theorem decodeRep_encode_udi (t : Tid) (e : Fin 64) (a b c d : Rn) :
    decodeRep t (encode (.udi t e a b c d)) = some (.udi t e a b c d) := by
  have he := e.isLt
  have ha := a.isLt
  have hb := b.isLt
  have hc := c.isLt
  have hd := d.isLt
  have field (lo n : Nat) : wf (encode (.udi t e a b c d)) lo n
      = (0x3B * 2 ^ 26 + e.val * 2 ^ 20 + a.val * 2 ^ 15 + b.val * 2 ^ 10 + c.val * 2 ^ 5 + d.val) / 2 ^ lo % 2 ^ n := by
    rw [wf, toNat_encode_udi]
  have reg (lo : Nat) (r : Rn) (h : wf (encode (.udi t e a b c d)) lo 5 = r.val) : wr5 (encode (.udi t e a b c d)) lo = r :=
    (congrArg _ h).trans (Fin.ofNat_val_eq_self r)
  refine decodeRep_udi ?_ (Fin.ext ?_) (reg 15 a ?_) (reg 10 b ?_) (reg 5 c ?_) (reg 0 d ?_)
  case refine_2 => rw [field, Fin.val_ofNat]; omega
  all_goals rw [field]; omega

/-- Settles O60: a word read after REP is put together again from its fields, and each format's fields are read back one by one. -/
theorem repeatWords : Obligations.RepeatWords :=
  ⟨fun _ _ _ => decodeRep_sound,
    fun t d a b c im n w => ⟨decodeRep_immediates t d a im, decodeRep_uppers t d im, decodeRep_shifts t d a n, decodeRep_integers t d a b,
      decodeRep_unaries t d a, decodeRep_floats t w d a b, decodeRep_float_unaries t w d a, decodeRep_fmas t w d a b c⟩,
    fun t d a b c k o m f e => ⟨decodeRep_loadx_storex t d a k o m f, decodeRep_encode_udi t e d a b c⟩⟩

end Sys2Proof.Machine
end

section
/-!
HOW AN INSTRUCTION ENDS. A relation between the state in which a thread issues an instruction and the state after it, in which nothing
but that thread has changed; what each kind of end makes of it.
-/
namespace Sys2Proof.Machine

set_option Elab.async false

/-! Bits. -/

theorem bit_eq_fget (w : Word) (i : Nat) : bit w i = (fget w i 1 == 1) := by
  rw [bit, fget, ← BitVec.testBit_toNat, Nat.testBit_eq_decide_div_mod_eq, pow_one]
  rfl

theorem bit_setBit_same (w : Word) (i : Nat) (b : Bool) (h : i < 64) : bit (setBit w i b) i = b := by
  rw [bit_eq_fget, setBit, fget_fset_same _ _ _ _ (by omega)]
  cases b <;> rfl

theorem fget_setBit_ne (w : Word) (i : Nat) (b : Bool) (lo n : Nat) (h : i < 64) (hd : lo + n ≤ i ∨ i + 1 ≤ lo) :
    fget (setBit w i b) lo n = fget w lo n :=
  fget_fset_ne _ _ _ _ _ _ (by omega) hd

theorem bit_fset_ne (w : Word) (lo n v i : Nat) (h : lo + n ≤ 64) (hd : i + 1 ≤ lo ∨ lo + n ≤ i) : bit (fset w lo n v) i = bit w i := by
  rw [bit_eq_fget, bit_eq_fget, fget_fset_ne _ _ _ _ _ _ h hd]

theorem bit_setBit_ne (w : Word) (i j : Nat) (b : Bool) (h : i < 64) (hd : j ≠ i) : bit (setBit w i b) j = bit w j :=
  bit_fset_ne _ _ _ _ _ (by omega) (by omega)

/-! Ends. -/

/-- Between s and u nothing has changed but thread t, which is x but for its counters, what decides when instructions complete, and the
clock state of its cluster. -/
def State.turned (s u : State) (t : Tid) (x : Thread) : Prop :=
  s.onlyThread u t ∧ ∃ y : SMap Word, u.thr t = { x with cr := y } ∧ ∀ n, isPmc n = false → SMap.get (crReset n) y n = x.c n

section
variable {s u v : State} {t : Tid} {x : Thread}

theorem State.turned.onlyThread (h : s.turned u t x) : s.onlyThread u t := h.1

theorem State.turned.pc (h : s.turned u t x) : (u.thr t).pc = x.pc := by obtain ⟨_, y, e, _⟩ := h; rw [e]

theorem State.turned.slot (h : s.turned u t x) : (u.thr t).slot = x.slot := by obtain ⟨_, y, e, _⟩ := h; rw [e]

theorem State.turned.run (h : s.turned u t x) : (u.thr t).run = x.run := by obtain ⟨_, y, e, _⟩ := h; rw [e]

theorem State.turned.repLeft (h : s.turned u t x) : (u.thr t).repLeft = x.repLeft := by obtain ⟨_, y, e, _⟩ := h; rw [e]

theorem State.turned.storeQ (h : s.turned u t x) : (u.thr t).storeQ = x.storeQ := by obtain ⟨_, y, e, _⟩ := h; rw [e]

theorem State.turned.beside_thr (h : s.turned u t x) : (u.thr t).beside = x.beside := by obtain ⟨_, y, e, _⟩ := h; rw [e]; rfl

theorem State.turned.gr (h : s.turned u t x) (r : Nat) : (u.thr t).gr r = x.gr r := by obtain ⟨_, y, e, _⟩ := h; rw [e]; rfl

theorem State.turned.fr (h : s.turned u t x) (r : Nat) : (u.thr t).fr r = x.fr r := by obtain ⟨_, y, e, _⟩ := h; rw [e]; rfl

theorem State.turned.c (h : s.turned u t x) {n : Nat} (hn : isPmc n = false) : (u.thr t).c n = x.c n := by
  obtain ⟨_, y, e, k⟩ := h; rw [e]; exact k n hn

/-- A state in which an instruction acts. -/
theorem State.turned_acting (s : State) (t : Tid) (i : Instr) : s.turned (s.acting t i) t { s.thr t with run := .running } := by
  obtain ⟨a1, a2, a3, y, a4, a5⟩ := s.acting_eq t i
  exact ⟨⟨a1, a2, a3⟩, y, a4, a5⟩

/-- The thread is stored. -/
theorem State.turned.setThr (h : s.turned u t x) (z : Thread) : s.turned (u.setThr t z) t z := by
  obtain ⟨⟨h1, h2, h3⟩, _⟩ := h
  exact ⟨⟨h1, fun k hk => (State.thrN_setThr_ne _ _ _ _ hk).trans (h2 k hk), h3⟩, z.cr, State.thr_setThr _ _ _, fun _ _ => rfl⟩

/-- What only counts, and what only decides when instructions complete, leaves the thread as it is. -/
theorem State.turned.timed (h : s.turned u t x) (k : u.timed v t) : s.turned v t x := by
  obtain ⟨⟨h1, h2, h3⟩, y, h4, h5⟩ := h
  obtain ⟨k1, k2, k3, z, k4, k5⟩ := k
  refine ⟨⟨k1.trans h1, fun n hn => (k2 n hn).trans (h2 n hn), fun a ha => (k3 a).trans (h3 a ha)⟩, z, by rw [k4, h4], fun n hn => ?_⟩
  rw [k5 n hn, h4]
  exact h5 n hn

/-- The next address and the delay slot are set. -/
theorem State.turned.goesTo (h : s.turned u t x) (p : Word) (q : Option Word) :
    s.turned (u.setThr t { u.thr t with pc := p, slot := q }) t { x with pc := p, slot := q } := by
  obtain ⟨h1, y, h4, h5⟩ := h
  refine ⟨((show s.turned u t x from ⟨h1, y, h4, h5⟩).setThr _).1, y, ?_, h5⟩
  rw [State.thr_setThr, h4]

/-- Retirement. -/
theorem State.turned.ends (h : s.turned u t x) (va : Word) (i : Instr) :
    s.turned (u.ends t va i) t { x with pc := x.slot.getD (x.pc + 4), slot := none, repLeft := none } := by
  have hn : u.nextPc t = x.slot.getD (x.pc + 4) := by rw [State.nextPc, h.slot, h.pc]
  obtain ⟨⟨h1, h2, h3⟩, y, h4, h5⟩ := h
  obtain ⟨z, e1, e2, e3, e4, e5⟩ := u.ends_eq t va i
  refine ⟨⟨e3.trans h1, fun k hk => (e1 k hk).trans (h2 k hk), fun a ha => (e4 a).trans (h3 a ha)⟩, z, ?_, fun n hn => ?_⟩
  · rw [e2, hn, h4]
  · rw [e5 n hn, h4]
    exact h5 n hn

theorem State.timed_branchEnds (s : State) (t : Tid) (va : Word) (i : Instr) : s.timed (s.branchEnds t va i) t :=
  State.timed_trans (State.timed_trans (State.timed_trans (s.timed_homed t va i) (State.timed_counts _ t _)) (State.timed_pmEvent _ t 2))
    (State.timed_pmEvent _ t 0x22)

/-- A transfer. -/
theorem State.turned.branch (h : s.turned u t x) (va : Word) (i : Instr) (tgt : Word) :
    s.turned ((Out.branch u tgt).finish t va i) t { x with pc := x.pc + 4, slot := some tgt } := by
  have hb := h.timed (u.timed_branchEnds t va i)
  have hg := hb.goesTo (x.pc + 4) (some tgt)
  rw [← hb.pc] at hg ⊢
  exact hg

/-- A branch that skips its slot. -/
theorem State.turned.skip (h : s.turned u t x) (va : Word) (i : Instr) :
    s.turned ((Out.skip u).finish t va i) t { x with pc := x.pc + 8, slot := none } := by
  have hb := h.timed (u.timed_branchEnds t va i)
  have hg := hb.goesTo (x.pc + 8) none
  rw [← hb.pc] at hg ⊢
  exact hg

/-- A thread that retired an instruction which left its registers as x has them. -/
theorem State.became_ends (h : s.turned u t x) (hrun : x.run = .running) (hpc : x.slot.getD (x.pc + 4) = s.nextPc t) (va : Word) (i : Instr) :
    s.became (u.ends t va i) t x := by
  have he := h.ends va i
  exact ⟨⟨he.run.trans hrun, he.pc.trans hpc, he.slot⟩, he.onlyThread, he.beside_thr, he.gr, he.fr, fun n hn => he.c hn⟩

/-- What a thread that only retired has kept. -/
theorem State.became_acting_ends (s : State) (t : Tid) (i : Instr) (va : Word) : s.became ((s.acting t i).ends t va i) t (s.thr t) := by
  obtain ⟨h1, h2, h3, h4⟩ := State.became_ends (s.turned_acting t i) rfl rfl va i
  exact ⟨h1, h2, h3, h4⟩

end

/-- Settles O2: retirement counts one event and then writes pc, delay slot and REP count. -/
theorem retirementFrame : Obligations.RetirementFrame := by
  intro s t
  obtain ⟨y, h1, h2, h3, h4, h5⟩ := s.retire_eq t
  refine ⟨h3, h1, h4, ?_, by rw [h2], by rw [h2], by rw [h2]; rfl, fun r => by rw [h2]; rfl, fun r => by rw [h2]; rfl,
    fun n hn => by rw [h2]; exact h5 n hn⟩
  rw [h2]
  show s.nextPc t = _
  unfold State.nextPc
  cases (s.thr t).slot <;> rfl

end Sys2Proof.Machine
end

section
/-!
FENCES, BRANCHES, JUMPS AND CALLS.
-/
namespace Sys2Proof.Machine

set_option Elab.async false

/-! Fences (R95). -/

theorem State.drain_empty (s : State) (t : Tid) (h : (s.thr t).storeQ = []) : s.drain t = some s := by
  unfold State.drain
  rw [h]
  simp only [List.map_nil, List.sum_nil, State.drainN, h, beq_self_eq_true, if_true]

/-- A fence that waits for the thread's stores. -/
theorem State.issue_drained {s v : State} {t : Tid} {i : Instr} {body : State → Out} (hr : s.ready t i = true)
    (hb : ∀ u, body u = u.afterDrain t) (hd : (s.acting t i).drain t = some v) : s.issue t i body = v.ends t (s.thr t).pc i := by
  rw [State.issue_ready _ _ _ _ hr, hb]
  unfold State.afterDrain
  rw [hd]
  rfl

theorem State.issue_drained_empty {s : State} {t : Tid} {i : Instr} {body : State → Out} (hr : s.ready t i = true)
    (hb : ∀ u, body u = u.afterDrain t) (hq : (s.thr t).storeQ = []) : s.became (s.issue t i body) t (s.thr t) := by
  have hd := (s.acting t i).drain_empty t ((s.turned_acting t i).storeQ.trans hq)
  rw [State.issue_drained hr hb hd]
  exact s.became_acting_ends t i _

/-- An instruction whose body does nothing. -/
theorem State.issue_nothing {s : State} {t : Tid} {i : Instr} {body : State → Out} (hr : s.ready t i = true)
    (hb : body (s.acting t i) = .done (s.acting t i)) : s.became (s.issue t i body) t (s.thr t) := by
  rw [State.issue_ready _ _ _ _ hr, hb]
  exact s.became_acting_ends t i _

/-- Settles O17: the ordering fences only retire, and the others find an empty queue or empty it. -/
theorem fencesComplete : Obligations.FencesComplete := by
  intro s t
  simp only [List.forall_mem_cons, List.not_mem_nil, false_imp_iff, implies_true, and_true]
  refine ⟨⟨?_, ?_, ?_, ?_⟩, ?_, ?_⟩
  iterate 4
    · exact fun hr => ⟨_, rfl, State.issue_nothing hr rfl⟩
  iterate 2
    · exact fun hr => ⟨fun hq => ⟨_, rfl, State.issue_drained_empty hr (fun _ => rfl) hq⟩,
        fun v hd => congrArg Host.Outcome.next (State.issue_drained hr (fun _ => rfl) hd)⟩

/-! Conditional branches (R87). -/

theorem shiftLeft_two_eq (x : Word) : x <<< 2 = x * 4 := by bv_omega

/-- A conditional branch by its outcome. -/
theorem State.issue_condBranch {s : State} {t : Tid} {i : Instr} {body : State → Out} {taken an : Bool} {disp : BitVec 15}
    (hr : s.ready t i = true) (hb : body (s.acting t i) = (s.acting t i).condBranch t taken an disp) :
    let u := s.issue t i body
    let pc := (s.thr t).pc
    (u.thr t).pc = (if !taken && an then pc + 8 else pc + 4)
      ∧ (u.thr t).slot = (if taken then some (pc + disp.signExtend 64 * 4) else if an then none else some (pc + 8))
      ∧ s.onlyThread u t ∧ s.keepsThread u t ∧ (∀ r, (u.thr t).gr r = (s.thr t).gr r) ∧ ∀ r, (u.thr t).fr r = (s.thr t).fr r := by
  dsimp only
  rw [State.issue_ready _ _ _ _ hr, hb]
  have ha := s.turned_acting t i
  have kept {u : State} {p : Word} {q : Option Word} (h : s.turned u t { { s.thr t with run := .running } with pc := p, slot := q }) :
      s.onlyThread u t ∧ s.keepsThread u t ∧ (∀ r, (u.thr t).gr r = (s.thr t).gr r) ∧ ∀ r, (u.thr t).fr r = (s.thr t).fr r :=
    ⟨h.onlyThread, ⟨h.beside_thr, fun n hn => h.c hn⟩, h.gr, h.fr⟩
  unfold State.condBranch State.pcOf
  rw [ha.pc]
  cases taken with
  | true =>
    have h := ha.branch (s.thr t).pc i ((s.thr t).pc + disp.signExtend 64 <<< 2)
    exact ⟨h.pc, by rw [← shiftLeft_two_eq]; exact h.slot, kept h⟩
  | false =>
    cases an with
    | true => exact ⟨(ha.skip (s.thr t).pc i).pc, (ha.skip (s.thr t).pc i).slot, kept (ha.skip (s.thr t).pc i)⟩
    | false =>
      have h := ha.branch (s.thr t).pc i ((s.thr t).pc + 8)
      exact ⟨h.pc, h.slot, kept h⟩

/-- Settles O10: each branch compares as its condition says, and its outcome decides the rest. -/
theorem conditionalBranches : Obligations.ConditionalBranches := by
  intro s t a b an disp
  dsimp only
  simp only [List.forall_mem_cons, List.not_mem_nil, false_imp_iff, implies_true, and_true]
  refine ⟨?_, ?_, ?_, ?_, ?_, ?_⟩ <;> intro hr <;> refine ⟨_, rfl, State.issue_condBranch hr ?_⟩
  · rw [bodyBeq, State.acting_g, State.acting_g]; rfl
  · rw [bodyBne, State.acting_g, State.acting_g, decide_not]; rfl
  · rw [bodyBlt, State.acting_g, State.acting_g]; rfl
  · rw [bodyBge, State.acting_g, State.acting_g, BitVec.slt, ← decide_not]; simp only [Int.not_lt]
  · rw [bodyBltu, State.acting_g, State.acting_g]; rfl
  · rw [bodyBgeu, State.acting_g, State.acting_g, BitVec.ult, ← decide_not]; simp only [Nat.not_lt]

/-! Jumps, calls and returns (R64, R65, R87). -/

/-- Numbered control registers written one after another from values of before. -/
theorem Thread.c_foldl_setC (x : Thread) (base : Nat) (val : Nat → Word) (k : Nat) (n : Nat) :
    ((List.range k).foldl (fun (y : Thread) i => y.setC (base + i) (val i)) x).c n
      = if base ≤ n ∧ n < base + k then val (n - base) else x.c n := by
  induction k with
  | zero => simp only [List.range_zero, List.foldl_nil]; rw [if_neg (by omega)]
  | succ k ih =>
    rw [List.range_succ, List.foldl_append, List.foldl_cons, List.foldl_nil]
    by_cases hn : n = base + k
    · subst hn
      rw [Thread.c_setC_same, if_pos (by omega), Nat.add_sub_cancel_left]
    · rw [Thread.c_setC_ne _ _ _ _ hn, ih]
      exact if_congr (by omega) rfl rfl

/-- Control registers written one after another leave the rest of the thread as it is. -/
theorem Thread.foldl_setC_eq (x : Thread) (base : Nat) (val : Nat → Word) (l : List Nat) :
    ∃ y : SMap Word, l.foldl (fun (y : Thread) i => y.setC (base + i) (val i)) x = { x with cr := y } := by
  induction l generalizing x with
  | nil => exact ⟨x.cr, rfl⟩
  | cons i l ih => exact ih (x.setC (base + i) (val i))

theorem Thread.rsPush_eq (x : Thread) (v : Word) : ∃ y : SMap Word, x.rsPush v = { x with cr := y } := by
  obtain ⟨y, h⟩ := x.foldl_setC_eq 0x1C2 (fun i => x.c (0x1C1 + i)) (List.range 15)
  unfold Thread.rsPush
  dsimp only
  rw [h]
  exact ⟨_, rfl⟩

theorem Thread.rsPop_eq (x : Thread) : ∃ y : SMap Word, x.rsPop = { x with cr := y } := by
  obtain ⟨y, h⟩ := x.foldl_setC_eq 0x1C1 (fun i => x.c (0x1C2 + i)) (List.range 15)
  unfold Thread.rsPop
  dsimp only
  rw [h]
  exact ⟨_, rfl⟩

theorem Thread.pc_rsPop (x : Thread) : x.rsPop.pc = x.pc := by obtain ⟨y, h⟩ := x.rsPop_eq; rw [h]

theorem Thread.gr_rsPop (x : Thread) (r : Nat) : x.rsPop.gr r = x.gr r := by obtain ⟨y, h⟩ := x.rsPop_eq; rw [h]; rfl

/-- The control registers after a push: RSCTL, RSE0, and the entries one further on. -/
theorem Thread.rsPush_c (x : Thread) (v : Word) :
    (x.rsPush v).c 0x1C0 = fset (x.c 0x1C0) 4 5 (Nat.min (x.depth + 1) 16) ∧ (x.rsPush v).c 0x1C1 = v
      ∧ ∀ i, i < 15 → (x.rsPush v).c (0x1C2 + i) = x.c (0x1C1 + i) := by
  refine ⟨Thread.c_setC_same _ _ _, ?_, fun i hi => ?_⟩
  · exact (Thread.c_setC_ne _ _ _ _ (by decide)).trans (Thread.c_setC_same _ _ _)
  · unfold Thread.rsPush
    rw [Thread.c_setC_ne _ _ _ _ (by omega), Thread.c_setC_ne _ _ _ _ (by omega), Thread.c_foldl_setC, if_pos (by omega),
      Nat.add_sub_cancel_left]

/-- The control registers after a pop: RSCTL, the entries one nearer, and RSE15. -/
theorem Thread.rsPop_c (x : Thread) :
    x.rsPop.c 0x1C0 = fset (x.c 0x1C0) 4 5 (x.depth - 1) ∧ x.rsPop.c 0x1D0 = 0 ∧ ∀ i, i < 15 → x.rsPop.c (0x1C1 + i) = x.c (0x1C2 + i) := by
  refine ⟨Thread.c_setC_same _ _ _, ?_, fun i hi => ?_⟩
  · exact (Thread.c_setC_ne _ _ _ _ (by decide)).trans (Thread.c_setC_same _ _ _)
  · unfold Thread.rsPop
    rw [Thread.c_setC_ne _ _ _ _ (by omega), Thread.c_setC_ne _ _ _ _ (by omega), Thread.c_foldl_setC, if_pos (by omega),
      Nat.add_sub_cancel_left]

theorem isPmc_rs {n : Nat} (h : n ≤ 0x300) : isPmc n = false := by
  simp only [isPmc, Bool.or_eq_false_iff, beq_eq_false_iff_ne, Bool.and_eq_false_imp, decide_eq_true_eq, decide_eq_false_iff_not]
  omega

/-- An instruction that leaves thread t with the registers x and transfers to tgt. -/
theorem State.issue_branch {s u : State} {t : Tid} {i : Instr} {body : State → Out} {x : Thread} {tgt : Word}
    (hr : s.ready t i = true) (hb : body (s.acting t i) = .branch u tgt) (hu : s.turned u t x) :
    s.turned (s.issue t i body) t { x with pc := x.pc + 4, slot := some tgt } := by
  rw [State.issue_ready _ _ _ _ hr, hb]
  exact hu.branch _ _ _

/-- What such an instruction leaves of its thread. -/
theorem State.issue_branch_parts {s u : State} {t : Tid} {i : Instr} {body : State → Out} {x : Thread} {tgt : Word}
    (hr : s.ready t i = true) (hb : body (s.acting t i) = .branch u tgt) (hu : s.turned u t x) :
    let v := (s.issue t i body).thr t
    v.pc = x.pc + 4 ∧ v.slot = some tgt ∧ (∀ n, n ≤ 0x300 → v.c n = x.c n) ∧ ∀ r, v.gr r = x.gr r :=
  have h := State.issue_branch hr hb hu
  ⟨h.pc, h.slot, fun _ hn => h.c (isPmc_rs hn), h.gr⟩

theorem State.acting_depth (s : State) (t : Tid) (i : Instr) : ((s.acting t i).thr t).depth = (s.thr t).depth :=
  congrArg (fget · 4 5) ((s.turned_acting t i).c (isPmc_rs (by decide)))

theorem State.acting_rs (s : State) (t : Tid) (i : Instr) {n : Nat} (h : n ≤ 0x300) : ((s.acting t i).thr t).c n = (s.thr t).c n :=
  s.acting_thr_c t i n (isPmc_rs h)

/-- What a call leaves, from the thread in which it acts (wrapped: it found 16 entries and discards the oldest). -/
def Thread.called (x : Thread) (wrapped : Bool) : Thread :=
  let y := x.rsPush (x.pc + 8)
  if wrapped then y.setC 0x1C0 (setBit (y.c 0x1C0) 1 true) else y

theorem Thread.called_eq (x : Thread) (w : Bool) : ∃ y : SMap Word, x.called w = { x with cr := y } := by
  obtain ⟨y, h⟩ := x.rsPush_eq (x.pc + 8)
  unfold Thread.called
  dsimp only
  rw [h]
  cases w <;> exact ⟨_, rfl⟩

theorem Thread.pc_called (x : Thread) (w : Bool) : (x.called w).pc = x.pc := by obtain ⟨y, h⟩ := x.called_eq w; rw [h]

theorem Thread.gr_called (x : Thread) (w : Bool) (r : Nat) : (x.called w).gr r = x.gr r := by obtain ⟨y, h⟩ := x.called_eq w; rw [h]; rfl

theorem Thread.called_c (x : Thread) (w : Bool) {n : Nat} (h : n ≠ 0x1C0) : (x.called w).c n = (x.rsPush (x.pc + 8)).c n := by
  unfold Thread.called
  cases w with
  | true => exact Thread.c_setC_ne _ _ _ _ h
  | false => rfl

/-- A call that does not trap. -/
theorem State.issue_called {s : State} {t : Tid} {i : Instr} {body : State → Out} {tgt : Word} (w : Bool) (hr : s.ready t i = true)
    (hb : body (s.acting t i) = .branch ((s.acting t i).setThr t (((s.acting t i).thr t).called w)) tgt) :
    let u := s.issue t i body
    let x := s.thr t
    (u.thr t).pc = x.pc + 4 ∧ (u.thr t).slot = some tgt ∧ (u.thr t).c 0x1C1 = x.pc + 8
      ∧ (u.thr t).c 0x1C0 = (((s.acting t i).thr t).called w).c 0x1C0
      ∧ (∀ k, k < 15 → (u.thr t).c (0x1C2 + k) = x.c (0x1C1 + k)) ∧ ∀ r, (u.thr t).gr r = x.gr r := by
  have ha := s.turned_acting t i
  obtain ⟨hpc, hslot, hc, hg⟩ := State.issue_branch_parts hr hb (ha.setThr _)
  obtain ⟨-, hp1, hp2⟩ := ((s.acting t i).thr t).rsPush_c (((s.acting t i).thr t).pc + 8)
  refine ⟨?_, hslot, ?_, hc _ (by decide), fun k hk => ?_, fun r => ?_⟩
  · rw [hpc, Thread.pc_called, ha.pc]
  · rw [hc _ (by decide), Thread.called_c _ w (by decide), hp1, ha.pc]
  · rw [hc _ (by omega), Thread.called_c _ w (by omega), hp2 k hk, State.acting_rs _ _ _ (by omega)]
  · rw [hg, Thread.gr_called, State.acting_thr_gr]

theorem State.callTo_room {s : State} {t : Tid} (tgt : Word) (h : (s.thr t).depth < 16) :
    s.callTo t tgt = .branch (s.setThr t ((s.thr t).called false)) tgt := by
  unfold State.callTo
  dsimp only
  rw [if_neg (by omega)]
  rfl

theorem State.callTo_wraps {s : State} {t : Tid} (tgt : Word) (h : 16 ≤ (s.thr t).depth) (hw : bit ((s.thr t).c 0x1C0) 0 = false) :
    s.callTo t tgt = .branch (s.setThr t ((s.thr t).called true)) tgt := by
  unfold State.callTo
  dsimp only
  rw [if_pos h, if_pos (by rw [Thread.rsWraps, hw]; rfl)]
  rfl

/-- A call that finds room: one more entry. -/
theorem State.issue_callTo {s : State} {t : Tid} {i : Instr} {body : State → Out} {tgt : Word} (hr : s.ready t i = true)
    (hb : body (s.acting t i) = (s.acting t i).callTo t tgt) (hd : fget ((s.thr t).c 0x1C0) 4 5 < 16) :
    let u := s.issue t i body
    let x := s.thr t
    (u.thr t).pc = x.pc + 4 ∧ (u.thr t).slot = some tgt ∧ (u.thr t).c 0x1C1 = x.pc + 8
      ∧ fget ((u.thr t).c 0x1C0) 4 5 = fget (x.c 0x1C0) 4 5 + 1
      ∧ (∀ k, k < 15 → (u.thr t).c (0x1C2 + k) = x.c (0x1C1 + k)) ∧ ∀ r, (u.thr t).gr r = x.gr r := by
  have hd' : ((s.acting t i).thr t).depth < 16 := by rw [State.acting_depth]; exact hd
  obtain ⟨h1, h2, h3, h4, h5, h6⟩ := State.issue_called false hr (hb.trans (State.callTo_room tgt hd'))
  refine ⟨h1, h2, h3, ?_, h5, h6⟩
  rw [h4, show (((s.acting t i).thr t).called false).c 0x1C0 = _ from (Thread.rsPush_c _ _).1, fget_fset_same _ _ _ _ (by decide),
    State.acting_depth]
  show min (fget ((s.thr t).c 0x1C0) 4 5 + 1) 16 % 2 ^ 5 = _
  omega

/-- A call that finds 16 entries in wrap mode. -/
theorem State.issue_callTo_wraps {s : State} {t : Tid} {i : Instr} {body : State → Out} {tgt : Word} (hr : s.ready t i = true)
    (hb : body (s.acting t i) = (s.acting t i).callTo t tgt) (hd : fget ((s.thr t).c 0x1C0) 4 5 = 16) (hw : bit ((s.thr t).c 0x1C0) 0 = false) :
    let u := s.issue t i body
    let x := s.thr t
    fget ((u.thr t).c 0x1C0) 4 5 = 16 ∧ bit ((u.thr t).c 0x1C0) 1 = true ∧ (u.thr t).c 0x1C1 = x.pc + 8
      ∧ (∀ k, k < 15 → (u.thr t).c (0x1C2 + k) = x.c (0x1C1 + k)) ∧ (u.thr t).slot = some tgt := by
  have hd' : ((s.acting t i).thr t).depth = 16 := by rw [State.acting_depth]; exact hd
  have hw' : bit (((s.acting t i).thr t).c 0x1C0) 0 = false := by rw [State.acting_rs _ _ _ (by decide)]; exact hw
  obtain ⟨h1, h2, h3, h4, h5, h6⟩ := State.issue_called true hr (hb.trans (State.callTo_wraps tgt hd'.ge hw'))
  have hc : (((s.acting t i).thr t).called true).c 0x1C0
      = setBit (fset (((s.acting t i).thr t).c 0x1C0) 4 5 16) 1 true := by
    refine (Thread.c_setC_same _ _ _).trans ?_
    rw [(Thread.rsPush_c _ _).1, hd']
    rfl
  refine ⟨?_, ?_, h3, h5, h2⟩
  · rw [h4, hc, fget_setBit_ne _ _ _ _ _ (by decide) (by decide), fget_fset_same _ _ _ _ (by decide)]
    rfl
  · rw [h4, hc, bit_setBit_same _ _ _ (by decide)]

/-- A return that finds an entry. -/
theorem State.issue_ret {s : State} {t : Tid} (hr : s.ready t (.ret t) = true) (hd : 0 < fget ((s.thr t).c 0x1C0) 4 5) :
    let u := s.issue t (.ret t) (bodyRet t)
    let x := s.thr t
    (u.thr t).pc = x.pc + 4 ∧ (u.thr t).slot = some (x.c 0x1C1) ∧ (u.thr t).c 0x1D0 = 0
      ∧ fget ((u.thr t).c 0x1C0) 4 5 = fget (x.c 0x1C0) 4 5 - 1 ∧ (∀ i, i < 15 → (u.thr t).c (0x1C1 + i) = x.c (0x1C2 + i))
      ∧ ∀ r, (u.thr t).gr r = x.gr r := by
  have ha := s.turned_acting t (.ret t)
  have hd' : ((s.acting t (.ret t)).thr t).depth ≠ 0 := by rw [State.acting_depth]; exact hd.ne'
  have hb : bodyRet t (s.acting t (.ret t)) = .branch ((s.acting t (.ret t)).setThr t ((s.acting t (.ret t)).thr t).rsPop)
      (((s.acting t (.ret t)).thr t).c 0x1C1) := by
    unfold bodyRet
    exact if_neg hd'
  obtain ⟨hpc, hslot, hc, hg⟩ := State.issue_branch_parts hr hb (ha.setThr _)
  obtain ⟨hp0, hp1, hp2⟩ := ((s.acting t (.ret t)).thr t).rsPop_c
  refine ⟨?_, ?_, ?_, ?_, fun i hi => ?_, fun r => ?_⟩
  · rw [hpc, Thread.pc_rsPop, ha.pc]
  · rw [hslot, State.acting_rs _ _ _ (by decide)]
  · rw [hc _ (by decide), hp1]
  · rw [hc _ (by decide), hp0, fget_fset_same _ _ _ _ (by decide), State.acting_depth]
    have := fget_lt ((s.thr t).c 0x1C0) 4 5
    unfold Thread.depth
    omega
  · rw [hc _ (by omega), hp2 i hi, State.acting_rs _ _ _ (by omega)]
  · rw [hg, Thread.gr_rsPop, State.acting_thr_gr]

/-- A jump. -/
theorem State.issue_jump {s : State} {t : Tid} {i : Instr} {body : State → Out} {tgt : Word} (hr : s.ready t i = true)
    (hb : body (s.acting t i) = .branch (s.acting t i) tgt) :
    let u := s.issue t i body
    let x := s.thr t
    (u.thr t).pc = x.pc + 4 ∧ (u.thr t).slot = some tgt ∧ s.onlyThread u t ∧ s.keepsThread u t
      ∧ (∀ r, (u.thr t).gr r = x.gr r) ∧ ∀ r, (u.thr t).fr r = x.fr r := by
  have h := State.issue_branch hr hb (s.turned_acting t i)
  exact ⟨h.pc, h.slot, h.onlyThread, ⟨h.beside_thr, fun n hn => h.c hn⟩, h.gr, h.fr⟩

/-- Settles O11: a call pushes and a return pops, one entry each, or finds no room or no entry. -/
theorem jumpsAndCalls : Obligations.JumpsAndCalls := by
  have rel (s : State) (t : Tid) (i : Instr) (disp : BitVec 26) :
      (s.acting t i).pcOf t + disp.signExtend 64 <<< 2 = (s.thr t).pc + disp.signExtend 64 * 4 := by
    rw [shiftLeft_two_eq, State.pcOf, State.acting_thr_pc]
  refine ⟨fun s t a disp => ?_, fun s t disp => ⟨fun hr hd => ?_, fun hr hd hw => ?_⟩⟩
  · simp only [List.forall_mem_cons, List.not_mem_nil, false_imp_iff, implies_true, and_true]
    refine ⟨⟨fun hr => ?_, fun hr => ?_⟩, ⟨fun hr hd => ?_, fun hr hd => ?_⟩, fun hr hd => ?_⟩
    · exact ⟨_, rfl, State.issue_jump hr (by rw [bodyJ, rel])⟩
    · exact ⟨_, rfl, State.issue_jump hr (by rw [bodyJr, State.acting_g])⟩
    · exact ⟨_, rfl, State.issue_callTo hr (by rw [bodyCall, rel]) hd⟩
    · exact ⟨_, rfl, State.issue_callTo hr (by rw [bodyCallr, State.acting_g]) hd⟩
    · exact ⟨_, rfl, State.issue_ret hr hd⟩
  · have hd' : ((s.acting t (.ret t)).thr t).depth = 0 := by rw [State.acting_depth]; exact hd
    rw [exec_ret, execRet, State.issue_ready _ _ _ _ hr, bodyRet, if_pos hd']
    rfl
  · exact ⟨_, rfl, State.issue_callTo_wraps hr (by rw [bodyCall, rel]) hd hw⟩

end Sys2Proof.Machine
end

section
/-!
CONTROL REGISTERS AND THE RETURN FROM AN EXCEPTION.
-/
namespace Sys2Proof.Machine

set_option Elab.async false

/-! A counter that is not enabled (R489). -/

theorem Thread.pmAdd_c_ne (x : Thread) {c k n : Nat} (hk : k ≠ c) (hc : c < 8) :
    (x.pmAdd k n).c 0x300 = x.c 0x300 ∧ (x.pmAdd k n).c (0x308 + c) = x.c (0x308 + c) := by
  obtain ⟨-, h⟩ := x.pmAdd_keeps k n x.cr
  exact ⟨h _ (by decide) (by omega), h _ (by omega) (by omega)⟩

theorem Thread.pmCount_off (x : Thread) (ev pl n : Nat) {c : Nat} (hc : c < 8) (hoff : bit (x.c 0x300) c = false) :
    (x.pmCount ev pl n).c 0x300 = x.c 0x300 ∧ (x.pmCount ev pl n).c (0x308 + c) = x.c (0x308 + c) := by
  unfold Thread.pmCount
  generalize List.range 7 = l
  induction l generalizing x with
  | nil => exact ⟨rfl, rfl⟩
  | cons i l ih =>
    rw [List.foldl_cons]
    by_cases hs : x.pmSel (i + 1) ev pl = true
    · have hi : i + 1 ≠ c := by
        rintro rfl
        rw [Thread.pmSel, hoff, Bool.false_and] at hs
        cases hs
      obtain ⟨h1, h2⟩ := x.pmAdd_c_ne (n := n) hi hc
      obtain ⟨h3, h4⟩ := ih (x.pmAdd (i + 1) n) (by rw [h1]; exact hoff)
      rw [if_pos hs]
      exact ⟨h3.trans h1, h4.trans h2⟩
    · rw [if_neg hs]
      exact ih x hoff

theorem State.count_off (s : State) (t : Tid) (ev n : Nat) {c : Nat} (hc : c < 8) (hoff : bit ((s.thr t).c 0x300) c = false) :
    ((s.count t ev n).thr t).c 0x300 = (s.thr t).c 0x300 ∧ ((s.count t ev n).thr t).c (0x308 + c) = (s.thr t).c (0x308 + c) := by
  unfold State.count
  dsimp only
  split
  · exact ⟨rfl, rfl⟩
  · obtain ⟨h1, h2⟩ := (s.thr t).pmCount_off ev (s.thr t).pl n hc hoff
    rw [State.thr_setThr]
    split
    · rename_i h0
      have h0c : 0 ≠ c := by
        rintro rfl
        rw [h1, hoff] at h0
        simp at h0
      obtain ⟨h3, h4⟩ := ((s.thr t).pmCount ev (s.thr t).pl n).pmAdd_c_ne (n := n) h0c hc
      exact ⟨h3.trans h1, h4.trans h2⟩
    · exact ⟨h1, h2⟩

theorem State.counts_off (s : State) (t : Tid) (l : List (Nat × Nat)) {c : Nat} (hc : c < 8) (hoff : bit ((s.thr t).c 0x300) c = false) :
    ((s.counts t l).thr t).c (0x308 + c) = (s.thr t).c (0x308 + c) := by
  unfold State.counts
  split
  · rfl
  · induction l generalizing s with
    | nil => rfl
    | cons e l ih =>
      obtain ⟨h1, h2⟩ := s.count_off t e.1 e.2 hc hoff
      exact (ih (s.count t e.1 e.2) (by rw [h1]; exact hoff) (by rw [h1]; assumption)).trans h2

/-- Routing an instruction leaves a counter that is not enabled. -/
theorem State.acting_pmc_off (s : State) (t : Tid) (i : Instr) {c : Nat} (hc : c < 8) (hoff : bit ((s.thr t).c 0x300) c = false) :
    ((s.acting t i).thr t).c (0x308 + c) = (s.thr t).c (0x308 + c) := by
  rw [← State.running_thr_c s t] at hoff
  rw [← State.running_thr_c s t (0x308 + c)]
  unfold State.acting State.steered State.carry
  split
  · rfl
  · exact State.counts_off _ t _ hc hoff

/-! Moves of control registers (R96, R97). -/

theorem State.writeCr_readOnly {s : State} {t : Tid} {n : Nat} {e : CrDesc} (v : Word) (h : crAt n = some e) (hw : e.wr = 4) :
    s.writeCr t n v = s := by
  unfold State.writeCr
  rw [h]
  exact if_pos (by omega)

theorem State.writeCr_status (s : State) (t : Tid) (v : Word) :
    s.writeCr t 0 v = s.setThr t ((s.thr t).setC 0 (statusFix (fset ((s.thr t).c 0) 4 3 (fget v 4 3)))) := rfl

theorem setBit_self (w : Word) (i : Nat) (h : i < 64) : setBit w i (bit w i) = w := by
  apply BitVec.eq_of_toNat_eq
  have hb : (if bit w i = true then 1 else 0) % 2 ^ 1 = fget w i 1 := by
    have := fget_lt w i 1
    rw [bit_eq_fget]
    generalize fget w i 1 = k at this
    interval_cases k <;> rfl
  rw [setBit, toNat_fset _ _ _ _ (by omega), hb, ← fget_split]

/-- STATUS after MTC: CIE, FPE and SFE are new, the four lowest bits as before. -/
theorem statusFix_mtc {w : Word} (v : Nat) (h : bit w 3 = (fget w 0 2 == 3 || bit w 2)) : statusFix (fset w 4 3 v) = fset w 4 3 v := by
  have h2 : fget (fset w 4 3 v) 0 2 = fget w 0 2 := fget_fset_ne _ _ _ _ _ _ (by decide) (by decide)
  have h3 : bit (fset w 4 3 v) 3 = bit w 3 := bit_fset_ne _ _ _ _ _ (by decide) (by decide)
  rw [statusFix, h2, bit_fset_ne _ _ _ _ _ (by decide) (by decide), ← h, ← h3, setBit_self _ _ (by decide)]

theorem State.issue_mtc {s : State} {t : Tid} {a : Rn} {num : BitVec 12} (hr : s.ready t (.mtc t a num) = true) :
    s.issue t (.mtc t a num) (bodyMtc t a num)
      = ((s.acting t (.mtc t a num)).writeCr t num.toNat (s.g t a)).ends t (s.thr t).pc (.mtc t a num) := by
  rw [State.issue_ready _ _ _ _ hr, bodyMtc, State.acting_g]
  rfl

theorem State.issue_mtc_status {s : State} {t : Tid} {a : Rn} (hr : s.ready t (.mtc t a 0) = true)
    (h : bit ((s.thr t).c 0) 3 = (fget ((s.thr t).c 0) 0 2 == 3 || bit ((s.thr t).c 0) 2)) :
    let u := s.issue t (.mtc t a 0) (bodyMtc t a 0)
    fget ((u.thr t).c 0) 4 3 = fget (s.g t a) 4 3 ∧ fget ((u.thr t).c 0) 0 4 = fget ((s.thr t).c 0) 0 4
      ∧ (∀ r, (u.thr t).gr r = (s.thr t).gr r) ∧ s.onlyThread u t := by
  have hz : ((s.acting t (.mtc t a 0)).thr t).c 0 = (s.thr t).c 0 := s.acting_thr_c t _ 0 rfl
  have hw := ((s.turned_acting t (.mtc t a 0)).setThr
    (((s.acting t (.mtc t a 0)).thr t).setC 0 (fset ((s.thr t).c 0) 4 3 (fget (s.g t a) 4 3)))).ends (s.thr t).pc (.mtc t a 0)
  have hc := (hw.c (n := 0) rfl).trans (Thread.c_setC_same _ _ _)
  rw [State.issue_mtc hr, show (0 : BitVec 12).toNat = 0 from rfl, State.writeCr_status, hz, statusFix_mtc _ h]
  refine ⟨?_, ?_, fun r => (hw.gr r).trans (s.acting_thr_gr t _ r), hw.onlyThread⟩
  · rw [hc, fget_fset_same _ _ _ _ (by decide)]
    exact Nat.mod_eq_of_lt (fget_lt _ _ _)
  · rw [hc, fget_fset_ne _ _ _ _ _ _ (by decide) (by decide)]

theorem State.issue_keyset {s : State} {t : Tid} {a : Rn} (hr : s.ready t (.keyset t a) = true) :
    let u := s.issue t (.keyset t a) (bodyKeyset t a)
    s.retired u t ∧ s.onlyThread u t ∧ ((u.thr t).c 0x180).toNat = (s.g t a).toNat % 2 ^ 32
      ∧ (∀ n, n ≠ 0x180 → isPmc n = false → (u.thr t).c n = (s.thr t).c n) ∧ ∀ r, (u.thr t).gr r = (s.thr t).gr r := by
  have ha := s.turned_acting t (.keyset t a)
  have hn : ((s.acting t (.keyset t a)).thr t).slot.getD (((s.acting t (.keyset t a)).thr t).pc + 4) = s.nextPc t := by
    rw [ha.slot, ha.pc]
    rfl
  obtain ⟨h1, h2, -, h4, -, h6⟩ := State.became_ends (ha.setThr
    (((s.acting t (.keyset t a)).thr t).setC 0x180 (((s.g t a).setWidth 32).setWidth 64))) ha.run hn (s.thr t).pc (.keyset t a)
  rw [State.issue_ready _ _ _ _ hr, bodyKeyset, State.acting_g]
  refine ⟨h1, h2, ?_, fun n hn hp => ?_, fun r => (h4 r).trans (ha.gr r)⟩
  · refine (congrArg BitVec.toNat ((h6 0x180 rfl).trans (Thread.c_setC_same _ _ _))).trans ?_
    rw [BitVec.toNat_setWidth, BitVec.toNat_setWidth]
    omega
  · exact (h6 n hp).trans ((Thread.c_setC_ne _ _ _ _ hn).trans (s.acting_thr_c t _ n hp))

/-- Settles O18: each instruction moves one register, whose value its own rule gives. -/
theorem controlRegisterMoves : Obligations.ControlRegisterMoves := by
  refine ⟨fun s t d a num => ⟨fun hr => ?_, fun hr => ?_, fun e hr he hw => ?_, fun hr => ?_, fun hr => ?_, fun hr h8 => ?_,
    fun c hr hc h8 hoff => ?_⟩, fun s t a hr h => ?_⟩
  · exact ⟨_, rfl, s.issue_wroteG t _ _ d _ hr rfl⟩
  · rw [exec_mtc, execMtc, State.issue_mtc hr]
  · refine ⟨_, rfl, ?_⟩
    rw [State.issue_mtc hr, State.writeCr_readOnly _ he hw]
    exact s.became_acting_ends t _ _
  · exact ⟨_, rfl, State.issue_keyset hr⟩
  · refine ⟨_, rfl, s.issue_wroteG t _ _ d _ hr ?_⟩
    rw [bodyKeyget, State.acting_thr_c _ _ _ _ (by decide)]
    congr 2
    apply BitVec.eq_of_toNat_eq
    rw [BitVec.toNat_setWidth, BitVec.toNat_setWidth, BitVec.toNat_ofNat]
  · refine ⟨_, rfl, s.issue_wroteG t _ _ d _ hr ?_⟩
    rw [bodyRdpmc, State.acting_g]
    rw [if_neg (by omega)]
  · refine ⟨_, rfl, s.issue_wroteG t _ _ d _ hr ?_⟩
    rw [bodyRdpmc, State.acting_g]
    rw [if_pos (by omega), hc, State.acting_pmc_off s t _ h8 hoff]
  · exact ⟨_, rfl, State.issue_mtc_status hr h⟩

/-! ERET from the primary set (R58). -/

/-- STATUS as ERET restores it: PL, and CIE, FPE and SFE. -/
theorem fget_statusFix_restored (w : Word) (pl k : Nat) :
    fget (statusFix (fset (fset w 4 3 k) 0 2 pl)) 0 2 = pl % 2 ^ 2 ∧ fget (statusFix (fset (fset w 4 3 k) 0 2 pl)) 4 3 = k % 2 ^ 3 := by
  unfold statusFix
  constructor
  · rw [fget_setBit_ne _ _ _ _ _ (by decide) (by decide), fget_fset_same _ _ _ _ (by decide)]
  · rw [fget_setBit_ne _ _ _ _ _ (by decide) (by decide), fget_fset_ne _ _ _ _ _ _ (by decide) (by decide), fget_fset_same _ _ _ _ (by decide)]

/-- A thread with its next address, delay slot and REP count, its control registers and its machine-check set replaced. -/
def Thread.resumed (x : Thread) (pc : Word) (slot : Option Word) (rep : Option Nat) (y : SMap Word) (m : Option Bool) : Thread :=
  { x with pc := pc, slot := slot, repLeft := rep, cr := y, mcNested := m }

/-- What ERET from the primary set makes of a thread. -/
theorem Thread.eret_primary {x : Thread} (h : bit (x.c (setBase x.pl + 7)) 1 = false) :
    let b := setBase x.pl
    ∃ (y : SMap Word) (m : Option Bool) (w : Word),
      x.eret = x.resumed (x.c (b + 1)) (if bit (x.c (b + 3)) 9 then some (x.c (b + 2)) else none)
          (if bit (x.c (b + 3)) 10 then some (fget (x.c (b + 6)) 0 7) else none) y m
        ∧ x.eret.c 0 = statusFix (fset (fset w 4 3 (fget (x.c (b + 5)) 4 3)) 0 2 (fget (x.c (b + 5)) 0 2))
        ∧ bit (x.eret.c (b + 7)) 0 = false := by
  have hl : x.pl < 4 := fget_lt _ _ _
  have hb : setBase x.pl + 7 < 0x70 := by unfold setBase; omega
  have h0 : setBase x.pl + 7 ≠ 0 := by omega
  have he : x.eretSet = 0 := by rw [Thread.eretSet, h]; rfl
  have hclear : bit (setBit (x.c (setBase x.pl + 7)) 0 false) 0 = false := bit_setBit_same _ _ _ (by decide)
  have h10A : setBase x.pl + 7 ≠ 0x10A := by omega
  have h70 : setBase x.pl + 7 ≠ 0x70 := by omega
  unfold Thread.eret
  simp only [he, bne_self_eq_false, Bool.and_false, Bool.false_and, Bool.false_eq_true, if_false, b2n, Nat.add_zero, Bool.not_false,
    Bool.and_true]
  split_ifs
  all_goals
    refine ⟨_, _, _, rfl, Thread.c_setC_same _ _ _, (congrArg (bit · 0) ?_).trans hclear⟩
    simp only [Thread.c, Thread.setC, SMap.get_put, h0, h10A, h70, if_true, if_false]

/-- Settles O20: the return writes the thread's control registers, next address, delay slot and REP count, and no machine check waits. -/
theorem exceptionReturn : Obligations.ExceptionReturn := by
  intro s t
  dsimp only
  intro hr h1 hmc
  have ha := (s.turned_acting t (.eret t)).timed ((s.acting t (.eret t)).timed_pmEvent t 2)
  generalize hv : (s.acting t (.eret t)).pmEvent t 2 = v at ha
  have hpl : (v.thr t).pl = (s.thr t).pl := congrArg (fget · 0 2) (ha.c rfl)
  have hl : (s.thr t).pl < 4 := fget_lt _ _ _
  have hc (k : Nat) (hk : k ≤ 7) : (v.thr t).c (setBase (v.thr t).pl + k) = (s.thr t).c (setBase (s.thr t).pl + k) := by
    rw [hpl]
    exact ha.c (isPmc_rs (by unfold setBase; omega))
  obtain ⟨y, m, w, hx, hs, hact⟩ := Thread.eret_primary (x := v.thr t) (by rw [hc 7 (by decide)]; exact h1)
  have hvm : v.mcPend = [] := (congrArg State.mcPend ha.onlyThread.1).trans hmc
  have hb : bodyEret t (s.acting t (.eret t)) = .go (v.setThr t (v.thr t).eret) := by
    unfold bodyEret
    rw [hv]
    refine if_neg ?_
    simp only [show (v.setThr t (v.thr t).eret).mcPend = [] from hvm, List.isEmpty_nil, Bool.not_true, Bool.and_false, Bool.false_eq_true,
      not_false_eq_true]
  have hu := ha.setThr (v.thr t).eret
  refine ⟨_, rfl, ?_⟩
  rw [State.issue_ready _ _ _ _ hr, hb]
  have ht : ((Out.go (v.setThr t (v.thr t).eret)).finish t (s.thr t).pc (.eret t)).thr t = (v.thr t).eret := State.thr_setThr _ _ _
  have hc1 := hc 1 (by decide)
  have hc2 := hc 2 (by decide)
  have hc3 := hc 3 (by decide)
  have hc5 := hc 5 (by decide)
  have hc6 := hc 6 (by decide)
  rw [hc1, hc2, hc3, hc6] at hx
  rw [hc5] at hs
  rw [hpl] at hact
  obtain ⟨hs1, hs2⟩ := fget_statusFix_restored w (fget ((s.thr t).c (setBase (s.thr t).pl + 5)) 0 2)
    (fget ((s.thr t).c (setBase (s.thr t).pl + 5)) 4 3)
  dsimp only
  rw [ht]
  refine ⟨by rw [hx]; rfl, by rw [hx]; rfl, hact, ?_, ?_, by rw [hx]; rfl, fun r => ?_, fun r => ?_, hu.onlyThread⟩
  · rw [hs, hs1]
    exact Nat.mod_eq_of_lt (fget_lt _ _ _)
  · rw [hs, hs2]
    exact Nat.mod_eq_of_lt (fget_lt _ _ _)
  · rw [hx]
    exact ha.gr r
  · rw [hx]
    exact ha.fr r

end Sys2Proof.Machine
end

section
/-!
ENTRY. What a thread holds after it enters the primary set of a level, outside enclave mode (R55 to R57).
-/
namespace Sys2Proof.Machine

set_option Elab.async false

/-- xCAUSE of an entry from outside enclave mode (R57). -/
def Exc.cause (e : Exc) : Nat :=
  e.code % 256 + b2n e.int * 2 ^ 8 + b2n e.bd.isSome * 2 ^ 9 + 2 ^ 10 * b2n e.rep.isSome

/-- Thread y is thread x after the exception e has entered the primary set of level lvl. -/
structure Thread.EntersPrimary (x y : Thread) (lvl : Nat) (e : Exc) : Prop where
  epc : y.c (setBase lvl + 1) = e.epc
  cause : y.c (setBase lvl + 3) = BitVec.ofNat 64 e.cause
  val : y.c (setBase lvl + 4) = e.val
  status : y.c (setBase lvl + 5) = BitVec.ofNat 64 (fget (x.c 0) 0 7)
  act : bit (y.c (setBase lvl + 7)) 0 = true
  pl : fget (y.c 0) 0 2 = lvl
  cie : bit (y.c 0) 4 = false
  fcsr : y.c 1 = x.c 1
  mcact : entryOffset lvl e.code e.int false = 0x500 → bit (y.c 0x070) 0 = true
  pc : y.pc = x.c (setBase lvl) + BitVec.ofNat 64 (entryOffset lvl e.code e.int false)
  slot : y.slot = none
  run : y.run = .running
  gr : ∀ r, y.gr r = x.gr r
  fr : ∀ r, y.fr r = x.fr r

/-- What an entry into the primary set of a level writes before it saves STATUS: ACT, and the registers of a miss, of a translation
cause and of a machine check. -/
def Thread.prepared (x : Thread) (lvl : Nat) (e : Exc) (space : Nat) : Thread :=
  let off := entryOffset lvl e.code e.int false
  let x := x.setC (setBase lvl + 7) (setBit (x.c (setBase lvl + 7)) 0 true)
  let x := if lvl = 1 && off = 0x300 then x.setC 0x10A (setBit (x.c 0x10A) 0 true) else x
  let x := if lvl = 1 && isXlatCause e.code && !e.int then x.stage e.val space false 0 e.slot else x
  if off = 0x500 then { x.setC 0x070 (setBit (x.c 0x070) 0 true) with mcNested := some false } else x

/-- What it writes then to control registers, from the thread as prepared. -/
def Thread.saved (x : Thread) (lvl : Nat) (e : Exc) (etgt : Word) (erep : Nat) : Thread :=
  let b := setBase lvl
  let st := x.c 0
  let x := x.setC (b + 5) (BitVec.ofNat 64 (fget st 0 7))
  let x := x.setC 0 (statusFix (setBit (setBit (fset st 0 2 lvl) 2 false) 4 false))
  let x := x.setC (b + 1) e.epc
  let x := x.setC (b + 2) etgt
  let x := x.setC (b + 3) (BitVec.ofNat 64 e.cause)
  let x := x.setC (b + 4) e.val
  x.setC (b + 6) (BitVec.ofNat 64 erep)

/-- A thread that goes on at a vector of a level. -/
def Thread.vectored (x : Thread) (lvl off : Nat) : Thread :=
  { x with pc := x.c (setBase lvl) + BitVec.ofNat 64 off, slot := none, repLeft := none, run := .running }

theorem Thread.setC_but {x y : Thread} (h : ∃ z : SMap Word, y = { x with cr := z }) (n : Nat) (v : Word) :
    ∃ z : SMap Word, y.setC n v = { x with cr := z } := by
  obtain ⟨z, rfl⟩ := h
  exact ⟨_, rfl⟩

/-- Those writes leave all else of the thread as it is. -/
theorem Thread.saved_eq (x : Thread) (lvl : Nat) (e : Exc) (etgt : Word) (erep : Nat) :
    ∃ z : SMap Word, x.saved lvl e etgt erep = { x with cr := z } := by
  unfold Thread.saved
  iterate 7 refine Thread.setC_but ?_ _ _
  exact ⟨x.cr, rfl⟩

theorem Thread.saved_c (x : Thread) (lvl : Nat) (e : Exc) (etgt : Word) (erep : Nat) (n : Nat) :
    let b := setBase lvl
    (x.saved lvl e etgt erep).c n = if n = b + 6 then BitVec.ofNat 64 erep else if n = b + 4 then e.val
      else if n = b + 3 then BitVec.ofNat 64 e.cause else if n = b + 2 then etgt else if n = b + 1 then e.epc
      else if n = 0 then statusFix (setBit (setBit (fset (x.c 0) 0 2 lvl) 2 false) 4 false)
      else if n = b + 5 then BitVec.ofNat 64 (fget (x.c 0) 0 7) else x.c n := by
  simp only [Thread.saved, Thread.c, Thread.setC, SMap.get_put]

theorem State.enterSet_eq (s : State) (t : Tid) (lvl : Nat) (e : Exc) (space : Nat) : ∃ etgt erep,
    s.enterSet t lvl false e space none = (s.setThr t ((((s.thr t).prepared lvl e space).saved lvl e etgt erep).vectored lvl (entryOffset lvl e.code e.int false))).tick := by
  refine ⟨e.bd.getD (Config.freeWord s.freeCtr), e.rep.getD (1 + Config.freeNat s.freeCtr % 64), ?_⟩
  unfold State.enterSet Thread.saved Exc.cause
  simp only [Bool.and_false, Bool.false_and, Bool.false_eq_true, if_false, Nat.add_zero, b2n, Option.isSome_none, Nat.mul_zero]
  cases e.bd <;> cases e.rep <;> rfl

theorem Thread.stage_eq (x : Thread) (va : Word) (space id : Nat) (enc : Bool) (slot : Option Nat) :
    (∃ y : SMap Word, x.stage va space enc id slot = { x with cr := y })
      ∧ ∀ n, n < 0x100 → (x.stage va space enc id slot).c n = x.c n := by
  unfold Thread.stage
  cases slot with
  | none =>
    refine ⟨⟨_, rfl⟩, fun n hn => ?_⟩
    iterate 4 rw [Thread.c_setC_ne _ _ _ _ (by omega)]
  | some i =>
    refine ⟨⟨_, rfl⟩, fun n hn => ?_⟩
    iterate 5 rw [Thread.c_setC_ne _ _ _ _ (by omega)]

@[simp] theorem Thread.gr_mcNested (x : Thread) (m : Option Bool) (r : Nat) : ({ x with mcNested := m } : Thread).gr r = x.gr r := rfl

@[simp] theorem Thread.fr_mcNested (x : Thread) (m : Option Bool) (r : Nat) : ({ x with mcNested := m } : Thread).fr r = x.fr r := rfl

/-- The preparation writes no general or floating-point register, and of the low control registers ACT alone. -/
theorem Thread.prepared_keeps (x : Thread) (lvl : Nat) (e : Exc) (space : Nat) :
    (∀ r, (x.prepared lvl e space).gr r = x.gr r) ∧ (∀ r, (x.prepared lvl e space).fr r = x.fr r)
      ∧ (∀ n, n < 0x70 → n ≠ setBase lvl + 7 → (x.prepared lvl e space).c n = x.c n)
      ∧ (setBase lvl + 7 < 0x70 → bit ((x.prepared lvl e space).c (setBase lvl + 7)) 0 = true)
      ∧ (entryOffset lvl e.code e.int false = 0x500 → bit ((x.prepared lvl e space).c 0x070) 0 = true) := by
  have hset (y : Thread) (n : Nat) (v : Word) (r : Nat) : (y.setC n v).gr r = y.gr r ∧ (y.setC n v).fr r = y.fr r := ⟨rfl, rfl⟩
  have hstage (y : Thread) (r : Nat) : (y.stage e.val space false 0 e.slot).gr r = y.gr r ∧ (y.stage e.val space false 0 e.slot).fr r = y.fr r := by
    obtain ⟨z, hz⟩ := (y.stage_eq e.val space 0 false e.slot).1
    rw [hz]
    exact ⟨rfl, rfl⟩
  have hlow (y : Thread) {n : Nat} (hn : n < 0x70) : (y.stage e.val space false 0 e.slot).c n = y.c n :=
    (y.stage_eq e.val space 0 false e.slot).2 n (by omega)
  have hc {n : Nat} (hn : n < 0x70) : (x.prepared lvl e space).c n = (x.setC (setBase lvl + 7) (setBit (x.c (setBase lvl + 7)) 0 true)).c n := by
    have h10A (y : Thread) (v : Word) : (y.setC 0x10A v).c n = y.c n := Thread.c_setC_ne _ _ _ _ (by omega)
    have h70 (y : Thread) (v : Word) (m : Option Bool) : ({ y.setC 0x070 v with mcNested := m } : Thread).c n = y.c n :=
      (Thread.c_setC_ne y 0x070 n v (by omega) :)
    unfold Thread.prepared
    dsimp only
    split_ifs <;> simp only [h10A, h70, hlow _ hn]
  refine ⟨fun r => ?_, fun r => ?_, fun n hn hne => ?_, fun hb => ?_, fun h => ?_⟩
  · unfold Thread.prepared
    dsimp only
    split_ifs <;> simp only [Thread.gr_mcNested, hset, hstage]
  · unfold Thread.prepared
    dsimp only
    split_ifs <;> simp only [Thread.fr_mcNested, hset, hstage]
  · rw [hc hn, Thread.c_setC_ne _ _ _ _ hne]
  · rw [hc hb, Thread.c_setC_same, bit_setBit_same _ _ _ (by decide)]
  · unfold Thread.prepared
    dsimp only
    rw [if_pos h]
    exact (congrArg (bit · 0) (Thread.c_setC_same _ _ _)).trans (bit_setBit_same _ _ _ (by decide))

theorem State.enterSet_primary (s : State) (t : Tid) (lvl : Nat) (e : Exc) (space : Nat) (hl : 1 ≤ lvl ∧ lvl ≤ 3) :
    (s.thr t).EntersPrimary ((s.enterSet t lvl false e space none).thr t) lvl e := by
  obtain ⟨etgt, erep, h⟩ := s.enterSet_eq t lvl e space
  obtain ⟨hg, hf, hk, hact, hmc⟩ := (s.thr t).prepared_keeps lvl e space
  have hb : 0x10 ≤ setBase lvl ∧ setBase lvl ≤ 0x50 := by unfold setBase; omega
  rw [h, show (State.tick (s.setThr t _)).thr t = _ from State.thr_setThr _ _ _]
  have hz := hk 0 (by decide) (by omega)
  generalize ((s.thr t).prepared lvl e space) = y at hg hf hk hact hmc hz
  obtain ⟨z, hs⟩ := y.saved_eq lvl e etgt erep
  have hsc := y.saved_c lvl e etgt erep
  have hc {n : Nat} (h : n = 0x070 ∨ n = 1 ∨ n = setBase lvl ∨ n = setBase lvl + 7) : (y.saved lvl e etgt erep).c n = y.c n := by
    rw [hsc]
    repeat rw [if_neg (by omega)]
  have hst : (y.saved lvl e etgt erep).c 0 = statusFix (setBit (setBit (fset ((s.thr t).c 0) 0 2 lvl) 2 false) 4 false) := by
    rw [hsc]
    repeat rw [if_neg (by omega)]
    rw [if_pos rfl, hz]
  generalize y.saved lvl e etgt erep = w at hs hsc hc hst
  constructor
  case epc => exact (hsc _).trans (by simp)
  case cause => exact (hsc _).trans (by simp)
  case val => exact (hsc _).trans (by simp)
  case status => exact (hsc _).trans (by simp [hz])
  case act => exact (congrArg (bit · 0) (hc (by omega))).trans (hact (by omega))
  case pl =>
    refine (congrArg (fget · 0 2) hst).trans ?_
    rw [statusFix, fget_setBit_ne _ _ _ _ _ (by decide) (by decide), fget_setBit_ne _ _ _ _ _ (by decide) (by decide),
      fget_setBit_ne _ _ _ _ _ (by decide) (by decide), fget_fset_same _ _ _ _ (by decide)]
    omega
  case cie =>
    refine (congrArg (bit · 4) hst).trans ?_
    rw [statusFix, bit_setBit_ne _ _ _ _ (by decide) (by decide), bit_setBit_same _ _ _ (by decide)]
  case fcsr => exact (hc (by omega)).trans (hk 1 (by decide) (by omega))
  case mcact => exact fun h => (congrArg (bit · 0) (hc (by omega))).trans (hmc h)
  case pc => exact congrArg (· + _) ((hc (by omega)).trans (hk _ (by omega) (by omega)))
  case slot => rfl
  case run => rfl
  case gr =>
    subst hs
    exact hg
  case fr =>
    subst hs
    exact hf

/-! Taking an exception. -/

theorem State.timed_discard (s : State) (t : Tid) : s.timed (s.discard t) t := s.timed_setDec t t _

/-- Where the primary set of the level is free, an exception outside enclave mode enters it; before that only counters move, and what
decides when instructions complete. -/
theorem State.take_primary (s : State) (t : Tid) (e : Exc) (space lvl : Nat) (henc : (s.thr t).enc = false) (hl : lvl ≤ 3)
    (hact : bit ((s.thr t).c (setBase lvl + 7)) 0 = false)
    (hmc : (!e.int && 0x80 ≤ e.code && e.code ≤ 0x82 && bit ((s.thr t).c 0x070) 0) = false) :
    ∃ v, s.timed v t ∧ s.take t e space lvl = v.enterSet t lvl false e space none := by
  have hv : s.timed (if isMiss e.code && !e.int then (s.discard t).pmEvent t 0x34 else s.discard t) t := by
    split
    · exact State.timed_trans (s.timed_discard t) (State.timed_pmEvent _ t 0x34)
    · exact s.timed_discard t
  refine ⟨_, hv, ?_⟩
  unfold State.take
  dsimp only
  rw [hmc, henc]
  simp only [Bool.false_eq_true, if_false]
  generalize (if isMiss e.code && !e.int then (s.discard t).pmEvent t 0x34 else s.discard t) = v at hv
  obtain ⟨-, -, -, y, hy, hc⟩ := hv
  have hb : bit ((v.thr t).c (setBase lvl + 7)) 0 = false := by
    rw [hy]
    exact (congrArg (bit · 0) (hc _ (isPmc_rs (by unfold setBase; omega)))).trans hact
  unfold State.enterAt
  simp only [hb, Bool.not_false, if_true]

theorem Thread.EntersPrimary.of_timed {s v : State} {t : Tid} {y : Thread} {lvl : Nat} {e : Exc} (h : s.timed v t) (hl : lvl ≤ 3)
    (he : (v.thr t).EntersPrimary y lvl e) : (s.thr t).EntersPrimary y lvl e := by
  obtain ⟨-, -, -, z, hz, hc⟩ := h
  have hcv {n : Nat} (hn : n ≤ 0x300) : (v.thr t).c n = (s.thr t).c n := by
    rw [hz]
    exact hc n (isPmc_rs hn)
  refine { he with status := ?_, fcsr := ?_, pc := ?_, gr := fun r => ?_, fr := fun r => ?_ }
  · rw [he.status, hcv (by decide)]
  · rw [he.fcsr, hcv (by decide)]
  · rw [he.pc, hcv (by unfold setBase; omega)]
  · rw [he.gr, hz]
    rfl
  · rw [he.fr, hz]
    rfl

/-- An exception taken through the primary set of a level. -/
theorem State.take_enters (s : State) (t : Tid) (e : Exc) (space lvl : Nat) (henc : (s.thr t).enc = false) (hl : 1 ≤ lvl ∧ lvl ≤ 3)
    (hact : bit ((s.thr t).c (setBase lvl + 7)) 0 = false)
    (hmc : (!e.int && 0x80 ≤ e.code && e.code ≤ 0x82 && bit ((s.thr t).c 0x070) 0) = false) :
    (s.thr t).EntersPrimary ((s.take t e space lvl).thr t) lvl e := by
  obtain ⟨v, hv, h⟩ := s.take_primary t e space lvl henc hl.2 hact hmc
  rw [h]
  exact Thread.EntersPrimary.of_timed hv hl.2 (v.enterSet_primary t lvl e space hl)

/-- The rest of the state after such an entry: what only counting changes, and the next free value's number. -/
theorem State.take_beside (s : State) (t : Tid) (e : Exc) (space lvl : Nat) (henc : (s.thr t).enc = false) (hl : lvl ≤ 3)
    (hact : bit ((s.thr t).c (setBase lvl + 7)) 0 = false)
    (hmc : (!e.int && 0x80 ≤ e.code && e.code ≤ 0x82 && bit ((s.thr t).c 0x070) 0) = false) :
    (s.take t e space lvl).beside = s.tick.beside ∧ ∀ a, (s.take t e space lvl).rdw a = s.rdw a := by
  obtain ⟨v, ⟨hb, -, ha, -⟩, h⟩ := s.take_primary t e space lvl henc hl hact hmc
  obtain ⟨etgt, erep, he⟩ := v.enterSet_eq t lvl e space
  rw [h, he]
  exact ⟨congrArg State.tick hb, ha⟩

end Sys2Proof.Machine
end

section
/-!
TRAP INSTRUCTIONS AND COPROCESSOR OPCODES: what an exception enters.
-/
namespace Sys2Proof.Machine

set_option Elab.async false

/-! Exceptions that an instruction raises. -/

/-- The exception that a trap of a thread's instruction raises. -/
def Trap.exc (x : Trap) (th : Thread) (rep : Option Nat) : Exc :=
  { code := x.code, val := x.val, int := false, epc := th.pc + BitVec.ofNat 64 x.adv, bd := th.slot, rep := rep, slot := x.slot }

theorem routedLvl_bounds (code : Nat) : 1 ≤ routedLvl code ∧ routedLvl code ≤ 3 := by
  unfold routedLvl
  split_ifs
  · exact ⟨by decide, by decide⟩
  · split <;> exact ⟨by decide, by decide⟩

/-- A trap below the machine checks enters the higher of its routed level and the thread's. -/
theorem State.raise_enters (s : State) (t : Tid) (x : Trap) (rep : Option Nat) (henc : (s.thr t).enc = false) (hcode : x.code < 0x80)
    (hact : bit ((s.thr t).c (setBase (Nat.max (routedLvl x.code) (s.thr t).pl) + 7)) 0 = false) :
    (s.thr t).EntersPrimary ((s.raise t x rep).thr t) (Nat.max (routedLvl x.code) (s.thr t).pl) (x.exc (s.thr t) rep) := by
  have hp : (s.thr t).pl < 4 := fget_lt _ _ _
  obtain ⟨h1, h3⟩ := routedLvl_bounds x.code
  refine s.take_enters t (x.exc (s.thr t) rep) x.space _ henc ⟨le_max_of_le_left h1, Nat.max_le.mpr ⟨h3, by omega⟩⟩ hact ?_
  have h80 : decide (0x80 ≤ x.code) = false := decide_eq_false (by omega)
  show (true && decide (0x80 ≤ x.code) && _ && _) = false
  rw [h80]
  rfl

theorem State.turned_running (s : State) (t : Tid) : s.turned (s.running t) t { s.thr t with run := .running } :=
  ⟨⟨s.running_beside t, fun k hk => s.running_thrN_ne t k hk, fun a ha => s.running_rdw t a ha⟩, (s.thr t).cr, s.running_thr t, fun _ _ => rfl⟩

/-- An instruction that nothing but the decode table stops raises the cause of the table. -/
theorem State.issue_decode {s : State} {t : Tid} {i : Instr} {body : State → Out} (h1 : s.canIssue t = true) (h2 : s.latent = [])
    (h3 : (s.core (coreKey t)).tlbBad = []) (h4 : s.sec.stepping.contains t.val = false) (h5 : (s.running t).fetchTrap t = none)
    (h6 : (s.running t).fetchReady t = true) (h7 : (s.running t).decodeCode t i ≠ 0) (h8 : (s.running t).decodeCode t i ≠ 0x43) :
    s.issue t i body = (s.running t).raise t (.mk1 ((s.running t).decodeCode t i) ((encode i).setWidth 64)) none := by
  have hr : (s.running t).core (coreKey t) = s.core (coreKey t) := by simp [State.core]
  unfold State.issue State.run1
  rw [if_pos h1, State.scrub_nil s _ h2, if_pos h1, State.tlbScrub_nil _ t (by rw [hr]; exact h3)]
  simp only [h4, Bool.false_eq_true, if_false]
  simp [h5, State.fetched_ready _ t h6, h7, h8]

/-! Trap instructions (R96, R110). -/

/-- A cause that is neither a miss nor a machine check. -/
def plainCode (code : Nat) : Bool := decide (code < 0x80) && !isMiss code && code != 0x50

theorem lt_of_plainCode {code : Nat} (h : plainCode code = true) : code < 0x80 := by
  simp only [plainCode, Bool.and_eq_true, decide_eq_true_eq] at h
  exact h.1.1

/-- An exception that is neither a miss nor a machine check enters at the vector itself. -/
theorem entryOffset_plain {code : Nat} (lvl : Nat) (h : plainCode code = true) : entryOffset lvl code false false = 0 := by
  simp only [plainCode, Bool.and_eq_true, decide_eq_true_eq, Bool.not_eq_true', bne_iff_ne] at h
  obtain ⟨⟨hlt, hmiss⟩, hgpm⟩ := h
  have h80 : decide (0x80 ≤ code) = false := decide_eq_false (by omega)
  simp [entryOffset, hmiss, hgpm, h80]

/-- Outside a delay slot, the thread after a trap below the machine checks: the primary set of the level, STATUS, and the vector. -/
theorem State.raise_word {s v : State} {t : Tid} {x : Trap} (hv : s.turned v t { s.thr t with run := .running })
    (hcode : plainCode x.code = true) (henc : (s.thr t).enc = false) (hslot : (s.thr t).slot = none) :
    let lvl := max (routedLvl x.code) (fget ((s.thr t).c 0) 0 2)
    let b := 0x10 + (lvl - 1) * 0x20
    let y := (v.raise t x none).thr t
    bit ((s.thr t).c (b + 7)) 0 = false →
    y.c (b + 5) = BitVec.ofNat 64 (fget ((s.thr t).c 0) 0 7) ∧ fget (y.c (b + 3)) 0 9 = x.code ∧ y.c (b + 4) = x.val
      ∧ y.c (b + 1) = (s.thr t).pc + BitVec.ofNat 64 x.adv ∧ bit (y.c (b + 7)) 0 = true ∧ fget (y.c 0) 0 2 = lvl ∧ bit (y.c 0) 4 = false
      ∧ y.pc = (s.thr t).c b ∧ y.slot = none
      ∧ (∀ r, y.gr r = (s.thr t).gr r) ∧ ∀ r, y.fr r = (s.thr t).fr r := by
  intro lvl b y hact
  have hlt := lt_of_plainCode hcode
  have hc {n : Nat} (hn : n ≤ 0x300) : (v.thr t).c n = (s.thr t).c n := hv.c (isPmc_rs hn)
  have hl : lvl ≤ 3 := Nat.max_le.mpr ⟨(routedLvl_bounds x.code).2, by have := fget_lt ((s.thr t).c 0) 0 2; omega⟩
  have hpl : Nat.max (routedLvl x.code) (v.thr t).pl = lvl := congrArg (fun w => max (routedLvl x.code) (fget w 0 2)) (hc (by decide))
  have henc' : (v.thr t).enc = false := (congrArg (bit · 2) (hc (by decide))).trans henc
  have he := v.raise_enters t x none henc' hlt (by rw [hpl, hc (by unfold setBase; omega)]; exact hact)
  rw [hpl] at he
  refine ⟨?_, ?_, he.val, ?_, he.act, he.pl, he.cie, ?_, he.slot, fun r => (he.gr r).trans (hv.gr r), fun r => (he.fr r).trans (hv.fr r)⟩
  · exact he.status.trans (by rw [hc (by decide)])
  · refine (congrArg (fget · 0 9) he.cause).trans ?_
    have hs : (v.thr t).slot = none := hv.slot.trans hslot
    simp only [Exc.cause, Trap.exc, hs, b2n, Option.isSome_none, Bool.false_eq_true, if_false, fget, BitVec.toNat_ofNat]
    omega
  · exact he.epc.trans (congrArg (· + _) hv.pc)
  · refine he.pc.trans ?_
    rw [show entryOffset lvl (x.exc (v.thr t) none).code (x.exc (v.thr t) none).int false = 0 from entryOffset_plain _ hcode,
      hc (by unfold setBase; omega)]
    exact BitVec.add_zero _

/-- A trap instruction is no sift command. -/
theorem isSift_encSys {i : Instr} {sub : Nat} {code : BitVec 12} (hs : sub < 16) (h : encode i = encSys 0 0 sub code.toNat) : isSift i = false := by
  have hc := code.isLt
  have ho : wf (encode i) 26 6 = 0x2C := by
    rw [h]
    exact wf_encRI_op 0 0 (by decide) (by omega)
  unfold isSift
  simp only [ho]
  decide

/-- What holds where thread t issues i and nothing before the decode checks stops it. -/
def State.fetches (s : State) (t : Tid) : Prop :=
  s.canIssue t = true ∧ s.latent = [] ∧ (s.core (coreKey t)).tlbBad = [] ∧ s.sec.stepping.contains t.val = false
    ∧ (s.running t).fetchTrap t = none ∧ (s.running t).fetchReady t = true

theorem State.issue_trapWord {s : State} {t : Tid} {i : Instr} {body : State → Out} {c : Nat} (hf : s.fetches t)
    (hd : (s.running t).decodeCode t i = 0) (hs : isSift i = false) (hb : ∀ u, body u = trapWord c i u) :
    s.issue t i body = (s.acting t i).raise t ⟨c, (encode i).setWidth 64, none, 0, 4⟩ none := by
  obtain ⟨h1, h2, h3, h4, h5, h6⟩ := hf
  have hr : s.ready t i = true :=
    (s.ready_iff t i).mpr ⟨h1, h2, h3, h4, h5, h6, by rw [State.creditless, hs, Bool.false_and], hd⟩
  rw [State.issue_ready _ _ _ _ hr, hb]
  rfl

/-- Settles O19: the four instructions raise their word when they act, and a coprocessor opcode at its decode check. -/
theorem trapInstructions : Obligations.TrapInstructions := by
  intro s t code func ops
  dsimp only
  simp only [List.forall_mem_cons, List.not_mem_nil, false_imp_iff, implies_true, and_true]
  refine ⟨?_, ?_, ?_, ?_, ?_⟩ <;> intro h1 h2 h3 h4 h5 h6 hd henc hact hslot
  · have h := State.issue_trapWord (body := bodyBrk t code) ⟨h1, h2, h3, h4, h5, h6⟩ hd (isSift_encSys (sub := 4) (by decide) rfl) fun _ => rfl
    exact ⟨_, congrArg Host.Outcome.next h, State.raise_word (s.turned_acting t _) rfl henc hslot hact⟩
  · have h := State.issue_trapWord (body := bodySysc t code) ⟨h1, h2, h3, h4, h5, h6⟩ hd (isSift_encSys (sub := 5) (by decide) rfl) fun _ => rfl
    exact ⟨_, congrArg Host.Outcome.next h, State.raise_word (s.turned_acting t _) rfl henc hslot hact⟩
  · have h := State.issue_trapWord (body := bodyHvc t code) ⟨h1, h2, h3, h4, h5, h6⟩ hd (isSift_encSys (sub := 6) (by decide) rfl) fun _ => rfl
    exact ⟨_, congrArg Host.Outcome.next h, State.raise_word (s.turned_acting t _) rfl henc hslot hact⟩
  · have h := State.issue_trapWord (body := bodyMonc t code) ⟨h1, h2, h3, h4, h5, h6⟩ hd (isSift_encSys (sub := 7) (by decide) rfl) fun _ => rfl
    exact ⟨_, congrArg Host.Outcome.next h, State.raise_word (s.turned_acting t _) rfl henc hslot hact⟩
  · replace hd : (s.running t).decodeCode t (.cust t func ops) = 5 := hd
    have h := State.issue_decode (body := bodyCust t func ops) h1 h2 h3 h4 h5 h6 (by rw [hd]; decide) (by rw [hd]; decide)
    rw [hd] at h
    exact ⟨_, congrArg Host.Outcome.next h, State.raise_word (s.turned_running t) rfl henc hslot hact⟩

end Sys2Proof.Machine
end

section
/-!
FLOATING-POINT OPERATIONS: their result, their flags, and FP_TRAP (R47, R83).
-/
namespace Sys2Proof.Machine

set_option Elab.async false

/-! The operands in the state in which an operation acts. -/

theorem State.acting_rm (s : State) (t : Tid) (i : Instr) : ((s.acting t i).thr t).rm = fget ((s.thr t).c 1) 0 2 :=
  congrArg (fget · 0 2) (s.acting_thr_c t i 1 rfl)

theorem State.acting_fb (s : State) (t : Tid) (i : Instr) (w : Bool) (r : Rn) : (s.acting t i).fb t w r = s.fb t w r := by
  rw [State.fb, State.fb, State.acting_f]

theorem State.acting_fv (s : State) (t : Tid) (i : Instr) (w : Bool) (r : Rn) : (s.acting t i).fv t w r = s.fv t w r := by
  rw [State.fv, State.fv, State.acting_fb]

/-! FCSR. -/

/-- The trap enables of FCSR. -/
theorem fget_trapEnables (c : Word) : fget c 0 12 / 32 = fget c 5 7 := by
  unfold fget
  omega

/-- A thread with flags set in FCSR. -/
def Thread.flagged (x : Thread) (flags : Nat) : Thread := if flags = 0 then x else x.setC 1 (x.c 1 ||| BitVec.ofNat 64 flags)

theorem Thread.flagged_eq (x : Thread) (flags : Nat) : ∃ y : SMap Word, x.flagged flags = { x with cr := y } := by
  unfold Thread.flagged
  split
  · exact ⟨x.cr, rfl⟩
  · exact ⟨_, rfl⟩

theorem Thread.flagged_fcsr (x : Thread) (flags : Nat) : (x.flagged flags).c 1 = x.c 1 ||| BitVec.ofNat 64 flags := by
  unfold Thread.flagged
  split
  · rename_i h
    rw [h]
    exact BitVec.or_zero.symm
  · exact Thread.c_setC_same _ _ _

theorem Thread.flagged_c (x : Thread) (flags : Nat) {n : Nat} (h : n ≠ 1) : (x.flagged flags).c n = x.c n := by
  unfold Thread.flagged
  split
  · rfl
  · exact Thread.c_setC_ne _ _ _ _ h

/-- The end of an operation: its flags are set, and it traps or writes back. -/
theorem State.turned.fpEnd {s v : State} {t : Tid} {x : Thread} (hv : s.turned v t x) (flags : Nat) (wb : State → State) :
    ∃ u, s.turned u t ((v.thr t).flagged flags) ∧ u.thr t = (v.thr t).flagged flags
      ∧ v.fpEnd t flags wb = if fget ((v.thr t).c 1) 5 7 &&& flags ≠ 0 then .trap u (.mk1 0x0D (BitVec.ofNat 64 flags)) else .done (wb u) := by
  by_cases h : flags = 0
  · have hf : (v.thr t).flagged flags = v.thr t := if_pos h
    refine ⟨v, ?_, hf.symm, ?_⟩
    · rw [hf]
      exact ⟨hv.onlyThread, (v.thr t).cr, rfl, fun _ _ => rfl⟩
    · rw [← fget_trapEnables]
      unfold State.fpEnd
      simp only [h, if_true]
  · have hf : (v.thr t).flagged flags = (v.thr t).setC 1 ((v.thr t).c 1 ||| BitVec.ofNat 64 flags) := if_neg h
    refine ⟨v.setThr t ((v.thr t).flagged flags), hv.setThr _, State.thr_setThr _ _ _, ?_⟩
    rw [← fget_trapEnables, hf]
    unfold State.fpEnd
    simp only [h, if_false]

/-- An operation none of whose flags traps. -/
theorem State.issue_fpTo {s : State} {t : Tid} {i : Instr} {body : State → Out} {d : Rn} {r : Nat × Nat} (hr : s.ready t i = true)
    (hb : body (s.acting t i) = (s.acting t i).fpTo t d r)
    (hno : fget ((s.thr t).c 1) 5 7 = 0 ∨ fget ((s.thr t).c 1) 5 7 &&& r.2 = 0) :
    let u := s.issue t i body
    (u.f t d).toNat = r.1 % 2 ^ 64 ∧ s.retired u t ∧ s.onlyThread u t ∧ (u.thr t).c 1 = (s.thr t).c 1 ||| BitVec.ofNat 64 r.2
      ∧ (∀ q, (u.thr t).gr q = (s.thr t).gr q) ∧ (∀ q, q ≠ d.val → (u.thr t).fr q = (s.thr t).fr q)
      ∧ ∀ n, n ≠ 1 → isPmc n = false → (u.thr t).c n = (s.thr t).c n := by
  have ha := s.turned_acting t i
  obtain ⟨v, hv, hvt, hend⟩ := ha.fpEnd r.2 fun u => u.setF t d (BitVec.ofNat 64 r.1)
  have hz : fget ((s.thr t).c 1) 5 7 &&& r.2 = 0 := by
    rcases hno with h | h
    · rw [h, Nat.zero_and]
    · exact h
  have hc1 : ((s.acting t i).thr t).c 1 = (s.thr t).c 1 := ha.c rfl
  rw [hc1, if_neg (not_not.mpr hz)] at hend
  obtain ⟨y, hy⟩ := ((s.acting t i).thr t).flagged_eq r.2
  have hw := hv.setThr ((v.thr t).setFr d.val (BitVec.ofNat 64 r.1))
  have hnext : ((v.thr t).setFr d.val (BitVec.ofNat 64 r.1)).slot.getD (((v.thr t).setFr d.val (BitVec.ofNat 64 r.1)).pc + 4) = s.nextPc t := by
    rw [Thread.slot_setFr, Thread.pc_setFr, hvt, hy]
    exact (congrArg₂ (fun p q => Option.getD p (q + 4)) ha.slot ha.pc :)
  have hrun : ((v.thr t).setFr d.val (BitVec.ofNat 64 r.1)).run = .running := by
    rw [Thread.run_setFr, hvt, hy]
    exact ha.run
  obtain ⟨h1, h2, -, h4, h5, h6⟩ := State.became_ends hw hrun hnext (s.thr t).pc i
  dsimp only
  rw [State.issue_ready _ _ _ _ hr, hb, State.fpTo, hend]
  refine ⟨?_, h1, h2, ?_, fun q => ?_, fun q hq => ?_, fun n hn hp => ?_⟩
  · refine (congrArg BitVec.toNat ((h5 d.val).trans (Thread.fr_setFr_same _ _ _))).trans ?_
    exact BitVec.toNat_ofNat _ _
  · rw [← hc1, ← Thread.flagged_fcsr, ← hvt]
    exact h6 1 rfl
  · refine (h4 q).trans ?_
    rw [Thread.gr_setFr, hvt, hy]
    exact ha.gr q
  · refine (h5 q).trans ?_
    rw [Thread.fr_setFr_ne _ _ _ _ hq, hvt, hy]
    exact ha.fr q
  · refine (h6 n hp).trans ?_
    rw [Thread.c_setFr, hvt, Thread.flagged_c _ _ hn]
    exact ha.c hp

/-- An operation one of whose flags traps, at S through the primary set. -/
theorem State.issue_fpTo_trap {s : State} {t : Tid} {i : Instr} {body : State → Out} {d : Rn} {r : Nat × Nat} (hr : s.ready t i = true)
    (hb : body (s.acting t i) = (s.acting t i).fpTo t d r) (htrap : fget ((s.thr t).c 1) 5 7 &&& r.2 ≠ 0) (henc : (s.thr t).enc = false)
    (hpl : fget ((s.thr t).c 0) 0 2 = 1) (hact : bit ((s.thr t).c 0x017) 0 = false) :
    let u := s.issue t i body
    (u.thr t).c 0x013 &&& 0xFF = 0x0D ∧ (u.thr t).c 0x014 = BitVec.ofNat 64 r.2 ∧ (u.thr t).c 0x011 = (s.thr t).pc
      ∧ (u.thr t).pc = (s.thr t).c 0x010 ∧ (u.thr t).c 1 = (s.thr t).c 1 ||| BitVec.ofNat 64 r.2 ∧ u.f t d = s.f t d := by
  have ha := s.turned_acting t i
  obtain ⟨v, hv, hvt, hend⟩ := ha.fpEnd r.2 fun u => u.setF t d (BitVec.ofNat 64 r.1)
  have hc1 : ((s.acting t i).thr t).c 1 = (s.thr t).c 1 := ha.c rfl
  rw [hc1, if_pos htrap] at hend
  obtain ⟨y, hy⟩ := ((s.acting t i).thr t).flagged_eq r.2
  have hc {n : Nat} (h1 : n ≠ 1) (hn : n ≤ 0x300) : (v.thr t).c n = (s.thr t).c n := by
    rw [hvt, Thread.flagged_c _ _ h1]
    exact ha.c (isPmc_rs hn)
  have hvpl : (v.thr t).pl = 1 := by rw [Thread.pl, hc (by decide) (by decide), hpl]
  have he := v.raise_enters t (.mk1 0x0D (BitVec.ofNat 64 r.2)) none ((congrArg (bit · 2) (hc (by decide) (by decide))).trans henc) (show 0x0D < 0x80 by decide)
    (by rw [hvpl]; exact (congrArg (bit · 0) (hc (n := 0x017) (by decide) (by decide))).trans hact)
  rw [hvpl] at he
  dsimp only
  rw [State.issue_ready _ _ _ _ hr, hb, State.fpTo, hend]
  refine ⟨?_, he.val, ?_, ?_, ?_, ?_⟩
  · refine (congrArg (· &&& 0xFF) he.cause).trans ?_
    simp only [Exc.cause, Trap.exc, Trap.mk1, Option.isSome_none]
    cases (v.thr t).slot.isSome <;> rfl
  · refine he.epc.trans ((BitVec.add_zero _).trans ?_)
    rw [hvt, hy]
    exact ha.pc
  · exact he.pc.trans ((BitVec.add_zero _).trans (hc (n := 0x010) (by decide) (by decide)))
  · rw [← hc1, ← Thread.flagged_fcsr, ← hvt]
    exact he.fcsr
  · refine (he.fr d.val).trans ?_
    rw [hvt, hy]
    exact ha.fr d.val

/-- Settles O8: every operation ends in the same way, with the bits and flags of its own rule. -/
theorem floatArithmetic : Obligations.FloatArithmetic := by
  refine ⟨fun s t w d a b c => ?_, fun s t w d a b => ?_⟩
  · dsimp only
    simp only [List.forall_mem_cons, List.not_mem_nil, false_imp_iff, implies_true, and_true]
    refine ⟨?_, ?_, ?_, ?_, ?_, ?_, ?_, ?_, ?_, ?_, ?_, ?_, ?_, ?_⟩ <;> intro hr hno <;> refine ⟨_, rfl, State.issue_fpTo hr ?_ hno⟩
    · rw [bodyFadd, State.acting_rm, State.acting_fv, State.acting_fv]
    · rw [bodyFsub, State.acting_rm, State.acting_fv, State.acting_fv]
    · rw [bodyFmul, State.acting_rm, State.acting_fv, State.acting_fv]
    · rw [bodyFdiv, State.acting_rm, State.acting_fv, State.acting_fv]
    · rw [bodyFsqrt, State.acting_rm, State.acting_fv]
    · rw [bodyFmin, State.acting_fb, State.acting_fb]
    · rw [bodyFmax, State.acting_fb, State.acting_fb]
    · rw [bodyFcvtf, State.acting_rm, State.acting_g]
    · rw [bodyFcvtfu, State.acting_rm, State.acting_g]
    · rw [bodyFcvtx, State.acting_rm, State.acting_fv]
    · rw [bodyFmadd, State.acting_rm, State.acting_fv, State.acting_fv, State.acting_fv]
    · rw [bodyFmsub, State.acting_rm, State.acting_fv, State.acting_fv, State.acting_fv]
    · rw [bodyFnmsub, State.acting_rm, State.acting_fv, State.acting_fv, State.acting_fv]
    · rw [bodyFnmadd, State.acting_rm, State.acting_fv, State.acting_fv, State.acting_fv]
  · intro r hr htrap henc hpl hact
    exact ⟨_, rfl, State.issue_fpTo_trap hr (by rw [bodyFadd, State.acting_rm, State.acting_fv, State.acting_fv]) htrap henc hpl hact⟩

end Sys2Proof.Machine
end

section
/-!
THE REPEAT PREFIX (R66 to R68), for ADD.
-/
namespace Sys2Proof.Machine

set_option Elab.async false

/-! What routing leaves to the fetch of the next word. -/

/-- State u is state s but for its threads and what decides when instructions complete. -/
def State.aside (s u : State) : Prop :=
  ∃ (x : SMap Thread) (d : SMap Decoupled) (h : SMap (List (Word × Nat))), u = { s with threads := x, dec := d, hints := h }

theorem State.aside_refl (s : State) : s.aside s := ⟨s.threads, s.dec, s.hints, rfl⟩

theorem State.aside.trans {s u v : State} (h : s.aside u) (k : u.aside v) : s.aside v := by
  obtain ⟨_, _, _, rfl⟩ := h
  obtain ⟨x, d, l, rfl⟩ := k
  exact ⟨x, d, l, rfl⟩

theorem State.aside_setThr (s : State) (t : Tid) (x : Thread) : s.aside (s.setThr t x) := ⟨_, s.dec, s.hints, rfl⟩

theorem State.aside_setDec (s : State) (t : Tid) (x : Decoupled) : s.aside (s.setDec t x) := ⟨s.threads, _, s.hints, rfl⟩

theorem State.aside_giveHints (s : State) (t : Tid) (l : List (Word × Nat)) : s.aside (s.giveHints t l) := ⟨s.threads, s.dec, _, rfl⟩

theorem State.aside_count (s : State) (t : Tid) (ev n : Nat) : s.aside (s.count t ev n) := by
  unfold State.count
  dsimp only
  split
  · exact s.aside_refl
  · exact s.aside_setThr t _

theorem State.aside_counts (s : State) (t : Tid) (l : List (Nat × Nat)) : s.aside (s.counts t l) := by
  unfold State.counts
  split
  · exact s.aside_refl
  · clear * -
    induction l generalizing s with
    | nil => exact s.aside_refl
    | cons e l ih => exact (s.aside_count t e.1 e.2).trans (ih _)

theorem State.aside_steered (s : State) (t : Tid) (va : Word) (i : Instr) : s.aside (s.steered t va i) := by
  unfold State.steered State.carry
  split
  · exact s.aside_refl
  · exact (((s.aside_setDec _ _).trans (State.aside_setDec _ t _)).trans (State.aside_giveHints _ t _)).trans (State.aside_counts _ t _)

theorem State.aside.cores {s u : State} (h : s.aside u) : u.cores = s.cores := by
  obtain ⟨_, _, _, rfl⟩ := h
  rfl

theorem State.aside.core {s u : State} (h : s.aside u) (k : Nat) : u.core k = s.core k := by
  obtain ⟨_, _, _, rfl⟩ := h
  rfl

theorem State.aside.fetchPoison {s u : State} (h : s.aside u) (pa ks : Nat) : u.fetchPoison pa ks = s.fetchPoison pa ks := by
  obtain ⟨_, _, _, rfl⟩ := h
  rfl

/-- Two threads have the same control registers, but for the counters. -/
def Thread.sameCr (x y : Thread) : Prop := ∀ n, isPmc n = false → y.c n = x.c n

theorem TlbSlot.hits_sameCr {x y : Thread} (h : x.sameCr y) (e : TlbSlot) (space : Nat) (va : Word) : e.hits y space va = e.hits x space va := by
  unfold TlbSlot.hits Thread.vmid Thread.vmctlVmid Thread.pl Thread.enc Thread.encId
  rw [h 0 rfl, h 0x104 rfl, h 0x400 rfl, h 0x500 rfl]

theorem permCode_sameCr {x y : Thread} (h : x.sameCr y) (e : TlbSlot) (u : Use) : permCode e y u = permCode e x u := by
  unfold permCode Thread.pl
  rw [h 0 rfl, h 0x180 rfl]

/-- A translation reads no counter, and nothing of the timing. -/
theorem State.xlate_aside {s u : State} {t : Tid} (h : s.aside u) (hc : (s.thr t).sameCr (u.thr t)) (a : Use) (va : Word) :
    u.xlate t a va = s.xlate t a va := by
  have hm (space : Nat) : u.tlbMatch t space va = s.tlbMatch t space va := by
    unfold State.tlbMatch
    rw [h.core]
    congr 1
    exact funext fun e => TlbSlot.hits_sameCr hc _ _ _
  unfold State.xlate
  rw [hm]
  simp only [permCode_sameCr hc]

theorem State.fetchTrap_aside {s u : State} {t : Tid} (h : s.aside u) (hc : (s.thr t).sameCr (u.thr t)) (hpc : (u.thr t).pc = (s.thr t).pc) :
    u.fetchTrap t = s.fetchTrap t := by
  unfold State.fetchTrap
  simp only [hpc, State.xlate_aside h hc, h.fetchPoison]

theorem State.repFetch_aside {s u : State} {t : Tid} (h : s.aside u) (hc : (s.thr t).sameCr (u.thr t)) (hpc : (u.thr t).pc = (s.thr t).pc) :
    u.repFetch t = s.repFetch t := by
  unfold State.repFetch
  refine State.fetchTrap_aside (s := s.setThr t _) ?_ (fun n hn => ?_) ?_
  · obtain ⟨_, d, l, rfl⟩ := h
    exact ⟨_, d, l, rfl⟩
  · rw [State.thr_setThr, State.thr_setThr]
    exact hc n hn
  · rw [State.thr_setThr, State.thr_setThr, hpc]

theorem State.repTarget_aside {s u : State} (h : s.aside u) (t : Tid) (w : BitVec 32) (g : Option Nat) : u.repTarget t w g = s.repTarget t w g := by
  unfold State.repTarget
  simp only [h.core]

theorem State.acting_repFetch (s : State) (t : Tid) (i : Instr) : (s.acting t i).repFetch t = (s.running t).repFetch t :=
  State.repFetch_aside ((s.running t).aside_steered t _ i) (fun n hn => (s.acting_thr_c t i n hn).trans (s.running_thr_c t n).symm)
    ((s.acting_thr_pc t i).trans (s.running_thr_pc t).symm)

theorem State.acting_repTarget (s : State) (t : Tid) (i : Instr) (w : BitVec 32) (g : Option Nat) :
    (s.acting t i).repTarget t w g = (s.running t).repTarget t w g :=
  State.repTarget_aside ((s.running t).aside_steered t _ i) t w g

/-! Iterations of ADD. -/

theorem State.timed_steerCount (s : State) (t : Tid) (g : Rn) : s.timed (s.steerCount t g) t := by
  unfold State.steerCount State.carry
  dsimp only
  split
  · exact s.timed_refl t
  · exact State.timed_trans (State.timed_trans (State.timed_trans (s.timed_setDec t _ _) (State.timed_setDec _ t _ _))
      (State.timed_giveHints _ t _)) (State.timed_counts _ t _)

theorem Thread.setGr_cr (x : Thread) (y : SMap Word) (r : Nat) (v : Word) :
    ({ x with cr := y } : Thread).setGr r v = { x.setGr r v with cr := y } := by
  unfold Thread.setGr
  split <;> rfl

/-- A general register is written. -/
theorem State.turned.setG {s u : State} {t : Tid} {x : Thread} (h : s.turned u t x) (r : Rn) (v : Word) :
    s.turned (u.setG t r v) t (x.setGr r.val v) := by
  obtain ⟨h1, y, h4, h5⟩ := h
  refine ⟨((show s.turned u t x from ⟨h1, y, h4, h5⟩).setThr _).1, y, ?_, fun n hn => (h5 n hn).trans (Thread.c_setGr _ _ _ _).symm⟩
  rw [State.setG, State.thr_setThr, h4, Thread.setGr_cr]

theorem State.decodeCode_add (s : State) (t : Tid) (d a b : Rn) : s.decodeCode t (.add t d a b) = 0 := by
  have hill : s.illegal t (.add t d a b) = false := rfl
  have hslot : slotBad (.add t d a b) = false := rfl
  have hpriv : privBad (s.thr t) (.add t d a b) = false := rfl
  have hunit : unitBad (s.thr t) (.add t d a b) = false := rfl
  unfold State.decodeCode
  simp only [hill, hslot, hpriv, hunit, Bool.and_false, Bool.false_eq_true, if_false]
  rfl

/-- One iteration of ADD. -/
theorem State.repOne_add {s v : State} {t : Tid} {x : Thread} (hv : s.turned v t x) (d b : Rn) :
    ∃ w, v.repOne t (.add t d d b) = .done w
      ∧ s.turned (w.repNext t (.add t d d b)) t (x.setGr d.val (x.gr d.val + x.gr b.val)) := by
  have hst := hv.timed (v.timed_steered t (v.repVa t) (.add t d d b))
  have hw := hst.setG d (x.gr d.val + x.gr b.val)
  refine ⟨_, ?_, hw.timed (State.timed_trans (State.timed_homed _ t _ _) (State.timed_pmEvent _ t 2))⟩
  unfold State.repOne
  simp only [State.decodeCode_add, if_true]
  show bodyAdd t d d b _ = _
  rw [bodyAdd, State.g, State.g, hst.gr, hst.gr]

/-- What is left of the thread after repeated ADDs: its pc past the word, and g[d] greater by n times g[b]. -/
def Thread.summed (x y : Thread) (d b : Rn) (n : Nat) (ok : Nat → Prop) : Prop :=
  y.pc = x.pc + 8 ∧ y.gr d.val = (if d = 0 then 0 else x.gr d.val + BitVec.ofNat 64 n * x.gr b.val)
    ∧ ∀ r, r ≠ d.val → ok r → y.gr r = x.gr r

theorem State.turned.repEnd {s v : State} {t : Tid} {x : Thread} (hv : s.turned v t x) :
    s.turned (v.repEnd t) t { x with pc := x.pc + 8, repLeft := none } := by
  have hp := hv.timed (v.timed_pmEvent t 2)
  obtain ⟨h1, y, h4, h5⟩ := hp
  refine ⟨((show s.turned _ t x from ⟨h1, y, h4, h5⟩).setThr _).1, y, ?_, h5⟩
  unfold State.repEnd
  rw [State.thr_setThr, h4]

theorem Thread.gr_setGr_add (x : Thread) (d b : Rn) (hbd : b ≠ d) :
    let y := x.setGr d.val (x.gr d.val + x.gr b.val)
    y.gr d.val = (if d = 0 then 0 else x.gr d.val + x.gr b.val) ∧ ∀ r, r ≠ d.val → y.gr r = x.gr r := by
  dsimp only
  by_cases hd : d = 0
  · subst hd
    exact ⟨rfl, fun _ _ => rfl⟩
  · have hd0 : d.val ≠ 0 := fun h => hd (Fin.ext h)
    rw [if_neg hd, Thread.gr_setGr _ _ _ _ hd0, if_pos rfl]
    exact ⟨rfl, fun r hr => by rw [Thread.gr_setGr _ _ _ _ hd0, if_neg hr]⟩

theorem Thread.summed_zero (x : Thread) (d b : Rn) (ok : Nat → Prop) (rep : Option Nat) :
    x.summed { x with pc := x.pc + 8, repLeft := rep } d b 0 ok := by
  refine ⟨rfl, ?_, fun r _ _ => rfl⟩
  by_cases hd : d = 0
  · subst hd
    rfl
  · rw [if_neg hd]
    show x.gr d.val = _
    simp

/-- One ADD first, and n after it. -/
theorem Thread.summed_succ {x x' y : Thread} {d b : Rn} {n : Nat} {ok : Nat → Prop} (hb : x'.gr b.val = x.gr b.val)
    (hpc : x'.pc = x.pc) (hd : x'.gr d.val = if d = 0 then 0 else x.gr d.val + x.gr b.val)
    (hr : ∀ r, r ≠ d.val → ok r → x'.gr r = x.gr r) (h : x'.summed y d b n ok) : x.summed y d b (n + 1) ok := by
  obtain ⟨h1, h2, h3⟩ := h
  refine ⟨h1.trans (congrArg (· + 8) hpc), h2.trans ?_, fun r hne hok => (h3 r hne hok).trans (hr r hne hok)⟩
  by_cases h0 : d = 0
  · rw [if_pos h0, if_pos h0]
  · rw [if_neg h0, if_neg h0, hd, if_neg h0, hb, show BitVec.ofNat 64 (n + 1) = BitVec.ofNat 64 n + 1 from BitVec.ofNat_add n 1]
    ring

theorem repLoop_add {s v : State} {t : Tid} {x : Thread} (n : Nat) (hv : s.turned v t x) {d b : Rn} (hbd : b ≠ d) :
    ∃ y, s.turned (repLoop t (.add t d d b) n v) t y ∧ x.summed y d b n fun _ => True := by
  induction n generalizing v x with
  | zero => exact ⟨_, hv.repEnd, x.summed_zero d b _ _⟩
  | succ n ih =>
    obtain ⟨w, hw, ht⟩ := State.repOne_add hv d b
    obtain ⟨h1, h2⟩ := x.gr_setGr_add d b hbd
    obtain ⟨y, hy, hs⟩ := ih ht
    refine ⟨y, ?_, Thread.summed_succ (h2 _ fun h => hbd (Fin.ext h)) (Thread.pc_setGr _ _ _) h1 (fun r hne _ => h2 r hne) hs⟩
    unfold repLoop
    rw [hw]
    exact hy

theorem repGLoop_add {s v : State} {t : Tid} {x : Thread} (fuel n : Nat) (hv : s.turned v t x) {d b g : Rn} (hbd : b ≠ d) (hgd : g ≠ d)
    (hgb : g ≠ b) (hn : (x.gr g.val).toNat = n) (hf : n < fuel) :
    ∃ y, s.turned (repGLoop t g (.add t d d b) fuel v) t y ∧ y.gr g.val = 0 ∧ x.summed y d b n fun r => r ≠ g.val := by
  induction fuel generalizing v x n with
  | zero => omega
  | succ fuel ih =>
    have hvg : v.g t g = x.gr g.val := hv.gr g.val
    unfold repGLoop
    rcases Nat.eq_zero_or_pos n with h0 | hpos
    · have hg0 : x.gr g.val = 0 := BitVec.eq_of_toNat_eq (hn.trans h0)
      rw [if_pos (hvg.trans hg0), h0]
      exact ⟨_, hv.repEnd, hg0, x.summed_zero d b _ _⟩
    · have hne : x.gr g.val ≠ 0 := fun h => by rw [h] at hn; exact hpos.ne hn
      have hg : g.val ≠ 0 := fun h => hne (by rw [h]; rfl)
      rw [if_neg (by rw [hvg]; exact hne)]
      obtain ⟨w, hw, ht⟩ := State.repOne_add hv d b
      obtain ⟨h1, h2⟩ := x.gr_setGr_add d b hbd
      have hgv : g.val ≠ d.val := fun h => hgd (Fin.ext h)
      have hbv : b.val ≠ d.val := fun h => hbd (Fin.ext h)
      have hbg : b.val ≠ g.val := fun h => hgb (Fin.ext h.symm)
      have hcount := ht.setG g (((w.repNext t (.add t d d b)).g t g) - 1)
      rw [show (w.repNext t (.add t d d b)).g t g = x.gr g.val from (ht.gr _).trans (h2 _ hgv)] at hcount
      generalize hx' : x.setGr d.val (x.gr d.val + x.gr b.val) = x' at *
      have hgr (r : Nat) : (x'.setGr g.val (x.gr g.val - 1)).gr r = if r = g.val then x.gr g.val - 1 else x'.gr r :=
        Thread.gr_setGr _ _ _ _ hg
      have hless : ((x'.setGr g.val (x.gr g.val - 1)).gr g.val).toNat = n - 1 := by
        rw [hgr, if_pos rfl]
        have := (x.gr g.val).isLt
        rw [BitVec.toNat_sub_of_le (by rw [BitVec.le_def, hn]; exact hpos), hn]
        rfl
      obtain ⟨y, hy, hz, hs⟩ := ih (n - 1) hcount hless (by omega)
      refine ⟨y, ?_, hz, ?_⟩
      · rw [hw]
        dsimp only
        rw [State.repCount, show (w.repNext t (.add t d d b)).g t g = x.gr g.val from (ht.gr _).trans (h2 _ hgv)]
        exact hy
      · rw [show n = n - 1 + 1 by omega]
        refine Thread.summed_succ ?_ ((Thread.pc_setGr _ _ _).trans ?_) ?_ (fun r hrd hrg => ?_) hs
        · rw [hgr, if_neg hbg, h2 _ hbv]
        · rw [← hx', Thread.pc_setGr]
        · rw [hgr, if_neg hgv.symm, h1]
        · rw [hgr, if_neg hrg, h2 _ hrd]

/-- Settles O21: each iteration adds once, and REP gN counts down beside it. -/
theorem repeatPrefix : Obligations.RepeatPrefix := by
  intro s t d b g nm1 next c
  refine ⟨fun hr hfetch htgt hrep hbd => ?_, fun hr hfetch htgt hbd hgd hgb hc h64 => ?_⟩
  · have ha := s.turned_acting t (.repN t nm1 next)
    obtain ⟨y, hy, hpc, hd, hg⟩ := repLoop_add (nm1.toNat + 1) ha hbd
    have hb : bodyRepN t nm1 next (s.acting t (.repN t nm1 next))
        = .go (repLoop t (.add t d d b) (nm1.toNat + 1) (s.acting t (.repN t nm1 next))) := by
      unfold bodyRepN
      rw [State.acting_repFetch, hfetch, State.acting_repTarget, htgt, ha.repLeft.trans hrep]
      rfl
    refine ⟨_, rfl, ?_⟩
    rw [State.issue_ready _ _ _ _ hr, hb]
    exact ⟨hy.pc.trans hpc, (hy.gr _).trans hd, fun r hne => (hy.gr r).trans (hg r hne trivial), hy.onlyThread⟩
  · have ha := (s.turned_acting t (.repG t g next)).timed (State.timed_steerCount _ t g)
    obtain ⟨y, hy, hz, hpc, hd, hg⟩ := repGLoop_add 65 c ha hbd hgd hgb hc (by omega)
    have hb : bodyRepG t g next (s.acting t (.repG t g next))
        = .go (repGLoop t g (.add t d d b) 65 ((s.acting t (.repG t g next)).steerCount t g)) := by
      unfold bodyRepG
      rw [State.acting_repFetch, hfetch, State.acting_repTarget, htgt]
    refine ⟨_, rfl, ?_⟩
    rw [State.issue_ready _ _ _ _ hr, hb]
    exact ⟨hy.pc.trans hpc, (hy.gr _).trans hz, (hy.gr _).trans hd, fun r hne hng => (hy.gr r).trans (hg r hne hng), hy.onlyThread⟩

end Sys2Proof.Machine
end

section
/-!
STORES THAT BECOME VISIBLE in a local store (R45, R71, R148, R187).
-/
namespace Sys2Proof.Machine

set_option Elab.async false

/-! The die's views (R213). -/

theorem State.promote_eq (s : State) (a : Nat) : ∃ v : SMap Word, s.promote a = { s with views := v } := by
  unfold State.promote
  generalize List.range 8 = l
  induction l generalizing s with
  | nil => exact ⟨s.views, rfl⟩
  | cons d l ih =>
    rw [List.foldl_cons]
    split
    · obtain ⟨v, hv⟩ := ih (s.setView a d (BitVec.ofNat 64 (s.openTake d)))
      exact ⟨v, hv⟩
    · exact ih s

/-! Writes of a local store (R187). -/

/-- A local store's bytes as one write leaves them, and all else of the memory. -/
theorem Mem.writeLs_fold (base : Nat) (bs : List Byte) (m : Mem) (n : Nat) :
    let r := (List.range n).foldl (fun (m : Mem) i => { m with
      ls := SMap.put m.ls (base + i) (bs.getD i 0), lsPoison := m.lsPoison.filter fun x => x != base + i }) m
    r.dev = m.dev ∧ ∀ a, SMap.find? r.ls a = if base ≤ a ∧ a < base + n then some (bs.getD (a - base) 0) else SMap.find? m.ls a := by
  induction n with
  | zero => exact ⟨rfl, fun a => (if_neg (by omega)).symm⟩
  | succ n ih =>
    obtain ⟨h1, h2⟩ := ih
    dsimp only
    rw [List.range_succ, List.foldl_append, List.foldl_cons, List.foldl_nil]
    refine ⟨h1, fun a => ?_⟩
    rw [SMap.find?_put, h2]
    by_cases ha : a = base + n
    · subst ha
      rw [if_pos rfl, if_pos (by omega), Nat.add_sub_cancel_left]
    · rw [if_neg ha]
      exact if_congr (by omega) rfl rfl

/-- A reachable local store takes the bytes of a write, and nothing else changes. -/
theorem State.lsWrite_wrote (s : State) (d o : Nat) (bs : List Byte) (from_ : Option Nat) (h : s.lsReach d from_ = true) :
    s.wroteLs (s.lsWrite d o bs from_) d o bs ∧ (∃ m, s.lsWrite d o bs from_ = { s with mem := m }) := by
  unfold State.lsWrite
  rw [if_pos h]
  obtain ⟨h1, h2⟩ := Mem.writeLs_fold (lsSize * d + o) bs s.mem bs.length
  refine ⟨⟨h1, fun i hi => (h2 _).trans ?_, fun i hi => (h2 _).trans (if_neg (by omega))⟩, _, rfl⟩
  rw [if_pos (by omega), Nat.add_sub_cancel_left, List.getD_eq_getElem _ _ hi, List.getElem?_eq_getElem hi]

/-- A store into a reachable local store. -/
theorem State.storeIn_ls {s : State} {d clu pa x o : Nat} (bs : List Byte) (ks : Nat) (hls : s.lsOf pa = some (x, o))
    (hreach : s.lsReach x (some d) = true) :
    s.wroteLs (s.storeIn d clu pa bs ks) x o bs ∧ ∃ m v, s.storeIn d clu pa bs ks = { s with mem := m, views := v } := by
  obtain ⟨v, hv⟩ : ∃ v : SMap Word, (if x = d then s else s.promote d) = { s with views := v } := by
    split
    · exact ⟨s.views, rfl⟩
    · exact s.promote_eq d
  obtain ⟨hw, m, hm⟩ := State.lsWrite_wrote { s with views := v } x o bs (some d) hreach
  have he : s.storeIn d clu pa bs ks = ({ s with views := v } : State).lsWrite x o bs (some d) := by
    unfold State.storeIn
    rw [hls, ← hv]
  rw [he]
  exact ⟨hw, m, v, hm⟩

/-- A store queue after a piece of its oldest store has become visible. -/
def PendStore.left (p : PendStore) (q : List PendStore) : List PendStore :=
  let k := pieceLen p.pa p.data.length
  if p.data.drop k = [] then q else { p with pa := p.pa + k, data := p.data.drop k } :: q

/-- The oldest store of a thread, to a local store: its piece is written once the queue is shortened. -/
theorem State.commitOne_ls {s : State} {t : Tid} {p : PendStore} {q : List PendStore} {x o : Nat} (hq : (s.thr t).storeQ = p :: q)
    (hls : s.lsOf p.pa = some (x, o)) (hrun : s.dieRunning (dieOf t) = true) :
    ∃ v : State, s.commitOne t = some (v.storeIn (dieOf t) (v.clusterOf t.val) p.pa (p.data.take (pieceLen p.pa p.data.length)) p.kslot)
      ∧ s.aside v ∧ v.thr t = { s.thr t with storeQ := p.left q } := by
  have hw : s.writable t p.pa p.kslot = some s := by
    unfold State.writable State.cached
    rw [hls]
    rfl
  unfold State.commitOne
  rw [hq]
  dsimp only
  rw [if_pos hrun, hw]
  refine ⟨_, rfl, ?_, ?_⟩
  · split
    · exact (s.aside_setThr t _).trans (State.aside_setDec _ t _)
    · exact s.aside_setThr t _
  · unfold PendStore.left
    dsimp only
    split
    · exact State.thr_setThr s t _
    · exact State.thr_setThr s t _

theorem State.aside.lsOf {s u : State} (h : s.aside u) (pa : Nat) : u.lsOf pa = s.lsOf pa := by
  obtain ⟨_, _, _, rfl⟩ := h
  rfl

theorem State.aside.lsReach {s u : State} (h : s.aside u) (d : Nat) (from_ : Option Nat) : u.lsReach d from_ = s.lsReach d from_ := by
  obtain ⟨_, _, _, rfl⟩ := h
  rfl

theorem State.aside.parts {s u : State} (h : s.aside u) : u.mem = s.mem ∧ u.lines = s.lines ∧ u.io = s.io := by
  obtain ⟨_, _, _, rfl⟩ := h
  exact ⟨rfl, rfl, rfl⟩

theorem State.wroteLs_of_mem {s v u : State} {d o : Nat} {bs : List Byte} (h : v.mem = s.mem) (hw : v.wroteLs u d o bs) :
    s.wroteLs u d o bs := by
  unfold State.wroteLs at *
  rwa [← h]

/-- Settles O15: the queue is shortened, which is the thread's alone, and the piece goes to the local store. -/
theorem storeCommit : Obligations.StoreCommit := by
  intro s t p q x o
  dsimp only
  intro hq _ hls hrun hreach
  obtain ⟨v, hv, ha, ht⟩ := State.commitOne_ls hq hls hrun
  obtain ⟨hmem, hlines, hio⟩ := ha.parts
  obtain ⟨hw, m, w, hm⟩ := State.storeIn_ls (clu := v.clusterOf t.val) (p.data.take (pieceLen p.pa p.data.length)) p.kslot
    ((ha.lsOf _).trans hls) ((ha.lsReach _ _).trans hreach)
  have hthr (u : State) (hu : u = { v with mem := m, views := w }) : u.lines = s.lines ∧ u.io = s.io ∧ u.thr t = v.thr t := by
    subst hu
    exact ⟨hlines, hio, rfl⟩
  obtain ⟨h1, h2, h3⟩ := hthr _ hm
  refine ⟨_, congrArg (fun y => Host.Outcome.next (Option.getD y (s.commitWait t))) hv, State.wroteLs_of_mem hmem hw, ?_, h1, h2, fun r => ?_⟩
  · exact (congrArg Thread.storeQ h3).trans (by rw [ht]; rfl)
  · exact (congrArg (Thread.gr · r) h3).trans (by rw [ht]; rfl)

end Sys2Proof.Machine
end

section
/-!
LOADS FROM THE THREAD'S OWN LOCAL STORE, and from a store that waits (R45, R71, R88, R89, R92, R149).
-/
namespace Sys2Proof.Machine

set_option Elab.async false

/-! What earlier commands have read of an access stays while its instruction is routed (R45). -/

theorem Steer.room_part (z : Steer) (t : Tid) (h : Bool) (ev whole half n : Nat) (use : List LogEnt → Nat) :
    (z.room t h ev whole half n use).own.part = z.own.part := by
  unfold Steer.room
  dsimp only
  split <;> rfl

theorem Steer.copies_part (z : Steer) (t : Tid) (u : CoreUnit) (rs : List Nat) (key : Word → Word × Nat) :
    (z.copies t u rs key).own.part = z.own.part := by
  unfold Steer.copies
  dsimp only
  split <;> rfl

theorem Steer.drains_part (z : Steer) (t : Tid) (i : Instr) : (z.drains t i).own.part = z.own.part := by
  unfold Steer.drains
  split <;> rfl

theorem State.plan_part (s : State) (t : Tid) (va : Word) (i : Instr) : (s.plan t va i).own.part = (s.decOf t).part := by
  unfold State.plan
  dsimp only
  rw [Steer.drains_part, Steer.copies_part, Steer.room_part, Steer.room_part, Steer.room_part, Steer.room_part]
  rfl

theorem State.count_dec (s : State) (t : Tid) (ev n : Nat) : (s.count t ev n).dec = s.dec := by
  unfold State.count
  dsimp only
  split <;> rfl

theorem State.counts_dec (s : State) (t : Tid) (l : List (Nat × Nat)) : (s.counts t l).dec = s.dec := by
  unfold State.counts
  split
  · rfl
  · clear * -
    induction l generalizing s with
    | nil => rfl
    | cons e l ih => exact (ih _).trans (s.count_dec t e.1 e.2)

theorem State.decOf_setDec (s : State) (t : Tid) (x : Decoupled) : (s.setDec t x).decOf t = x := SMap.get_put_same _ _ _ _

theorem State.steered_part (s : State) (t : Tid) (va : Word) (i : Instr) : ((s.steered t va i).decOf t).part = (s.decOf t).part := by
  unfold State.steered State.carry
  split
  · rfl
  · unfold State.decOf State.decN
    rw [State.counts_dec]
    exact (congrArg Decoupled.part (State.decOf_setDec _ t _)).trans (s.plan_part t va i)

theorem State.acting_part (s : State) (t : Tid) (i : Instr) : ((s.acting t i).decOf t).part = (s.decOf t).part := by
  refine ((s.running t).steered_part t _ i).trans ?_
  unfold State.running State.unsleep State.wrIf
  dsimp only
  split <;> rfl

/-! Reads of the own local store (R187). -/

/-- Bytes that stand there, written and not poisoned, are read as they stand. -/
theorem State.lsRead_own (s : State) (d o : Nat) (l : List Byte)
    (h : ∀ i, i < l.length → SMap.find? s.mem.ls (lsSize * d + o + i) = l[i]? ∧ lsSize * d + o + i ∉ s.mem.lsPoison) :
    s.lsRead d o l.length (some d) = (l, false, s) := by
  have hcells : (List.range l.length).map (fun i => (i, SMap.find? s.mem.ls (lsSize * d + o + i)))
      = (List.range l.length).map fun i => (i, l[i]?) :=
    List.map_congr_left fun i hi => by rw [(h i (List.mem_range.mp hi)).1]
  have hun : ((List.range l.length).map fun i => (i, l[i]?)).any (fun c => c.2.isNone) = false := by
    simp
  have hbad : (List.range l.length).any (fun i => s.mem.lsPoison.contains (lsSize * d + o + i)) = false := by
    simp only [List.any_eq_false, List.mem_range, List.contains_iff_mem]
    exact fun i hi => (h i hi).2
  unfold State.lsRead
  rw [if_pos (by rw [State.lsReach, beq_self_eq_true, Bool.or_true])]
  dsimp only
  rw [hcells, hun, hbad, List.map_map]
  refine Prod.ext (List.ext_getElem (by simp) fun i h1 h2 => ?_) rfl
  simp [h2]

theorem State.readIn_own {s : State} {t : Tid} {pa : Nat} {l : List Byte} (ks : Nat) (h : s.ownBytes t pa l) :
    s.readIn (dieOf t) pa l.length ks = (l, false, s) := by
  obtain ⟨o, hls, -, hb⟩ := h
  unfold State.readIn
  rw [hls]
  dsimp only
  rw [if_pos rfl, State.lsRead_own s (dieOf t) o l hb]

theorem State.readCached_own {s : State} {t : Tid} {pa : Nat} {l : List Byte} (ks : Nat) (h : s.ownBytes t pa l) :
    s.readCached t pa l.length ks = .ok l false s := by
  have hc : s.cached pa = false := by
    obtain ⟨o, hls, -⟩ := h
    rw [State.cached, hls]
    rfl
  unfold State.readCached State.gotIn
  rw [hc, if_neg Bool.false_ne_true, State.readIn_own ks h]

/-- A read that one more piece completes. -/
theorem State.readParts_own {s : State} {t : Tid} {pa n : Nat} {bs : List Byte} (ks : Nat) (h : s.atHand t pa n bs) :
    s.readParts t pa n ks = .ok bs false s := by
  obtain ⟨l, rfl, hn, hl, hown⟩ := h
  unfold State.readParts
  dsimp only
  rw [← hl, State.readCached_own ks hown]
  simp only [Bool.false_or, decide_eq_true_eq]
  rw [if_pos (by rw [← hn, List.length_append])]

/-! The newest store that waits (R149). -/

theorem State.timed_idles (s : State) (t : Tid) (ev0 ev : Nat) : s.timed (s.idles t ev0 ev) t :=
  State.timed_trans (s.timed_setDec t t _) (State.timed_counts _ t _)

theorem State.timed_storeDataWait (s : State) (t : Tid) (n : Nat) : s.timed (s.storeDataWait t n) t := by
  unfold State.storeDataWait
  dsimp only
  split
  · exact s.timed_refl t
  · split
    · exact State.timed_trans (State.timed_trans (s.timed_setDec t t _) (State.timed_counts _ t _)) (State.timed_idles _ t _ _)
    · exact s.timed_refl t

theorem State.loadBytes_noStore {s : State} {t : Tid} {pa n : Nat} (ks : Nat) (h : s.noStore t pa n) :
    s.loadBytes t pa n ks false = s.readParts t pa n ks := by
  have hf : (s.thr t).storeQ.reverse.findIdx? (fun p => p.meets pa n) = none := by
    rw [List.findIdx?_eq_none_iff]
    exact fun p hp => h p (List.mem_reverse.mp hp)
  unfold State.loadBytes
  simp only [hf, Bool.false_eq_true, if_false]

theorem State.loadBytes_newest {s : State} {t : Tid} {pa n : Nat} {q : List PendStore} {p : PendStore} (ks : Nat)
    (hq : (s.thr t).storeQ = q ++ [p]) (hm : p.meets pa n = true) (h1 : p.pa ≤ pa) (h2 : pa + n ≤ p.pa + p.data.length) :
    s.loadBytes t pa n ks false = .ok ((p.data.drop (pa - p.pa)).take n) false (s.storeDataWait t q.length) := by
  have hf : (q ++ [p]).reverse.findIdx? (fun p => p.meets pa n) = some 0 := by
    rw [List.reverse_append, List.reverse_singleton, List.singleton_append, List.findIdx?_cons, if_pos hm]
  have hp : (q ++ [p]).getD q.length ⟨0, [], 0⟩ = p := by simp
  unfold State.loadBytes
  simp only [hq, hf, List.length_append, List.length_singleton, Nat.add_sub_cancel, Nat.sub_zero, hp, h1, h2, decide_true, Bool.and_self,
    if_true]

/-- The bytes of a load: they are in memory and no store to them waits, or the newest waiting store covers them. -/
def State.found (s : State) (t : Tid) (pa n : Nat) (bs : List Byte) : Prop :=
  s.noStore t pa n ∧ s.atHand t pa n bs ∨ ∃ q p, (s.thr t).storeQ = q ++ [p] ∧ p.meets pa n = true ∧ p.pa ≤ pa
    ∧ pa + n ≤ p.pa + p.data.length ∧ bs = (p.data.drop (pa - p.pa)).take n

theorem State.loadBytes_found {s : State} {t : Tid} {pa n : Nat} {bs : List Byte} (ks : Nat) (h : s.found t pa n bs) :
    ∃ u, s.loadBytes t pa n ks false = .ok bs false u ∧ s.timed u t := by
  rcases h with ⟨hno, hat⟩ | ⟨q, p, hq, hm, h1, h2, rfl⟩
  · exact ⟨s, (State.loadBytes_noStore ks hno).trans (State.readParts_own ks hat), s.timed_refl t⟩
  · exact ⟨_, State.loadBytes_newest ks hq hm h1 h2, s.timed_storeDataWait t _⟩

/-! Routing keeps what a load finds. -/

theorem State.acting_lsOf (s : State) (t : Tid) (i : Instr) (pa : Nat) : (s.acting t i).lsOf pa = s.lsOf pa :=
  show (s.acting t i).beside.lsOf pa = s.beside.lsOf pa by rw [(s.acting_eq t i).1]

theorem State.atHand_acting {s : State} {t : Tid} {pa n : Nat} {bs : List Byte} (i : Instr) (h : s.atHand t pa n bs) :
    (s.acting t i).atHand t pa n bs := by
  unfold State.atHand State.ownBytes at *
  simp only [State.acting_part, State.acting_lsOf, State.acting_mem]
  exact h

theorem State.found_acting {s : State} {t : Tid} {pa n : Nat} {bs : List Byte} (i : Instr) (h : s.found t pa n bs) :
    (s.acting t i).found t pa n bs := by
  have hq := (s.turned_acting t i).storeQ
  unfold State.found State.noStore at *
  rw [hq]
  exact h.imp (fun ⟨h1, h2⟩ => ⟨h1, State.atHand_acting i h2⟩) id

/-! The destination. -/

/-- A thread whose load has given bytes of SZK k: its destination, and then its base where the mode updates it. -/
def Thread.loaded (x : Thread) (d a : Rn) (k : Nat) (bs : List Byte) (upd : Option Word) : Thread :=
  let y := if k ≥ 8 then x.setFr d.val (BitVec.ofNat 64 (ofBytes bs))
    else if k = 7 then (x.setGr d.val (BitVec.ofNat 64 (ofBytes (bs.take 8)))).setGr (d.val + 1) (BitVec.ofNat 64 (ofBytes (bs.drop 8)))
    else x.setGr d.val (loadVal k bs)
  match upd with
  | some w => y.setGr a.val w
  | none => y

/-- What a load leaves of its thread. -/
theorem Thread.loaded_keeps (x : Thread) (d a : Rn) (k : Nat) (bs : List Byte) (upd : Option Word) :
    (x.loaded d a k bs upd).beside = x.beside ∧ (x.loaded d a k bs upd).pc = x.pc ∧ (x.loaded d a k bs upd).slot = x.slot
      ∧ (x.loaded d a k bs upd).run = x.run ∧ ∀ n, (x.loaded d a k bs upd).c n = x.c n := by
  unfold Thread.loaded
  dsimp only
  cases upd <;> split_ifs <;> simp

theorem Thread.setGr_run (x : Thread) (z : Run) (r : Nat) (v : Word) :
    ({ x with run := z } : Thread).setGr r v = { x.setGr r v with run := z } := by
  unfold Thread.setGr
  split <;> rfl

theorem Thread.setFr_run (x : Thread) (z : Run) (r : Nat) (v : Word) :
    ({ x with run := z } : Thread).setFr r v = { x.setFr r v with run := z } := rfl

theorem Thread.loaded_run (x : Thread) (z : Run) (d a : Rn) (k : Nat) (bs : List Byte) (upd : Option Word) :
    ({ x with run := z } : Thread).loaded d a k bs upd = { x.loaded d a k bs upd with run := z } := by
  unfold Thread.loaded
  dsimp only
  cases upd <;> split_ifs <;> simp only [Thread.setGr_run, Thread.setFr_run]

theorem State.turned.setGr {s u : State} {t : Tid} {x : Thread} (h : s.turned u t x) (r : Nat) (v : Word) :
    s.turned (u.setThr t ((u.thr t).setGr r v)) t (x.setGr r v) := by
  obtain ⟨h1, y, h4, h5⟩ := h
  refine ⟨((show s.turned u t x from ⟨h1, y, h4, h5⟩).setThr _).1, y, ?_, fun n hn => (h5 n hn).trans (Thread.c_setGr _ _ _ _).symm⟩
  rw [State.thr_setThr, h4, Thread.setGr_cr]

theorem State.turned.setF {s u : State} {t : Tid} {x : Thread} (h : s.turned u t x) (r : Rn) (v : Word) :
    s.turned (u.setF t r v) t (x.setFr r.val v) := by
  obtain ⟨h1, y, h4, h5⟩ := h
  refine ⟨((show s.turned u t x from ⟨h1, y, h4, h5⟩).setThr _).1, y, ?_, h5⟩
  rw [State.setF, State.thr_setThr, h4]
  rfl

theorem State.turned.loadTo {s u : State} {t : Tid} {x : Thread} (h : s.turned u t x) (d a : Rn) (k : Nat) (bs : List Byte) (upd : Option Word) :
    s.turned (match upd with | some w => (u.loadTo t d k bs).setG t a w | none => u.loadTo t d k bs) t (x.loaded d a k bs upd) := by
  have hl : s.turned (u.loadTo t d k bs) t (x.loaded d a k bs none) := by
    unfold State.loadTo Thread.loaded
    dsimp only
    split_ifs
    · exact h.setF d _
    · exact (h.setG d _).setGr _ _
    · exact h.setG d _
  cases upd with
  | none => exact hl
  | some w => exact hl.setG a w

theorem State.thr_loadTo (s : State) (t : Tid) (d a : Rn) (k : Nat) (bs : List Byte) (upd : Option Word) :
    (match upd with | some w => (s.loadTo t d k bs).setG t a w | none => s.loadTo t d k bs).thr t = (s.thr t).loaded d a k bs upd := by
  have hl : (s.loadTo t d k bs).thr t = (s.thr t).loaded d a k bs none := by
    unfold State.loadTo Thread.loaded State.setG State.setF
    dsimp only
    split_ifs <;> simp only [State.thr_setThr]
  cases upd with
  | none => exact hl
  | some w => exact (State.thr_setThr _ _ _).trans (congrArg (Thread.setGr · a.val w) hl)

/-- The end of a load: what it leaves of the state, against the state in which it issued. -/
def State.loadEnds (s u : State) (t : Tid) (d a : Rn) (k : Nat) (bs : List Byte) (upd : Option Word) : Prop :=
  let y := (s.thr t).loaded d a k bs upd
  s.retired u t ∧ s.onlyThread u t ∧ s.keepsThread u t ∧ (∀ r, (u.thr t).gr r = y.gr r) ∧ ∀ r, (u.thr t).fr r = y.fr r

/-- A load whose bytes have been read, from a state in which only counters have moved since it acted. -/
theorem State.issue_loaded {s u : State} {t : Tid} {i : Instr} {body : State → Out} {d a : Rn} {k : Nat} {bs : List Byte}
    {upd : Option Word} (hr : s.ready t i = true) (hu : (s.acting t i).timed u t)
    (hb : body (s.acting t i) = .done (match upd with | some w => (u.loadTo t d k bs).setG t a w | none => u.loadTo t d k bs)) :
    s.loadEnds (s.issue t i body) t d a k bs upd := by
  have hl := ((s.turned_acting t i).timed hu).loadTo d a k bs upd
  rw [Thread.loaded_run] at hl
  obtain ⟨hbes, hpc, hslot, -, hc⟩ := (s.thr t).loaded_keeps d a k bs upd
  obtain ⟨h1, h2, h3, h4, h5, h6⟩ := State.became_ends hl rfl (congrArg₂ (fun p q => Option.getD p (q + 4)) hslot hpc) (s.thr t).pc i
  rw [State.issue_ready _ _ _ _ hr, hb]
  exact ⟨h1, h2, ⟨h3.trans hbes, fun n hn => (h6 n hn).trans (hc n)⟩, h4, h5⟩

/-- A data load that passes its checks and finds its bytes. -/
theorem State.doLoad_found {s : State} {t : Tid} {pa ks : Nat} {va : Word} {bs : List Byte} (d a : Rn) (k : Nat) (upd : Option Word)
    (ha : s.addr t .load va (szOf k) false = .ok pa ks) (hf : s.found t pa (szOf k) bs) :
    ∃ u, s.timed u t ∧ s.doLoad t d a k va upd
      = .done (match upd with | some w => (u.loadTo t d k bs).setG t a w | none => u.loadTo t d k bs) := by
  obtain ⟨u, hu, ht⟩ := State.loadBytes_found ks hf
  refine ⟨u, ht, ?_⟩
  unfold State.doLoad
  rw [ha]
  dsimp only
  rw [hu]
  rfl

/-! The address. -/

theorem State.acting_eaMd (s : State) (t : Tid) (i : Instr) (a : Rn) (k : Nat) (disp : BitVec 11) :
    (s.acting t i).eaMd t a k disp = s.g t a + disp.signExtend 64 * BitVec.ofNat 64 (szOf k) := by
  rw [State.eaMd, State.acting_g]
  rfl

theorem State.acting_mode (s : State) (t : Tid) (i : Instr) (a : Rn) (m : Fin 8) (f : BitVec 8) (n : Nat) :
    (s.acting t i).mode t a m f n = s.mode t a m f n := by
  have hm (j : Nat) (hj : j < 4) : ((s.acting t i).thr t).mb j = (s.thr t).mb j ∧ ((s.acting t i).thr t).ml j = (s.thr t).ml j :=
    ⟨s.acting_rs t i (by omega), congrArg (fget · 0 33) (s.acting_rs t i (by omega))⟩
  have hmod (j : Nat) (hj : j < 4) (r : Word) (inc : Int) (q : Nat) :
      ((s.acting t i).thr t).modulo j r inc q = (s.thr t).modulo j r inc q ∧ ((s.acting t i).thr t).bitrev j r inc q = (s.thr t).bitrev j r inc q := by
    obtain ⟨h1, h2⟩ := hm j hj
    unfold Thread.modulo Thread.bitrev
    rw [h1, h2]
    exact ⟨rfl, rfl⟩
  have hf := f.isLt
  have h1 := hmod (f.toNat / 64) (by omega)
  have h2 := hmod (f.toNat / 2 % 4) (by omega)
  unfold State.mode
  simp only [State.acting_thr_gr, fun r inc q => (h1 r inc q).1, fun r inc q => (h1 r inc q).2, fun r inc q => (h2 r inc q).1,
    fun r inc q => (h2 r inc q).2]

/-- Settles O12: the bytes are found, and the load only writes its destination and its base. -/
theorem loadsComplete : Obligations.LoadsComplete := by
  intro s t d a k ord disp am amf pa ks ea upd bs
  have ends {i : Instr} {body : State → Out} {w : Option Word} (h : s.loadEnds (s.issue t i body) t d a k.val bs w) :
      let u := s.issue t i body
      let y := (match w with | some w => (s.loadTo t d k.val bs).setG t a w | none => s.loadTo t d k.val bs).thr t
      s.retired u t ∧ s.onlyThread u t ∧ s.keepsThread u t ∧ (∀ r, (u.thr t).gr r = y.gr r) ∧ ∀ r, (u.thr t).fr r = y.fr r := by
    dsimp only
    rw [State.thr_loadTo]
    exact h
  refine ⟨fun hr ha hf => ?_, fun hr hm ha hf => ?_, fun hr ha hat => ?_⟩
  · obtain ⟨u, hu, hb⟩ := State.doLoad_found d a k.val none ha (State.found_acting _ hf)
    exact ⟨_, rfl, ends (State.issue_loaded (body := bodyLoad t d a k ord disp) (upd := none) hr hu (by rw [bodyLoad, State.acting_eaMd]; exact hb))⟩
  · obtain ⟨u, hu, hb⟩ := State.doLoad_found d a k.val upd ha (State.found_acting _ hf)
    exact ⟨_, rfl, ends (State.issue_loaded (body := bodyLoadx t d a k ord am amf) hr hu (by rw [bodyLoadx, State.acting_mode, hm]; exact hb))⟩
  · refine ⟨_, rfl, ends (State.issue_loaded (body := bodyLdi t d a k ord disp) (upd := none) hr (State.timed_refl _ t) ?_)⟩
    unfold bodyLdi disp11
    rw [State.acting_thr_pc, State.acting_eaMd]
    dsimp only
    rw [ha]
    dsimp only
    rw [State.readParts_own ks (State.atHand_acting _ hat)]
    rfl

end Sys2Proof.Machine
end

section
/-!
CUES AND ASYNCHRONOUS MACHINE CHECKS that are taken, QoS classes, and the raise of a physical vector.
-/
namespace Sys2Proof.Machine

set_option Elab.async false

/-! Cues and asynchronous machine checks taken (R54, R418). -/

theorem State.promote_thr (s : State) (a : Nat) (t : Tid) : (s.promote a).thr t = s.thr t := by
  obtain ⟨v, hv⟩ := s.promote_eq a
  rw [hv]
  rfl

theorem State.promote_rdw (s : State) (a b : Nat) : (s.promote a).rdw b = s.rdw b := by
  obtain ⟨v, hv⟩ := s.promote_eq a
  rw [hv]
  rfl

theorem State.promote_mcPend (s : State) (a : Nat) : (s.promote a).mcPend = s.mcPend := by
  obtain ⟨v, hv⟩ := s.promote_eq a
  rw [hv]

theorem State.wrIf_thr (s : State) (c : Bool) (f : FRef) (v : Nat) (t : Tid) : (s.wrIf c f v).thr t = s.thr t := by
  cases c <;> rfl

theorem State.wrIf_mcPend (s : State) (c : Bool) (f : FRef) (v : Nat) : (s.wrIf c f v).mcPend = s.mcPend := by
  cases c <;> rfl

theorem State.unsleep_thr (s : State) (t u : Tid) : (s.unsleep t).thr u = s.thr u := s.wrIf_thr _ _ _ _

/-- A cue is one of four, and it is directed at a level that can take it. -/
theorem State.cueNow_some {s : State} {t lvl : Nat} {c : Cue} (h : s.cueNow t = some (lvl, c)) :
    (1 ≤ lvl ∧ lvl ≤ 3) ∧ bit ((s.thrN t).c (setBase lvl + 7)) 0 = false ∧ c.code < 4 := by
  obtain ⟨l, hl, hs⟩ := List.exists_of_findSome?_eq_some h
  split at hs
  next hok =>
    obtain ⟨y, hy, he⟩ := Option.map_eq_some_iff.mp hs
    cases he
    refine ⟨?_, ?_, ?_⟩
    · simp only [List.mem_cons, List.not_mem_nil, or_false] at hl
      omega
    · simp only [Thread.cueOk, Bool.and_eq_true, Bool.not_eq_true'] at hok
      exact hok.1
    · unfold State.cueAt at hy
      dsimp only at hy
      split at hy
      · cases hy
        exact Nat.zero_lt_succ 3
      · split_ifs at hy
        · cases hy
          exact Nat.lt_of_sub_eq_succ rfl
        · cases hy
          exact Nat.lt_of_sub_eq_succ rfl
        · split at hy
          · cases hy
            exact Nat.lt_succ_self 3
          · cases hy
  next => cases hs

/-- What is withdrawn as a cue is taken leaves a thread's registers and place alone. -/
theorem State.cueTaken_thr (s : State) (t : Tid) (lvl : Nat) (c : Cue) :
    ∃ n, (s.cueTaken t.val lvl c).thr t = { s.thr t with notices := n } := by
  unfold State.cueTaken
  split_ifs
  · exact ⟨_, rfl⟩
  · exact ⟨_, State.thr_setThr s t _⟩
  · exact ⟨_, rfl⟩

theorem State.cueTaken_pend (s : State) (t lvl : Nat) {c : Cue} (h : c.code = 0) :
    (s.cueTaken t lvl c).rd (F.CUEV_PEND c.val.toNat) = 0 := by
  unfold State.cueTaken
  rw [if_pos h, State.rd_wr_same _ _ _ (show 24 + 1 ≤ 64 by decide)]
  rfl

/-- The exception that a cue is to a thread. -/
def Cue.exc (c : Cue) (x : Thread) : Exc :=
  { code := c.code, val := c.val, int := true, epc := x.pc, bd := x.slot, rep := none, slot := none }

theorem Thread.EntersPrimary.of_notices {x y : Thread} {n : SMap (List Nat)} {lvl : Nat} {e : Exc}
    (h : Thread.EntersPrimary { x with notices := n } y lvl e) : x.EntersPrimary y lvl e :=
  ⟨h.epc, h.cause, h.val, h.status, h.act, h.pl, h.cie, h.fcsr, h.mcact, h.pc, h.slot, h.run, h.gr, h.fr⟩

/-- A cue enters the primary set of its level at the offset of interrupts. -/
theorem State.cueTake_enters {s : State} {t : Tid} {lvl : Nat} {c : Cue} (hb : s.atBoundary t = true) (hm : s.mcDue t = false)
    (henc : (s.thr t).enc = false) (hc : s.cueNow t.val = some (lvl, c)) : ∃ u, execCueTake t s = .next u
      ∧ (s.thr t).EntersPrimary (u.thr t) lvl (c.exc (s.thr t))
      ∧ (c.code = 0 → u.rd (F.CUEV_PEND c.val.toNat) = 0) := by
  obtain ⟨hl, hact, -⟩ := State.cueNow_some hc
  obtain ⟨v, hx, hv⟩ : ∃ v : State, execCueTake t s = .next (((v.unsleep t).cueTaken t.val lvl c).take t (c.exc (s.thr t)) 0 lvl) ∧ v.thr t = s.thr t := by
    refine ⟨if c.code = 0 || c.code = 3 then s.promote (dieOf t) else s, ?_, ?_⟩
    · unfold execCueTake
      rw [hb, hm, hc]
      rfl
    · split
      · exact s.promote_thr _ t
      · rfl
  obtain ⟨n, hn⟩ := (v.unsleep t).cueTaken_thr t lvl c
  have hpend := (v.unsleep t).cueTaken_pend t.val lvl (c := c)
  rw [State.unsleep_thr, hv] at hn
  generalize (v.unsleep t).cueTaken t.val lvl c = w at hx hn hpend
  have henc' : (w.thr t).enc = false := by
    rw [hn]
    exact henc
  have hact' : bit ((w.thr t).c (setBase lvl + 7)) 0 = false := by
    rw [hn]
    exact hact
  have he := w.take_enters t (c.exc (s.thr t)) 0 lvl henc' hl hact' rfl
  have hr := (w.take_beside t (c.exc (s.thr t)) 0 lvl henc' hl.2 hact' rfl).2
  rw [hn] at he
  refine ⟨_, hx, he.of_notices, fun h0 => ?_⟩
  rw [State.rd, hr]
  exact hpend h0

/-- A bank's check that a thread takes is marked as signalled (R418). -/
def State.mcSignalled (s : State) (code : Nat) (v : Word) : State :=
  if code == 0x90 && s.flag (F.MCb_STATUS_VAL v.toNat) then s.wr (F.MCb_STATUS_SIGNALLED v.toNat) 1 else s

/-- What MC_GSTAT shows once a pending check is taken (R418). -/
def State.mcShown (s : State) (r : Bool) : State := (s.wr F.MC_GSTAT_PENDING 0).wrIf r F.MC_GSTAT_REROUTED 1

/-- The state in which an asynchronous machine check enters its handler. -/
def State.mcReady (s : State) (t : Tid) (code : Nat) (v : Word) (rest : List (Nat × Word)) (r : Bool) : State :=
  let u := (((({ s with mcPend := rest } : State).unsleep t).promote (dieOf t)).mcSignalled code v).mcShown r
  u.setThr t ((u.thr t).setC 0x070 (setBit ((u.thr t).c 0x070) 1 false))

theorem State.mcSignalled_keeps (s : State) (code : Nat) (v : Word) (t : Tid) :
    (s.mcSignalled code v).thr t = s.thr t ∧ (s.mcSignalled code v).mcPend = s.mcPend := by
  unfold State.mcSignalled
  split <;> exact ⟨rfl, rfl⟩

theorem State.mcShown_keeps (s : State) (r : Bool) (t : Tid) : (s.mcShown r).thr t = s.thr t ∧ (s.mcShown r).mcPend = s.mcPend := by
  cases r <;> exact ⟨rfl, rfl⟩

theorem State.mcShown_gstat (s : State) (r : Bool) :
    (s.mcShown r).rd F.MC_GSTAT_PENDING = 0 ∧ (r = true → (s.mcShown r).rd F.MC_GSTAT_REROUTED = 1) := by
  have hp : (s.wr F.MC_GSTAT_PENDING 0).rd F.MC_GSTAT_PENDING = 0 := State.rd_wr_same _ _ _ (by decide)
  cases r with
  | false => exact ⟨hp, nofun⟩
  | true => exact ⟨(State.rd_wr_ne _ _ _ _ (by decide) (by decide)).trans hp, fun _ => State.rd_wr_same _ _ _ (by decide)⟩

theorem State.mcReady_keeps (s : State) (t : Tid) (code : Nat) (v : Word) (rest : List (Nat × Word)) (r : Bool) :
    (s.mcReady t code v rest r).thr t = (s.thr t).setC 0x070 (setBit ((s.thr t).c 0x070) 1 false)
      ∧ (s.mcReady t code v rest r).mcPend = rest := by
  obtain ⟨ht, hp⟩ : (((({ s with mcPend := rest } : State).unsleep t).promote (dieOf t)).thr t = s.thr t)
      ∧ ((({ s with mcPend := rest } : State).unsleep t).promote (dieOf t)).mcPend = rest :=
    ⟨(State.promote_thr _ _ t).trans (State.unsleep_thr _ t t), (State.promote_mcPend _ _).trans (State.wrIf_mcPend _ _ _ _)⟩
  unfold State.mcReady
  generalize (({ s with mcPend := rest } : State).unsleep t).promote (dieOf t) = u at ht hp
  obtain ⟨h1, h2⟩ := u.mcSignalled_keeps code v t
  obtain ⟨h3, h4⟩ := (u.mcSignalled code v).mcShown_keeps r t
  dsimp only
  rw [State.thr_setThr, h3, h1, ht]
  exact ⟨rfl, h4.trans (h2.trans hp)⟩

/-- An asynchronous machine check enters the primary set of level 3. -/
theorem State.mcTake_enters {s : State} {t : Tid} {code : Nat} {v0 : Word} {rest : List (Nat × Word)} {r : Bool} (hp : s.mcPend = (code, v0) :: rest)
    (hr : s.mcRoute = some (t.val, r)) (hb : s.atBoundary t = true) (ho : (s.thr t).mcOpen = true) (henc : (s.thr t).enc = false) :
    ∃ u v, execMcAsyncTake s = .next u
      ∧ (s.thr t).EntersPrimary (u.thr t) 3 { code := code, val := v, int := false, epc := (s.thr t).pc, bd := (s.thr t).slot, rep := none, slot := none }
      ∧ (bit ((s.thr t).c 0x070) 1 = false → v = v0) ∧ u.mcPend = rest ∧ u.rd F.MC_GSTAT_PENDING = 0 ∧ (r = true → u.rd F.MC_GSTAT_REROUTED = 1) := by
  simp only [Thread.mcOpen, Bool.and_eq_true, Bool.not_eq_true'] at ho
  obtain ⟨hact, hmc⟩ := ho
  let v := if code == 0x90 && bit ((s.thr t).c 0x070) 1 then BitVec.ofNat 64 (s.mcLowest.getD v0.toNat) else v0
  let e : Exc := { code := code, val := v, int := false, epc := (s.thr t).pc, bd := (s.thr t).slot, rep := none, slot := none }
  have hx : execMcAsyncTake s = .next ((s.mcReady t code v rest r).take t e 0 3) := by
    have ht : (Fin.ofNat 432 t.val : Tid) = t := Fin.ext (Nat.mod_eq_of_lt t.isLt)
    unfold execMcAsyncTake
    rw [hp, hr]
    dsimp only
    rw [ht, hb, Thread.mcOpen, hact, hmc]
    simp only [Bool.not_false, Bool.and_self, if_true]
    unfold State.mcTake
    rw [hp]
    rfl
  obtain ⟨hy, hrest⟩ := s.mcReady_keeps t code v rest r
  have henc' : ((s.mcReady t code v rest r).thr t).enc = false := by
    rw [hy]
    exact (congrArg (bit · 2) (Thread.c_setC_ne _ _ _ _ (by decide))).trans henc
  have hact' : bit (((s.mcReady t code v rest r).thr t).c (setBase 3 + 7)) 0 = false := by
    rw [hy]
    exact (congrArg (bit · 0) (Thread.c_setC_ne _ _ _ _ (by decide))).trans hact
  have hmc' : (!e.int && 0x80 ≤ e.code && e.code ≤ 0x82 && bit (((s.mcReady t code v rest r).thr t).c 0x070) 0) = false := by
    rw [hy, Thread.c_setC_same, bit_setBit_ne _ _ _ _ (by decide) (by decide), hmc, Bool.and_false]
  obtain ⟨hbe, hrd⟩ := (s.mcReady t code v rest r).take_beside t e 0 3 henc' (by decide) hact' hmc'
  have he := (s.mcReady t code v rest r).take_enters t e 0 3 henc' ⟨by decide, by decide⟩ hact' hmc'
  obtain ⟨hg1, hg2⟩ := State.mcShown_gstat (((({ s with mcPend := rest } : State).unsleep t).promote (dieOf t)).mcSignalled code v) r
  refine ⟨_, v, hx, ?_, fun h1 => ?_, ?_, ?_, fun h1 => ?_⟩
  · rw [hy] at he
    refine { he with status := ?_, fcsr := ?_, pc := ?_ }
    · exact he.status.trans (by rw [Thread.c_setC_ne _ _ _ _ (by decide)])
    · exact he.fcsr.trans (Thread.c_setC_ne _ _ _ _ (by decide))
    · exact he.pc.trans (by rw [Thread.c_setC_ne _ _ _ _ (by decide)])
  · show (if code == 0x90 && bit ((s.thr t).c 0x070) 1 then _ else v0) = v0
    rw [h1, Bool.and_false]
    rfl
  · exact (congrArg State.mcPend hbe).trans hrest
  · exact (congrArg (fget · 1 1) (hrd _)).trans hg1
  · exact (congrArg (fget · 0 1) (hrd _)).trans (hg2 h1)

end Sys2Proof.Machine
end

section
/-!
QOS CLASSES (R380) and the raise of a physical vector (R376).
-/
namespace Sys2Proof.Machine

set_option Elab.async false

/-! QoS classes (R380). -/

/-- A number without one of the powers of two that it has. -/
theorem testBit_sub_two_pow {n c : Nat} (h : n.testBit c = true) (y : Nat) : (n - 2 ^ c).testBit y = (n.testBit y && y != c) := by
  obtain ⟨q, r, hr, rfl⟩ : ∃ q r, r < 2 ^ c ∧ n = 2 ^ (c + 1) * q + (2 ^ c + r) := by
    rw [Nat.testBit_eq_decide_div_mod_eq, decide_eq_true_eq] at h
    refine ⟨n / 2 ^ c / 2, n % 2 ^ c, Nat.mod_lt _ (Nat.two_pow_pos c), ?_⟩
    calc n = 2 ^ c * (n / 2 ^ c) + n % 2 ^ c := (Nat.div_add_mod n _).symm
      _ = 2 ^ c * (2 * (n / 2 ^ c / 2) + 1) + n % 2 ^ c := by rw [show 2 * (n / 2 ^ c / 2) + 1 = n / 2 ^ c by omega]
      _ = _ := by ring
  have hlt : 2 ^ c + r < 2 ^ (c + 1) := by omega
  rw [show 2 ^ (c + 1) * q + (2 ^ c + r) - 2 ^ c = 2 ^ (c + 1) * q + r by omega, Nat.testBit_two_pow_mul_add _ hlt,
    Nat.testBit_two_pow_mul_add _ (by omega)]
  rcases Nat.lt_trichotomy y c with hy | rfl | hy
  · rw [if_pos (by omega), if_pos (by omega), Nat.testBit_two_pow_add_gt hy, bne_iff_ne.mpr hy.ne, Bool.and_true]
  · rw [if_pos (by omega), Nat.testBit_lt_two_pow hr, bne_self_eq_false, Bool.and_false]
  · rw [if_neg (by omega), if_neg (by omega), bne_iff_ne.mpr hy.ne', Bool.and_true]

/-- A virtual machine is mapped to a class. -/
def State.qosMap (s : State) (v c : Nat) (sh : Bool) : State :=
  ((s.wr (F.QOS_MAPv_V v) 1).wr (F.QOS_MAPv_SH v) (b2n sh)).wr (F.QOS_MAPv_CLASS v) c

theorem State.qosMap_map (s : State) (v c : Nat) (sh : Bool) : (s.qosMap v c sh).rd (F.QOS_MAPv_V v) = 1
    ∧ (s.qosMap v c sh).rd (F.QOS_MAPv_SH v) = b2n sh ∧ (s.qosMap v c sh).rd (F.QOS_MAPv_CLASS v) = c % 64 := by
  unfold State.qosMap
  refine ⟨?_, ?_, State.rd_wr_same _ _ _ (by simp)⟩
  · rw [State.rd_wr_ne _ _ _ _ (by simp) (by simp), State.rd_wr_ne _ _ _ _ (by simp) (by simp)]
    exact State.rd_wr_same _ _ _ (by simp)
  · rw [State.rd_wr_ne _ _ _ _ (by simp) (by simp)]
    refine (State.rd_wr_same _ _ _ (by simp)).trans ?_
    cases sh <;> rfl

theorem State.qosMap_rd (s : State) (v c : Nat) (sh : Bool) (f : FRef) (h : f.addr ≠ A.QOS_MAPv v) : (s.qosMap v c sh).rd f = s.rd f := by
  unfold State.qosMap
  rw [State.rd_wr_addr _ _ _ _ h, State.rd_wr_addr _ _ _ _ h, State.rd_wr_addr _ _ _ _ h]

/-- A class that was free is so no longer, and class 63 counts its holders. -/
def State.qosHold (s : State) (c : Nat) : State :=
  let s := if s.classFree c then s.wr F.QOS_FREE_FREE (s.rd F.QOS_FREE_FREE - 2 ^ c) else s
  if c = 63 then s.wr F.QOS_STAT_SHARE63 (s.rd F.QOS_STAT_SHARE63 + 1) else s

theorem State.qosAlloc_eq (s : State) (v : Nat) (h : s.flag (F.QOS_MAPv_V v) = false) : s.qosAlloc v
    = match (List.range 64).find? fun c => c != 0 && s.classFree c with
      | some c => (s.qosMap v c false).qosHold c
      | none => (s.qosMap v 63 true).qosHold 63 := by
  unfold State.qosAlloc
  rw [h]
  rfl

/-- Every class but the one that is taken is as free as it was. -/
theorem State.qosHold_free (s : State) (c y : Nat) : ((s.qosHold c).rd F.QOS_FREE_FREE).testBit y = ((s.rd F.QOS_FREE_FREE).testBit y && y != c) := by
  have hs (u : State) : (if c = 63 then u.wr F.QOS_STAT_SHARE63 (u.rd F.QOS_STAT_SHARE63 + 1) else u).rd F.QOS_FREE_FREE = u.rd F.QOS_FREE_FREE := by
    split
    · exact State.rd_wr_addr _ _ _ _ (by decide)
    · rfl
  unfold State.qosHold
  dsimp only
  rw [hs]
  split
  next hc =>
    rw [State.rd_wr_same _ _ _ (by decide), Nat.mod_eq_of_lt ((Nat.sub_le _ _).trans_lt (s.rd_lt _))]
    exact testBit_sub_two_pow hc y
  next hc =>
    by_cases hy : y = c
    · subst hy
      rw [show (s.rd F.QOS_FREE_FREE).testBit y = false from Bool.eq_false_iff.mpr hc, Bool.false_and]
    · rw [bne_iff_ne.mpr hy, Bool.and_true]

/-- Nothing else changes but the count of class 63. -/
theorem State.qosHold_rd (s : State) (c : Nat) (f : FRef) (h1 : f.addr ≠ A.QOS_FREE) (h2 : f.addr ≠ A.QOS_STAT) : (s.qosHold c).rd f = s.rd f := by
  unfold State.qosHold
  dsimp only
  have hfree : (if s.classFree c then s.wr F.QOS_FREE_FREE (s.rd F.QOS_FREE_FREE - 2 ^ c) else s).rd f = s.rd f := by
    split
    · exact State.rd_wr_addr _ _ _ _ h1
    · rfl
  split
  · exact (State.rd_wr_addr _ _ _ _ h2).trans hfree
  · exact hfree

theorem State.qosHold_share (s : State) : (s.qosHold 63).rd F.QOS_STAT_SHARE63 = (s.rd F.QOS_STAT_SHARE63 + 1) % 2 ^ 16 := by
  unfold State.qosHold
  dsimp only
  rw [if_pos rfl, State.rd_wr_same _ _ _ (by decide)]
  split
  · rw [State.rd_wr_addr _ _ _ _ (by decide)]
  · rfl

theorem qosMapv_ne {v : Nat} (hv : v < 4096) : A.QOS_MAPv v ≠ A.QOS_FREE ∧ A.QOS_MAPv v ≠ A.QOS_STAT := by
  unfold A.QOS_MAPv A.QOS_FREE A.QOS_STAT
  omega

/-- The lowest free class but 0 is given. -/
theorem State.qosAlloc_found {s : State} {v c : Nat} (hv : v < 4096) (hf : s.flag (F.QOS_MAPv_V v) = false) (h0 : 0 < c) (h64 : c < 64)
    (hc : s.classFree c = true) (hlow : ∀ y, 0 < y → y < c → s.classFree y = false) :
    (s.qosAlloc v).rd (F.QOS_MAPv_V v) = 1 ∧ (s.qosAlloc v).rd (F.QOS_MAPv_SH v) = 0 ∧ (s.qosAlloc v).rd (F.QOS_MAPv_CLASS v) = c
      ∧ ∀ y, ((s.qosAlloc v).rd F.QOS_FREE_FREE).testBit y = (s.classFree y && y != c) := by
  have hfind : ((List.range 64).find? fun c => c != 0 && s.classFree c) = some c := by
    rw [List.find?_range_eq_some]
    refine ⟨by rw [hc, Bool.and_true, bne_iff_ne.mpr h0.ne'], List.mem_range.mpr h64, fun y hy => ?_⟩
    rcases Nat.eq_zero_or_pos y with rfl | hy0
    · rfl
    · rw [hlow y hy0 hy, Bool.and_false]
      rfl
  rw [s.qosAlloc_eq v hf, hfind]
  obtain ⟨h1, h2, h3⟩ := s.qosMap_map v c false
  have hm (lo w : Nat) : ((s.qosMap v c false).qosHold c).rd ⟨A.QOS_MAPv v, lo, w⟩ = (s.qosMap v c false).rd ⟨A.QOS_MAPv v, lo, w⟩ :=
    State.qosHold_rd _ _ _ (qosMapv_ne hv).1 (qosMapv_ne hv).2
  refine ⟨(hm 7 1).trans h1, (hm 6 1).trans h2, (hm 0 6).trans (h3.trans (Nat.mod_eq_of_lt h64)), fun y => ?_⟩
  rw [State.qosHold_free, State.qosMap_rd _ _ _ _ _ (qosMapv_ne hv).1.symm]
  rfl

/-- Class 63 is shared where none is free. -/
theorem State.qosAlloc_shared {s : State} {v : Nat} (hv : v < 4096) (hf : s.flag (F.QOS_MAPv_V v) = false)
    (hnone : ∀ y, 0 < y → y < 64 → s.classFree y = false) :
    (s.qosAlloc v).rd (F.QOS_MAPv_V v) = 1 ∧ (s.qosAlloc v).rd (F.QOS_MAPv_SH v) = 1 ∧ (s.qosAlloc v).rd (F.QOS_MAPv_CLASS v) = 63
      ∧ (s.qosAlloc v).rd F.QOS_STAT_SHARE63 = (s.rd F.QOS_STAT_SHARE63 + 1) % 2 ^ 16 := by
  have hfind : ((List.range 64).find? fun c => c != 0 && s.classFree c) = none := by
    rw [List.find?_eq_none]
    intro y hy
    rcases Nat.eq_zero_or_pos y with rfl | hy0
    · exact Bool.false_ne_true
    · rw [hnone y hy0 (List.mem_range.mp hy), Bool.and_false]
      exact Bool.false_ne_true
  rw [s.qosAlloc_eq v hf, hfind]
  obtain ⟨h1, h2, h3⟩ := s.qosMap_map v 63 true
  have hm (lo w : Nat) : ((s.qosMap v 63 true).qosHold 63).rd ⟨A.QOS_MAPv v, lo, w⟩ = (s.qosMap v 63 true).rd ⟨A.QOS_MAPv v, lo, w⟩ :=
    State.qosHold_rd _ _ _ (qosMapv_ne hv).1 (qosMapv_ne hv).2
  refine ⟨(hm 7 1).trans h1, (hm 6 1).trans h2, (hm 0 6).trans h3, ?_⟩
  rw [State.qosHold_share, State.qosMap_rd _ _ _ _ _ (qosMapv_ne hv).2.symm]

/-! Wake events (R446, R447), and the raise of a physical vector (R376). -/

/-- The registers below those of the frequency arbiter, and VRF_CTL of each function: no wake event writes them. -/
def wakeSpares (a : Nat) : Prop := a < A.GAF_DEEP ∨ ∃ f, f < 256 ∧ a = A.VRF_CTL f

/-- What a wake event leaves alone. -/
structure State.WakeKeeps (s u : State) : Prop where
  threads : u.threads = s.threads
  vrfs : u.vrfs = s.vrfs
  rdw : ∀ a, wakeSpares a → u.rdw a = s.rdw a

theorem State.wakeKeeps_refl (s : State) : s.WakeKeeps s := ⟨rfl, rfl, fun _ _ => rfl⟩

theorem State.WakeKeeps.wrw {s u : State} (h : s.WakeKeeps u) {b : Nat} (hb : ¬ wakeSpares b) (v : Word) : s.WakeKeeps (u.wrw b v) :=
  ⟨h.threads, h.vrfs, fun a ha => (State.rdw_wrw_ne _ _ _ _ fun e : a = b => hb (e ▸ ha)).trans (h.rdw a ha)⟩

theorem State.WakeKeeps.wr {s u : State} (h : s.WakeKeeps u) {f : FRef} (hf : ¬ wakeSpares f.addr) (v : Nat) : s.WakeKeeps (u.wr f v) :=
  h.wrw hf _

theorem not_wakeSpares_high {a : Nat} (h : A.VRF_CTL 256 ≤ a) : ¬ wakeSpares a := by
  unfold A.VRF_CTL at h
  rintro (h1 | ⟨f, hf, rfl⟩)
  · unfold A.GAF_DEEP at h1
    omega
  · unfold A.VRF_CTL at h
    omega

theorem not_wakeSpares_gaf {a : Nat} (h1 : A.GAF_DEEP ≤ a) (h2 : a < A.VRF_CTL 0) : ¬ wakeSpares a := by
  rintro (h | ⟨f, -, h⟩)
  · omega
  · unfold A.VRF_CTL at h h2
    omega

theorem not_wakeSpares_rsp (t : Nat) : ¬ wakeSpares (A.GAF_RSPt t) := by
  unfold A.GAF_RSPt
  rintro (h1 | ⟨f, hf, h⟩)
  · unfold A.GAF_DEEP at h1
    omega
  · unfold A.VRF_CTL at h
    omega

theorem State.WakeKeeps.wakeClock {s u : State} (h : s.WakeKeeps u) (d k : Nat) : s.WakeKeeps (u.wakeClock d k) := by
  have hk : ¬ wakeSpares (A.CLU_CLKk d k) := not_wakeSpares_high (by unfold A.VRF_CTL A.CLU_CLKk; omega)
  exact (h.wrw hk 0).wr hk 400

theorem State.WakeKeeps.respond {s u : State} (h : s.WakeKeeps u) (t result reason : Nat) (busy : Bool) :
    s.WakeKeeps (u.respond t result reason busy) :=
  ((h.wr (not_wakeSpares_rsp t) result).wr (not_wakeSpares_rsp t) reason).wr (not_wakeSpares_rsp t) (b2n busy)

theorem State.wakeKeeps_deepExit (s : State) : s.WakeKeeps s.deepExit := by
  have hclocks (l : List Nat) {u : State} (h : s.WakeKeeps u) : s.WakeKeeps (l.foldl (fun s c => s.wakeClock (c / 5) (c % 5)) u) := by
    induction l generalizing u with
    | nil => exact h
    | cons c l ih => exact ih (h.wakeClock _ _)
  have hdeep {u : State} (h : s.WakeKeeps u) (n : Nat) : s.WakeKeeps (u.inc F.GAF_DEEP_US n) :=
    h.wr (not_wakeSpares_gaf (by decide) (by decide)) _
  unfold State.deepExit
  dsimp only
  have h := hclocks (((List.range 12).filter s.dieRunning).flatMap fun d => (List.range 5).map fun k => 5 * d + k) s.wakeKeeps_refl
  generalize List.foldl (fun (s : State) c => s.wakeClock (c / 5) (c % 5)) s _ = u at h ⊢
  replace h := hdeep h ((u.now - u.gaf.since) / 8000)
  split
  next x _ =>
    obtain ⟨h1, h2, h3⟩ := h.respond x.t 1 0 false
    exact ⟨h1, h2, h3⟩
  next =>
    obtain ⟨h1, h2, h3⟩ := h
    exact ⟨h1, h2, h3⟩

theorem State.wakeKeeps_wake (s : State) : s.WakeKeeps s.wake := by
  have hcount {u : State} (h : s.WakeKeeps u) : s.WakeKeeps (u.inc F.GAF_DEEPCNT_ABORTS 1) :=
    h.wr (not_wakeSpares_gaf (by decide) (by decide)) _
  unfold State.wake
  split
  · exact s.wakeKeeps_deepExit
  · split
    · split
      · dsimp only
        split
        · exact s.wakeKeeps_refl
        · split
          · obtain ⟨h1, h2, h3⟩ := s.wakeKeeps_refl.respond _ 5 0 false
            exact ⟨h1, h2, h3⟩
          · obtain ⟨h1, h2, h3⟩ := (hcount s.wakeKeeps_refl).respond _ 5 0 false
            exact ⟨h1, h2, h3⟩
      · exact s.wakeKeeps_refl
    · exact s.wakeKeeps_refl

/-- A raise that is dropped is counted. -/
theorem State.cueDrop_dropped (s : State) : s.cueDrop.rd F.CUE_STAT_DROP = (s.rd F.CUE_STAT_DROP + 1) % 2 ^ 32 ∧ s.cueDrop.threads = s.threads :=
  ⟨State.rd_wr_same _ _ _ (by decide), rfl⟩

theorem State.cueRaise_invalid {s : State} {k : Nat} (h : s.rd (F.CUEV_V k) = 0) : s.cueRaise k = s.cueDrop := by
  unfold State.cueRaise State.flag
  rw [h]
  rfl

theorem State.cueRaise_physical {s : State} {k : Nat} (hv : s.rd (F.CUEV_V k) = 1) (hp : s.rd (F.CUEV_VIRT k) = 0) (ht : s.rd (F.CUEV_TARGET k) < 2 ^ 22)
    {o : Option Nat} (ho : s.cueTarget (s.rd (F.CUEV_TARGET k)) = o) :
    s.cueRaise k = if o.isSome then (if s.flag (F.CUEV_MASK k) then s else s.wake).wr (F.CUEV_PEND k) 1 else s.cueDrop := by
  unfold State.cueRaise
  rw [State.flag, hv, State.flag, hp, if_neg (by decide), if_neg (by decide), if_neg (by omega)]
  rw [ho]
  cases o <;> rfl

/-- A vector that is raised at a thread pends there and wakes the package. -/
theorem State.cueRaise_pends {s : State} {k t : Nat} (hk : k < 8192) (hv : s.rd (F.CUEV_V k) = 1) (hp : s.rd (F.CUEV_VIRT k) = 0)
    (ht : s.rd (F.CUEV_TARGET k) < 2 ^ 22) (h : s.cueTarget (s.rd (F.CUEV_TARGET k)) = some t) :
    (s.cueRaise k).rd (F.CUEV_PEND k) = 1 ∧ (s.cueRaise k).rd F.CUE_STAT_DROP = s.rd F.CUE_STAT_DROP ∧ (s.cueRaise k).threads = s.threads := by
  rw [State.cueRaise_physical hv hp ht h, Option.isSome_some, if_pos rfl]
  have hw : s.WakeKeeps (if s.flag (F.CUEV_MASK k) then s else s.wake) := by
    split
    · exact s.wakeKeeps_refl
    · exact s.wakeKeeps_wake
  refine ⟨State.rd_wr_same _ _ _ (by simp), ?_, hw.threads⟩
  rw [State.rd_wr_addr _ _ _ _ (show A.CUE_STAT ≠ A.CUEV k by unfold A.CUE_STAT A.CUEV; omega), State.rd, hw.rdw _ (.inl (by decide))]
  rfl

end Sys2Proof.Machine
end

section
/-!
WRITES AT HOME AND VIRTUAL MACHINES. What a write or a read at home, and the raise of a cue vector, leave alone: the functions of the
runners, which of them are enabled, and the virtual machine of each cue vector. One rule per function of the model, in the order of
the definitions, each by the rules of the functions it calls.
-/
namespace Sys2Proof.Machine

set_option Elab.async false

/-- What the registers say of virtual machines: that of each cue vector, and which functions are enabled. -/
def vmHeld (m : SMap Word) : (Fin 8192 → Nat) × (Fin 256 → Bool) :=
  (fun y => fget (SMap.get (ioReset (A.CUEV y)) m (A.CUEV y)) 48 12, fun f => fget (SMap.get (ioReset (A.VRF_CTL f)) m (A.VRF_CTL f)) 0 1 == 1)

/-- An address of neither a cue vector nor the control register of a function. -/
def VmSpared (a : Nat) : Prop := (∀ y : Fin 8192, A.CUEV y ≠ a) ∧ ∀ f : Fin 256, A.VRF_CTL f ≠ a

@[simp] theorem vmHeld_put (m : SMap Word) (a : Nat) (w : Word) (h : VmSpared a) : vmHeld (SMap.put m a w) = vmHeld m := by
  obtain ⟨h1, h2⟩ := h
  unfold vmHeld
  simp only [SMap.get_put_ne _ _ _ _ _ (h1 _), SMap.get_put_ne _ _ _ _ _ (h2 _)]

@[simp] theorem vmSpared_low {a : Nat} (h : a < 0xfe0000310000) : VmSpared a := by
  refine ⟨fun y => ?_, fun f => ?_⟩
  · unfold A.CUEV
    omega
  · unfold A.VRF_CTL
    omega

@[simp] theorem vmSpared_high {a : Nat} (h : 0xfe0001900040 ≤ a) : VmSpared a := by
  refine ⟨fun y => ?_, fun f => ?_⟩
  · unfold A.CUEV
    omega
  · unfold A.VRF_CTL
    omega

@[simp] theorem vmSpared_high_add {a : Nat} (i : Nat) (h : 0xfe0001900040 ≤ a) : VmSpared (a + i) := vmSpared_high (by omega)

@[simp] theorem vmSpared_dom {a : Nat} (d : Fin 8) (h : a + 0x700 < 0xfe0000310000) : VmSpared (a + d.val * 0x100) := vmSpared_low (by omega)

@[simp] theorem vmHeld_ite (c : Prop) [Decidable c] (m n : SMap Word) : vmHeld (if c then m else n) = if c then vmHeld m else vmHeld n :=
  apply_ite vmHeld c m n

@[simp] theorem State.ite_vrfs (c : Prop) [Decidable c] (s u : State) : (if c then s else u).vrfs = if c then s.vrfs else u.vrfs :=
  apply_ite State.vrfs c s u

@[simp] theorem State.ite_io (c : Prop) [Decidable c] (s u : State) : (if c then s else u).io = if c then s.io else u.io :=
  apply_ite State.io c s u

/-- That every turn of a loop leaves the functions and what the registers say of virtual machines alone. -/
def VmLoop {α : Type} (f : State → α → State) : Prop := ∀ s a, (f s a).vrfs = s.vrfs ∧ vmHeld (f s a).io = vmHeld s.io

@[simp] theorem vmLoop_iff {α : Type} (f : State → α → State) :
    VmLoop f ↔ ∀ s a, (f s a).vrfs = s.vrfs ∧ vmHeld (f s a).io = vmHeld s.io := ⟨id, id⟩

@[simp] theorem State.foldl_vm {α : Type} (f : State → α → State) (hf : VmLoop f) (l : List α) (s : State) :
    (l.foldl f s).vrfs = s.vrfs ∧ vmHeld (l.foldl f s).io = vmHeld s.io := by
  induction l generalizing s with
  | nil => exact ⟨rfl, rfl⟩
  | cons a l ih =>
    obtain ⟨h1, h2⟩ := ih (f s a)
    exact ⟨h1.trans (hf s a).1, h2.trans (hf s a).2⟩

@[simp] theorem State.inc_vm (s : State) (f : FRef) (n : Nat) (h : VmSpared f.addr) : vmHeld (s.inc f n).io = vmHeld s.io := by
  simp [State.inc, h]

@[simp] theorem State.incSat_vm (s : State) (f : FRef) (n : Nat) (h : VmSpared f.addr) : vmHeld (s.incSat f n).io = vmHeld s.io := by
  simp [State.incSat, h]

@[simp] theorem State.fillBank_vm (s : State) (b : Nat) (e : ErrRec) (ce : Nat) (ov : Bool) :
    (s.fillBank b e ce ov).vrfs = s.vrfs ∧ vmHeld (s.fillBank b e ce ov).io = vmHeld s.io := by simp [State.fillBank]

@[simp] theorem State.logErr_vm (s : State) (b : Nat) (e : ErrRec) :
    (s.logErr b e).vrfs = s.vrfs ∧ vmHeld (s.logErr b e).io = vmHeld s.io := by simp [State.logErr]

@[simp] theorem State.mcQueue_vm (s : State) (code : Nat) (v : Word) :
    (s.mcQueue code v).vrfs = s.vrfs ∧ vmHeld (s.mcQueue code v).io = vmHeld s.io := by
  simp only [State.mcQueue]
  split <;> simp [A.MC_GSTAT]

@[simp] theorem State.logAsync_vm (s : State) (b : Nat) (e : ErrRec) :
    (s.logAsync b e).vrfs = s.vrfs ∧ vmHeld (s.logAsync b e).io = vmHeld s.io := by simp [State.logAsync]

@[simp] theorem State.linkPush_vm (s : State) (l : Nat) :
    (s.linkPush l).vrfs = s.vrfs ∧ vmHeld (s.linkPush l).io = vmHeld s.io := by simp [State.linkPush]

@[simp] theorem State.packetOut_vm (s : State) (a : Agent) (line : Nat) :
    (s.packetOut a line).vrfs = s.vrfs ∧ vmHeld (s.packetOut a line).io = vmHeld s.io := by
  unfold State.packetOut
  split <;> simp

@[simp] theorem State.undecodable_vm (s : State) (bank pa : Nat) :
    (s.undecodable bank pa).vrfs = s.vrfs ∧ vmHeld (s.undecodable bank pa).io = vmHeld s.io := by simp [State.undecodable, A.IS_UNDEC]

@[simp] theorem State.uncache_vm (s : State) (line k : Nat) :
    (s.uncache line k).vrfs = s.vrfs ∧ vmHeld (s.uncache line k).io = vmHeld s.io := by simp [State.uncache, State.setCache]

@[simp] theorem State.forget_vm (s : State) (d line : Nat) :
    (s.forget d line).vrfs = s.vrfs ∧ vmHeld (s.forget d line).io = vmHeld s.io := by
  unfold State.forget
  dsimp only
  split <;> simp

@[simp] theorem State.headStep_vm (s : State) (d : Fin 8) :
    (s.headStep d.val).vrfs = s.vrfs ∧ vmHeld (s.headStep d.val).io = vmHeld s.io := by simp [State.headStep]

@[simp] theorem State.promote_vm (s : State) (a : Nat) : (s.promote a).vrfs = s.vrfs ∧ vmHeld (s.promote a).io = vmHeld s.io := by
  simp [State.promote]

@[simp] theorem State.cutStart_vm (s : State) (d : Fin 8) :
    (s.cutStart d.val).vrfs = s.vrfs ∧ vmHeld (s.cutStart d.val).io = vmHeld s.io := by simp [State.cutStart]

@[simp] theorem State.cutTrigger_vm (s : State) (d : Fin 8) :
    (s.cutTrigger d.val).vrfs = s.vrfs ∧ vmHeld (s.cutTrigger d.val).io = vmHeld s.io := by simp [State.cutTrigger]

@[simp] theorem State.reelTrigger_vm (s : State) (d : Fin 8) :
    (s.reelTrigger d.val).vrfs = s.vrfs ∧ vmHeld (s.reelTrigger d.val).io = vmHeld s.io := by simp [State.reelTrigger]

@[simp] theorem State.writeBlock_vm (s : State) (d : Fin 8) (take : Nat) (kind : BlockKind) (ents : List StagedUndo) :
    (s.writeBlock d.val take kind ents).vrfs = s.vrfs ∧ vmHeld (s.writeBlock d.val take kind ents).io = vmHeld s.io := by
  simp [State.writeBlock]

@[simp] theorem State.flushOne_vm (s : State) (d : Fin 8) (take : Nat) :
    (s.flushOne d.val take).vrfs = s.vrfs ∧ vmHeld (s.flushOne d.val take).io = vmHeld s.io := by simp [State.flushOne]

@[simp] theorem State.flush_vm (s : State) (part : Bool) :
    (s.flush part).vrfs = s.vrfs ∧ vmHeld (s.flush part).io = vmHeld s.io := by simp [State.flush]

@[simp] theorem State.acceptUndo_vm (s : State) (e : UndoEntry) :
    (s.acceptUndo e).vrfs = s.vrfs ∧ vmHeld (s.acceptUndo e).io = vmHeld s.io := by simp [State.acceptUndo, A.TK_UNDO]

@[simp] theorem State.setHeld_vm (s : State) (h : List Held) :
    (s.setHeld h).vrfs = s.vrfs ∧ vmHeld (s.setHeld h).io = vmHeld s.io := by simp [State.setHeld, A.TK_HELD]

@[simp] theorem State.setWq_vm (s : State) (n : Nat) (l : List WqEnt) :
    (s.setWq n l).vrfs = s.vrfs ∧ vmHeld (s.setWq n l).io = vmHeld s.io := by simp [State.setWq]

@[simp] theorem State.portPut_vm (s : State) (n dev : Nat) (mask : BitVec 64) (d : LineData) (poison undo : Bool) (ks : Nat) :
    (s.portPut n dev mask d poison undo ks).vrfs = s.vrfs ∧ vmHeld (s.portPut n dev mask d poison undo ks).io = vmHeld s.io := by
  simp [State.portPut]

@[simp] theorem State.toMemory_vm (s : State) (line : Nat) (mask : BitVec 64) (d : LineData) (poison undo : Bool) (ks : Nat) :
    (s.toMemory line mask d poison undo ks).vrfs = s.vrfs ∧ vmHeld (s.toMemory line mask d poison undo ks).io = vmHeld s.io := by
  unfold State.toMemory
  split <;> simp

@[simp] theorem State.releaseHeld_vm (s : State) :
    (s.releaseHeld).vrfs = s.vrfs ∧ vmHeld (s.releaseHeld).io = vmHeld s.io := by simp [State.releaseHeld, A.TK_UNDO]

@[simp] theorem State.hold_vm (s : State) (line : Nat) (d : LineData) (poison : Bool) (ks dom : Nat) :
    (s.hold line d poison ks dom).vrfs = s.vrfs ∧ vmHeld (s.hold line d poison ks dom).io = vmHeld s.io := by
  simp [State.hold]

@[simp] theorem State.writeLine_vm (s : State) (line : Nat) (d : LineData) (poison pd : Bool) (ks : Nat) :
    (s.writeLine line d poison pd ks).vrfs = s.vrfs ∧ vmHeld (s.writeLine line d poison pd ks).io = vmHeld s.io := by
  simp [State.writeLine]

@[simp] theorem State.recallPkg_vm (s : State) (line : Nat) :
    (s.recallPkg line).vrfs = s.vrfs ∧ vmHeld (s.recallPkg line).io = vmHeld s.io := by simp [State.recallPkg]

@[simp] theorem State.dropLine_vm (s : State) (line : Nat) :
    (s.dropLine line).vrfs = s.vrfs ∧ vmHeld (s.dropLine line).io = vmHeld s.io := by simp [State.dropLine]

/-- A field in the low bits of a register is no virtual machine of a cue vector, and above bit 0 it is no enable. -/
theorem State.wr_low_vm (s : State) (f : FRef) (v : Nat) (h : f.lo + f.w ≤ 48) (hf : (∀ g : Fin 256, A.VRF_CTL g ≠ f.addr) ∨ 1 ≤ f.lo) :
    vmHeld (s.wr f v).io = vmHeld s.io := by
  have hc (y : Fin 8192) : (s.wr f v).rd (F.CUEV_VMID y) = s.rd (F.CUEV_VMID y) := State.rd_wr_ne s _ _ _ (by omega) (.inr (.inr h))
  have he (g : Fin 256) : (s.wr f v).rd (F.VRF_CTL_EN g) = s.rd (F.VRF_CTL_EN g) :=
    State.rd_wr_ne s _ _ _ (by omega) (hf.imp (fun hf => hf g) .inl)
  exact Prod.ext (funext hc) (funext fun g => congrArg (· == 1) (he g))

@[simp] theorem State.inc_disc_vm (s : State) (k n : Nat) : vmHeld (s.inc (F.TDn_DISC_COUNT k) n).io = vmHeld s.io :=
  s.wr_low_vm _ _ (by simp) (.inl fun g => by simp only [A.VRF_CTL, A.TDn_DISC]; omega)

@[simp] theorem State.homeWriteNow_vm (s : State) (agent pa : Nat) (bs : List Byte) (ks : Nat) :
    (s.homeWriteNow agent pa bs ks).vrfs = s.vrfs ∧ vmHeld (s.homeWriteNow agent pa bs ks).io = vmHeld s.io := by
  simp only [State.homeWriteNow]
  split <;> simp

@[simp] theorem State.lsWrite_vm (s : State) (d ofs : Nat) (bs : List Byte) (src : Option Nat) :
    (s.lsWrite d ofs bs src).vrfs = s.vrfs ∧ vmHeld (s.lsWrite d ofs bs src).io = vmHeld s.io := by
  simp [State.lsWrite]

@[simp] theorem State.ncWrite_vm (s : State) (pa : Nat) (bs : List Byte) (ks : Nat) :
    (s.ncWrite pa bs ks).vrfs = s.vrfs ∧ vmHeld (s.ncWrite pa bs ks).io = vmHeld s.io := by
  unfold State.ncWrite
  split <;> simp

@[simp] theorem State.homeWrite_vm (s : State) (agent n pa : Nat) (bs : List Byte) (ks : Nat) :
    (s.homeWrite agent n pa bs ks).vrfs = s.vrfs ∧ vmHeld (s.homeWrite agent n pa bs ks).io = vmHeld s.io := by
  simp only [State.homeWrite]
  split <;> simp

@[simp] theorem State.homePieces_vm (s : State) (agent n fuel pa : Nat) (bs : List Byte) (ks : Nat) :
    (s.homePieces agent n fuel pa bs ks).vrfs = s.vrfs ∧ vmHeld (s.homePieces agent n fuel pa bs ks).io = vmHeld s.io := by
  induction fuel generalizing s pa bs with
  | zero => exact ⟨rfl, rfl⟩
  | succ fuel ih => simp [State.homePieces, ih]

@[simp] theorem State.homeWrites_vm (s : State) (agent fuel pa : Nat) (bs : List Byte) (ks : Nat) :
    (s.homeWrites agent fuel pa bs ks).vrfs = s.vrfs ∧ vmHeld (s.homeWrites agent fuel pa bs ks).io = vmHeld s.io := by
  simp [State.homeWrites]

@[simp] theorem State.lsRead_vm (s : State) (d ofs n : Nat) (src : Option Nat) :
    (s.lsRead d ofs n src).2.2.vrfs = s.vrfs ∧ vmHeld (s.lsRead d ofs n src).2.2.io = vmHeld s.io := by
  unfold State.lsRead
  split <;> simp

@[simp] theorem State.ncRead_vm (s : State) (pa n ks : Nat) :
    (s.ncRead pa n ks).2.2.vrfs = s.vrfs ∧ vmHeld (s.ncRead pa n ks).2.2.io = vmHeld s.io := by
  simp only [State.ncRead]
  repeat' split
  all_goals simp

@[simp] theorem State.homeRead_vm (s : State) (agent pa n ks : Nat) :
    (s.homeRead agent pa n ks).2.2.vrfs = s.vrfs ∧ vmHeld (s.homeRead agent pa n ks).2.2.io = vmHeld s.io := by
  unfold State.homeRead
  dsimp only
  split
  · simp
  · rw [apply_ite (fun x : List Byte × Bool × State => x.2.2)]
    simp

@[simp] theorem State.homeReads_vm (s : State) (agent fuel pa n ks : Nat) :
    (s.homeReads agent fuel pa n ks).2.2.vrfs = s.vrfs ∧ vmHeld (s.homeReads agent fuel pa n ks).2.2.io = vmHeld s.io := by
  induction fuel generalizing s pa n with
  | zero => exact ⟨rfl, rfl⟩
  | succ fuel ih =>
    unfold State.homeReads
    split
    · exact ⟨rfl, rfl⟩
    · simp [ih]

@[simp] theorem State.homeOr_vm (s : State) (pa : Nat) (b : Byte) :
    (s.homeOr pa b).vrfs = s.vrfs ∧ vmHeld (s.homeOr pa b).io = vmHeld s.io := by simp [State.homeOr]

@[simp] theorem State.cueDrop_vm (s : State) :
    (s.cueDrop).vrfs = s.vrfs ∧ vmHeld (s.cueDrop).io = vmHeld s.io := by simp [State.cueDrop, A.CUE_STAT]

@[simp] theorem State.wake_vm (s : State) : s.wake.vrfs = s.vrfs ∧ vmHeld s.wake.io = vmHeld s.io := by
  obtain ⟨-, hv, hr⟩ := s.wakeKeeps_wake
  have hc (y : Fin 8192) : s.wake.rdw (A.CUEV y) = s.rdw (A.CUEV y) := hr _ (.inl (by simp only [A.CUEV, A.GAF_DEEP]; omega))
  have hf (f : Fin 256) : s.wake.rdw (A.VRF_CTL f) = s.rdw (A.VRF_CTL f) := hr _ (.inr ⟨f, f.isLt, rfl⟩)
  exact ⟨hv, Prod.ext (funext fun y => congrArg (fget · 48 12) (hc y)) (funext fun f => congrArg (fun w => fget w 0 1 == 1) (hf f))⟩

@[simp] theorem State.notice_vm (s : State) (t lvl pti : Nat) :
    (s.notice t lvl pti).vrfs = s.vrfs ∧ vmHeld (s.notice t lvl pti).io = vmHeld s.io := by simp [State.notice]

@[simp] theorem State.cueVirtual_vm (s : State) (target : Nat) :
    (s.cueVirtual target).vrfs = s.vrfs ∧ vmHeld (s.cueVirtual target).io = vmHeld s.io := by
  simp only [State.cueVirtual]
  repeat' split
  all_goals simp

@[simp] theorem State.put_pend_vm (s : State) (k v : Nat) :
    vmHeld (SMap.put s.io (A.CUEV k) (fset (s.rdw (A.CUEV k)) 24 1 v)) = vmHeld s.io :=
  s.wr_low_vm (F.CUEV_PEND k) v (by simp) (.inr (by simp))

@[simp] theorem State.cueRaise_vm (s : State) (k : Nat) :
    (s.cueRaise k).vrfs = s.vrfs ∧ vmHeld (s.cueRaise k).io = vmHeld s.io := by
  simp only [State.cueRaise]
  repeat' split
  all_goals simp

end Sys2Proof.Machine
end

section
/-!
RESET OF A FUNCTION (R371 to R374): what it leaves alone, and what it clears.
-/
namespace Sys2Proof.Machine

set_option Elab.async false

@[simp] theorem vmSpared_page {a k : Nat} (i : Nat) (h : 0xfe0000320000 ≤ a) (hk : k % 0x1000 = 0) (ha : a % 0x1000 ≠ 0x40) : VmSpared (a + i * k) := by
  have hm : i * k % 0x1000 = 0 := by rw [Nat.mul_mod, hk, Nat.mul_zero, Nat.zero_mod]
  refine ⟨fun y => ?_, fun f => ?_⟩
  · unfold A.CUEV
    omega
  · unfold A.VRF_CTL
    omega

@[simp] theorem vmSpared_engine (e : Nat) : VmSpared (0xfe0001000000 + e * 0x10000) := by simp

@[simp] theorem State.vrfActive_vm (s : State) (f : Nat) :
    (s.vrfActive f).vrfs = s.vrfs ∧ vmHeld (s.vrfActive f).io = vmHeld s.io := by simp [State.vrfActive]

@[simp] theorem State.vrfStop_vm (s : State) (f err : Nat) :
    (s.vrfStop f err).vrfs = s.vrfs ∧ vmHeld (s.vrfStop f err).io = vmHeld s.io := by simp [State.vrfStop]

@[simp] theorem State.countRecord_vm (s : State) (f st : Nat) :
    (s.countRecord f st).vrfs = s.vrfs ∧ vmHeld (s.countRecord f st).io = vmHeld s.io := by simp [State.countRecord]

@[simp] theorem State.recordCue_vm (s : State) (f : Nat) :
    (s.recordCue f).vrfs = s.vrfs ∧ vmHeld (s.recordCue f).io = vmHeld s.io := by simp [State.recordCue]

@[simp] theorem State.wrDrop_vm (s : State) (agent : Nat) :
    (s.wrDrop agent).1.vrfs = s.vrfs ∧ vmHeld (s.wrDrop agent).1.io = vmHeld s.io := by simp [State.wrDrop]

@[simp] theorem State.vrfDrop_vm (s : State) (f : Nat) :
    (s.vrfDrop f).vrfs = s.vrfs ∧ vmHeld (s.vrfDrop f).io = vmHeld s.io := by simp [State.vrfDrop]

theorem State.sendRecord_vm {s u : State} {f : Nat} {j : Job} {st res gen : Nat} (h : s.sendRecord f j st res gen = some u) :
    u.vrfs = s.vrfs ∧ vmHeld u.io = vmHeld s.io := by
  obtain ⟨pa, -, rfl⟩ := Option.map_eq_some_iff.mp h
  exact s.homeWrites_vm _ _ _ _ _

/-- From s to u, every function but f is as it was, and the registers say the same of virtual machines. -/
structure State.VmBut (f : Nat) (s u : State) : Prop where
  vrf : ∀ g, g ≠ f → u.vrf g = s.vrf g
  held : vmHeld u.io = vmHeld s.io

theorem State.vmBut_refl (f : Nat) (s : State) : State.VmBut f s s := ⟨fun _ _ => rfl, rfl⟩

theorem State.VmBut.trans {f : Nat} {s u v : State} (h : State.VmBut f s u) (k : State.VmBut f u v) : State.VmBut f s v :=
  ⟨fun g hg => (k.vrf g hg).trans (h.vrf g hg), k.held.trans h.held⟩

theorem State.VmBut.then {f : Nat} {s u v : State} (h : State.VmBut f s u) (k : v.vrfs = u.vrfs ∧ vmHeld v.io = vmHeld u.io) : State.VmBut f s v :=
  h.trans ⟨fun g _ => congrArg (SMap.get VrfSt.reset · g) k.1, k.2⟩

theorem State.vmBut_setVrf (s : State) (f : Nat) (x : VrfSt) : State.VmBut f s (s.setVrf f x) :=
  ⟨fun _ hg => SMap.get_put_ne _ _ _ _ _ hg, rfl⟩

theorem State.vmBut_recordDone (s : State) (f : Nat) (j : Job) (st : Nat) : State.VmBut f s (s.recordDone f j st) := by
  unfold State.recordDone
  refine State.VmBut.then ?_ (State.vrfActive_vm _ f)
  have h := (s.vmBut_setVrf f { s.vrf f with jobs := (s.vrf f).jobs.drop 1 }).then (State.countRecord_vm _ f st)
  split
  · exact h.then (State.recordCue_vm _ f)
  · exact h

theorem State.vmBut_record (s : State) (f : Nat) : State.VmBut f s (s.record f) := by
  unfold State.record
  split
  · split
    · split
      · exact s.vmBut_recordDone f _ _
      · split
        next u hu =>
          have h := (s.vmBut_refl f).then (State.sendRecord_vm hu)
          split
          · exact h.trans (u.vmBut_recordDone f _ _)
          · exact h.trans (u.vmBut_setVrf f _)
        next => exact (s.vmBut_refl f).then (s.vrfStop_vm f 2)
    · exact s.vmBut_refl f
  · exact s.vmBut_refl f

theorem State.vmBut_recordSent (s : State) (f : Nat) : State.VmBut f s (s.recordSent f) := by
  unfold State.recordSent
  split
  · split
    · exact s.vmBut_record f
    · exact s.vmBut_refl f
  · exact s.vmBut_refl f

theorem State.vmBut_discardJobs (s : State) (f gen : Nat) : State.VmBut f s (s.discardJobs f gen) := by
  unfold State.discardJobs
  generalize (s.vrf f).jobs = l
  induction l generalizing s with
  | nil => exact s.vmBut_refl f
  | cons j l ih =>
    rw [List.foldl_cons]
    refine State.VmBut.trans ?_ (ih _)
    split
    next u hu =>
      have h := ((s.vmBut_refl f).then (State.sendRecord_vm hu)).then (u.countRecord_vm f 1)
      dsimp only
      split
      · exact h
      · split
        · exact h.then (State.recordCue_vm _ f)
        · exact h.trans (State.vmBut_setVrf _ f _)
    next => exact s.vmBut_refl f

end Sys2Proof.Machine
end

section
/-!
RESET VALUES of the cue vectors and of the functions' control registers (R14).
-/
namespace Sys2Proof.Machine

set_option Elab.async false

/-- Whether a family of registers may reach into a range of addresses. -/
def RegDesc.near (lo hi : Nat) (r : RegDesc) : Bool := decide (r.base < hi) && decide (lo ≤ r.base + r.n1 * r.s1 + r.n2 * r.s2)

/-- An offset lies no further up than its index and what is left of it allow. -/
theorem offset_le {n s p : Nat} (h : (if n = 1 then 0 else p / s) < n) : p ≤ n * s + if n = 1 then p else p % s := by
  split at h
  next h1 =>
    rw [if_pos h1]
    exact Nat.le_add_left _ _
  next h1 =>
    have := Nat.div_add_mod p s
    have : s * (p / s) ≤ n * s := by
      rw [Nat.mul_comm n s]
      exact Nat.mul_le_mul_left s h.le
    rw [if_neg h1]
    omega

theorem RegDesc.index_far {r : RegDesc} {lo hi a : Nat} (h1 : lo ≤ a) (h2 : a < hi) (h : r.near lo hi = false) : r.index a = none := by
  unfold RegDesc.index
  split
  · rfl
  · refine if_neg fun hc => ?_
    simp only [Bool.and_eq_true, decide_eq_true_eq, beq_iff_eq] at hc
    obtain ⟨⟨hi, hj⟩, hq⟩ := hc
    have h3 := offset_le hi
    have h4 := offset_le hj
    simp only [RegDesc.near, Bool.and_eq_false_iff, decide_eq_false_iff_not] at h
    omega

/-- A register lies in one of the families that may reach into a range around it. -/
theorem regAt_near (rs : List RegDesc) {lo hi a : Nat} (h1 : lo ≤ a) (h2 : a < hi) : regAt rs a = regAt (rs.filter (RegDesc.near lo hi)) a := by
  induction rs with
  | nil => rfl
  | cons r rs ih =>
    by_cases h : r.near lo hi
    · rw [List.filter_cons_of_pos h, regAt, regAt, ih]
    · rw [List.filter_cons_of_neg h, regAt, RegDesc.index_far h1 h2 (Bool.eq_false_iff.mpr h), ih]

theorem regTable_near_cuev : regTable.filter (RegDesc.near 0xfe0000310000 0xfe0000320000) = [D.CUEV] := by decide +kernel

/-- The guest registers of the functions, which lie among each other. -/
def vrfTable : List RegDesc :=
  [D.VRF_SQBASE, D.VRF_SQCFG, D.VRF_SQTAIL, D.VRF_SQHEAD, D.VRF_CQBASE, D.VRF_CQTAIL, D.VRF_CQHEAD, D.VRF_CTL, D.VRF_STAT]

theorem regTable_near_vrf : regTable.filter (RegDesc.near 0xfe0001800000 0xfe0001900000) = vrfTable := by decide +kernel

theorem regAt_vrfTable : ∀ f : Fin 256, regAt vrfTable (A.VRF_CTL f) = some (D.VRF_CTL, f.val, 0) := by decide +kernel

theorem ioReset_of_regAt {a : Nat} {o : Option (RegDesc × Nat × Nat)} (h : regAt regTable a = o) :
    ioReset a = o.elim 0 fun x => BitVec.ofNat 64 (resetOverride x.1 x.2.1 x.2.2) := by
  unfold ioReset
  rw [h]
  cases o <;> rfl

/-- No cue vector belongs to a virtual machine at its reset value. -/
theorem ioReset_cuev {y : Nat} (h : y < 8192) : fget (ioReset (A.CUEV y)) 48 12 = 0 := by
  have hr := regAt_near regTable (a := A.CUEV y) (lo := 0xfe0000310000) (hi := 0xfe0000320000) (by unfold A.CUEV; omega) (by unfold A.CUEV; omega)
  rw [regTable_near_cuev, regAt, regAt] at hr
  rw [ioReset_of_regAt hr]
  cases D.CUEV.index (A.CUEV y) with
  | none => rfl
  | some c => exact (by decide : fget (BitVec.ofNat 64 D.CUEV.reset) 48 12 = 0)

/-- No function is enabled at its reset value. -/
theorem ioReset_vrfCtl {f : Nat} (h : f < 256) : fget (ioReset (A.VRF_CTL f)) 0 1 = 0 := by
  have hr := regAt_near regTable (a := A.VRF_CTL f) (lo := 0xfe0001800000) (hi := 0xfe0001900000) (by unfold A.VRF_CTL; omega) (by unfold A.VRF_CTL; omega)
  rw [regTable_near_vrf, regAt_vrfTable ⟨f, h⟩] at hr
  rw [ioReset_of_regAt hr]
  exact (by decide : fget (BitVec.ofNat 64 D.VRF_CTL.reset) 0 1 = 0)

end Sys2Proof.Machine
end

section
/-!
RESET OF A VIRTUAL MACHINE (R381), and the settlement of O54.
-/
namespace Sys2Proof.Machine

set_option Elab.async false

/-! The reset of one function. -/

/-- From s to u, function f has been reset: it has no descriptor and is not enabled; every other function has its descriptors and its
enable as before, and every cue vector its virtual machine. -/
structure State.Cleared (f : Nat) (s u : State) : Prop where
  jobs : (u.vrf f).jobs = []
  off : u.vrfOn f = false
  vrf : ∀ g, g ≠ f → u.vrf g = s.vrf g
  on : ∀ g, g < 256 → g ≠ f → u.vrfOn g = s.vrfOn g
  vmid : ∀ y, y < 8192 → u.rd (F.CUEV_VMID y) = s.rd (F.CUEV_VMID y)

theorem State.vrfOn_of_held {s u : State} (h : vmHeld u.io = vmHeld s.io) {f : Nat} (hf : f < 256) : u.vrfOn f = s.vrfOn f :=
  congrFun (congrArg Prod.snd h) ⟨f, hf⟩

theorem State.vmid_of_held {s u : State} (h : vmHeld u.io = vmHeld s.io) {y : Nat} (hy : y < 8192) :
    u.rd (F.CUEV_VMID y) = s.rd (F.CUEV_VMID y) :=
  congrFun (congrArg Prod.fst h) ⟨y, hy⟩

theorem State.Cleared.after {f : Nat} {s u v : State} (h : State.VmBut f s u) (k : State.Cleared f u v) : State.Cleared f s v where
  jobs := k.jobs
  off := k.off
  vrf g hg := (k.vrf g hg).trans (h.vrf g hg)
  on g hg hne := (k.on g hg hne).trans (State.vrfOn_of_held h.held hg)
  vmid y hy := (k.vmid y hy).trans (State.vmid_of_held h.held hy)

theorem State.Cleared.then {f : Nat} (hf : f < 256) {s u v : State} (h : State.Cleared f s u) (k : v.vrfs = u.vrfs ∧ vmHeld v.io = vmHeld u.io) :
    State.Cleared f s v where
  jobs := (congrArg (fun m => (SMap.get VrfSt.reset m f).jobs) k.1).trans h.jobs
  off := (State.vrfOn_of_held k.2 hf).trans h.off
  vrf g hg := (congrArg (SMap.get VrfSt.reset · g) k.1).trans (h.vrf g hg)
  on g hg hne := (State.vrfOn_of_held k.2 hg).trans (h.on g hg hne)
  vmid y hy := (State.vmid_of_held k.2 hy).trans (h.vmid y hy)

/-- A state whose guest registers of function f are at their reset values. -/
def State.guestReset (s : State) (f : Nat) : State :=
  { s with io := SMap.keep (fun a _ => !(A.VRF_SQBASE f ≤ a && a < A.VRF_SQBASE f + 0x1000)) s.io }

theorem State.guestReset_in (s : State) {f a : Nat} (h1 : A.VRF_SQBASE f ≤ a) (h2 : a < A.VRF_SQBASE f + 0x1000) : (s.guestReset f).rdw a = ioReset a := by
  unfold State.rdw State.guestReset SMap.get
  rw [SMap.find?_keep_of_not _ _ _ fun v => by rw [decide_eq_true h1, decide_eq_true h2]; rfl]
  rfl

theorem State.guestReset_out (s : State) {f a : Nat} (h : a < A.VRF_SQBASE f ∨ A.VRF_SQBASE f + 0x1000 ≤ a) : (s.guestReset f).rdw a = s.rdw a := by
  unfold State.rdw State.guestReset SMap.get
  rw [SMap.find?_keep_of _ _ _ fun v => by
    rw [Bool.not_eq_true', Bool.and_eq_false_iff, decide_eq_false_iff_not, decide_eq_false_iff_not]
    omega]

theorem State.cleared_guestReset (s : State) {f : Nat} (hf : f < 256) (x : VrfSt) (hx : x.jobs = []) : State.Cleared f s ((s.guestReset f).setVrf f x) where
  jobs := (congrArg VrfSt.jobs (SMap.get_put_same _ _ _ _)).trans hx
  off := by
    have h : (s.guestReset f).rdw (A.VRF_CTL f) = ioReset (A.VRF_CTL f) := s.guestReset_in (by unfold A.VRF_SQBASE A.VRF_CTL; omega) (by unfold A.VRF_SQBASE A.VRF_CTL; omega)
    show (fget ((s.guestReset f).rdw (A.VRF_CTL f)) 0 1 == 1) = false
    rw [h, ioReset_vrfCtl hf]
    rfl
  vrf g hg := SMap.get_put_ne _ _ _ _ _ hg
  on g _ hne := congrArg (fun w => fget w 0 1 == 1) (s.guestReset_out (f := f) (a := A.VRF_CTL g) (by unfold A.VRF_SQBASE A.VRF_CTL; omega))
  vmid y hy := congrArg (fget · 48 12) (s.guestReset_out (f := f) (a := A.CUEV y) (by unfold A.VRF_SQBASE A.CUEV; omega))

theorem State.cleared_vrfClear (s : State) {f : Nat} (hf : f < 256) : State.Cleared f s (s.vrfClear f) := by
  have h := s.cleared_guestReset hf { VrfSt.reset with cues := (s.vrf f).cues } rfl
  refine h.then hf ?_
  unfold State.vrfClear
  simp [State.guestReset, State.vrf]

/-- The reset of a function as a virtual machine reset does it (R373, R374). -/
def State.vmFnReset (s : State) (f : Nat) : State :=
  if s.rnQuiesce then ((s.recordSent f).discardJobs f f).vrfClear f else s.vrfResetGen f

theorem State.cleared_vmFnReset (s : State) {f : Nat} (hf : f < 256) : State.Cleared f s (s.vmFnReset f) := by
  unfold State.vmFnReset
  split
  · exact .after ((s.vmBut_recordSent f).trans (State.vmBut_discardJobs _ f f)) (State.cleared_vrfClear _ hf)
  · unfold State.vrfResetGen
    refine .after (.trans ?_ (State.vmBut_discardJobs _ f _)) (State.cleared_vrfClear _ hf)
    exact ((s.vmBut_recordSent f).then (by simp)).then (State.vrfDrop_vm _ f)

/-- From s to u, every function of a list has been reset, and every cue vector has its virtual machine as before. -/
structure State.AllCleared (l : List Nat) (s u : State) : Prop where
  fns : ∀ f ∈ l, (u.vrf f).jobs = [] ∧ u.vrfOn f = false
  vmid : ∀ y, y < 8192 → u.rd (F.CUEV_VMID y) = s.rd (F.CUEV_VMID y)

/-- The resets of the functions of a list, after those that were reset before. -/
theorem State.AllCleared.foldl {l m : List Nat} {s u : State} (h : State.AllCleared l s u) (hl : ∀ f ∈ l, f < 256) (hm : ∀ f ∈ m, f < 256) :
    State.AllCleared (m.reverse ++ l) s (m.foldl State.vmFnReset u) := by
  induction m generalizing l u with
  | nil => exact h
  | cons g m ih =>
    rw [List.foldl_cons, List.reverse_cons, List.append_assoc]
    have hg : g < 256 := hm g List.mem_cons_self
    have hc := u.cleared_vmFnReset hg
    refine ih ⟨fun f hf => ?_, fun y hy => (hc.vmid y hy).trans (h.vmid y hy)⟩ (List.forall_mem_cons.mpr ⟨hg, hl⟩) (fun f hf => hm f (List.mem_cons_of_mem _ hf))
    by_cases hne : f = g
    · subst hne
      exact ⟨hc.jobs, hc.off⟩
    · have hfl : f ∈ l := (List.mem_cons.mp hf).resolve_left hne
      rw [hc.vrf f hne, hc.on f (hl f hfl) hne]
      exact h.fns f hfl

theorem State.allCleared_foldl (s : State) {l : List Nat} (hl : ∀ f ∈ l, f < 256) : State.AllCleared l s (l.foldl State.vmFnReset s) := by
  obtain ⟨h1, h2⟩ := State.AllCleared.foldl (l := []) (m := l) (s := s) (u := s) ⟨nofun, fun _ _ => rfl⟩ nofun hl
  exact ⟨fun f hf => h1 f (by simpa using hf), h2⟩

/-! The vectors of a virtual machine. -/

/-- A vector that is not listed has its reset value. -/
theorem State.mem_vmVecs {s : State} {v y : Nat} (hv : v ≠ 0) (hy : y < 8192) (h : s.rd (F.CUEV_VMID y) = v) : y ∈ s.vmVecs v := by
  have hmem : ∃ w, (A.CUEV y, w) ∈ s.io := by
    by_contra hno
    refine hv (h.symm.trans ?_)
    have hn : SMap.find? s.io (A.CUEV y) = none := by
      generalize s.io = m at hno
      induction m with
      | nil => rfl
      | cons c m ih =>
        obtain ⟨k, w⟩ := c
        rw [SMap.find?, if_neg fun e : A.CUEV y = k => hno ⟨w, e ▸ List.mem_cons_self⟩]
        exact ih fun ⟨w, hw⟩ => hno ⟨w, List.mem_cons_of_mem _ hw⟩
    rw [State.rd, State.rdw, SMap.get, hn]
    exact ioReset_cuev hy
  obtain ⟨w, hw⟩ := hmem
  refine List.mem_filter.mpr ⟨List.mem_filterMap.mpr ⟨_, hw, ?_⟩, by rw [h, beq_self_eq_true]⟩
  have h1 : (A.CUEV y - A.CUEV 0) % 8 = 0 ∧ (A.CUEV y - A.CUEV 0) / 8 = y := by unfold A.CUEV; omega
  have h2 : A.CUEV 0 ≤ A.CUEV y ∧ A.CUEV y < A.CUEV 8192 := by unfold A.CUEV; omega
  simp only [h1, h2, decide_true, Bool.and_self, beq_self_eq_true, if_true]

theorem State.vmVecs_lt {s : State} {v k : Nat} (h : k ∈ s.vmVecs v) : k < 8192 := by
  obtain ⟨c, -, hc⟩ := List.mem_filterMap.mp (List.mem_filter.mp h).1
  split at hc
  next hb =>
    simp only [Bool.and_eq_true, decide_eq_true_eq, beq_iff_eq] at hb
    obtain ⟨⟨-, hlt⟩, -⟩ := hb
    cases hc
    unfold A.CUEV at hlt ⊢
    omega
  next => cases hc

/-- A vector is withdrawn. -/
def State.cueOff (s : State) (k : Nat) : State := (s.wr (F.CUEV_PEND k) 0).wr (F.CUEV_V k) 0

/-- Vector y is neither valid nor pending. -/
def State.vecGone (s : State) (y : Nat) : Prop := s.rd (F.CUEV_V y) = 0 ∧ s.rd (F.CUEV_PEND y) = 0

theorem State.vecGone_cueOff (s : State) (k : Nat) : (s.cueOff k).vecGone k :=
  ⟨State.rd_wr_same _ _ _ (by simp), (State.rd_wr_ne _ _ _ _ (by simp) (by simp)).trans (State.rd_wr_same _ _ _ (by simp))⟩

theorem State.rdw_cueOff (s : State) {k a : Nat} (h : a ≠ A.CUEV k) : (s.cueOff k).rdw a = s.rdw a :=
  (State.rdw_wr_ne _ _ _ _ h).trans (State.rdw_wr_ne _ _ _ _ h)

theorem State.rdw_foldl_cueOff {l : List Nat} {a : Nat} (h : ∀ k ∈ l, a ≠ A.CUEV k) (s : State) : (l.foldl State.cueOff s).rdw a = s.rdw a := by
  induction l generalizing s with
  | nil => rfl
  | cons k l ih =>
    obtain ⟨h1, h2⟩ := List.forall_mem_cons.mp h
    exact (ih h2 _).trans (s.rdw_cueOff h1)

theorem State.vecGone_foldl_cueOff {l : List Nat} {y : Nat} (s : State) (h : y ∈ l ∨ s.vecGone y) : (l.foldl State.cueOff s).vecGone y := by
  induction l generalizing s with
  | nil => exact h.resolve_left List.not_mem_nil
  | cons k l ih =>
    refine ih _ ?_
    by_cases hk : y = k
    · subst hk
      exact .inr (s.vecGone_cueOff y)
    · refine h.imp (fun hm => (List.mem_cons.mp hm).resolve_left hk) fun hg => ?_
      have hr := s.rdw_cueOff (k := k) (a := A.CUEV y) (by unfold A.CUEV; omega)
      exact ⟨(congrArg (fget · 63 1) hr).trans hg.1, (congrArg (fget · 24 1) hr).trans hg.2⟩

theorem State.vrfs_foldl_cueOff (l : List Nat) (s : State) : (l.foldl State.cueOff s).vrfs = s.vrfs := by
  induction l generalizing s with
  | nil => rfl
  | cons k l ih => exact (ih _).trans rfl

/-- The withdrawal of a virtual machine's cues: its vectors are gone, and no other register and no function changes. -/
theorem State.vmCues_gone (s : State) (v : Nat) : (s.vmCues v).1.vrfs = s.vrfs ∧ (∀ y ∈ s.vmVecs v, (s.vmCues v).1.vecGone y)
    ∧ ∀ a, (∀ k, k < 8192 → a ≠ A.CUEV k) → (s.vmCues v).1.rdw a = s.rdw a := by
  obtain ⟨t, ht⟩ : ∃ t, (s.vmCues v).1 = { (s.vmVecs v).foldl State.cueOff s with threads := t } := ⟨_, rfl⟩
  rw [ht]
  exact ⟨State.vrfs_foldl_cueOff _ s, fun y hy => State.vecGone_foldl_cueOff s (.inl hy),
    fun a ha => State.rdw_foldl_cueOff (fun k hk => ha k (State.vmVecs_lt hk)) s⟩

/-! What is left of a virtual machine reset: its class and its result (R380, R381). -/

/-- An address of neither the count of cues nor the registers of classes and of virtual machine resets. -/
def beyondVm (a : Nat) : Prop := a ≠ A.CUE_STAT ∧ (a < A.QOS_STAT ∨ A.QOS_MAPv 4096 ≤ a)

/-- From s to u no register beyond those changes, and no function. -/
structure State.VmRegsOnly (s u : State) : Prop where
  vrfs : u.vrfs = s.vrfs
  rdw : ∀ a, beyondVm a → u.rdw a = s.rdw a

theorem State.vmRegsOnly_refl (s : State) : s.VmRegsOnly s := ⟨rfl, fun _ _ => rfl⟩

theorem State.VmRegsOnly.wr {s u : State} (h : s.VmRegsOnly u) (f : FRef) (v : Nat) (hf : ¬ beyondVm f.addr) : s.VmRegsOnly (u.wr f v) :=
  ⟨h.vrfs, fun a ha => (State.rdw_wr_ne _ _ _ _ fun e : a = f.addr => hf (e ▸ ha)).trans (h.rdw a ha)⟩

theorem not_beyondVm_map {v : Nat} (hv : v < 4096) : ¬ beyondVm (A.QOS_MAPv v) := by
  rintro ⟨-, h⟩
  unfold A.QOS_MAPv A.QOS_STAT at h
  omega

theorem not_beyondVm_regs : ¬ beyondVm A.CUE_STAT ∧ ¬ beyondVm A.QOS_STAT ∧ ¬ beyondVm A.QOS_FREE ∧ ¬ beyondVm A.VMRST_STAT := by
  unfold beyondVm
  decide

/-- A class loses a holder: class 63 counts one less, and the class is free again where it has none. -/
def State.qosUnhold (s : State) (c : Nat) : State :=
  let s := if c = 63 then s.wr F.QOS_STAT_SHARE63 (s.rd F.QOS_STAT_SHARE63 - 1) else s
  if c = 63 && s.rd F.QOS_STAT_SHARE63 != 0 then s else s.wr F.QOS_FREE_FREE (s.rd F.QOS_FREE_FREE + 2 ^ c)

theorem State.qosReturn_eq (s : State) (v : Nat) :
    s.qosReturn v = if !s.flag (F.QOS_MAPv_V v) then s else (s.wr (F.QOS_MAPv_V v) 0).qosUnhold (s.rd (F.QOS_MAPv_CLASS v)) := rfl

theorem State.VmRegsOnly.qosUnhold {s u : State} (h : s.VmRegsOnly u) (c : Nat) : s.VmRegsOnly (u.qosUnhold c) := by
  obtain ⟨-, hs, hf, -⟩ := not_beyondVm_regs
  have hshare : s.VmRegsOnly (if c = 63 then u.wr F.QOS_STAT_SHARE63 (u.rd F.QOS_STAT_SHARE63 - 1) else u) := by
    split
    · exact h.wr _ _ hs
    · exact h
  unfold State.qosUnhold
  generalize (if c = 63 then u.wr F.QOS_STAT_SHARE63 (u.rd F.QOS_STAT_SHARE63 - 1) else u) = w at hshare
  dsimp only
  split
  · exact hshare
  · exact hshare.wr F.QOS_FREE_FREE _ hf

theorem State.VmRegsOnly.qosReturn {s u : State} (h : s.VmRegsOnly u) {v : Nat} (hv : v < 4096) : s.VmRegsOnly (u.qosReturn v) := by
  rw [State.qosReturn_eq]
  split
  · exact h
  · exact (h.wr (F.QOS_MAPv_V v) 0 (not_beyondVm_map hv)).qosUnhold _

theorem State.qosUnhold_rd (s : State) (c : Nat) (f : FRef) (h1 : f.addr ≠ A.QOS_FREE) (h2 : f.addr ≠ A.QOS_STAT) : (s.qosUnhold c).rd f = s.rd f := by
  have hshare : (if c = 63 then s.wr F.QOS_STAT_SHARE63 (s.rd F.QOS_STAT_SHARE63 - 1) else s).rd f = s.rd f := by
    split
    · exact State.rd_wr_addr _ _ _ _ h2
    · rfl
  unfold State.qosUnhold
  generalize (if c = 63 then s.wr F.QOS_STAT_SHARE63 (s.rd F.QOS_STAT_SHARE63 - 1) else s) = w at hshare
  dsimp only
  split
  · exact hshare
  · exact (State.rd_wr_addr _ F.QOS_FREE_FREE _ _ h1).trans hshare

/-- A virtual machine that gave its class back has none. -/
theorem State.qosReturn_map (s : State) {v : Nat} (hv : v < 4096) : (s.qosReturn v).rd (F.QOS_MAPv_V v) = 0 := by
  obtain ⟨hf, hs⟩ := qosMapv_ne hv
  rw [State.qosReturn_eq]
  split
  next h =>
    have := s.rd_lt (F.QOS_MAPv_V v)
    rw [Bool.not_eq_true', State.flag, beq_eq_false_iff_ne] at h
    dsimp only at this
    omega
  next =>
    rw [State.qosUnhold_rd _ _ (F.QOS_MAPv_V v) hf hs]
    exact State.rd_wr_same _ _ _ (by simp)

/-- The result of a virtual machine reset is reported. -/
def State.vmReport (s : State) (cues fns v : Nat) : State :=
  (((s.wr F.VMRST_STAT_CUES cues).wr F.VMRST_STAT_VRFS fns).wr F.VMRST_STAT_VMID v).wr F.VMRST_STAT_RESULT 1

theorem State.vmReport_stat (s : State) (cues fns v : Nat) : (s.vmReport cues fns v).rd F.VMRST_STAT_RESULT = 1
    ∧ (s.vmReport cues fns v).rd F.VMRST_STAT_VMID = v % 2 ^ 12 ∧ (s.vmReport cues fns v).rd F.VMRST_STAT_VRFS = fns % 256 := by
  unfold State.vmReport
  refine ⟨State.rd_wr_same _ _ _ (by decide), ?_, ?_⟩
  · rw [State.rd_wr_ne _ _ _ _ (by decide) (by decide)]
    exact State.rd_wr_same _ _ _ (by decide)
  · rw [State.rd_wr_ne _ _ _ _ (by decide) (by decide), State.rd_wr_ne _ _ _ _ (by decide) (by decide)]
    exact State.rd_wr_same _ _ _ (by decide)

theorem State.VmRegsOnly.vmReport {s u : State} (h : s.VmRegsOnly u) (cues fns v : Nat) : s.VmRegsOnly (u.vmReport cues fns v) := by
  obtain ⟨-, -, -, hv⟩ := not_beyondVm_regs
  exact (((h.wr _ _ hv).wr _ _ hv).wr _ _ hv).wr _ _ hv

/-- A virtual machine reset that is not refused. -/
theorem State.vmReset_eq (s : State) {v : Nat} (hv : v ≠ 0) (h : s.rnQuiesce = false ∨ ∀ f ∈ s.vmFns v, s.vrfOn f = true → s.rd (F.VRF_STAT_QUIESCED f) = 1) :
    let c := ((s.vmFns v).foldl State.vmFnReset s).vmCues v
    s.vmReset v = ((c.1.inc F.CUE_STAT_PURGED c.2).qosReturn v).vmReport c.2 (s.vmFns v).length v := by
  have hno : (s.rnQuiesce && (s.vmFns v).any fun f => s.vrfOn f && !s.flag (F.VRF_STAT_QUIESCED f)) = false := by
    rcases h with h | h
    · rw [h, Bool.false_and]
    · rw [Bool.and_eq_false_iff, List.any_eq_false]
      refine .inr fun f hf => ?_
      rw [Bool.and_eq_true, Bool.not_eq_true', State.flag, beq_eq_false_iff_ne]
      exact fun ⟨hon, hq⟩ => hq (h f hf hon)
  unfold State.vmReset
  rw [if_neg hv, hno]
  rfl

/-- A virtual machine reset resets the machine's functions, withdraws its vectors, and gives its class back. -/
theorem State.vmReset_done {s : State} {v : Nat} (hv : v ≠ 0) (hlt : v < 4096)
    (h : s.rnQuiesce = false ∨ ∀ f ∈ s.vmFns v, s.vrfOn f = true → s.rd (F.VRF_STAT_QUIESCED f) = 1) :
    (s.vmReset v).rd F.VMRST_STAT_RESULT = 1 ∧ (s.vmReset v).rd F.VMRST_STAT_VMID = v ∧ (s.vmReset v).rd F.VMRST_STAT_VRFS = (s.vmFns v).length % 256
      ∧ (s.vmReset v).rd (F.QOS_MAPv_V v) = 0 ∧ (∀ f ∈ s.vmFns v, ((s.vmReset v).vrf f).jobs = [] ∧ (s.vmReset v).vrfOn f = false)
      ∧ ∀ y, y < 8192 → s.rd (F.CUEV_VMID y) = v → (s.vmReset v).vecGone y := by
  have hfn : ∀ f ∈ s.vmFns v, f < 256 := fun f hf => List.mem_range.mp (List.mem_filter.mp hf).1
  obtain ⟨hfns, hvmid⟩ := s.allCleared_foldl hfn
  obtain ⟨hcv, hgone, hcr⟩ := ((s.vmFns v).foldl State.vmFnReset s).vmCues_gone v
  have hvec (y : Nat) (hy : y < 8192) (hs : s.rd (F.CUEV_VMID y) = v) := hgone y (State.mem_vmVecs hv hy ((hvmid y hy).trans hs))
  rw [s.vmReset_eq hv h]
  generalize ((s.vmFns v).foldl State.vmFnReset s) = p at hfns hcv hcr hvec
  generalize p.vmCues v = c at hcv hcr hvec
  have hq := ((c.1.vmRegsOnly_refl.wr F.CUE_STAT_PURGED (c.1.rd F.CUE_STAT_PURGED + c.2) not_beyondVm_regs.1).qosReturn hlt)
  have hm := (c.1.inc F.CUE_STAT_PURGED c.2).qosReturn_map hlt
  obtain ⟨hr1, hr2, hr3⟩ := ((c.1.inc F.CUE_STAT_PURGED c.2).qosReturn v).vmReport_stat c.2 (s.vmFns v).length v
  have hk := hq.vmReport c.2 (s.vmFns v).length v
  refine ⟨hr1, hr2.trans (Nat.mod_eq_of_lt hlt), hr3, ?_, fun f hf => ?_, fun y hy hs => ?_⟩
  · have hne : A.QOS_MAPv v ≠ A.VMRST_STAT := by
      unfold A.QOS_MAPv A.VMRST_STAT
      omega
    unfold State.vmReport
    rw [State.rd_wr_addr _ _ _ _ hne, State.rd_wr_addr _ _ _ _ hne, State.rd_wr_addr _ _ _ _ hne, State.rd_wr_addr _ _ _ _ hne]
    exact hm
  · obtain ⟨hj, ho⟩ := hfns f hf
    have hf256 := hfn f hf
    refine ⟨(congrArg (fun m => (SMap.get VrfSt.reset m f).jobs) (hk.vrfs.trans hcv)).trans hj, ?_⟩
    have hb : beyondVm (A.VRF_CTL f) := ⟨by unfold A.VRF_CTL A.CUE_STAT; omega, by unfold A.VRF_CTL A.QOS_MAPv A.QOS_STAT; omega⟩
    exact (congrArg (fun w => fget w 0 1 == 1) ((hk.rdw _ hb).trans (hcr _ fun k hk => by unfold A.VRF_CTL A.CUEV; omega))).trans ho
  · have hb : beyondVm (A.CUEV y) := ⟨by unfold A.CUEV A.CUE_STAT; omega, by unfold A.CUEV A.QOS_MAPv A.QOS_STAT; omega⟩
    obtain ⟨h1, h2⟩ := hvec y hy hs
    exact ⟨(congrArg (fget · 63 1) (hk.rdw _ hb)).trans h1, (congrArg (fget · 24 1) (hk.rdw _ hb)).trans h2⟩

/-- A virtual machine reset that is refused says why, and resets no function. -/
theorem State.vmReset_refused {s : State} {v : Nat} :
    (v = 0 → (s.vmReset v).rd F.VMRST_STAT_RESULT = 3 ∧ (s.vmReset v).vrfs = s.vrfs)
      ∧ (v ≠ 0 → s.rnQuiesce = true → (∃ f ∈ s.vmFns v, s.vrfOn f = true ∧ s.rd (F.VRF_STAT_QUIESCED f) = 0) →
        (s.vmReset v).rd F.VMRST_STAT_RESULT = 2 ∧ (s.vmReset v).vrfs = s.vrfs) := by
  refine ⟨fun hv => ?_, fun hv hq ⟨f, hf, hon, hno⟩ => ?_⟩
  · unfold State.vmReset
    rw [if_pos hv]
    exact ⟨State.rd_wr_same _ _ _ (by decide), rfl⟩
  · have hany : ((s.vmFns v).any fun f => s.vrfOn f && !s.flag (F.VRF_STAT_QUIESCED f)) = true :=
      List.any_eq_true.mpr ⟨f, hf, by rw [hon, State.flag, hno]; rfl⟩
    unfold State.vmReset
    rw [if_neg hv, hq, hany, Bool.and_self, if_pos rfl]
    exact ⟨State.rd_wr_same _ _ _ (by decide), rfl⟩

theorem State.vmrstWrite_eq {s : State} {v : Word} (hg : bit v 12 = true) (hb : s.rd F.VMRST_STAT_BUSY = 0) : s.vmrstWrite v = s.vmReset (fget v 0 12) := by
  unfold State.vmrstWrite State.flag
  rw [hg, hb]
  rfl

/-- Settles O54: classes are given and shared, a virtual machine reset is refused or done, a vector is raised or dropped, and a cue and an
asynchronous machine check enter the primary set of their level. -/
theorem cuesAndMachines : Obligations.CuesAndMachines := by
  intro s v k t lvl c cue code v0 rest r
  have hvm : fget v 0 12 < 4096 := fget_lt v 0 12
  refine ⟨fun hg hf => ⟨fun h0 h64 hc hlow => ?_, fun hnone => ?_⟩, fun hg hb => ⟨fun hz => ?_, fun hz hq hex => ?_, fun hz hq => ?_⟩, fun hv => ?_,
    fun hv hp ht => ⟨fun hn => ?_, fun hs => ?_⟩, fun hb hm henc hc => ?_, fun hp hr hb ho henc h80 h256 => ?_⟩
  · obtain ⟨h1, h2, h3, h4⟩ := State.qosAlloc_found hvm hf h0 h64 hc hlow
    refine ⟨_, congrArg Host.Outcome.next (if_pos hg), h1, h2, h3, ?_, fun y hy => ?_⟩
    · rw [h4, bne_self_eq_false, Bool.and_false]
    · rw [h4, bne_iff_ne.mpr hy, Bool.and_true]
      rfl
  · exact ⟨_, congrArg Host.Outcome.next (if_pos hg), State.qosAlloc_shared hvm hf hnone⟩
  · exact ⟨_, congrArg Host.Outcome.next (State.vmrstWrite_eq hg hb), State.vmReset_refused.1 hz⟩
  · exact ⟨_, congrArg Host.Outcome.next (State.vmrstWrite_eq hg hb), State.vmReset_refused.2 hz hq hex⟩
  · exact ⟨_, congrArg Host.Outcome.next (State.vmrstWrite_eq hg hb), State.vmReset_done hz hvm hq⟩
  · exact ⟨_, congrArg Host.Outcome.next (State.cueRaise_invalid hv), s.cueDrop_dropped⟩
  · refine ⟨_, congrArg Host.Outcome.next ((State.cueRaise_physical hv hp ht hn).trans ?_), s.cueDrop_dropped⟩
    rw [Option.isSome_none, if_neg Bool.false_ne_true]
  · exact ⟨_, rfl, State.cueRaise_pends k.isLt hv hp ht hs⟩
  · obtain ⟨u, hu, he, hpend⟩ := State.cueTake_enters hb hm henc hc
    obtain ⟨-, -, hcode⟩ := State.cueNow_some hc
    refine ⟨u, hu, he.epc, he.status, ?_, he.val, he.act, he.pl, he.cie, he.pc.trans ?_, he.slot, he.run, he.gr, hpend⟩
    · refine (congrArg (fget · 0 9) he.cause).trans ?_
      have hbd := b2n_le (s.thr t).slot.isSome
      simp only [Exc.cause, Cue.exc, fget, BitVec.toNat_ofNat, Option.isSome_none, show b2n true = 1 from rfl, show b2n false = 0 from rfl]
      omega
    · simp [entryOffset, Cue.exc, setBase]
  · obtain ⟨u, w, hu, he, hw, hrest, hpend, hrer⟩ := State.mcTake_enters hp hr hb ho henc
    have hoff : entryOffset 3 code false false = 0x500 := by
      simp [entryOffset, h80]
    refine ⟨u, hu, hrest, he.epc, ?_, fun h1 => he.val.trans (hw h1), he.pl, he.pc.trans ?_, he.mcact hoff, he.gr, hpend, hrer⟩
    · refine (congrArg (fget · 0 8) he.cause).trans ?_
      have hbd := b2n_le (s.thr t).slot.isSome
      simp only [Exc.cause, fget, BitVec.toNat_ofNat, Option.isSome_none, show b2n false = 0 from rfl]
      omega
    · rw [hoff]
      rfl

end Sys2Proof.Machine
end

section
/-!
INTEGER INSTRUCTIONS (R80 to R82): the value of each form, and the bytes of numbers (R9).
-/
namespace Sys2Proof.Machine

set_option Elab.async false

/-- An instruction whose body writes to g[d] the value given. -/
theorem State.answers_wroteG {s : State} {t : Tid} {i : Instr} {body : State → Out} {d : Rn} {v : Word} (hr : s.ready t i = true)
    (hb : body (s.acting t i) = .done ((s.acting t i).setG t d v)) : answers (.next (s.issue t i body)) fun u => s.wroteG u t d v :=
  ⟨_, rfl, s.issue_wroteG t i body d v hr hb⟩

/-- An instruction whose body writes to f[d] the value given. -/
theorem State.answers_wroteF {s : State} {t : Tid} {i : Instr} {body : State → Out} {d : Rn} {v : Word} (hr : s.ready t i = true)
    (hb : body (s.acting t i) = .done ((s.acting t i).setF t d v)) : answers (.next (s.issue t i body)) fun u => s.wroteF u t d v :=
  ⟨_, rfl, s.issue_wroteF t i body d v hr hb⟩

theorem boolW_slt (a b : Word) : boolW (a.slt b) = if a.toInt < b.toInt then 1 else 0 := by
  simp [boolW, BitVec.slt]

theorem boolW_ult (a b : Word) : boolW (a.ult b) = if a.toNat < b.toNat then 1 else 0 := by
  simp [boolW, BitVec.ult]

theorem rorW_eq (a : Word) {n : Nat} (h : n < 64) : rorW a n = a >>> n ||| a <<< ((64 - n) % 64) := by
  rw [rorW, BitVec.rotateRight_def, Nat.mod_eq_of_lt h]
  rcases Nat.eq_zero_or_pos n with rfl | hn
  · simp
  · rw [Nat.mod_eq_of_lt (by omega : 64 - n < 64)]

/-- Settles O3: each body writes the table's value, shifts by constants written as products. -/
theorem immediateForms : Obligations.ImmediateForms := by
  intro s t d a imm sh
  simp only [List.forall_mem_cons, List.not_mem_nil, false_imp_iff, implies_true, and_true]
  refine ⟨?_, ?_, ?_, ?_, ?_, ?_, ?_, ?_, ?_, ?_, ?_, ?_, ?_⟩ <;> intro hr <;> refine State.answers_wroteG hr ?_
  · rw [bodyAddi, State.acting_g]; rfl
  · rw [bodyAndi, State.acting_g]; rfl
  · rw [bodyOri, State.acting_g]; rfl
  · rw [bodyXori, State.acting_g]; rfl
  · rw [bodySlti, State.acting_g, boolW_slt]; rfl
  · rw [bodySltui, State.acting_g, boolW_ult]; rfl
  · rw [bodyLui, BitVec.shiftLeft_eq_mul_twoPow]; rfl
  · rw [bodyShori, State.acting_g, BitVec.shiftLeft_eq_mul_twoPow]; rfl
  · rw [bodyAddpc, State.acting_thr_pc, shiftLeft_two_eq]; rfl
  · rw [bodySlli, State.acting_g]
  · rw [bodySrli, State.acting_g]
  · rw [bodySrai, State.acting_g]; rfl
  · rw [bodyRori, State.acting_g, rorW_eq _ sh.isLt]

/-! The register forms (R81). -/

theorem ite_slt_eq_min (a b : Word) : (if a.slt b then a else b) = BitVec.ofInt 64 (min a.toInt b.toInt) := by
  rw [BitVec.slt_eq_decide]
  simp only [decide_eq_true_eq]
  split_ifs with h
  · rw [min_eq_left h.le, BitVec.ofInt_toInt]
  · rw [min_eq_right (not_lt.mp h), BitVec.ofInt_toInt]

theorem ite_slt_eq_max (a b : Word) : (if a.slt b then b else a) = BitVec.ofInt 64 (max a.toInt b.toInt) := by
  rw [BitVec.slt_eq_decide]
  simp only [decide_eq_true_eq]
  split_ifs with h
  · rw [max_eq_right h.le, BitVec.ofInt_toInt]
  · rw [max_eq_left (not_lt.mp h), BitVec.ofInt_toInt]

theorem ite_ult_eq_min (a b : Word) : (if a.ult b then a else b) = BitVec.ofNat 64 (min a.toNat b.toNat) := by
  rw [BitVec.ult_eq_decide]
  simp only [decide_eq_true_eq]
  split_ifs with h
  · rw [min_eq_left h.le, BitVec.ofNat_toNat, BitVec.setWidth_eq]
  · rw [min_eq_right (not_lt.mp h), BitVec.ofNat_toNat, BitVec.setWidth_eq]

theorem ite_ult_eq_max (a b : Word) : (if a.ult b then b else a) = BitVec.ofNat 64 (max a.toNat b.toNat) := by
  rw [BitVec.ult_eq_decide]
  simp only [decide_eq_true_eq]
  split_ifs with h
  · rw [max_eq_right h.le, BitVec.ofNat_toNat, BitVec.setWidth_eq]
  · rw [max_eq_left (not_lt.mp h), BitVec.ofNat_toNat, BitVec.setWidth_eq]

theorem setWidth_32_64 (a : Word) : (a.setWidth 32).setWidth 64 = BitVec.ofNat 64 (a.toNat % 2 ^ 32) := by
  apply BitVec.eq_of_toNat_eq
  rw [BitVec.toNat_setWidth, BitVec.toNat_setWidth, BitVec.toNat_ofNat]

/-- Settles O4: each body writes the table's value. -/
theorem registerForms : Obligations.RegisterForms := by
  intro s t d a b
  simp only [List.forall_mem_cons, List.not_mem_nil, false_imp_iff, implies_true, and_true]
  refine ⟨?_, ?_, ?_, ?_, ?_, ?_, ?_, ?_, ?_, ?_, ?_, ?_, ?_, ?_, ?_, ?_, ?_, ?_, ?_, ?_, ?_, ?_, ?_, ?_⟩ <;> intro hr <;>
    refine State.answers_wroteG hr ?_
  · rw [bodyAdd, State.acting_g, State.acting_g]
  · rw [bodySub, State.acting_g, State.acting_g]
  · rw [bodyAnd, State.acting_g, State.acting_g]
  · rw [bodyOr, State.acting_g, State.acting_g]
  · rw [bodyXor, State.acting_g, State.acting_g]
  · rw [bodyAndn, State.acting_g, State.acting_g]
  · rw [bodyOrn, State.acting_g, State.acting_g]
  · rw [bodySlt, State.acting_g, State.acting_g, boolW_slt]
  · rw [bodySltu, State.acting_g, State.acting_g, boolW_ult]
  · rw [bodyMin, State.acting_g, State.acting_g, ite_slt_eq_min]
  · rw [bodyMax, State.acting_g, State.acting_g, ite_slt_eq_max]
  · rw [bodyMinu, State.acting_g, State.acting_g, ite_ult_eq_min]
  · rw [bodyMaxu, State.acting_g, State.acting_g, ite_ult_eq_max]
  · rw [bodySll, State.acting_g, State.acting_g]; rfl
  · rw [bodySrl, State.acting_g, State.acting_g]; rfl
  · rw [bodySra, State.acting_g, State.acting_g]; rfl
  · rw [bodyRor, State.acting_g, State.acting_g, shAmt, rorW_eq _ (Nat.mod_lt _ (by decide))]
  · rw [bodyMul, State.acting_g, State.acting_g, BitVec.mul_def]; rfl
  · rw [bodyMulh, State.acting_g, State.acting_g]; rfl
  · rw [bodyMulhu, State.acting_g, State.acting_g]; rfl
  · rw [bodySextb, State.acting_g]; rfl
  · rw [bodySexth, State.acting_g]; rfl
  · rw [bodySextw, State.acting_g]; rfl
  · rw [bodyZextw, State.acting_g, setWidth_32_64]

/-! The counting forms and BSWAP (R81). -/

theorem clzW_spec (w : Word) :
    clzW w ≤ 64 ∧ (∀ i, i < clzW w → w.getLsbD (63 - i) = false) ∧ (clzW w < 64 → w.getLsbD (63 - clzW w) = true) := by
  unfold clzW
  split_ifs with h
  · subst h
    exact ⟨le_rfl, fun i _ => BitVec.getLsbD_zero, fun h => absurd h (lt_irrefl _)⟩
  · have hne : w.toNat ≠ 0 := fun e => h (BitVec.eq_of_toNat_eq e)
    have hlog : Nat.log2 w.toNat < 64 := (Nat.log2_lt hne).mpr w.isLt
    refine ⟨by omega, fun i hi => ?_, fun _ => ?_⟩
    · exact Nat.testBit_lt_two_pow ((Nat.log2_lt hne).mp (by omega))
    · rw [show 63 - (63 - Nat.log2 w.toNat) = Nat.log2 w.toNat by omega]
      exact Nat.testBit_log2 hne

theorem ctzW_spec (w : Word) :
    ctzW w ≤ 64 ∧ (∀ i, i < ctzW w → w.getLsbD i = false) ∧ (ctzW w < 64 → w.getLsbD (ctzW w) = true) := by
  unfold ctzW
  cases h : (List.range 64).find? fun i => w.getLsbD i with
  | none =>
    rw [List.find?_range_eq_none] at h
    exact ⟨le_rfl, fun i hi => by simpa using h i hi, fun h => absurd h (lt_irrefl _)⟩
  | some n =>
    rw [List.find?_range_eq_some] at h
    obtain ⟨h1, h2, h3⟩ := h
    exact ⟨(List.mem_range.mp h2).le, fun i hi => by simpa using h3 i hi, fun _ => h1⟩

/-! Bytes of numbers, little-endian (R9). -/

@[simp] theorem length_bytesOf (n v : Nat) : (bytesOf n v).length = n := by
  induction n generalizing v with
  | zero => rfl
  | succ n ih => rw [bytesOf, List.length_cons, ih]

theorem getElem_bytesOf (n v i : Nat) (h : i < (bytesOf n v).length) : (bytesOf n v)[i] = BitVec.ofNat 8 (v / 2 ^ (8 * i)) := by
  induction n generalizing v i with
  | zero => simp at h
  | succ n ih =>
    cases i with
    | zero => simp [bytesOf]
    | succ i =>
      simp only [bytesOf, List.getElem_cons_succ, ih]
      rw [Nat.div_div_eq_div_mul, Nat.mul_succ, Nat.add_comm, pow_add]
      rfl

/-- Byte i of the number that bytes make. -/
theorem ofBytes_div_mod (bs : List Byte) (i : Nat) (h : i < bs.length) : ofBytes bs / 2 ^ (8 * i) % 256 = bs[i].toNat := by
  induction bs generalizing i with
  | nil => simp at h
  | cons b bs ih =>
    have hb := b.isLt
    cases i with
    | zero => simp only [ofBytes, List.getElem_cons_zero, Nat.mul_zero, pow_zero, Nat.div_one]; omega
    | succ i =>
      rw [List.getElem_cons_succ, ← ih i (by simpa using h), ofBytes, Nat.mul_succ, Nat.add_comm (8 * i), pow_add, ← Nat.div_div_eq_div_mul,
        show (b.toNat + 256 * ofBytes bs) / 2 ^ 8 = ofBytes bs by omega]

theorem ofBytes_lt (bs : List Byte) : ofBytes bs < 2 ^ (8 * bs.length) := by
  induction bs with
  | nil => simp [ofBytes]
  | cons b bs ih =>
    have hb := b.isLt
    rw [ofBytes, List.length_cons, Nat.mul_succ, pow_add]
    omega

theorem ofBytes_append (l m : List Byte) : ofBytes (l ++ m) = ofBytes l + 2 ^ (8 * l.length) * ofBytes m := by
  induction l with
  | nil => simp [ofBytes]
  | cons b l ih =>
    rw [List.cons_append, ofBytes, ih, ofBytes, List.length_cons, Nat.mul_succ, pow_add]
    ring

theorem ofBytes_bytesOf (n v : Nat) : ofBytes (bytesOf n v) = v % 2 ^ (8 * n) := by
  induction n generalizing v with
  | zero => simp [bytesOf, ofBytes, Nat.mod_one]
  | succ n ih =>
    rw [bytesOf, ofBytes, ih, BitVec.toNat_ofNat, Nat.mul_succ, Nat.add_comm (8 * n), pow_add, Nat.mod_mul]
    rfl

/-- Bytes of a number that bytes make. -/
theorem bytesOf_ofBytes (bs : List Byte) : bytesOf bs.length (ofBytes bs) = bs := by
  induction bs with
  | nil => rfl
  | cons b bs ih =>
    have hb := b.isLt
    rw [List.length_cons, bytesOf, ofBytes, show (b.toNat + 256 * ofBytes bs) / 256 = ofBytes bs by omega, ih]
    congr 1
    apply BitVec.eq_of_toNat_eq
    rw [BitVec.toNat_ofNat]
    omega

/-- The bytes of a doubleword in reverse order. -/
theorem bswapW_byte (w : Word) {i : Nat} (h : i < 8) : (bswapW w).toNat / 2 ^ (8 * i) % 256 = w.toNat / 2 ^ (8 * (7 - i)) % 256 := by
  have hlt := ofBytes_lt (bytesOf 8 w.toNat).reverse
  have hlen : (bytesOf 8 w.toNat).reverse.length = 8 := by rw [List.length_reverse, length_bytesOf]
  rw [hlen] at hlt
  rw [bswapW, BitVec.toNat_ofNat, Nat.mod_eq_of_lt hlt, ofBytes_div_mod _ _ (by omega), List.getElem_reverse, getElem_bytesOf,
    BitVec.toNat_ofNat, length_bytesOf]

/-- Settles O5: the counts are the positions of the first one bit, and BSWAP's bytes stand in reverse order. -/
theorem bitForms : Obligations.BitForms := by
  intro s t d a
  refine ⟨fun hr => ?_, fun hr => ?_, fun hr => ?_, fun hr => ?_⟩
  · obtain ⟨h1, h2, h3⟩ := clzW_spec (s.g t a)
    exact ⟨_, h1, h2, h3, State.answers_wroteG hr (by rw [bodyClz, State.acting_g])⟩
  · obtain ⟨h1, h2, h3⟩ := ctzW_spec (s.g t a)
    exact ⟨_, h1, h2, h3, State.answers_wroteG hr (by rw [bodyCtz, State.acting_g])⟩
  · exact State.answers_wroteG hr (by rw [bodyPopc, State.acting_g]; rfl)
  · exact ⟨_, fun _ hi => bswapW_byte _ hi, State.answers_wroteG hr (by rw [bodyBswap, State.acting_g])⟩

/-! Division (R82). -/

theorem divW_eq (a b : Word) : divW a b = if b = 0 then 0xFFFFFFFFFFFFFFFF#64
    else if a.toInt = -2 ^ 63 ∧ b.toInt = -1 then a else BitVec.ofInt 64 (a.toInt.tdiv b.toInt) := by
  unfold divW
  split_ifs with h0 hc
  · rfl
  · obtain ⟨ha, hb⟩ := hc
    rw [ha, hb, ← BitVec.ofInt_toInt (x := a), ha]
    rfl
  · rfl

theorem remW_eq (a b : Word) : remW a b = if b = 0 then a
    else if a.toInt = -2 ^ 63 ∧ b.toInt = -1 then 0 else BitVec.ofInt 64 (a.toInt.tmod b.toInt) := by
  unfold remW
  split_ifs with h0 hc
  · rfl
  · obtain ⟨ha, hb⟩ := hc
    rw [ha, hb]
    rfl
  · rfl

/-- Settles O6: the model's quotients and remainders, with the case of R82 that their rounding already gives. -/
theorem division : Obligations.Division := by
  intro s t d a b
  simp only [List.forall_mem_cons, List.not_mem_nil, false_imp_iff, implies_true, and_true]
  refine ⟨?_, ?_, ?_, ?_⟩ <;> intro hr <;> refine State.answers_wroteG hr ?_
  · rw [bodyDiv, State.acting_g, State.acting_g, divW_eq]
  · rw [bodyDivu, State.acting_g, State.acting_g]; rfl
  · rw [bodyRem, State.acting_g, State.acting_g, remW_eq]
  · rw [bodyRemu, State.acting_g, State.acting_g]; rfl

end Sys2Proof.Machine
end

section
/-!
FLOATING-POINT MOVES, COMPARISONS AND CONVERSIONS TO INTEGERS (R83 to R85).
-/
namespace Sys2Proof.Machine

set_option Elab.async false

/-! Floating-point moves (R83 to R85). -/

/-- What an operation reads of an f register, as a word. -/
theorem ofNat_fb (s : State) (t : Tid) (w : Bool) (r : Rn) :
    BitVec.ofNat 64 (s.fb t w r) = if w then BitVec.ofNat 64 ((s.f t r).toNat % 2 ^ 32) else s.f t r := by
  cases w
  · exact BitVec.ofNat_toNat 64 _ |>.trans (BitVec.setWidth_eq _)
  · rfl

theorem ofNat_signBit (w : Bool) : BitVec.ofNat 64 ((fmtOf w).signBit true) = if w then 0x80000000 else 0x8000000000000000 := by
  cases w <;> rfl

theorem fb_lt (s : State) (t : Tid) (w : Bool) (r : Rn) : s.fb t w r < 2 * (fmtOf w).signBit true := by
  cases w
  · exact (s.f t r).isLt
  · exact Nat.mod_lt _ (by decide)

/-- The bits below the highest one: those of the word with that one cleared. -/
theorem ofNat_mod_two_pow {x k : Nat} (hk : k < 64) (h : x < 2 ^ (k + 1)) :
    BitVec.ofNat 64 (x % 2 ^ k) = BitVec.ofNat 64 x &&& ~~~BitVec.ofNat 64 (2 ^ k) := by
  apply BitVec.eq_of_getLsbD_eq
  intro i hi
  have hx : k < i → x.testBit i = false := fun hki => Nat.testBit_lt_two_pow (h.trans_le (Nat.pow_le_pow_right (by decide) hki))
  simp only [BitVec.getLsbD_ofNat, Nat.testBit_mod_two_pow, BitVec.getLsbD_and, BitVec.getLsbD_not, hi, decide_true, Bool.true_and,
    Nat.testBit_two_pow]
  rcases lt_trichotomy i k with hik | rfl | hik
  · simp [hik, hik.ne']
  · simp
  · simp [hx hik]

theorem fabs_eq (s : State) (t : Tid) (w : Bool) (r : Rn) :
    BitVec.ofNat 64 (s.fb t w r % (fmtOf w).signBit true)
      = BitVec.ofNat 64 (s.fb t w r) &&& ~~~BitVec.ofNat 64 ((fmtOf w).signBit true) := by
  have h := fb_lt s t w r
  cases w
  · exact ofNat_mod_two_pow (k := 63) (by decide) h
  · exact ofNat_mod_two_pow (k := 31) (by decide) h

theorem Fmt.classMask_bit (f : Fmt) (x : Nat) : ∃ k, k < 10 ∧ f.classMask x = 2 ^ k := by
  unfold Fmt.classMask
  split
  · split_ifs
    · exact ⟨8, by decide, rfl⟩
    · exact ⟨9, by decide, rfl⟩
  · split_ifs
    · exact ⟨0, by decide, rfl⟩
    · exact ⟨7, by decide, rfl⟩
  · split_ifs
    · exact ⟨3, by decide, rfl⟩
    · exact ⟨4, by decide, rfl⟩
    · exact ⟨2, by decide, rfl⟩
    · exact ⟨5, by decide, rfl⟩
    · exact ⟨1, by decide, rfl⟩
    · exact ⟨6, by decide, rfl⟩

/-- Settles O7: the sign is one bit of the format, and the class mask one bit of ten. That FNEG, FABS and FMOV keep the other bits of a NaN
is the model's choice (log 71). -/
theorem floatMoves : Obligations.FloatMoves := by
  intro s t w d a
  simp only [List.forall_mem_cons, List.not_mem_nil, false_imp_iff, implies_true, and_true, ← ofNat_fb, ← ofNat_signBit]
  refine ⟨⟨fun hr => ?_, fun hr => ?_, fun hr => ?_, fun hr => ?_⟩, fun hr => ?_, fun hr => ?_⟩
  · exact State.answers_wroteF hr (by rw [bodyFneg, State.acting_fb, BitVec.ofNat_xor])
  · exact State.answers_wroteF hr (by rw [bodyFabs, State.acting_fb, fabs_eq])
  · exact State.answers_wroteF hr (by rw [bodyFmov, State.acting_fb])
  · exact State.answers_wroteF hr (by rw [bodyFmvf, State.acting_g, setWidth_32_64])
  · exact State.answers_wroteG hr (by rw [bodyFmvg, State.acting_fb])
  · obtain ⟨k, hk, hm⟩ := (fmtOf w).classMask_bit (s.fb t w a)
    refine ⟨k, hk, State.answers_wroteG hr ?_⟩
    rw [bodyFclass, State.acting_fb, hm, Nat.one_shiftLeft]
    rfl

/-! Comparisons and conversions to integers (R84, R85). -/

theorem boolW_feq (a b : Fv) :
    boolW (!a.isNan && !b.isNan && !a.lt b && !b.lt a) = if (a.isNan || b.isNan) || a.lt b || b.lt a then 0 else 1 := by
  cases a.isNan <;> cases b.isNan <;> cases a.lt b <;> cases b.lt a <;> rfl

theorem boolW_fle (a b : Fv) : boolW (!a.isNan && !b.isNan && !b.lt a) = if (a.isNan || b.isNan) || b.lt a then 0 else 1 := by
  cases a.isNan <;> cases b.isNan <;> cases b.lt a <;> rfl

/-- No value is below or above a NaN. -/
theorem Fv.lt_of_nan {a b : Fv} (h : (a.isNan || b.isNan) = true) : a.lt b = false := by
  rcases Bool.or_eq_true_iff.mp h with ha | hb
  · cases a with
    | nan => rfl
    | inf | fin => cases ha
  · cases b with
    | nan => cases a <;> rfl
    | inf | fin => cases hb

theorem boolW_flt (a b : Fv) : boolW (a.lt b) = if a.isNan || b.isNan then 0 else if a.lt b then 1 else 0 := by
  split
  · next h => rw [Fv.lt_of_nan h]; rfl
  · rfl

/-- A general register after a write; one of register 0 is discarded (R47). -/
theorem Thread.gr_setGr_or (x : Thread) (r q : Nat) (v : Word) : (x.setGr r v).gr q = if q = r ∧ q ≠ 0 then v else x.gr q := by
  by_cases hr : r = 0
  · subst hr
    rw [if_neg (fun h => h.2 h.1)]
    rfl
  · rw [Thread.gr_setGr _ _ _ _ hr]
    exact if_congr ⟨fun h => ⟨h, fun h0 => hr (h ▸ h0)⟩, And.left⟩ rfl rfl

/-- An operation that writes g[d], none of whose flags traps. -/
theorem State.issue_fpToG {s : State} {t : Tid} {i : Instr} {body : State → Out} {d : Rn} {v : Word} {flags : Nat}
    (hr : s.ready t i = true) (hb : body (s.acting t i) = (s.acting t i).fpToG t d v flags)
    (hno : fget ((s.thr t).c 1) 5 7 = 0 ∨ fget ((s.thr t).c 1) 5 7 &&& flags = 0) :
    let u := s.issue t i body
    u.g t d = (if d = 0 then 0 else v) ∧ s.retired u t ∧ s.onlyThread u t
      ∧ (u.thr t).c 1 = (s.thr t).c 1 ||| BitVec.ofNat 64 flags
      ∧ (∀ r, (u.thr t).fr r = (s.thr t).fr r) ∧ (∀ r, r ≠ d.val → (u.thr t).gr r = (s.thr t).gr r) := by
  have ha := s.turned_acting t i
  obtain ⟨w, hw, hwt, hend⟩ := ha.fpEnd flags fun u => u.setG t d v
  have hz : fget ((s.thr t).c 1) 5 7 &&& flags = 0 := hno.elim (fun h => by rw [h, Nat.zero_and]) id
  have hc1 : ((s.acting t i).thr t).c 1 = (s.thr t).c 1 := ha.c rfl
  rw [hc1, if_neg (not_not.mpr hz)] at hend
  obtain ⟨y, hy⟩ := ((s.acting t i).thr t).flagged_eq flags
  have hf := ((s.acting t i).thr t).flagged_fcsr flags
  have hg := hw.setG d v
  generalize ((s.acting t i).thr t).flagged flags = x at *
  have hnext : (x.setGr d.val v).slot.getD ((x.setGr d.val v).pc + 4) = s.nextPc t := by
    rw [Thread.slot_setGr, Thread.pc_setGr, hy]
    exact congrArg₂ (fun p q => Option.getD p (q + 4)) ha.slot ha.pc
  have hrun : (x.setGr d.val v).run = .running := by
    rw [Thread.run_setGr, hy]
    exact ha.run
  obtain ⟨h1, h2, -, h4, h5, h6⟩ := State.became_ends hg hrun hnext (s.thr t).pc i
  have hgr (r : Nat) : x.gr r = (s.thr t).gr r := by
    rw [hy]
    exact ha.gr r
  dsimp only
  rw [State.issue_ready _ _ _ _ hr, hb, State.fpToG, hend]
  refine ⟨?_, h1, h2, ?_, fun r => ?_, fun r hrd => ?_⟩
  · refine (h4 d.val).trans ((Thread.gr_setGr_or _ _ _ _).trans ?_)
    by_cases h0 : d = 0
    · subst h0
      rfl
    · rw [if_pos ⟨rfl, fun h => h0 (Fin.ext h)⟩, if_neg h0]
  · rw [← hc1, ← hf]
    exact (h6 1 rfl).trans (Thread.c_setGr _ _ _ _)
  · refine (h5 r).trans ((Thread.fr_setGr _ _ _ _).trans ?_)
    rw [hy]
    exact ha.fr r
  · rw [← hgr r]
    exact (h4 r).trans ((Thread.gr_setGr_or _ _ _ _).trans (if_neg fun h => hrd h.1))

/-- Settles O9: every operation ends in the same way, with the value and flags of its own rule. -/
theorem floatToInteger : Obligations.FloatToInteger := by
  intro s t w d a b
  simp only [List.forall_mem_cons, List.not_mem_nil, false_imp_iff, implies_true, and_true]
  refine ⟨?_, ?_, ?_, ?_, ?_⟩ <;> intro hr hno <;> refine ⟨_, rfl, State.issue_fpToG hr ?_ hno⟩
  · rw [bodyFeq, State.acting_fv, State.acting_fv, boolW_feq]; rfl
  · rw [bodyFlt, State.acting_fv, State.acting_fv, boolW_flt]; rfl
  · rw [bodyFle, State.acting_fv, State.acting_fv, boolW_fle]; rfl
  · rw [bodyFcvti, State.acting_rm, State.acting_fv]
  · rw [bodyFcvtiu, State.acting_rm, State.acting_fv]

end Sys2Proof.Machine
end

section
/-!
THE VALUES THAT LOADS LEAVE (R88).
-/
namespace Sys2Proof.Machine

set_option Elab.async false

/-! The value of a load (R88). -/

theorem State.loadTo_f {s : State} {t : Tid} (d : Rn) {k : Nat} (bs : List Byte) (h : 8 ≤ k) :
    s.loadTo t d k bs = s.setF t d (BitVec.ofNat 64 (ofBytes bs)) := if_pos h

theorem State.loadTo_g {s : State} {t : Tid} (d : Rn) {k : Nat} (bs : List Byte) (h : k < 7) :
    s.loadTo t d k bs = s.setG t d (loadVal k bs) := by
  unfold State.loadTo
  rw [if_neg (by omega), if_neg (by omega)]

theorem State.g_setG_self (s : State) (t : Tid) {d : Rn} (v : Word) (h : d.val ≠ 0) : (s.setG t d v).g t d = v := by
  rw [State.g, State.setG, State.thr_setThr, Thread.gr_setGr _ _ _ _ h, if_pos rfl]

theorem sextN_ofNat (n m : Nat) (h : n ≤ 64) : sextN n (BitVec.ofNat 64 m) = (BitVec.ofNat n m).signExtend 64 := by
  rw [sextN, BitVec.setWidth_ofNat_of_le h]

/-- What a load of the narrow signed kinds gives. -/
theorem loadVal_signed {k : Nat} (bs : List Byte) (hk : k % 2 = 0) (h : bs.length ≤ 8) :
    loadVal k bs = (BitVec.ofNat (8 * bs.length) (ofBytes bs)).signExtend 64 := by
  unfold loadVal
  rw [if_pos hk, sextN_ofNat _ _ (by omega)]

theorem loadVal_unsigned {k : Nat} (bs : List Byte) (hk : k % 2 ≠ 0) : loadVal k bs = BitVec.ofNat 64 (ofBytes bs) := if_neg hk

/-- A load of 16 bytes: the low half in d, the high one in d + 1. -/
theorem State.loadTo_pair {s : State} {t : Tid} {d : Rn} {bs : List Byte} (hl : bs.length = 16) (hd : d.val ≠ 0) :
    let u := s.loadTo t d 7 bs
    (u.g t d).toNat = ofBytes bs % 2 ^ 64 ∧ ((u.thr t).gr (d.val + 1)).toNat = ofBytes bs / 2 ^ 64 := by
  have hlow := ofBytes_lt (bs.take 8)
  have hhigh := ofBytes_lt (bs.drop 8)
  have hsum := ofBytes_append (bs.take 8) (bs.drop 8)
  rw [List.take_append_drop, List.length_take, hl] at hsum
  rw [List.length_take, hl] at hlow
  rw [List.length_drop, hl] at hhigh
  norm_num at hsum hlow hhigh
  dsimp only
  rw [State.g, State.loadTo, if_neg (by decide), if_pos rfl]
  simp only [State.thr_setThr]
  rw [Thread.gr_setGr _ _ _ _ (by omega), Thread.gr_setGr _ _ _ _ (by omega), if_neg (by omega), if_pos rfl, State.setG, State.thr_setThr,
    Thread.gr_setGr _ _ _ _ hd, if_pos rfl, BitVec.toNat_ofNat, BitVec.toNat_ofNat]
  omega

/-- Settles O13: each kind of load cuts or extends the number that its bytes make. -/
theorem loadValues : Obligations.LoadValues := by
  intro s t d k bs hlen hd
  have value (h : k.val < 7) : (s.loadTo t d k.val bs).g t d = loadVal k.val bs := by
    rw [State.loadTo_g d bs h, State.g_setG_self _ _ _ hd]
  have signed {n : Nat} (hk : k.val < 7) (he : k.val % 2 = 0) (hn : bs.length = n) (h8 : n ≤ 8) :
      (s.loadTo t d k.val bs).g t d = (BitVec.ofNat (8 * n) (ofBytes bs)).signExtend 64 := by
    subst hn
    rw [value hk, loadVal_signed bs he h8]
  refine ⟨fun hk => ?_, fun hk => ?_, fun hk => ?_, fun hk => ?_, fun hk => ?_, fun hk => ?_⟩
  · exact signed (n := 1) (by omega) (by omega) (by rw [hlen, hk]; rfl) (by decide)
  · exact signed (n := 2) (by omega) (by omega) (by rw [hlen, hk]; rfl) (by decide)
  · exact signed (n := 4) (by omega) (by omega) (by rw [hlen, hk]; rfl) (by decide)
  · by_cases h6 : k.val = 6
    · rw [signed (n := 8) (by omega) (by omega) (by rw [hlen, h6]; rfl) (by decide)]
      exact BitVec.signExtend_eq _
    · rw [value (by omega), loadVal_unsigned bs (by omega)]
  · have hl : bs.length = 16 := by rw [hlen, hk]; rfl
    have hlt := ofBytes_lt bs
    rw [hl] at hlt
    rw [hk]
    obtain ⟨h1, h2⟩ := State.loadTo_pair (s := s) (t := t) hl hd
    exact ⟨h1, h2, hlt⟩
  · rw [State.loadTo_f d bs (by omega)]
    refine ⟨?_, fun r => ?_⟩
    · rw [State.f, State.setF, State.thr_setThr, Thread.fr_setFr_same]
    · rw [State.setF, State.thr_setThr, Thread.gr_setFr]

end Sys2Proof.Machine
end

section
/-!
STORES THAT JOIN THEIR THREAD'S QUEUE (R88, R89, R144, R148).
-/
namespace Sys2Proof.Machine

set_option Elab.async false

/-! Stores (R88, R89, R144, R148). -/

theorem State.timed_sdqPush (s : State) (t : Tid) : s.timed (s.sdqPush t) t := s.timed_setDec t t _

/-- A thread with a store behind the others of its queue. -/
def Thread.queued (x : Thread) (pa ks : Nat) (bs : List Byte) : Thread :=
  { x with storeQ := x.storeQ ++ [{ pa := pa, data := bs, kslot := ks }] }

/-- A store joins its thread's queue. -/
theorem State.turned.pushStore {s u : State} {t : Tid} {x : Thread} (h : s.turned u t x) (pa ks : Nat) (bs : List Byte) :
    s.turned (u.pushStore t pa ks bs) t (x.queued pa ks bs) := by
  obtain ⟨h1, y, h4, h5⟩ := h
  have hq : s.turned (u.setThr t ((u.thr t).queued pa ks bs)) t (x.queued pa ks bs) := by
    refine ⟨((show s.turned u t x from ⟨h1, y, h4, h5⟩).setThr _).1, y, ?_, h5⟩
    rw [State.thr_setThr, h4]
    rfl
  exact hq.timed (State.timed_sdqPush _ t)

/-- The base of an access after it, where its mode updates it. -/
def Thread.rebased (x : Thread) (a : Rn) : Option Word → Thread
  | some w => x.setGr a.val w
  | none => x

theorem Thread.rebased_keeps (x : Thread) (a : Rn) (upd : Option Word) :
    (x.rebased a upd).pc = x.pc ∧ (x.rebased a upd).slot = x.slot ∧ (x.rebased a upd).run = x.run
      ∧ (x.rebased a upd).storeQ = x.storeQ ∧ (∀ r, (x.rebased a upd).fr r = x.fr r) ∧ ∀ n, (x.rebased a upd).c n = x.c n := by
  cases upd with
  | none => exact ⟨rfl, rfl, rfl, rfl, fun _ => rfl, fun _ => rfl⟩
  | some w =>
    refine ⟨x.pc_setGr _ _, x.slot_setGr _ _, x.run_setGr _ _, ?_, x.fr_setGr _ _, x.c_setGr _ _⟩
    exact (congrArg Thread.storeQ (x.beside_setGr a.val w) :)

theorem Thread.gr_rebased_congr {x y : Thread} (h : ∀ r, x.gr r = y.gr r) (a : Rn) (upd : Option Word) (r : Nat) :
    (x.rebased a upd).gr r = (y.rebased a upd).gr r := by
  cases upd with
  | none => exact h r
  | some w => exact (x.gr_setGr_or _ _ _).trans ((if_congr Iff.rfl rfl (h r)).trans (y.gr_setGr_or _ _ _).symm)

/-- The state with the base of an access updated where its mode does so. -/
def State.rebased (s : State) (t : Tid) (a : Rn) : Option Word → State
  | some w => s.setG t a w
  | none => s

theorem State.turned.rebased {s u : State} {t : Tid} {x : Thread} (h : s.turned u t x) (a : Rn) (upd : Option Word) :
    s.turned (u.rebased t a upd) t (x.rebased a upd) := by
  cases upd with
  | none => exact h
  | some w => exact h.setG a w

theorem State.acting_storeBytes (s : State) (t : Tid) (i : Instr) (d : Rn) (k : Nat) :
    (s.acting t i).storeBytes t d k = s.storeBytes t d k := by
  unfold State.storeBytes
  rw [State.acting_f, State.acting_g, State.acting_thr_gr]

/-- A store that passes its checks and finds room. -/
theorem State.doStore_room {s : State} {t : Tid} {pa ks : Nat} {va : Word} (d a : Rn) (k : Nat) (upd : Option Word)
    (ha : s.addr t .store va (szOf k) false = .ok pa ks) (hroom : s.saqRoom t 1 = true) :
    s.doStore t d a k va upd = .done ((s.pushStore t pa ks (s.storeBytes t d k)).rebased t a upd) := by
  unfold State.doStore
  rw [ha]
  dsimp only
  rw [if_pos hroom]
  cases upd <;> rfl

/-- A store that joins the queue, and its base. -/
theorem State.issue_stored {s : State} {t : Tid} {i : Instr} {body : State → Out} {d a : Rn} {k pa ks : Nat} {va : Word} {upd : Option Word}
    (hr : s.ready t i = true) (hb : body (s.acting t i) = (s.acting t i).doStore t d a k va upd)
    (ha : (s.acting t i).addr t .store va (szOf k) false = .ok pa ks) (hroom : (s.acting t i).saqRoom t 1 = true) :
    let u := s.issue t i body
    (s.retired u t ∧ s.onlyThread u t
      ∧ (u.thr t).storeQ = (s.thr t).storeQ ++ [{ pa := pa, data := s.storeBytes t d k, kslot := ks }]
      ∧ (∀ r, (u.thr t).fr r = (s.thr t).fr r) ∧ ∀ m, isPmc m = false → (u.thr t).c m = (s.thr t).c m)
    ∧ ∀ r, (u.thr t).gr r = ((s.thr t).rebased a upd).gr r := by
  have hq := ((s.turned_acting t i).pushStore pa ks (s.storeBytes t d k)).rebased a upd
  obtain ⟨hpc, hslot, hrun, hsq, hfr, hc⟩ := (({ s.thr t with run := .running } : Thread).queued pa ks (s.storeBytes t d k)).rebased_keeps a upd
  have he := hq.ends (s.thr t).pc i
  obtain ⟨h1, h2, -, h4, h5, h6⟩ := State.became_ends hq hrun (congrArg₂ (fun p q => Option.getD p (q + 4)) hslot hpc) (s.thr t).pc i
  have hg (r : Nat) : (({ s.thr t with run := .running } : Thread).queued pa ks (s.storeBytes t d k)).gr r = (s.thr t).gr r := rfl
  rw [State.issue_ready _ _ _ _ hr, hb, State.doStore_room d a k upd ha hroom, State.acting_storeBytes]
  exact ⟨⟨h1, h2, he.storeQ.trans hsq, fun r => (h5 r).trans (hfr r), fun m hm => (h6 m hm).trans (hc m)⟩,
    fun r => (h4 r).trans (Thread.gr_rebased_congr hg a upd r)⟩

/-- Settles O14: the bytes join the queue, and only a mode that updates its base writes a register. -/
theorem storesQueue : Obligations.StoresQueue := by
  intro s t d a k ord disp am amf pa ks ea upd
  refine ⟨fun hr ha hroom => ?_, fun hr hm ha hroom => ?_⟩
  · exact ⟨_, rfl, State.issue_stored (upd := none) hr (by rw [bodyStore, State.acting_eaMd]) ha hroom⟩
  · obtain ⟨h1, h2⟩ := State.issue_stored (body := bodyStorex t d a k ord am amf) hr (by rw [bodyStorex, State.acting_mode, hm]) ha hroom
    refine ⟨_, rfl, h1, fun r => (h2 r).trans ?_⟩
    cases upd with
    | none => rfl
    | some w => exact Thread.gr_setGr_or _ _ _ _

end Sys2Proof.Machine
end

section
/-!
ATOMICS IN THE THREAD'S OWN LOCAL STORE (R94).
-/
namespace Sys2Proof.Machine

set_option Elab.async false

/-- A change of the rest of the state, alike on both sides. -/
theorem State.turned.alike {s u : State} {t : Tid} {x : Thread} (h : s.turned u t x) (f : State → State)
    (hbeside : ∀ v, (f v).beside = f v.beside) (hthreads : ∀ v, (f v).threads = v.threads) (hio : ∀ v, (f v).io = v.io) :
    (f s).turned (f u) t x := by
  obtain ⟨⟨h1, h2, h3⟩, y, h4, h5⟩ := h
  have hthr (v : State) (k : Nat) : (f v).thrN k = v.thrN k := by rw [State.thrN, hthreads, State.thrN]
  have hrdw (v : State) (a : Nat) : (f v).rdw a = v.rdw a := by rw [State.rdw, hio, State.rdw]
  have hclk : (f s).cluClk t = s.cluClk t := by
    unfold State.cluClk State.clusterOf State.phys State.rd
    rw [hrdw]
  refine ⟨⟨?_, fun k hk => ?_, fun a ha => ?_⟩, y, ?_, h5⟩
  · rw [hbeside, hbeside, h1]
  · rw [hthr, hthr, h2 k hk]
  · rw [hrdw, hrdw, h3 a (hclk ▸ ha)]
  · exact (hthr u t.val).trans h4

/-- A thread whose atomic found the number v: its destination, and the register after it for 16 bytes. -/
def Thread.amoTo (x : Thread) (q : Bool) (d : Rn) (v : Nat) : Thread :=
  let y := x.setGr d.val (BitVec.ofNat 64 v)
  if q then y.setGr (d.val + 1) (BitVec.ofNat 64 (v / 2 ^ 64)) else y

theorem Thread.amoTo_keeps (x : Thread) (q : Bool) (d : Rn) (v : Nat) :
    (x.amoTo q d v).beside = x.beside ∧ (x.amoTo q d v).pc = x.pc ∧ (x.amoTo q d v).slot = x.slot ∧ (x.amoTo q d v).run = x.run
      ∧ (∀ r, (x.amoTo q d v).fr r = x.fr r) ∧ ∀ n, (x.amoTo q d v).c n = x.c n := by
  unfold Thread.amoTo
  cases q <;> simp

theorem Thread.gr_amoTo (x : Thread) (q : Bool) (d : Rn) (v r : Nat) :
    (x.amoTo q d v).gr r = if r = 0 then 0 else if q ∧ r = d.val + 1 then BitVec.ofNat 64 (v / 2 ^ 64)
      else if r = d.val then BitVec.ofNat 64 v else x.gr r := by
  rcases Nat.eq_zero_or_pos r with rfl | hr
  · exact Thread.gr_zero _
  · unfold Thread.amoTo
    cases q
    · simp [Thread.gr_setGr_or, hr.ne']
    · simp [Thread.gr_setGr_or, hr.ne']

theorem State.turned.amoTo {s u : State} {t : Tid} {x : Thread} (h : s.turned u t x) (q : Bool) (d : Rn) (v : Nat) :
    s.turned (u.amoTo t q d v) t (x.amoTo q d v) := by
  cases q
  · exact h.setG d _
  · exact (h.setG d _).setGr _ _

/-- What a write of a local store is depends on the memories alone. -/
theorem State.wroteLs_congr {s v u w : State} {d o : Nat} {bs : List Byte} (hs : v.mem = s.mem) (hu : w.mem = u.mem) (h : v.wroteLs u d o bs) :
    s.wroteLs w d o bs := by
  unfold State.wroteLs at *
  rwa [hu, ← hs]

/-- Bytes that stand where they are stored. -/
theorem State.ownBytes.wroteLs {s : State} {t : Tid} {pa o : Nat} {bs : List Byte} (h : s.ownBytes t pa bs)
    (hls : s.lsOf pa = some (dieOf t, o)) : s.wroteLs s (dieOf t) o bs := by
  obtain ⟨o', ho, -, hb⟩ := h
  obtain rfl : o = o' := congrArg Prod.snd (Option.some.inj (hls.symm.trans ho))
  exact ⟨rfl, fun i hi => (hb i hi).1, fun _ _ => rfl⟩

/-- The store of an atomic of n bytes, where its operation gives one. -/
def State.amoStore (s : State) (d clu pa n ks : Nat) : Option Nat → State
  | some w => s.storeIn d clu pa (bytesOf n w) ks
  | none => s

/-- What an atomic leaves in its own local store: the number that its operation gives, or the old one. -/
theorem State.amoStore_ls {s : State} {t : Tid} {pa o clu ks n : Nat} {bs : List Byte} (w : Option Nat)
    (hls : s.lsOf pa = some (dieOf t, o)) (hlen : bs.length = n) (hown : s.ownBytes t pa bs) :
    ∃ m, s.amoStore (dieOf t) clu pa n ks w = { s with mem := m }
      ∧ s.wroteLs { s with mem := m } (dieOf t) o (bytesOf n (w.getD (ofBytes bs))) := by
  subst hlen
  cases w with
  | none =>
    refine ⟨s.mem, rfl, ?_⟩
    rw [Option.getD_none, bytesOf_ofBytes]
    exact hown.wroteLs hls
  | some w =>
    have hreach : s.lsReach (dieOf t) (some (dieOf t)) = true := by rw [State.lsReach, beq_self_eq_true, Bool.or_true]
    obtain ⟨hw, m, hm⟩ := State.lsWrite_wrote s (dieOf t) o (bytesOf bs.length w) _ hreach
    refine ⟨m, ?_, hm ▸ hw⟩
    unfold State.amoStore State.storeIn
    rw [hls]
    dsimp only
    rw [if_pos rfl, hm]

theorem State.ownBytes_acting {s : State} {t : Tid} {pa : Nat} {bs : List Byte} (i : Instr) (h : s.ownBytes t pa bs) :
    (s.acting t i).ownBytes t pa bs := by
  unfold State.ownBytes at *
  simp only [State.acting_lsOf, State.acting_mem]
  exact h

theorem State.acting_amoReg (s : State) (t : Tid) (i : Instr) (q : Bool) (r : Rn) : (s.acting t i).amoReg t q r = s.amoReg t q r := by
  unfold State.amoReg
  rw [State.acting_g, State.acting_thr_gr]

/-- An atomic in its own local store with no store of its thread waiting. -/
theorem State.doAmo_own {s : State} {t : Tid} {q : Bool} {d a b : Rn} {pa ks o : Nat} {bs : List Byte}
    (op : Nat → Nat → Nat → Option Nat) (hls : s.lsOf pa = some (dieOf t, o)) (hq : (s.thr t).storeQ = [])
    (hlen : bs.length = if q then 16 else 8) (hown : s.ownBytes t pa bs)
    (ha : s.addr t .atomic (s.g t a) (if q then 16 else 8) true = .ok pa ks) :
    ∃ m, s.doAmo t q d a b op = .done (({ s with mem := m } : State).amoTo t q d (ofBytes bs))
      ∧ s.wroteLs { s with mem := m } (dieOf t) o
          (bytesOf (if q then 16 else 8) ((op (ofBytes bs) (s.amoReg t q d) (s.amoReg t q b)).getD (ofBytes bs))) := by
  obtain ⟨m, hm, hw⟩ := State.amoStore_ls (clu := s.clusterOf t.val) (ks := ks) (op (ofBytes bs) (s.amoReg t q d) (s.amoReg t q b)) hls hlen hown
  refine ⟨m, ?_, hw⟩
  have hok : s.atomicOk pa = true := by
    rw [State.atomicOk, hls]
    rfl
  have hwr : s.writable t pa ks = some s := by
    unfold State.writable State.cached
    rw [hls]
    rfl
  have hgot : s.gotIn t pa (if q then 16 else 8) ks = .ok bs false s := by
    rw [State.gotIn, ← hlen, State.readIn_own ks hown]
  unfold State.doAmo
  simp only [ha, State.drain_empty s t hq, hok, hwr, hgot, Bool.not_true, Bool.false_eq_true, if_false]
  rw [← hm]
  generalize op (ofBytes bs) (s.amoReg t q d) (s.amoReg t q b) = w
  cases w <;> rfl

/-- An atomic that completes at once. -/
theorem State.issue_amo {s : State} {t : Tid} {i : Instr} {body : State → Out} {q : Bool} {d a b : Rn} {pa ks o : Nat} {bs : List Byte}
    {op : Nat → Nat → Nat → Option Nat} {new : Nat} (hr : s.ready t i = true) (hb : body (s.acting t i) = (s.acting t i).doAmo t q d a b op)
    (hls : s.lsOf pa = some (dieOf t, o)) (hq : (s.thr t).storeQ = []) (hlen : bs.length = if q then 16 else 8) (hown : s.ownBytes t pa bs)
    (ha : (s.acting t i).addr t .atomic (s.g t a) (if q then 16 else 8) true = .ok pa ks)
    (hnew : (op (ofBytes bs) (s.amoReg t q d) (s.amoReg t q b)).getD (ofBytes bs) = new) :
    let u := s.issue t i body
    s.retired u t ∧ s.wroteLs u (dieOf t) o (bytesOf (if q then 16 else 8) new)
      ∧ (∀ r, (u.thr t).gr r = if r = 0 then 0 else if q ∧ r = d.val + 1 then BitVec.ofNat 64 (ofBytes bs / 2 ^ 64)
          else if r = d.val then BitVec.ofNat 64 (ofBytes bs) else (s.thr t).gr r)
      ∧ s.keepsThread u t ∧ u.lines = s.lines ∧ ∀ r, (u.thr t).fr r = (s.thr t).fr r := by
  have hact := s.turned_acting t i
  obtain ⟨m, hdone, hw⟩ := State.doAmo_own (d := d) (a := a) (b := b) op ((s.acting_lsOf t i pa).trans hls) (hact.storeQ.trans hq) hlen
    (State.ownBytes_acting i hown) (by rw [State.acting_g]; exact ha)
  rw [State.acting_amoReg, State.acting_amoReg, hnew] at hw
  have hto := (hact.alike (fun v => { v with mem := m }) (fun _ => rfl) (fun _ => rfl) fun _ => rfl).amoTo q d (ofBytes bs)
  obtain ⟨k1, k2, k3, k4, k5, k6⟩ := ({ s.thr t with run := .running } : Thread).amoTo_keeps q d (ofBytes bs)
  obtain ⟨h1, ⟨h2, -⟩, h3, h4, h5, h6⟩ := State.became_ends hto k4 (congrArg₂ (fun p q => Option.getD p (q + 4)) k3 k2) (s.thr t).pc i
  have hmem := congrArg State.mem h2
  have hlines := congrArg State.lines h2
  dsimp only
  rw [State.issue_ready _ _ _ _ hr, hb, hdone]
  refine ⟨h1, ?_, fun r => ?_, ⟨h3.trans k1, fun n hn => (h6 n hn).trans (k6 n)⟩, hlines, fun r => (h5 r).trans (k5 r)⟩
  · exact State.wroteLs_congr (s.acting_mem t i) hmem hw
  · exact (h4 r).trans (Thread.gr_amoTo _ _ _ _ _)

/-- Settles O16: each atomic gives its own number from the old one and its operands. -/
theorem atomicsComplete : Obligations.AtomicsComplete := by
  intro s t q d a b pa ks o bs
  dsimp only
  intro hls hq hlen hown
  simp only [List.forall_mem_cons, List.not_mem_nil, false_imp_iff, implies_true, and_true]
  refine ⟨?_, ?_, ?_, ?_, ?_, ?_, ?_⟩ <;> intro hr ha <;> refine ⟨_, rfl, State.issue_amo hr rfl hls hq hlen hown ha ?_⟩
  · rfl
  · show Option.getD (if ofBytes bs = s.amoReg t q d then some (s.amoReg t q b) else none) (ofBytes bs) = _
    exact apply_ite (Option.getD · (ofBytes bs)) _ _ _
  · rfl
  · rfl
  · rfl
  · rfl
  · exact (max_def_lt _ _).symm

end Sys2Proof.Machine
end

section
/-!
INSTRUCTIONS OF THE DECODE TABLE (R109, R118 to R121).
-/
namespace Sys2Proof.Machine

set_option Elab.async false

/-- What a micro-op reads before any other of its entry has run. -/
theorem UEnv.get_first (fs : List Rn) (x : Thread) {sel : Nat} (h : 1 ≤ sel) (h4 : sel ≤ 4) :
    UEnv.get { fs := fs, g := [], u := [0, 0, 0, 0], st := none } x sel = x.gr (fs.getD (sel - 1) 0).val := by
  unfold UEnv.get
  rw [if_neg (by omega), if_pos h4]
  rfl

/-- An entry of one ADD micro-op leaves its sum pending. -/
theorem uRun_add {t : Tid} {w : BitVec 32} {e : UEnv} {s : State} (hop : uOp w = 0x01) :
    uRun t [w] e s = .ok (e.put (uDst w) (e.get (s.thr t) (uSa w) + e.get (s.thr t) (uSb w))) s := by
  have hm : uMem w = false := by
    unfold uMem
    rw [hop]
    rfl
  unfold uRun
  simp only [hm, Bool.false_eq_true, if_false]
  unfold uAlu
  rw [hop]
  rfl

/-- The first pending value of F1 is written where its register stands. -/
theorem UEnv.put_first_apply (fs : List Rn) (x : Thread) (v : Word) :
    let e := UEnv.put { fs := fs, g := [], u := [0, 0, 0, 0], st := none } 1 v
    e.st = none ∧ e.g.foldl (fun (x : Thread) c => x.setGr c.1 c.2) x = x.setGr (fs.getD 0 0).val v := by
  unfold UEnv.put
  rw [if_neg (by decide), if_pos (by decide)]
  by_cases h : (fs.getD 0 0).val = 0
  · rw [h]
    exact ⟨rfl, rfl⟩
  · dsimp only
    rw [Nat.sub_self, if_neg h]
    exact ⟨rfl, rfl⟩

/-- An instruction whose entry is one ADD micro-op of F2 and F3 to F1. -/
theorem bodyUdi_add {s : State} {t : Tid} {sel : Fin 64} {f1 f2 f3 f4 : Rn} {e : DtEntry} {w : BitVec 32}
    (he : SMap.find? (s.core (coreKey t)).dt sel.val = some e) (hlen : fget e.hdr 2 4 = 0) (hw : e.uops.head? = some w)
    (hop : uOp w = 0x01) (hd : uDst w = 1) (ha : uSa w = 2) (hb : uSb w = 3) :
    bodyUdi t sel f1 f2 f3 f4 s = .done (s.setG t f1 (s.g t f2 + s.g t f3)) := by
  obtain ⟨hst, hg⟩ := UEnv.put_first_apply [f1, f2, f3, f4] (s.thr t)
    ((s.thr t).gr ([f1, f2, f3, f4].getD (2 - 1) 0).val + (s.thr t).gr ([f1, f2, f3, f4].getD (3 - 1) 0).val)
  have hone : e.uops.take 1 = [w] := by
    rw [List.take_one, hw]
    rfl
  unfold bodyUdi
  simp only [he, hlen, Nat.zero_add, hone, uRun_add hop, hd, ha, hb, UEnv.get_first _ _ (by decide : 1 ≤ 2) (by decide),
    UEnv.get_first _ _ (by decide : 1 ≤ 3) (by decide), hst, hg, Option.isSome_none, Bool.false_and, Bool.false_eq_true, if_false]
  rfl

/-- Settles O22: the one micro-op leaves its sum in the register that F1 names. -/
theorem decodeTableInstruction : Obligations.DecodeTableInstruction := by
  intro s t sel f1 f2 f3 f4 e w hr he hlen hw hop hd ha hb
  refine State.answers_wroteG hr ?_
  rw [bodyUdi_add (by rw [State.core, State.acting_cores]; exact he) hlen hw hop hd ha hb, State.acting_g, State.acting_g]

end Sys2Proof.Machine
end

section
/-!
IMAGES OF THE RETURN STACK AND OF DECODE-TABLE ENTRIES (R104, R105, R115, R116).
-/
namespace Sys2Proof.Machine

set_option Elab.async false

/-! Reading an area (R105, R116). -/

theorem State.loadBytes_whole {s : State} {t : Tid} {pa : Nat} {l : List Byte} (ks : Nat) (hno : s.noStore t pa l.length)
    (hown : s.ownBytes t pa l) : s.loadBytes t pa l.length ks true = .ok l false s := by
  have hf : (s.thr t).storeQ.reverse.findIdx? (fun p => p.meets pa l.length) = none := by
    rw [List.findIdx?_eq_none_iff]
    exact fun p hp => hno p (List.mem_reverse.mp hp)
  unfold State.loadBytes
  simp only [hf, if_true, State.readCached_own ks hown]

theorem ofNat_ofBytes_word (w : Word) : BitVec.ofNat 64 (ofBytes (bytesOf 8 w.toNat)) = w := by
  rw [ofBytes_bytesOf, Nat.mod_eq_of_lt w.isLt, BitVec.ofNat_toNat, BitVec.setWidth_eq]

/-- Doublewords that stand in the thread's own local store are read as they stand. -/
theorem State.readArea_holds {s : State} {t : Tid} {l : List (Nat × Nat × Nat)} (ws : List Word) (i : Nat)
    (h : ∀ j, j < ws.length → s.ownBytes t (areaAt l (8 * (i + j))).1 (bytesOf 8 (ws.getD j 0).toNat)
      ∧ s.noStore t (areaAt l (8 * (i + j))).1 8) : State.readArea t l ws.length i s = .ok ws s := by
  induction ws generalizing i with
  | nil => rfl
  | cons w ws ih =>
    obtain ⟨hown, hno⟩ := h 0 (by simp)
    rw [Nat.add_zero] at hown hno
    have hl := State.loadBytes_whole (areaAt l (8 * i)).2 (l := bytesOf 8 w.toNat) (by rw [length_bytesOf]; exact hno) hown
    rw [length_bytesOf] at hl
    have hrest := ih (i + 1) fun j hj => by
      rw [show i + 1 + j = i + (j + 1) by omega]
      exact h (j + 1) (by simpa using hj)
    rw [List.length_cons]
    unfold State.readArea
    simp only [hl, hrest, Bool.false_eq_true, if_false, ofNat_ofBytes_word]

theorem State.areaHolds_acting {s : State} {t : Tid} {l : List (Nat × Nat × Nat)} {ws : List Word} (i : Instr) (h : s.areaHolds t l ws) :
    State.readArea t l ws.length 0 (s.acting t i) = .ok ws (s.acting t i) := by
  refine State.readArea_holds ws 0 fun j hj => ?_
  obtain ⟨h1, h2⟩ := h j hj
  rw [Nat.zero_add]
  refine ⟨State.ownBytes_acting i h1, ?_⟩
  unfold State.noStore
  rw [(s.turned_acting t i).storeQ]
  exact h2

/-! RSSAVE (R104, R105). -/

/-- Stores that join a thread's queue one after another. -/
theorem State.turned.pushStores {s u : State} {t : Tid} {x : Thread} (h : s.turned u t x) (p : Nat → Nat × Nat) (bs : Nat → List Byte)
    (l : List Nat) : s.turned (l.foldl (fun u i => u.pushStore t (p i).1 (p i).2 (bs i)) u) t
      { x with storeQ := x.storeQ ++ l.map fun i => { pa := (p i).1, kslot := (p i).2, data := bs i } } := by
  induction l generalizing u x with
  | nil =>
    rw [List.map_nil, List.append_nil]
    exact h
  | cons i l ih =>
    have hi := ih (h.pushStore (p i).1 (p i).2 (bs i))
    rw [Thread.queued, List.append_assoc] at hi
    exact hi

/-- The doublewords of the return-stack image: RSCTL, and the entries below DEPTH. -/
def Thread.rsWords (x : Thread) : List Word :=
  x.c 0x1C0 :: (List.range 16).map fun i => if x.depth ≤ i then 0 else x.c (0x1C1 + i)

theorem Thread.getD_rsWords (x : Thread) {i : Nat} (hi : i < 17) :
    x.rsWords.getD i 0 = if i = 0 then x.c 0x1C0 else if x.depth ≤ i - 1 then 0 else x.c (0x1C0 + i) := by
  unfold Thread.rsWords
  cases i with
  | zero => rfl
  | succ i =>
    rw [List.getD_cons_succ, List.getD_eq_getElem _ _ (by rw [List.length_map, List.length_range]; omega), List.getElem_map, List.getElem_range,
      if_neg (Nat.succ_ne_zero i), Nat.add_sub_cancel, show 0x1C1 + i = 0x1C0 + (i + 1) by omega]

theorem State.acting_rsWords (s : State) (t : Tid) (i : Instr) : ((s.acting t i).thr t).rsWords = (s.thr t).rsWords := by
  unfold Thread.rsWords
  rw [State.acting_depth, State.acting_rs _ _ _ (by decide)]
  congr 1
  refine List.map_congr_left fun k hk => ?_
  rw [State.acting_rs _ _ _ (by have := List.mem_range.mp hk; omega)]

theorem bodyRssave_room {s : State} {t : Tid} {a : Rn} {l : List (Nat × Nat × Nat)} (ha : s.areaCheck t .store (s.g t a) 136 = .inl l)
    (hroom : s.saqRoom t 17 = true) :
    bodyRssave t a s = .done ((List.range 17).foldl (fun u i =>
      u.pushStore t (areaAt l (8 * i)).1 (areaAt l (8 * i)).2 (bytesOf 8 ((s.thr t).rsWords.getD i 0).toNat)) s) := by
  unfold bodyRssave
  simp only [ha, hroom, Bool.not_true, Bool.false_eq_true, if_false]
  rfl

theorem State.issue_rssave {s : State} {t : Tid} {a : Rn} {l : List (Nat × Nat × Nat)} (hr : s.ready t (.rssave t a) = true)
    (ha : (s.acting t (.rssave t a)).areaCheck t .store (s.g t a) 136 = .inl l) (hroom : (s.acting t (.rssave t a)).saqRoom t 17 = true) :
    let u := s.issue t (.rssave t a) (bodyRssave t a)
    s.retired u t ∧ s.onlyThread u t ∧ (u.thr t).storeQ = (s.thr t).storeQ ++ (List.range 17).map fun i =>
      { pa := (areaAt l (8 * i)).1, kslot := (areaAt l (8 * i)).2, data := bytesOf 8 ((s.thr t).rsWords.getD i 0).toNat } := by
  have hq := (s.turned_acting t (.rssave t a)).pushStores (fun i => areaAt l (8 * i))
    (fun i => bytesOf 8 ((s.thr t).rsWords.getD i 0).toNat) (List.range 17)
  obtain ⟨h1, h2, -⟩ := State.became_ends hq rfl rfl (s.thr t).pc (.rssave t a)
  dsimp only
  rw [State.issue_ready _ _ _ _ hr, bodyRssave_room (by rw [State.acting_g]; exact ha) hroom, State.acting_rsWords]
  exact ⟨h1, h2, (hq.ends _ _).storeQ⟩

/-! RSLOAD (R104, R105). -/

theorem Thread.rsImage_eq (x : Thread) (ws : List Word) : ∃ y : SMap Word, x.rsImage ws = { x with cr := y } := by
  unfold Thread.rsImage
  dsimp only
  obtain ⟨y, h⟩ := (x.setC 0x1C0 (BitVec.ofNat 64 ((if fget (ws.getD 0 0) 4 5 ≤ 16 then fget (ws.getD 0 0) 4 5 else x.depth) * 16
    + fget (ws.getD 0 0) 0 2))).foldl_setC_eq 0x1C1 (fun i => ws.getD (i + 1) 0) (List.range 16)
  exact ⟨y, h⟩

theorem Thread.rsImage_entry (x : Thread) (ws : List Word) {i : Nat} (hi : i < 16) : (x.rsImage ws).c (0x1C1 + i) = ws.getD (i + 1) 0 := by
  unfold Thread.rsImage
  dsimp only
  rw [Thread.c_foldl_setC, if_pos (by omega), Nat.add_sub_cancel_left]

theorem fget_rsctl (d : Nat) {m : Nat} (hm : m < 2 ^ 2) :
    fget (BitVec.ofNat 64 (d * 16 + m)) 0 2 = m ∧ (d < 32 → fget (BitVec.ofNat 64 (d * 16 + m)) 4 5 = d) := by
  unfold fget
  rw [BitVec.toNat_ofNat]
  omega

/-- RSCTL of an image: MODE and LOST, and DEPTH where it is one of a stack. -/
theorem Thread.rsImage_ctl (x : Thread) (ws : List Word) :
    fget ((x.rsImage ws).c 0x1C0) 0 2 = fget (ws.getD 0 0) 0 2
      ∧ (fget (ws.getD 0 0) 4 5 ≤ 16 → fget ((x.rsImage ws).c 0x1C0) 4 5 = fget (ws.getD 0 0) 4 5) := by
  unfold Thread.rsImage
  dsimp only
  rw [Thread.c_foldl_setC, if_neg (by omega), Thread.c_setC_same]
  obtain ⟨h1, h2⟩ := fget_rsctl (if fget (ws.getD 0 0) 4 5 ≤ 16 then fget (ws.getD 0 0) 4 5 else x.depth) (fget_lt (ws.getD 0 0) 0 2)
  refine ⟨h1, fun h => ?_⟩
  rw [if_pos h] at h2 ⊢
  exact h2 (by omega)

theorem State.issue_rsload {s : State} {t : Tid} {a : Rn} {l : List (Nat × Nat × Nat)} {ws : List Word} (hr : s.ready t (.rsload t a) = true)
    (ha : (s.acting t (.rsload t a)).areaCheck t .load (s.g t a) 136 = .inl l) (hlen : ws.length = 17) (hws : s.areaHolds t l ws) :
    let u := s.issue t (.rsload t a) (bodyRsload t a)
    let v := s.acting t (.rsload t a)
    s.retired u t ∧ s.onlyThread u t ∧ ∀ n, n ≤ 0x300 → (u.thr t).c n = ((v.thr t).rsImage ws).c n := by
  have hact := s.turned_acting t (.rsload t a)
  have hread := State.areaHolds_acting (.rsload t a) hws
  rw [hlen] at hread
  have hb : bodyRsload t a (s.acting t (.rsload t a))
      = .done ((s.acting t (.rsload t a)).setThr t (((s.acting t (.rsload t a)).thr t).rsImage ws)) := by
    unfold bodyRsload
    simp only [State.acting_g, ha, hread]
  obtain ⟨y, hy⟩ := ((s.acting t (.rsload t a)).thr t).rsImage_eq ws
  have hset := hact.setThr (((s.acting t (.rsload t a)).thr t).rsImage ws)
  obtain ⟨h1, h2, -, -, -, h6⟩ := State.became_ends hset (by rw [hy]; exact hact.run)
    (by rw [hy]; exact congrArg₂ (fun p q => Option.getD p (q + 4)) hact.slot hact.pc) (s.thr t).pc (.rsload t a)
  dsimp only
  rw [State.issue_ready _ _ _ _ hr, hb]
  exact ⟨h1, h2, fun n hn => h6 n (isPmc_rs hn)⟩

/-! DTLOAD (R106, R116). -/

theorem uCheck_le (len : Nat) (ws : List (BitVec 32)) (i n : Nat) (st : Bool) : (uCheck len ws i n st).1 ≤ 6 := by
  induction ws generalizing i n st with
  | nil => exact Nat.zero_le _
  | cons w ws ih =>
    unfold uCheck
    split_ifs
    · exact ih _ _ _
    · exact le_rfl
    · exact (by decide : 3 ≤ 6)
    · exact (by decide : 4 ≤ 6)
    · exact (by decide : 5 ≤ 6)
    · exact ih _ _ _
    · exact ih _ _ _

theorem imageResult_le (ws : List Word) : (imageResult ws).1 ≤ 6 := by
  unfold imageResult
  dsimp only
  split_ifs
  · exact (by decide : 1 ≤ 6)
  · exact (by decide : 2 ≤ 6)
  · exact uCheck_le _ _ _ _ _

/-- A thread with DTLSTAT written. -/
def Thread.dtlstat (x : Thread) (r : Nat × Nat) : Thread := x.setC 0x205 (BitVec.ofNat 64 (r.2 * 16 + r.1))

theorem Thread.dtlstat_result (x : Thread) {r : Nat × Nat} (h : r.1 ≤ 6) : fget ((x.dtlstat r).c 0x205) 0 4 = r.1 := by
  rw [Thread.dtlstat, Thread.c_setC_same, fget, BitVec.toNat_ofNat]
  omega

/-- The core with an image in one entry of its decode table, or none there where the checks refuse it. -/
def Core.loadEntry (c : Core) (sel : Nat) (ws : List Word) : Core :=
  { c with dt := if (imageResult ws).1 = 0 then SMap.put c.dt sel { hdr := ws.getD 0 0, uops := imageUops ws } else SMap.del c.dt sel }

theorem bodyDtload_holds {s : State} {t : Tid} {a b : Rn} {l : List (Nat × Nat × Nat)} {ws : List Word}
    (ha : s.areaCheck t .load (s.g t a) 72 = .inl l) (hread : State.readArea t l 9 0 s = .ok ws s) :
    bodyDtload t a b s = .done ((s.setCore (coreKey t) ((s.core (coreKey t)).loadEntry (fget (s.g t b) 0 6) ws)).setThr t
      ((s.thr t).dtlstat (imageResult ws))) := by
  unfold bodyDtload
  simp only [ha, hread]
  rfl

theorem State.issue_dtload {s : State} {t : Tid} {a b : Rn} {l : List (Nat × Nat × Nat)} {ws : List Word} (hr : s.ready t (.dtload t a b) = true)
    (ha : (s.acting t (.dtload t a b)).areaCheck t .load (s.g t a) 72 = .inl l) (hlen : ws.length = 9) (hws : s.areaHolds t l ws) :
    let u := s.issue t (.dtload t a b) (bodyDtload t a b)
    s.retired u t ∧ fget ((u.thr t).c 0x205) 0 4 = (imageResult ws).1
      ∧ u.core (coreKey t) = (s.core (coreKey t)).loadEntry (fget (s.g t b) 0 6) ws := by
  have hact := s.turned_acting t (.dtload t a b)
  have hread := State.areaHolds_acting (.dtload t a b) hws
  rw [hlen] at hread
  have hset := (hact.alike (fun v => { v with cores := SMap.put s.cores (coreKey t) ((s.core (coreKey t)).loadEntry (fget (s.g t b) 0 6) ws) })
    (fun _ => rfl) (fun _ => rfl) fun _ => rfl).setThr (((s.acting t (.dtload t a b)).thr t).dtlstat (imageResult ws))
  obtain ⟨h1, ⟨h2, -⟩, -, -, -, h6⟩ := State.became_ends hset hact.run
    (congrArg₂ (fun p q => Option.getD p (q + 4)) hact.slot hact.pc) (s.thr t).pc (.dtload t a b)
  have hcore : (s.acting t (.dtload t a b)).core (coreKey t) = s.core (coreKey t) := by rw [State.core, State.acting_cores, State.core]
  have hcores := congrArg State.cores h2
  dsimp only
  rw [State.issue_ready _ _ _ _ hr, bodyDtload_holds (by rw [State.acting_g]; exact ha) hread, hcore, State.acting_g, State.setCore,
    State.acting_cores]
  refine ⟨h1, ?_, ?_⟩
  · exact (congrArg (fget · 0 4) (h6 0x205 rfl)).trans (Thread.dtlstat_result _ (imageResult_le ws))
  · exact (congrArg (SMap.get Core.reset · (coreKey t)) hcores).trans (SMap.get_put_same _ _ _ _)

theorem Core.loadEntry_find {c : Core} {ws : List Word} (sel : Nat) (h : (imageResult ws).1 = 0) :
    SMap.find? (c.loadEntry sel ws).dt sel = some { hdr := ws.getD 0 0, uops := imageUops ws } := by
  rw [Core.loadEntry, if_pos h, SMap.find?_put, if_pos rfl]

/-- Settles O23: an image is stored or read whole, and goes where it belongs. -/
theorem contextInstructions : Obligations.ContextInstructions := by
  intro s t a b l ws
  refine ⟨fun hr ha hroom => ?_, fun hr ha hlen hws => ?_, fun hr ha hlen hws => ?_⟩
  · obtain ⟨h1, h2, h3⟩ := State.issue_rssave hr ha hroom
    refine ⟨_, rfl, h1, h2, h3.trans (congrArg _ (List.map_congr_left fun i hi => ?_))⟩
    rw [Thread.getD_rsWords _ (List.mem_range.mp hi)]
    rfl
  · obtain ⟨h1, h2, h3⟩ := State.issue_rsload hr ha hlen hws
    obtain ⟨h4, h5⟩ := ((s.acting t (.rsload t a)).thr t).rsImage_ctl ws
    refine ⟨_, rfl, h1, h2, fun i hi => ?_, ?_, fun h16 => ?_⟩
    · rw [h3 _ (by omega), Thread.rsImage_entry _ _ hi]
    · rw [h3 _ (by decide), h4]
    · rw [h3 _ (by decide), h5 h16]
  · obtain ⟨h1, h2, h3⟩ := State.issue_dtload hr ha hlen hws
    refine ⟨_, rfl, h1, h2, fun h0 => ?_⟩
    rw [h3]
    exact Core.loadEntry_find _ h0

end Sys2Proof.Machine
end

section
/-!
TICKETS AND CUTS (R100, R101, R227).
-/
namespace Sys2Proof.Machine

set_option Elab.async false

/-! Registers of the H-die, beside the clock state of a cluster. -/

/-- A register below the C-dies' clock registers is not one of them. -/
theorem State.ne_cluClk (s : State) (t : Tid) {a : Nat} (h : a < 0xfe1000002810) : a ≠ s.cluClk t := by
  show a ≠ 0xfe1000002810 + s.clusterOf t.val / 5 * 0x100000000 + s.clusterOf t.val % 5 * 0x8
  omega

theorem State.turned.rd {s u : State} {t : Tid} {x : Thread} (h : s.turned u t x) {f : FRef} (hf : f.addr < 0xfe1000002810) :
    u.rd f = s.rd f := by
  rw [State.rd, h.onlyThread.2.2 _ (s.ne_cluClk t hf), State.rd]

/-- What a ticket's status says is the same of two states with equal registers. -/
theorem State.ticketStatus_congr {s u : State} (h : ∀ a, u.rdw a = s.rdw a) (tk : Word) : u.ticketStatus tk = s.ticketStatus tk := by
  have hr (f : FRef) : u.rd f = s.rd f := congrArg (fget · f.lo f.w) (h f.addr)
  unfold State.ticketStatus State.domEn State.openTake State.spoiled State.cutTake State.flag
  simp only [hr]

theorem State.acting_ticketStatus (s : State) (t : Tid) (i : Instr) (tk : Word) :
    (s.acting t i).ticketStatus tk = (s.running t).ticketStatus tk := by
  obtain ⟨-, -, h, -⟩ := (s.running t).timed_steered t (s.thr t).pc i
  exact State.ticketStatus_congr h tk

/-! CUTREQ (R100, R101, R227). -/

theorem fget_ticketOf {dom : Nat} (take : Word) (h : dom < 8) :
    fget (ticketOf dom take) 0 3 = dom ∧ fget (ticketOf dom take) 3 61 = take.toNat % 2 ^ 61 := by
  unfold ticketOf fget
  rw [BitVec.toNat_ofNat]
  omega

/-- A CUTREQ that has a credit and no store to wait for ends with the ticket of its die's view in g[d]. -/
theorem bodyCutreq_credit {s : State} {t : Tid} {d a : Rn} (hen : s.domEn (fget (s.g t a) 0 3) = true) (hc : (s.thr t).c 0x388 ≠ 0)
    (hq : (s.thr t).storeQ = []) :
    ∃ u : State, bodyCutreq t d a s = .done (u.setG t d (ticketOf (fget (s.g t a) 0 3) (s.view (dieOf t) (fget (s.g t a) 0 3)))) := by
  unfold bodyCutreq
  simp only [hen, hc, State.drain_empty s t hq, Bool.not_true, Bool.false_eq_true, if_false]
  exact ⟨_, rfl⟩

theorem State.g_ends (s : State) (t : Tid) (va : Word) (i : Instr) (r : Rn) : (s.ends t va i).g t r = s.g t r := by
  obtain ⟨y, -, h, -⟩ := s.ends_eq t va i
  rw [State.g, h]
  rfl

theorem State.issue_cutreq {s : State} {t : Tid} {d a : Rn} (hr : s.ready t (.cutreq t d a) = true)
    (hen : s.domEn (fget (s.g t a) 0 3) = true) (hc : (s.thr t).c 0x388 ≠ 0) (hq : (s.thr t).storeQ = []) (hd : d ≠ 0) :
    (s.issue t (.cutreq t d a) (bodyCutreq t d a)).g t d
      = ticketOf (fget (s.g t a) 0 3) (s.view (dieOf t) (fget (s.g t a) 0 3)) := by
  have hact := s.turned_acting t (.cutreq t d a)
  have hdom := fget_lt (s.g t a) 0 3
  have hg : (s.acting t (.cutreq t d a)).g t a = s.g t a := State.acting_g _ _ _ _
  have hen' : (s.acting t (.cutreq t d a)).domEn (fget (s.g t a) 0 3) = true := by
    rw [State.domEn, State.flag, hact.rd (by show 0xfe0000101000 + _ * 0x100 < _; omega)]
    exact hen
  obtain ⟨u, hu⟩ := bodyCutreq_credit (d := d) (hg.symm ▸ hen') (by rw [hact.c rfl]; exact hc) (hact.storeQ.trans hq)
  have hview : (s.acting t (.cutreq t d a)).view (dieOf t) (fget (s.g t a) 0 3) = s.view (dieOf t) (fget (s.g t a) 0 3) :=
    (congrArg (fun v : State => SMap.get 0 v.views (dieOf t * 8 + fget (s.g t a) 0 3)) hact.onlyThread.1 :)
  rw [State.issue_ready _ _ _ _ hr, hu, hg, hview]
  exact (State.g_ends _ _ _ _ _).trans (State.g_setG_self _ _ _ fun h => hd (Fin.ext h))

/-! The status of a ticket (R227). -/

/-- The four rules of R227, in their order, for take k of domain d. -/
theorem State.ticketStatus_ticket (s : State) {d k : Nat} (hd : d < 8) (hk : k < 2 ^ 61) :
    s.ticketStatus (BitVec.ofNat 64 (k * 8 + d)) =
      if s.domEn d = false ∨ s.openTake d % 2 ^ 61 < k then 3
      else if s.rd (F.TDn_SPOIL_FIRST d) ≠ 0 ∧ s.rd (F.TDn_SPOIL_FIRST d) % 2 ^ 61 ≤ k
          ∧ (k < s.rd (F.TDn_RESUME_TAKE d) % 2 ^ 61 ∨ s.rd (F.TDn_STAT_SPOILED d) = 1) then 1
      else if k ≤ s.cutTake d % 2 ^ 61 then 0
      else 2 := by
  have h1 : fget (BitVec.ofNat 64 (k * 8 + d)) 0 3 = d := by
    unfold fget
    rw [BitVec.toNat_ofNat]
    omega
  have h2 : fget (BitVec.ofNat 64 (k * 8 + d)) 3 61 = k := by
    unfold fget
    rw [BitVec.toNat_ofNat]
    omega
  unfold State.ticketStatus State.spoiled State.flag
  simp only [h1, h2, Bool.or_eq_true, Bool.and_eq_true, Bool.not_eq_true', decide_eq_true_eq, bne_iff_ne, beq_iff_eq, ge_iff_le, gt_iff_lt, and_assoc]

theorem State.domEn_of_rd {s : State} {d : Nat} (h : s.rd (F.TDn_CFG_EN d) = 1) : s.domEn d = true := by
  rw [State.domEn, State.flag, h]
  rfl

/-- Settles O27: the ticket is of the die's view, and its status is that of R227's first rule that holds. -/
theorem cutInstructions : Obligations.CutInstructions := by
  refine ⟨fun s t d a => ⟨fun hr hen hc hq hd => ?_, fun hr hst => ?_, fun hr => ?_⟩, fun s d k hd hk => ?_⟩
  · obtain ⟨h1, h2⟩ := fget_ticketOf (s.view (dieOf t) (fget (s.g t a) 0 3)) (fget_lt (s.g t a) 0 3)
    refine ⟨_, rfl, ?_, ?_⟩
    · rw [State.issue_cutreq hr hen hc hq hd, h1]
    · rw [State.issue_cutreq hr hen hc hq hd, h2]
  · refine State.answers_wroteG hr ?_
    rw [bodyCutwait, State.acting_g, State.acting_ticketStatus, if_neg hst]
  · exact State.answers_wroteG hr (by rw [bodyCutstat, State.acting_g, State.acting_ticketStatus])
  · dsimp only
    rw [s.ticketStatus_ticket hd hk]
    have good (hen : s.rd (F.TDn_CFG_EN d) = 1) (hle : k ≤ s.rd (F.TDn_TAKE_OPEN d) % 2 ^ 61) :
        ¬(s.domEn d = false ∨ s.openTake d % 2 ^ 61 < k) := by
      rw [State.domEn_of_rd hen]
      exact fun h => h.elim Bool.noConfusion (not_lt.mpr hle)
    refine ⟨fun h => if_pos (h.imp_left fun h0 => ?_), fun hen hle hsp => ?_, fun hen hle hsp hcut => ?_, fun hen hle hsp hcut => ?_⟩
    · rw [State.domEn, State.flag, h0]
      rfl
    · rw [if_neg (good hen hle), if_pos hsp]
    · rw [if_neg (good hen hle), if_neg hsp, State.cutTake, if_pos hcut]
    · rw [if_neg (good hen hle), if_neg hsp, State.cutTake, if_neg (not_le.mpr hcut)]

end Sys2Proof.Machine
end

section
/-!
THE SLATE AND WAIT (R98, R103, R270, R271).
-/
namespace Sys2Proof.Machine

set_option Elab.async false

/-! The slate in the state in which an instruction acts. -/

theorem State.slateRead_eq {s u : State} {t : Tid} {x : Thread} (h : s.turned u t x) :
    u.slateRead = if s.rd F.SLATE_STAT_STATE = 0 then 0 else s.slate := by
  rw [State.slateRead, State.slateState, h.rd (by decide), show u.slate = s.slate from (congrArg State.slate h.onlyThread.1 :)]

theorem State.uncRead_eq {s u : State} {t : Tid} {x : Thread} (h : s.turned u t x) :
    u.uncRead = if s.rd F.SLATE_STAT_STATE = 0 then 0xFFFFFFFFFFFFFFFF else BitVec.ofNat 64 ((s.rd F.SLATE_UNC_PS + 164) / 125 + 1) := by
  rw [State.uncRead, State.slateState, h.rd (by decide), h.rd (by decide), uncUnits, Nat.add_assoc]
  rfl

/-- The bound of SLATEWAIT is passed. -/
theorem State.slatePast_eq {s u : State} {t : Tid} {x : Thread} (h : s.turned u t x) {bound : Word} (hset : s.rd F.SLATE_STAT_STATE ≠ 0)
    (hb : bound.toNat < u.slateRead.toNat - u.uncRead.toNat) : u.slatePast bound = true := by
  rw [State.slatePast, State.slateState, h.rd (by decide), bne_iff_ne.mpr hset, Bool.true_and, State.slateSafe]
  exact decide_eq_true hb

theorem State.turned_self (s : State) (t : Tid) : s.turned s t (s.thr t) :=
  ⟨⟨rfl, fun _ _ => rfl, fun _ _ => rfl⟩, (s.thr t).cr, rfl, fun _ _ => rfl⟩

/-- A thread that runs, and writes g[d] as its instruction ends. -/
theorem State.turned.wroteG {s u : State} {t : Tid} (h : s.turned u t { s.thr t with run := .running }) (d : Rn) (v va : Word) (i : Instr) :
    s.wroteG ((u.setG t d v).ends t va i) t d v := by
  have hg := h.setG d v
  obtain ⟨h1, h2, h3, h4, h5, h6⟩ := State.became_ends hg (Thread.run_setGr _ _ _)
    (congrArg₂ (fun p q => Option.getD p (q + 4)) (Thread.slot_setGr _ _ _) (Thread.pc_setGr _ _ _)) va i
  refine ⟨h1, h2, ⟨h3.trans (Thread.beside_setGr _ _ _), fun n hn => (h6 n hn).trans (Thread.c_setGr _ _ _ _)⟩,
    fun r => (h5 r).trans (Thread.fr_setGr _ _ _ _), fun r => (h4 r).trans (Thread.gr_setGr_or _ _ _ _)⟩

/-- RDSLATEU writes two registers. -/
theorem State.issue_rdslateu {s : State} {t : Tid} {d b : Rn} (hr : s.ready t (.rdslateu t d b) = true) :
    let u := s.issue t (.rdslateu t d b) (bodyRdslateu t d b)
    let v := s.acting t (.rdslateu t d b)
    (∀ r, (u.thr t).gr r = if r = 0 then 0 else if r = b.val then v.uncRead else if r = d.val then v.slateRead else (s.thr t).gr r)
      ∧ s.retired u t := by
  have hact := s.turned_acting t (.rdslateu t d b)
  have hg := (hact.setG d (s.acting t (.rdslateu t d b)).slateRead).setG b (s.acting t (.rdslateu t d b)).uncRead
  obtain ⟨h1, -, -, h4, -⟩ := State.became_ends hg (by rw [Thread.run_setGr, Thread.run_setGr])
    (by rw [Thread.slot_setGr, Thread.slot_setGr, Thread.pc_setGr, Thread.pc_setGr]; rfl) (s.thr t).pc (.rdslateu t d b)
  dsimp only
  rw [State.issue_ready _ _ _ _ hr]
  refine ⟨fun r => (h4 r).trans ?_, h1⟩
  rw [Thread.gr_setGr_or, Thread.gr_setGr_or]
  by_cases h0 : r = 0
  · rw [h0]
    simp
  · simp only [h0, ne_eq, not_false_eq_true, and_true, if_false]
    rfl

/-- A WAIT that finds nothing pending. -/
theorem State.issue_wait_sleeps {s : State} {t : Tid} (hr : s.ready t (.wait t) = true) (hw : (s.acting t (.wait t)).wakes t = false) :
    let u := s.issue t (.wait t) (bodyWait t)
    (u.thr t).run = .waiting ∧ (u.thr t).pc = s.nextPc t ∧ s.onlyThread u t ∧ ∀ r, (u.thr t).gr r = (s.thr t).gr r := by
  have hact := s.turned_acting t (.wait t)
  have he := (hact.setThr { (s.acting t (.wait t)).thr t with run := .waiting }).ends (s.thr t).pc (.wait t)
  have hb : bodyWait t (s.acting t (.wait t))
      = .done ((s.acting t (.wait t)).setThr t { (s.acting t (.wait t)).thr t with run := .waiting }) := by
    rw [bodyWait, hw]
    rfl
  dsimp only
  rw [State.issue_ready _ _ _ _ hr, hb]
  refine ⟨he.run, he.pc.trans ?_, he.onlyThread, fun r => (he.gr r).trans (hact.gr r)⟩
  exact congrArg₂ (fun p q => Option.getD p (q + 4)) hact.slot hact.pc

/-- Settles O28: the acting state's slate is the state's own, and the rest follows R270, R271 and R98. -/
theorem slateAndWait : Obligations.SlateAndWait := by
  intro s t d a b bound
  dsimp only
  refine ⟨fun hr => ?_, fun hr _ => ?_, fun hr hset hb => ?_, fun hrun hon hset hb => ?_, fun hr hw => ?_, fun hr hw => ?_⟩
  · rw [← State.slateRead_eq (s.turned_acting t (.rdslate t d))]
    exact State.answers_wroteG hr rfl
  · rw [← State.slateRead_eq (s.turned_acting t (.rdslateu t d b)), ← State.uncRead_eq (s.turned_acting t (.rdslateu t d b))]
    exact ⟨_, rfl, State.issue_rdslateu hr⟩
  · have hact := s.turned_acting t (.slatewait t d a)
    rw [← State.slateRead_eq hact] at hb ⊢
    rw [← State.uncRead_eq hact] at hb
    refine State.answers_wroteG hr ?_
    rw [bodySlatewait, State.acting_g, if_pos (State.slatePast_eq hact hset hb)]
  · have hself := s.turned_self t
    rw [← State.slateRead_eq hself] at hb ⊢
    rw [← State.uncRead_eq hself] at hb
    refine ⟨_, ?_, ((s.turned_running t).timed (State.timed_idles _ t 0 0x042)).wroteG d s.slateRead (s.thr t).pc (.slatewait t d 0)⟩
    rw [exec_slatewaitRelease, execSlatewaitRelease]
    simp only [hrun, hon, State.slatePast_eq hself hset hb, Bool.and_self, if_true]
  · exact ⟨_, rfl, State.issue_nothing hr (by rw [bodyWait, if_pos hw])⟩
  · exact ⟨_, rfl, State.issue_wait_sleeps hr hw⟩

end Sys2Proof.Machine
end

section
/-!
I/O LOADS AND STORES OF REGISTERS (R93, R213).
-/
namespace Sys2Proof.Machine

set_option Elab.async false

/-! THR_PC, read and written by a thread (R467). -/

theorem State.thrPc_ne_cluClk (s : State) (t : Tid) (c : DieNo) : A.THR_PC c.val ≠ s.cluClk t := by
  show 0xfe1000002b00 + c.val * 0x100000000 ≠ 0xfe1000002810 + s.clusterOf t.val / 5 * 0x100000000 + s.clusterOf t.val % 5 * 0x8
  omega

theorem State.ioAt_thrPc (s : State) (c : DieNo) : s.ioAt (A.THR_PC c) = .reg := by
  obtain ⟨lo, hi, -⟩ := thrPc_range c
  exact s.ioAt_register _ (by omega) (by omega)

/-- A doubleword's field of 64 bits is the doubleword. -/
theorem fldsRead_thrPc (w : Word) : fldsRead D.THR_PC.flds w = w := rfl

/-- No unit stands behind THR_PC that could be absent. -/
theorem State.regAbsent_thrPc (s : State) (c : DieNo) : s.regAbsent D.THR_PC c.val (A.THR_PC c) = false := by
  have bank : ¬ A.THR_PC c < A.MCb_STATUS 354 := by revert c; decide
  have group : ¬ A.THR_PC c < A.GCTLg 114 := by revert c; decide
  have ring : ¬ A.THR_PC c < A.VRH_CTL 256 := by revert c; decide
  have mir : mirOnly (A.THR_PC c) = false := by revert c; decide
  unfold State.regAbsent
  simp only [bank, group, ring, mir, decide_false, Bool.and_false, Bool.false_and, Bool.false_eq_true, if_false]

theorem State.groupCounts_thrPc (s : State) (i j : Nat) : s.groupCounts D.THR_PC i j = false := by
  have other : D.THR_PC.base ≠ D.GCNTgi.base := by decide
  rw [State.groupCounts, decide_eq_false other, Bool.false_and]

/-- A register that is there, does not count and holds what it reads. -/
theorem State.regRead_stored {s : State} {a i j : Nat} {r : RegDesc} (h : regAt regTable a = some (r, i, j)) (habs : s.regAbsent r i a = false)
    (hcount : s.groupCounts r i j = false) (hnow : a ≠ A.SLATE_NOW) (hunc : a ≠ A.SLATE_UNC) (hmir : a ≠ A.MIR_STAT)
    (hmeas : r.base ≠ D.ENC_MEASk.base) : s.regRead a = (fldsRead r.flds (s.rdw a), s) := by
  unfold State.regRead
  rw [h]
  dsimp only
  rw [habs, hcount, if_neg Bool.false_ne_true, if_neg Bool.false_ne_true, if_neg hnow, if_neg hunc, if_neg hmir, if_neg hmeas]

theorem State.regRead_thrPc (s : State) (c : DieNo) : s.regRead (A.THR_PC c) = (s.rdw (A.THR_PC c), s) := by
  have now : A.THR_PC c ≠ A.SLATE_NOW := by revert c; decide
  have unc : A.THR_PC c ≠ A.SLATE_UNC := by revert c; decide
  have mir : A.THR_PC c ≠ A.MIR_STAT := by revert c; decide
  have h := State.regRead_stored (regAt_thrPc c) (s.regAbsent_thrPc c) (s.groupCounts_thrPc _ _) now unc mir (by decide)
  rw [fldsRead_thrPc] at h
  exact h

/-- All of a doubleword written. -/
theorem whole_merge (old v : Word) : (old &&& ~~~byteMask 0 8) ||| (BitVec.ofNat 64 (v.toNat * 2 ^ (8 * 0)) &&& byteMask 0 8) = v := by
  have hm : byteMask 0 8 = BitVec.allOnes 64 := by decide
  rw [hm, BitVec.not_allOnes, BitVec.and_zero, BitVec.zero_or, BitVec.and_allOnes, Nat.mul_zero, pow_zero, Nat.mul_one, BitVec.ofNat_toNat,
    BitVec.setWidth_eq]

theorem State.ioWrite_thrPc (s : State) (u : Option Nat) (c : DieNo) (v : Word) : s.ioWrite u 3 (A.THR_PC c) 8 v = s.wrw (A.THR_PC c) v := by
  obtain ⟨-, -, h0⟩ := thrPc_range c
  rw [State.ioWrite_register _ _ _ _ _ _ (s.ioAt_thrPc c), h0, show A.THR_PC c / 8 * 8 = A.THR_PC c by omega, State.regWrite_thrPc, whole_merge]

/-! IOLD (R93, R213). -/

/-- The bytes of a register that an access of n bytes at pa reads. -/
def regBytes (w : Word) (pa n : Nat) : List Byte := bytesOf n (w.toNat / 2 ^ (8 * (pa % 8)))

theorem State.issue_iold {s : State} {t : Tid} {d a : Rn} {k : Fin 16} {disp : BitVec 11} {pa ks : Nat}
    (hr : s.ready t (.iold t d a k disp) = true)
    (ha : (s.acting t (.iold t d a k disp)).addr t .iold (s.g t a + disp.signExtend 64 * BitVec.ofNat 64 (szOf k.val)) (szOf k.val) true
      = .ok pa ks)
    (hio : (s.acting t (.iold t d a k disp)).ioAt pa = .reg) :
    let v := (s.acting t (.iold t d a k disp)).regRead (pa / 8 * 8)
    s.issue t (.iold t d a k disp) (bodyIold t d a k disp)
      = ((v.2.promote (dieOf t)).loadTo t d k.val (regBytes v.1 pa (szOf k.val))).ends t (s.thr t).pc (.iold t d a k disp) := by
  have hlt (w : Word) (n : Nat) : (BitVec.ofNat 64 (w.toNat / n)).toNat = w.toNat / n := by
    rw [BitVec.toNat_ofNat, Nat.mod_eq_of_lt ((Nat.div_le_self _ _).trans_lt w.isLt)]
  rw [State.issue_ready _ _ _ _ hr]
  unfold bodyIold State.ioRead
  rw [State.acting_eaMd]
  simp only [ha, hio, hlt]
  rfl

/-- IOLD of THR_PC. -/
theorem State.issue_iold_thrPc {s : State} {t : Tid} {d a : Rn} {k : Fin 16} {disp : BitVec 11} {ks : Nat} {c : DieNo}
    (hr : s.ready t (.iold t d a k disp) = true)
    (ha : (s.acting t (.iold t d a k disp)).addr t .iold (s.g t a + disp.signExtend 64 * BitVec.ofNat 64 (szOf k.val)) (szOf k.val) true
      = .ok (A.THR_PC c) ks)
    (hk : k.val = 6) (hd : d.val ≠ 0) :
    let u := s.issue t (.iold t d a k disp) (bodyIold t d a k disp)
    s.retired u t ∧ u.g t d = s.rdw (A.THR_PC c) := by
  have hact := s.turned_acting t (.iold t d a k disp)
  obtain ⟨-, -, h0⟩ := thrPc_range c
  obtain ⟨w, hw⟩ := (s.acting t (.iold t d a k disp)).promote_eq (dieOf t)
  have hset := (hact.alike (fun v => { v with views := w }) (fun _ => rfl) (fun _ => rfl) fun _ => rfl).setG d (s.rdw (A.THR_PC c))
  obtain ⟨h1, -⟩ := State.became_ends hset (Thread.run_setGr _ _ _)
    (congrArg₂ (fun p q => Option.getD p (q + 4)) (Thread.slot_setGr _ _ _) (Thread.pc_setGr _ _ _)) (s.thr t).pc (.iold t d a k disp)
  have hval : loadVal 6 (regBytes (s.rdw (A.THR_PC c)) (A.THR_PC c) 8) = s.rdw (A.THR_PC c) := by
    rw [regBytes, h0, Nat.mul_zero, pow_zero, Nat.div_one, loadVal_signed _ rfl (by rw [length_bytesOf]), length_bytesOf, ofNat_ofBytes_word,
      BitVec.signExtend_eq]
  dsimp only
  rw [State.issue_iold hr ha (State.ioAt_thrPc _ c), show A.THR_PC c / 8 * 8 = A.THR_PC c by omega, State.regRead_thrPc,
    hact.onlyThread.2.2 _ (s.thrPc_ne_cluClk t c), hk, State.loadTo_g _ _ (by decide)]
  dsimp only
  rw [show szOf 6 = 8 from rfl, hval, hw]
  refine ⟨h1, ?_⟩
  rw [State.g_ends, State.g_setG_self _ _ _ hd]

/-! IOST (R73, R93). -/

/-- IOST once its thread's stores are visible, where the write leaves the thread running. -/
theorem State.issue_iost {s : State} {t : Tid} {d a : Rn} {k : Fin 16} {disp : BitVec 11} {pa ks : Nat}
    (hr : s.ready t (.iost t d a k disp) = true)
    (ha : (s.acting t (.iost t d a k disp)).addr t .iost (s.g t a + disp.signExtend 64 * BitVec.ofNat 64 (szOf k.val)) (szOf k.val) true
      = .ok pa ks)
    (hq : (s.thr t).storeQ = []) :
    let v := s.acting t (.iost t d a k disp)
    let z := v.ioWrite (some t.val) (v.thr t).pl pa (szOf k.val) (BitVec.ofNat 64 (ofBytes (bytesOf (szOf k.val) (s.g t d).toNat)))
    (z.thr t).run ≠ .halted → s.issue t (.iost t d a k disp) (bodyIost t d a k disp) = z.ends t (s.thr t).pc (.iost t d a k disp) := by
  intro v z hz
  have hd := v.drain_empty t ((s.turned_acting t (.iost t d a k disp)).storeQ.trans hq)
  rw [State.issue_ready _ _ _ _ hr]
  unfold bodyIost
  rw [State.acting_eaMd]
  dsimp only
  rw [ha]
  dsimp only
  rw [hd]
  dsimp only
  rw [State.acting_g, if_neg hz]
  rfl

/-- IOST of THR_PC from M. -/
theorem State.issue_iost_thrPc {s : State} {t : Tid} {d a : Rn} {k : Fin 16} {disp : BitVec 11} {ks : Nat} {c : DieNo}
    (hr : s.ready t (.iost t d a k disp) = true)
    (ha : (s.acting t (.iost t d a k disp)).addr t .iost (s.g t a + disp.signExtend 64 * BitVec.ofNat 64 (szOf k.val)) (szOf k.val) true
      = .ok (A.THR_PC c) ks)
    (hq : (s.thr t).storeQ = []) (hk : k.val = 6) (hm : fget ((s.thr t).c 0) 0 2 = 3) :
    let u := s.issue t (.iost t d a k disp) (bodyIost t d a k disp)
    s.retired u t ∧ u.rdw (A.THR_PC c) = s.g t d ∧ (∀ b, b ≠ A.THR_PC c → b ≠ s.cluClk t → u.rdw b = s.rdw b) ∧ u.mem = s.mem
      ∧ ∀ r, (u.thr t).gr r = (s.thr t).gr r := by
  have hact := s.turned_acting t (.iost t d a k disp)
  have hissue := State.issue_iost hr ha hq
  have hpl : ((s.acting t (.iost t d a k disp)).thr t).pl = 3 := (congrArg (fget · 0 2) (hact.c rfl)).trans hm
  dsimp only at hissue ⊢
  rw [hpl, hk, show szOf 6 = 8 from rfl, ofNat_ofBytes_word, State.ioWrite_thrPc] at hissue
  rw [hissue (by rw [State.thr_wrw, hact.run]; exact fun h => Run.noConfusion h)]
  obtain ⟨y, -, e2, e3, e4, -⟩ := ((s.acting t (.iost t d a k disp)).wrw (A.THR_PC c) (s.g t d)).ends_eq t (s.thr t).pc (.iost t d a k disp)
  rw [State.thr_wrw] at e2
  refine ⟨⟨?_, ?_, ?_⟩, ?_, fun b hb hclk => ?_, ?_, fun r => ?_⟩
  · rw [e2, hact.run]
  · rw [e2]
    exact congrArg₂ (fun p q => Option.getD p (q + 4)) hact.slot hact.pc
  · rw [e2]
  · rw [e4, State.rdw_wrw_same]
  · rw [e4, State.rdw_wrw_ne _ _ _ _ hb, hact.onlyThread.2.2 b hclk]
  · exact (congrArg State.mem e3).trans (s.acting_mem t _)
  · rw [e2]
    exact hact.gr r

/-- Settles O33: a register is read or written once the address is checked, and the instruction retires. -/
theorem ioAccesses : Obligations.IoAccesses := by
  intro s t d a k disp pa ks c
  refine ⟨fun hr ha hio => ?_, fun hr ha hk hd => ?_, fun hr ha hq => ?_, fun hr ha hq hk hm => ?_⟩
  · exact congrArg Host.Outcome.next (State.issue_iold hr ha hio)
  · exact ⟨_, rfl, State.issue_iold_thrPc hr ha hk hd⟩
  · exact fun hz => congrArg Host.Outcome.next (State.issue_iost hr ha hq hz)
  · exact ⟨_, rfl, State.issue_iost_thrPc hr ha hq hk hm⟩

end Sys2Proof.Machine
end

section
/-!
DIGITS, LANES AND BITS: a number with one digit replaced, the lanes of a vector register, the bits of a mask, and the least of a list by an
order (R127 to R129).
-/
namespace Sys2Proof.Machine

set_option Elab.async false

/-! Digits of numbers. -/

theorem digit_below {b i k : Nat} (hb : 0 < b) (h : i < k) (hi lo : Nat) : (hi * b ^ k + lo) / b ^ i % b = lo / b ^ i % b := by
  obtain ⟨m, rfl⟩ := Nat.exists_eq_add_of_lt h
  rw [show hi * b ^ (i + m + 1) = b ^ i * (b * (hi * b ^ m)) by ring, Nat.mul_add_div (Nat.pow_pos hb), Nat.mul_add_mod]

theorem div_above {b k lo : Nat} (hlo : lo < b ^ k) (hi j : Nat) : (hi * b ^ k + lo) / b ^ (k + j) = hi / b ^ j := by
  rw [pow_add, ← Nat.div_div_eq_div_mul, Nat.mul_comm, Nat.mul_add_div (by omega), Nat.div_eq_of_lt hlo, Nat.add_zero]

/-- A number whose digit in base b at place k is replaced by g. -/
def setDigit (b k g d : Nat) : Nat := d - d / b ^ k % b * b ^ k + g * b ^ k

/-- What lies above the digit, the new digit, and what lies below it. -/
theorem setDigit_eq (b k g d : Nat) : setDigit b k g d = (d / b ^ k / b * b + g) * b ^ k + d % b ^ k := by
  have hd : d = (d / b ^ k / b * b) * b ^ k + d / b ^ k % b * b ^ k + d % b ^ k := by
    rw [← Nat.add_mul, Nat.div_add_mod', Nat.div_add_mod']
  have hrest : d - d / b ^ k % b * b ^ k = d / b ^ k / b * b * b ^ k + d % b ^ k :=
    Nat.sub_eq_of_eq_add (hd.trans (Nat.add_right_comm _ _ _))
  rw [setDigit, hrest, Nat.add_mul]
  exact Nat.add_right_comm _ _ _

theorem setDigit_digit {b k g d : Nat} (hg : g < b) (i : Nat) : setDigit b k g d / b ^ i % b = if i = k then g else d / b ^ i % b := by
  have hb : 0 < b := by omega
  have hlo : d % b ^ k < b ^ k := Nat.mod_lt _ (Nat.pow_pos hb)
  have hd := Nat.div_add_mod' d (b ^ k)
  rw [setDigit_eq]
  rcases Nat.lt_trichotomy i k with h | rfl | h
  · rw [if_neg h.ne, digit_below hb h, ← digit_below hb h (d / b ^ k), hd]
  · have h0 := div_above hlo (d / b ^ i / b * b + g) 0
    rw [Nat.add_zero, pow_zero, Nat.div_one] at h0
    rw [if_pos rfl, h0, Nat.mul_add_mod_self_right, Nat.mod_eq_of_lt hg]
  · obtain ⟨m, rfl⟩ := Nat.exists_eq_add_of_lt h
    have hold := div_above hlo (d / b ^ k) (m + 1)
    rw [hd] at hold
    have hq (x : Nat) : x / b ^ (m + 1) = x / b / b ^ m := by rw [Nat.div_div_eq_div_mul, pow_succ']
    rw [if_neg h.ne', Nat.add_assoc, div_above hlo, hold, hq, hq, Nat.add_comm (_ * b), Nat.add_mul_div_right _ _ hb, Nat.div_eq_of_lt hg,
      Nat.zero_add]

theorem setDigit_lt {b k g d n : Nat} (hg : g < b) (hk : k < n) (hd : d < b ^ n) : setDigit b k g d < b ^ n := by
  obtain ⟨m, rfl⟩ := Nat.exists_eq_add_of_lt hk
  have hb : 0 < b ^ k := Nat.pow_pos (by omega)
  have hhi : d / b ^ k / b < b ^ m := by
    rw [Nat.div_div_eq_div_mul]
    exact Nat.div_lt_of_lt_mul (by rwa [← pow_succ, ← pow_add, show k + 1 + m = k + m + 1 by omega])
  have hmid : d / b ^ k / b * b + g < b ^ m * b := by nlinarith
  have hlo := Nat.mod_lt d hb
  rw [setDigit_eq, show b ^ (k + m + 1) = b ^ m * b * b ^ k by ring]
  nlinarith

theorem two_pow_eq_pow {w k n : Nat} (hn : n = w * k) : 2 ^ n = (2 ^ w) ^ k := hn ▸ pow_mul 2 w k

/-- A word of k digits of w bits. -/
theorem toNat_lt_pow {w k n : Nat} (d : BitVec n) (hn : n = w * k) : d.toNat < (2 ^ w) ^ k := d.isLt.trans_eq (two_pow_eq_pow hn)

theorem toNat_ofNat_fits {n x : Nat} (h : x < 2 ^ n) : (BitVec.ofNat n x).toNat = x := (BitVec.toNat_ofNat x n).trans (Nat.mod_eq_of_lt h)

/-- A word of m digits of w bits stays one when a digit is replaced. -/
theorem toNat_ofNat_setDigit {w m n k : Nat} (hn : n = w * m) (hk : k < m) (g : BitVec w) (d : BitVec n) :
    (BitVec.ofNat n (setDigit (2 ^ w) k g.toNat d.toNat)).toNat = setDigit (2 ^ w) k g.toNat d.toNat :=
  toNat_ofNat_fits ((setDigit_lt g.isLt hk (toNat_lt_pow d hn)).trans_eq (two_pow_eq_pow hn).symm)

/-! Lanes (R127). -/

theorem laneW_mul_laneN (ew : Fin 4) : laneW ew * laneN ew = 512 := by
  revert ew
  decide

theorem laneN_pos (ew : Fin 4) : 0 < laneN ew := by
  revert ew
  decide

theorem laneN_le (ew : Fin 4) : laneN ew ≤ 64 := by
  revert ew
  decide

theorem lane_lt (v : BitVec 512) (w i : Nat) : lane v w i < 2 ^ w := Nat.mod_lt _ (Nat.two_pow_pos w)

/-- The number that lanes of w bits make. -/
def lanesNat (w : Nat) (ls : List Nat) : Nat := ls.foldr (fun x r => x % 2 ^ w + r * 2 ^ w) 0

theorem lanesNat_cons (w x : Nat) (ls : List Nat) : lanesNat w (x :: ls) = x % 2 ^ w + lanesNat w ls * 2 ^ w := rfl

theorem lanesNat_lt (w : Nat) (ls : List Nat) : lanesNat w ls < 2 ^ (w * ls.length) := by
  induction ls with
  | nil => exact Nat.two_pow_pos _
  | cons x ls ih =>
    rw [lanesNat_cons, List.length_cons, Nat.mul_succ, pow_add]
    calc x % 2 ^ w + lanesNat w ls * 2 ^ w < 2 ^ w + lanesNat w ls * 2 ^ w := Nat.add_lt_add_right (Nat.mod_lt _ (Nat.two_pow_pos w)) _
      _ = (lanesNat w ls + 1) * 2 ^ w := by ring
      _ ≤ 2 ^ (w * ls.length) * 2 ^ w := Nat.mul_le_mul_right _ ih

theorem lanesNat_lt_of_le {w n : Nat} {ls : List Nat} (h : w * ls.length ≤ n) : lanesNat w ls < 2 ^ n :=
  (lanesNat_lt w ls).trans_le (Nat.pow_le_pow_right (by decide) h)

theorem lanesNat_lane (w : Nat) (ls : List Nat) (i : Nat) : lanesNat w ls / 2 ^ (w * i) % 2 ^ w = ls.getD i 0 % 2 ^ w := by
  induction ls generalizing i with
  | nil => simp [lanesNat]
  | cons x ls ih =>
    cases i with
    | zero => simp [lanesNat_cons]
    | succ i =>
      rw [lanesNat_cons, List.getD_cons_succ, ← ih i, Nat.mul_succ, Nat.add_comm (w * i), pow_add, ← Nat.div_div_eq_div_mul,
        Nat.add_mul_div_right _ _ (Nat.two_pow_pos w), Nat.div_eq_of_lt (Nat.mod_lt _ (Nat.two_pow_pos w)), Nat.zero_add]

/-- Lane i of a register made of lanes; the lanes not given are 0. -/
theorem lane_ofLanes {w : Nat} {ls : List Nat} (h : w * ls.length ≤ 512) (i : Nat) : lane (ofLanes w ls) w i = ls.getD i 0 % 2 ^ w := by
  rw [← lanesNat_lane]
  exact congrArg (· / 2 ^ (w * i) % 2 ^ w) (toNat_ofNat_fits (lanesNat_lt_of_le h))

/-- Lane k of a register made by a rule from each item of a list. -/
theorem lane_ofLanes_map {w : Nat} {l : List Nat} (h : w * l.length ≤ 512) (f : Nat → Nat) (k : Nat) :
    lane (ofLanes w (l.map f)) w k = (l[k]?.map fun i => f i % 2 ^ w).getD 0 := by
  rw [lane_ofLanes (by rwa [List.length_map]), List.getD_eq_getElem?_getD, List.getElem?_map]
  cases l[k]? with
  | none => exact Nat.zero_mod _
  | some i => rfl

/-- Lane i of a register made by a rule for each of its n lanes. -/
theorem lane_ofLanes_range {w n : Nat} (h : w * n ≤ 512) (f : Nat → Nat) {i : Nat} (hi : i < n) :
    lane (ofLanes w ((List.range n).map f)) w i = f i % 2 ^ w := by
  rw [lane_ofLanes_map (by rwa [List.length_range]), List.getElem?_range hi]
  rfl

/-- A doubleword written into a register. -/
theorem lane_lineSet_word (d : BitVec 512) (g : Word) {x : Nat} (hx : x < 8) (i : Nat) :
    lane (lineSet d (8 * x) (bytesOf 8 g.toNat)) 64 i = if i = x then g.toNat else lane d 64 i := by
  have hset : lineSet d (8 * x) (bytesOf 8 g.toNat) = BitVec.ofNat 512 (setDigit (2 ^ 64) x g.toNat d.toNat) := by
    unfold lineSet setDigit
    rw [length_bytesOf, ofBytes_bytesOf, ← pow_mul, ← Nat.mul_assoc, Nat.mod_eq_of_lt (show g.toNat < 2 ^ (8 * 8) from g.isLt)]
  unfold lane
  rw [hset, toNat_ofNat_setDigit (w := 64) (m := 8) (n := 512) rfl hx, pow_mul, setDigit_digit g.isLt]

/-! Bits of a mask. -/

theorem bitsOf_succ (n : Nat) (p : Nat → Bool) : bitsOf (n + 1) p = if p n then bitsOf n p + 2 ^ n else bitsOf n p := by
  rw [bitsOf, List.range_succ, List.foldl_append]
  rfl

theorem bitsOf_lt (n : Nat) (p : Nat → Bool) : bitsOf n p < 2 ^ n := by
  induction n with
  | zero => exact Nat.one_pos
  | succ n ih =>
    rw [bitsOf_succ, pow_succ]
    split_ifs <;> omega

theorem testBit_bitsOf (n : Nat) (p : Nat → Bool) (i : Nat) : (bitsOf n p).testBit i = (decide (i < n) && p i) := by
  induction n with
  | zero => simp [bitsOf]
  | succ n ih =>
    rcases Nat.lt_trichotomy i n with h | rfl | h
    · have hsame : (bitsOf (n + 1) p).testBit i = (bitsOf n p).testBit i := by
        rw [bitsOf_succ]
        split_ifs
        · rw [Nat.add_comm, Nat.testBit_two_pow_add_gt h]
        · rfl
      rw [hsame, ih, decide_eq_true h, decide_eq_true (Nat.lt_succ_of_lt h)]
    · rw [bitsOf_succ]
      cases hp : p i
      · simp [ih]
      · rw [if_pos rfl, Nat.add_comm, Nat.testBit_two_pow_add_eq, ih]
        simp
    · rw [Nat.testBit_lt_two_pow ((bitsOf_lt (n + 1) p).trans_le (Nat.pow_le_pow_right (by decide) h)), decide_eq_false (by omega)]
      rfl

theorem getLsbD_ofNat_bitsOf {m n : Nat} (p : Nat → Bool) {i : Nat} (hi : i < m) :
    (BitVec.ofNat m (bitsOf n p)).getLsbD i = (decide (i < n) && p i) := by
  rw [BitVec.getLsbD_ofNat, decide_eq_true hi, Bool.true_and, testBit_bitsOf]

/-! Reductions (R128). -/

theorem reduce_cons_cons (better : Nat → Nat → Bool) (z x y : Nat) (xs : List Nat) :
    reduce better z (x :: y :: xs) = reduce better z ((if better y x then y else x) :: xs) := rfl

theorem reduce_mem (better : Nat → Nat → Bool) (z x : Nat) (xs : List Nat) : reduce better z (x :: xs) ∈ x :: xs := by
  induction xs generalizing x with
  | nil => exact List.mem_singleton_self x
  | cons y xs ih =>
    have h := ih (if better y x then y else x)
    rw [reduce_cons_cons]
    rw [List.mem_cons] at h ⊢
    rw [List.mem_cons]
    split_ifs at h ⊢
    · exact .inr h
    · exact h.imp_right .inr

theorem reduce_le {better : Nat → Nat → Bool} {key : Nat → Int} (hb : ∀ a b, better a b = decide (key a < key b)) (z x : Nat)
    (xs : List Nat) : ∀ y ∈ x :: xs, key (reduce better z (x :: xs)) ≤ key y := by
  induction xs generalizing x with
  | nil => exact List.forall_mem_singleton.mpr le_rfl
  | cons y xs ih =>
    have h := ih (if better y x then y else x)
    rw [List.forall_mem_cons] at h
    obtain ⟨hhead, htail⟩ := h
    have hmin : key (if better y x then y else x) ≤ key x ∧ key (if better y x then y else x) ≤ key y := by
      have hbetter := hb y x
      split_ifs with h
      · rw [h, eq_comm, decide_eq_true_eq] at hbetter
        omega
      · rw [Bool.not_eq_true] at h
        rw [h, eq_comm, decide_eq_false_iff_not] at hbetter
        omega
    rw [reduce_cons_cons, List.forall_mem_cons, List.forall_mem_cons]
    exact ⟨hhead.trans hmin.1, hhead.trans hmin.2, htail⟩

/-- The least (mn) or greatest of a list by a key. -/
theorem reduce_extreme (mn : Bool) (key : Nat → Int) (z : Nat) {ls : List Nat} (hls : ls ≠ []) :
    let r := reduce (fun a b => if mn then decide (key a < key b) else decide (key b < key a)) z ls
    r ∈ ls ∧ ∀ y ∈ ls, if mn then key r ≤ key y else key y ≤ key r := by
  obtain ⟨x, xs, rfl⟩ := List.exists_cons_of_ne_nil hls
  refine ⟨reduce_mem _ z x xs, fun y hy => ?_⟩
  cases mn
  · have h := reduce_le (better := fun a b => decide (key b < key a)) (key := fun a => -key a)
      (fun a b => decide_eq_decide.mpr neg_lt_neg_iff.symm) z x xs y hy
    exact neg_le_neg_iff.mp h
  · exact reduce_le (key := key) (fun _ _ => rfl) z x xs y hy

end Sys2Proof.Machine
end

section
/-!
THE SIFT CONTEXT OF A THREAD (R123): its vector registers and accumulators, what writes them, and the instructions that leave their thread as
their body has made it.
-/
namespace Sys2Proof.Machine

set_option Elab.async false

/-! Reads. -/

@[simp] theorem Thread.vr_setVr_same (x : Thread) (r : Nat) (X : BitVec 512) : (x.setVr r X).vr r = X := SMap.get_put_same _ _ _ _

theorem Thread.vr_setVr_ne (x : Thread) {r q : Nat} (X : BitVec 512) (h : q ≠ r) : (x.setVr r X).vr q = x.vr q := SMap.get_put_ne _ _ _ _ _ h

@[simp] theorem Thread.vr_setGr (x : Thread) (r : Nat) (v : Word) (q : Nat) : (x.setGr r v).vr q = x.vr q := by
  unfold Thread.setGr
  split <;> rfl

@[simp] theorem State.g_setV (s : State) (t : Tid) (v : Fin 16) (X : BitVec 512) (r : Rn) : (s.setV t v X).g t r = s.g t r := by
  rw [State.g, State.setV, State.thr_setThr]
  rfl

/-- Threads that agree beside their general, floating-point and control registers have the same vector registers and accumulators. -/
theorem Thread.sift_of_beside {x y : Thread} (h : x.beside = y.beside) (r : Nat) : x.vr r = y.vr r ∧ x.ac r = y.ac r :=
  ⟨(congrArg (fun z : Thread => SMap.get 0 z.v r) h :), (congrArg (fun z : Thread => SMap.get SumAcc.zero z.acc r) h :)⟩

@[simp] theorem State.acting_vr (s : State) (t : Tid) (i : Instr) (r : Nat) : ((s.acting t i).thr t).vr r = (s.thr t).vr r :=
  (Thread.sift_of_beside (s.acting_thr_beside t i) r).1

@[simp] theorem State.acting_v (s : State) (t : Tid) (i : Instr) (r : Fin 16) : (s.acting t i).v t r = s.v t r := s.acting_vr t i r.val

@[simp] theorem State.acting_ac (s : State) (t : Tid) (i : Instr) (a : Fin 4) : (s.acting t i).ac t a = s.ac t a :=
  (Thread.sift_of_beside (s.acting_thr_beside t i) a.val).2

/-! Writes. -/

/-- A thread with an accumulator written. -/
def Thread.setAcc (x : Thread) (a : Nat) (v : SumAcc) : Thread := { x with acc := SMap.put x.acc a v }

/-- A vector register is written. -/
theorem State.turned.setV {s u : State} {t : Tid} {x : Thread} (h : s.turned u t x) (r : Fin 16) (X : BitVec 512) :
    s.turned (u.setV t r X) t (x.setVr r.val X) := by
  obtain ⟨h1, y, h4, h5⟩ := h
  refine ⟨((show s.turned u t x from ⟨h1, y, h4, h5⟩).setThr _).1, y, ?_, h5⟩
  rw [State.setV, State.thr_setThr, h4]
  rfl

/-- An accumulator is written. -/
theorem State.turned.setAc {s u : State} {t : Tid} {x : Thread} (h : s.turned u t x) (a : Fin 4) (v : SumAcc) :
    s.turned (u.setAc t a v) t (x.setAcc a.val v) := by
  obtain ⟨h1, y, h4, h5⟩ := h
  refine ⟨((show s.turned u t x from ⟨h1, y, h4, h5⟩).setThr _).1, y, ?_, h5⟩
  rw [State.setAc, State.thr_setThr, h4]
  rfl

/-- A vector and then a general register are written. -/
theorem State.turned.setV_setG {s u : State} {t : Tid} {x : Thread} (h : s.turned u t { x with run := .running }) (v : Fin 16) (X : BitVec 512)
    (r : Rn) (G : Word) : s.turned ((u.setV t v X).setG t r G) t { (x.setVr v.val X).setGr r.val G with run := .running } := by
  rw [← Thread.setGr_run]
  exact (h.setV v X).setG r G

/-! Instructions that leave their thread as the body has made it. -/

/-- An instruction whose body has made its thread x, but for its counters, in a state that differs from w in nothing else. -/
theorem State.issue_became_of {s w u : State} {t : Tid} {i : Instr} {body : State → Out} {x : Thread} (hr : s.ready t i = true)
    (hb : body (s.acting t i) = .done u) (hu : w.turned u t { x with run := .running }) (hnext : x.slot.getD (x.pc + 4) = w.nextPc t) :
    w.became (s.issue t i body) t x := by
  obtain ⟨h1, h2, h3, h4, h5, h6⟩ := State.became_ends hu rfl hnext (s.thr t).pc i
  rw [State.issue_ready _ _ _ _ hr, hb]
  exact ⟨h1, h2, h3, h4, h5, h6⟩

/-- An instruction whose body writes to V[v] the value given. -/
theorem State.answers_becameV {s : State} {t : Tid} {i : Instr} {body : State → Out} {v : Fin 16} {X : BitVec 512} (hr : s.ready t i = true)
    (hb : body (s.acting t i) = .done ((s.acting t i).setV t v X)) :
    answers (.next (s.issue t i body)) fun u => s.became u t ((s.thr t).setVr v.val X) :=
  ⟨_, rfl, State.issue_became_of hr hb ((s.turned_acting t i).setV v X) rfl⟩

/-- An instruction whose body writes to an accumulator the value given. -/
theorem State.answers_becameAc {s : State} {t : Tid} {i : Instr} {body : State → Out} {a : Fin 4} {v : SumAcc} (hr : s.ready t i = true)
    (hb : body (s.acting t i) = .done ((s.acting t i).setAc t a v)) :
    answers (.next (s.issue t i body)) fun u => s.became u t ((s.thr t).setAcc a.val v) :=
  ⟨_, rfl, State.issue_became_of hr hb ((s.turned_acting t i).setAc a v) rfl⟩

end Sys2Proof.Machine
end

section
/-!
THE SIFT UNIT'S DATA OPERATIONS (R123, R127 to R129): each operation's lanes, and the reductions.
-/
namespace Sys2Proof.Machine

set_option Elab.async false

/-- The operands of a ready instruction make no reserved encoding (R75). -/
theorem State.reservedEnc_of_ready {s : State} {t : Tid} {i : Instr} (hr : s.ready t i = true) : reservedEnc i = false := by
  obtain ⟨_, _, _, _, _, _, _, hcode⟩ := (s.ready_iff t i).mp hr
  have hill : (s.running t).illegal t i = false := by
    by_contra h
    unfold State.decodeCode at hcode
    rw [if_pos (Bool.eq_true_of_not_eq_false h)] at hcode
    exact absurd hcode (by decide)
  exact (Bool.or_eq_false_iff.mp hill).1

/-! Reductions (R128). -/

theorem State.acting_lanesOf (s : State) (t : Tid) (i : Instr) (h : Rn) : (s.acting t i).lanesOf t h = s.lanesOf t h := by
  funext k
  rw [State.lanesOf, State.lanesOf, State.acting_g]

/-- The selected lanes of a register (R127). -/
def State.selected (s : State) (t : Tid) (v : Fin 16) (h : Rn) (ew : Fin 4) : List Nat :=
  ((List.range (laneN ew)).filter (s.lanesOf t h)).map (lane (s.v t v) (laneW ew))

theorem State.redLanes_eq (s : State) (t : Tid) (v : Fin 16) (h : Rn) (ew : Fin 4) (fp : Bool) :
    s.redLanes t v h ew fp = (s.selected t v h ew).filter fun x => !(fp && ((laneFmt ew).unpack x).isNan) := rfl

theorem State.redLanes_integer (s : State) (t : Tid) (v : Fin 16) (h : Rn) (ew : Fin 4) : s.redLanes t v h ew false = s.selected t v h ew :=
  List.filter_eq_self.mpr fun _ _ => rfl

theorem State.acting_redVal (s : State) (t : Tid) (i : Instr) (v : Fin 16) (h : Rn) (ew : Fin 4) (x : Nat) (mn : Bool) :
    (s.acting t i).redVal t v h ew x mn = s.redVal t v h ew x mn := by
  unfold State.redVal State.redLanes
  rw [State.acting_lanesOf, State.acting_v]

theorem State.redVal_signed (s : State) (t : Tid) (v : Fin 16) (h : Rn) (ew : Fin 4) (mn : Bool) : s.redVal t v h ew 0 mn
    = reduce (fun a b => if mn then decide (laneS (laneW ew) a < laneS (laneW ew) b) else decide (laneS (laneW ew) b < laneS (laneW ew) a))
      (if mn then 2 ^ (laneW ew - 1) - 1 else 2 ^ (laneW ew - 1)) (s.selected t v h ew) := by
  rw [← State.redLanes_integer]
  rfl

theorem State.redVal_unsigned (s : State) (t : Tid) (v : Fin 16) (h : Rn) (ew : Fin 4) (mn : Bool) : s.redVal t v h ew 1 mn
    = reduce (fun a b => if mn then decide ((a : Int) < b) else decide ((b : Int) < a)) (if mn then 2 ^ laneW ew - 1 else 0)
      (s.selected t v h ew) := by
  rw [← State.redLanes_integer]
  simp only [Nat.cast_lt]
  rfl

theorem laneS_greatest (w : Nat) : laneS w (2 ^ (w - 1) - 1) = 2 ^ (w - 1) - 1 := by
  have h := Nat.two_pow_pos (w - 1)
  rw [laneS, if_neg (by omega), Nat.cast_sub h]
  norm_num

theorem laneS_least {w : Nat} (h : 0 < w) : laneS w (2 ^ (w - 1)) = -2 ^ (w - 1) := by
  have hw : (2 : Int) ^ w = 2 ^ (w - 1) + 2 ^ (w - 1) := by
    rw [← two_mul, ← pow_succ', Nat.sub_add_cancel h]
  rw [laneS, if_pos le_rfl, hw]
  push_cast
  ring

theorem laneW_pos (ew : Fin 4) : 0 < laneW ew := by
  unfold laneW
  positivity

theorem State.laneS_redVal (s : State) (t : Tid) (v : Fin 16) (h : Rn) (ew : Fin 4) (mn : Bool) :
    let w := laneW ew
    let ls := s.selected t v h ew
    let m := laneS w (s.redVal t v h ew 0 mn)
    (ls = [] → m = if mn then 2 ^ (w - 1) - 1 else -2 ^ (w - 1))
      ∧ (ls ≠ [] → (∃ y ∈ ls, m = laneS w y) ∧ ∀ y ∈ ls, if mn then m ≤ laneS w y else laneS w y ≤ m) := by
  dsimp only
  rw [State.redVal_signed]
  refine ⟨fun hnil => ?_, fun hne => ?_⟩
  · rw [hnil, reduce]
    cases mn
    · exact laneS_least (laneW_pos ew)
    · exact laneS_greatest _
  · obtain ⟨hmem, hext⟩ := reduce_extreme mn (laneS (laneW ew)) (if mn then 2 ^ (laneW ew - 1) - 1 else 2 ^ (laneW ew - 1)) hne
    exact ⟨⟨_, hmem, rfl⟩, hext⟩

theorem State.redVal_unsigned_extreme (s : State) (t : Tid) (v : Fin 16) (h : Rn) (ew : Fin 4) (mn : Bool) :
    let ls := s.selected t v h ew
    let m := s.redVal t v h ew 1 mn
    (ls = [] → m = if mn then 2 ^ laneW ew - 1 else 0) ∧ (ls ≠ [] → m ∈ ls ∧ ∀ y ∈ ls, if mn then m ≤ y else y ≤ m) := by
  dsimp only
  rw [State.redVal_unsigned]
  refine ⟨fun hnil => by rw [hnil, reduce], fun hne => ?_⟩
  obtain ⟨hmem, hext⟩ := reduce_extreme mn Nat.cast (if mn then 2 ^ laneW ew - 1 else 0) hne
  exact ⟨hmem, fun y hy => by simpa only [Nat.cast_le] using hext y hy⟩

/-- In floating point the result is a lane that is no NaN, or the value that no lane gives (X[1]: log 69). -/
theorem State.redVal_float (s : State) (t : Tid) (v : Fin 16) (h : Rn) (ew : Fin 4) {x : Nat} (hx : 2 ≤ x) (mn : Bool) :
    let m := s.redVal t v h ew x mn
    m ∈ s.selected t v h ew ∧ ((laneFmt ew).unpack m).isNan = false ∨ m = (laneFmt ew).infBits (!mn) := by
  obtain ⟨better, hval⟩ : ∃ better, s.redVal t v h ew x mn = reduce better ((laneFmt ew).infBits (!mn)) (s.redLanes t v h ew true) := by
    rw [State.redVal]
    dsimp only
    rw [decide_eq_true hx, if_pos hx]
    exact ⟨_, rfl⟩
  dsimp only
  rw [hval, State.redLanes_eq]
  cases hl : (s.selected t v h ew).filter fun x => !(true && ((laneFmt ew).unpack x).isNan) with
  | nil => exact .inr rfl
  | cons y ys =>
    have hmem := reduce_mem better ((laneFmt ew).infBits (!mn)) y ys
    rw [← hl, List.mem_filter, Bool.true_and, Bool.not_eq_true'] at hmem
    rw [← hl]
    exact .inl hmem

/-- The instruction of a reduction: REDMIN (mn) or REDMAX. -/
def redInstr (mn : Bool) (t : Tid) (v : Fin 16) (g h : Rn) (ew : Fin 4) (x : Fin 16) : Instr :=
  if mn then .redmin t v g h ew x else .redmax t v g h ew x

/-- A reduction ends with its result written. -/
theorem exec_redInstr {s : State} {t : Tid} {v : Fin 16} {g h : Rn} {ew : Fin 4} {x : Fin 16} {mn : Bool}
    (hr : s.ready t (redInstr mn t v g h ew x) = true) : ∃ body, exec (redInstr mn t v g h ew x) s = .next (s.issue t (redInstr mn t v g h ew x) body)
      ∧ body (s.acting t (redInstr mn t v g h ew x))
        = .done ((s.acting t (redInstr mn t v g h ew x)).redTo t g ew x.val (s.redVal t v h ew x.val mn)) := by
  cases mn
  · exact ⟨_, rfl, by rw [← State.acting_redVal]; rfl⟩
  · exact ⟨_, rfl, by rw [← State.acting_redVal]; rfl⟩

/-- Settles O29: each operation's register is made lane by lane, and a reduction is the extreme of the lanes that count. That a reduction
with both bits of X set is one in floating point is the model's choice (log 69). -/
theorem vectorOperations : Obligations.VectorOperations := by
  refine ⟨fun s t v h h2 g ew x pc => ?_, fun s t v g h ew x mn => ?_⟩
  · have hn := laneW_mul_laneN ew
    dsimp only
    refine ⟨?_, fun hr => ?_, fun hr => ?_, fun hr => ?_, fun hr => ?_⟩
    · simp only [List.forall_mem_cons, List.not_mem_nil, false_imp_iff, implies_true, and_true]
      refine ⟨fun hr => ?_, fun hr => ?_, fun hr => ?_, fun hr => ?_, fun hr => ?_, fun hr => ?_⟩
      · refine ⟨_, fun i hi => ?_, State.answers_becameV hr (by rw [bodyVbcast, State.acting_g])⟩
        rw [lane_ofLanes (by rw [List.length_replicate, hn]), List.getD_eq_getElem _ _ (by rwa [List.length_replicate]), List.getElem_replicate]
      · exact ⟨_, fun i _ => lane_lineSet_word _ _ x.isLt i, State.answers_becameV hr (by rw [bodyVins, State.acting_g, State.acting_v])⟩
      · exact ⟨_, fun _ _ => rfl, State.answers_becameV hr (by rw [bodyVmov, State.acting_v])⟩
      · refine ⟨_, fun k hk => ?_, State.answers_becameV hr (by rw [bodyCompress, State.acting_g, State.acting_v])⟩
        have hlen : laneW ew * ((List.range (laneN ew)).filter fun i => (s.g t g).getLsbD i).length ≤ 512 :=
          hn ▸ Nat.mul_le_mul_left _ ((List.length_filter_le _ _).trans_eq List.length_range)
        rw [lane_ofLanes_map hlen]
        cases ((List.range (laneN ew)).filter fun i => (s.g t g).getLsbD i)[k]? with
        | none => rfl
        | some i => exact Nat.mod_eq_of_lt (lane_lt _ _ _)
      · refine ⟨_, fun i hi => ?_, State.answers_becameV hr (by rw [bodyUnpack, State.acting_v])⟩
        have henc : (decide (ew.val < 2) || decide (laneW ew < g.val + 1)) = false := State.reservedEnc_of_ready hr
        have hw : g.val + 1 ≤ laneW ew := Nat.le_of_not_lt (of_decide_eq_false (Bool.or_eq_false_iff.mp henc).2)
        rw [lane_ofLanes_range hn.le _ hi, Nat.mod_eq_of_lt ((lane_lt _ _ _).trans_le (Nat.pow_le_pow_right (by decide) hw)), lane,
          Nat.mul_comm]
      · refine ⟨_, fun i hi => ?_, State.answers_becameV hr (by rw [bodyVhash, State.acting_v, State.acting_g])⟩
        rw [lane_ofLanes_range (by decide) _ hi]
        exact Nat.mod_eq_of_lt (BitVec.isLt _)
    · exact State.answers_wroteG hr (by rw [bodyVext, State.acting_v])
    · refine ⟨_, fun i hi => ?_, State.answers_wroteG hr (by rw [bodyPscan, State.acting_v, State.acting_v, State.acting_vr])⟩
      exact getLsbD_ofNat_bitsOf _ hi
    · exact State.answers_wroteG hr (by rw [bodyVcrc, State.acting_v, State.acting_g])
    · exact State.answers_wroteG hr (by rw [bodyVcnt, State.acting_v]; rfl)
  · dsimp only
    intro hr
    obtain ⟨body, hexec, hb⟩ := exec_redInstr (mn := mn) hr
    refine ⟨fun hx => ?_, fun hx => ?_, fun hx => ?_⟩
    · rw [hx] at hb
      exact ⟨_, hexec ▸ State.answers_wroteG hr hb, s.laneS_redVal t v h ew mn⟩
    · rw [hx] at hb
      exact ⟨_, hexec ▸ State.answers_wroteG hr hb, s.redVal_unsigned_extreme t v h ew mn⟩
    · rw [State.redTo, if_pos hx] at hb
      exact ⟨_, hexec ▸ State.answers_wroteF hr hb, s.redVal_float t v h ew hx mn⟩

end Sys2Proof.Machine
end

section
/-!
STREAM OPERATIONS (R125, R130) from the thread's own local store.
-/
namespace Sys2Proof.Machine

set_option Elab.async false

/-! Parts of what stands in the own local store (R187). -/

theorem State.lsOf_add {s : State} {pa d o k : Nat} (h : s.lsOf pa = some (d, o)) (hk : o + k < lsSize) : s.lsOf (pa + k) = some (d, o + k) := by
  unfold State.lsOf lsSize at *
  split_ifs at h with hin
  rw [Option.some_inj, Prod.mk_inj] at h
  simp only [Bool.and_eq_true, decide_eq_true_eq] at hin
  rw [if_pos (by simp only [Bool.and_eq_true, decide_eq_true_eq]; omega), Option.some_inj, Prod.mk_inj]
  omega

theorem State.ownBytes_take {s : State} {t : Tid} {pa : Nat} {bs : List Byte} (h : s.ownBytes t pa bs) (k : Nat) :
    s.ownBytes t pa (bs.take k) := by
  obtain ⟨o, hls, hlen, hb⟩ := h
  have hk := List.length_take_le' k bs
  refine ⟨o, hls, by omega, fun i hi => ?_⟩
  rw [List.getElem?_take_of_lt (by rw [List.length_take] at hi; omega)]
  exact hb i (by omega)

theorem State.ownBytes_drop {s : State} {t : Tid} {pa k : Nat} {bs : List Byte} (h : s.ownBytes t pa bs) (hk : k < bs.length) :
    s.ownBytes t (pa + k) (bs.drop k) := by
  obtain ⟨o, hls, hlen, hb⟩ := h
  refine ⟨o + k, State.lsOf_add hls (by omega), by rw [List.length_drop]; omega, fun i hi => ?_⟩
  rw [List.length_drop] at hi
  rw [List.getElem?_drop, show lsSize * dieOf t + (o + k) + i = lsSize * dieOf t + o + (k + i) by omega]
  exact hb (k + i) (by omega)

/-! The read of a range (R125). -/

theorem State.readSift_own {s : State} {t : Tid} {pa : Nat} {bs : List Byte} (ks : Nat) (h : s.ownBytes t pa bs) :
    s.readSift t pa bs.length ks = .ok bs false s := by
  have hc : s.cached pa = false := by
    obtain ⟨o, hls, -⟩ := h
    rw [State.cached, hls]
    rfl
  unfold State.readSift State.gotIn
  rw [hc, if_neg Bool.false_ne_true, State.readIn_own ks h]

theorem State.streamRead_none (s : State) (t : Tid) (ks fuel pa : Nat) (va : Word) : s.streamRead t ks fuel pa va 0 = .ok [] s := by
  cases fuel <;> rfl

/-- A range that lies in as many lines as may be read is read as it stands. -/
theorem State.streamRead_own {s : State} {t : Tid} (ks fuel : Nat) {pa : Nat} (va : Word) {bs : List Byte} (h : s.ownBytes t pa bs)
    (hf : pa % 64 + bs.length ≤ 64 * fuel) : s.streamRead t ks fuel pa va bs.length = .ok bs s := by
  induction fuel generalizing pa va bs with
  | zero =>
    rw [List.length_eq_zero_iff.mp (show bs.length = 0 by omega)]
    rfl
  | succ fuel ih =>
    rcases Nat.eq_zero_or_pos bs.length with h0 | hpos
    · rw [List.length_eq_zero_iff.mp h0]
      exact s.streamRead_none t ks _ pa va
    · have hlen : (bs.take (64 - pa % 64)).length = Nat.min bs.length (64 - pa % 64) := by rw [List.length_take, Nat.min_comm]
      have hpiece := State.readSift_own ks (State.ownBytes_take h (64 - pa % 64))
      have hrest : s.streamRead t ks fuel (pa + Nat.min bs.length (64 - pa % 64)) (va + BitVec.ofNat 64 (Nat.min bs.length (64 - pa % 64)))
          (bs.length - Nat.min bs.length (64 - pa % 64)) = .ok (bs.drop (64 - pa % 64)) s := by
        rcases Nat.lt_or_ge (64 - pa % 64) bs.length with hlt | hge
        · rw [show Nat.min bs.length (64 - pa % 64) = 64 - pa % 64 from Nat.min_eq_right hlt.le, ← List.length_drop]
          exact ih _ (State.ownBytes_drop h hlt) (by rw [List.length_drop]; omega)
        · rw [show Nat.min bs.length (64 - pa % 64) = bs.length from Nat.min_eq_left hge, Nat.sub_self, List.drop_eq_nil_of_le hge]
          exact s.streamRead_none t ks _ _ _
      rw [hlen] at hpiece
      unfold State.streamRead
      simp only [if_neg hpos.ne', hpiece, hrest, Bool.false_eq_true, if_false, List.take_append_drop]

/-- A stream range that passes its checks, whose bytes stand in the thread's own local store with no store to them waiting. -/
def State.streams (s : State) (t : Tid) (i : Instr) (va : Word) (len align pa ks : Nat) (bs : List Byte) : Prop :=
  s.ready t i = true ∧ canonical va = true ∧ va.toNat % align = 0 ∧ va.toNat % 4096 + len ≤ 4096
    ∧ (s.acting t i).xlate t .load va = .ok pa ks ∧ bs.length = len ∧ s.ownBytes t pa bs ∧ s.noStore t pa len

theorem State.streams.ready {s : State} {t : Tid} {i : Instr} {va : Word} {len align pa ks : Nat} {bs : List Byte}
    (h : s.streams t i va len align pa ks bs) : s.ready t i = true := h.1

/-- A stream operation goes on with the bytes of its range. -/
theorem State.streams.streamThen {s : State} {t : Tid} {i : Instr} {va : Word} {len align pa ks : Nat} {bs : List Byte}
    (h : s.streams t i va len align pa ks bs) (k : List Byte → State → State) :
    (s.acting t i).streamThen t va len align k = .done (k bs (s.acting t i)) := by
  obtain ⟨-, hcanon, halign, hpage, hx, hlen, hown, hno⟩ := h
  have hq : ((s.acting t i).thr t).storeQ.any (fun p => p.meets pa len) = false := by
    rw [(s.turned_acting t i).storeQ, List.any_eq_false]
    exact fun p hp => by rw [hno p hp]; exact Bool.false_ne_true
  have hread := State.streamRead_own ks 65 va (State.ownBytes_acting i hown) (by omega)
  rw [hlen] at hread
  have hchecks : (va.toNat % align != 0 || decide (4096 < va.toNat % 4096 + len)) = false := by
    rw [halign, decide_eq_false (by omega)]
    rfl
  unfold State.streamThen State.stream
  simp only [hcanon, hchecks, hx, hq, hread, Bool.not_true, Bool.false_eq_true, if_false]

/-- A stream operation that has made its thread x. -/
theorem State.streams.became {s : State} {t : Tid} {i : Instr} {va : Word} {len align pa ks : Nat} {bs : List Byte} {body : State → Out}
    {k : List Byte → State → State} {x : Thread} (h : s.streams t i va len align pa ks bs)
    (hb : body (s.acting t i) = (s.acting t i).streamThen t va len align k)
    (hu : s.turned (k bs (s.acting t i)) t { x with run := .running }) (hnext : x.slot.getD (x.pc + 4) = s.nextPc t) :
    s.became (s.issue t i body) t x :=
  State.issue_became_of h.ready (hb.trans (h.streamThen k)) hu hnext

/-! Elements of a block. -/

/-- An element that lies in its block. -/
theorem elemAt_inside (ew : Fin 4) {m o : Nat} (h : o + 2 ^ ew.val ≤ 4096) : elemAt m o (2 ^ ew.val) = some (m / 2 ^ (8 * o) % 2 ^ laneW ew) :=
  if_pos h

theorem elemAt_getD_zero (ew : Fin 4) (m o : Nat) : (elemAt m o (2 ^ ew.val)).getD 0 % 2 ^ laneW ew
    = if o + 2 ^ ew.val ≤ 4096 then m / 2 ^ (8 * o) % 2 ^ laneW ew else 0 := by
  unfold elemAt
  split_ifs
  · exact Nat.mod_mod _ _
  · exact Nat.zero_mod _

theorem elemAt_isNone (m o n : Nat) : (elemAt m o n).isNone = decide (4096 < o + n) := by
  unfold elemAt
  split_ifs with h
  · exact (decide_eq_false (by omega)).symm
  · exact (decide_eq_true (by omega)).symm

/-! SGATHER (R130). -/

/-- The bitmap positions that a gather has left: those set from g[H] on. -/
def State.gatherLeft (s : State) (t : Tid) (h : Rn) (x : Fin 16) : List Nat :=
  (List.range 512).filter fun i => decide ((s.g t h).toNat ≤ i) && (s.v t x).getLsbD i

/-- The next position after a gather that takes n at most. -/
theorem gather_next (left : List Nat) {n : Nat} (hn : 0 < n) :
    BitVec.ofNat 64 (if left.length ≤ (left.take n).length then 512 else (left.take n).getLast?.getD 511 + 1)
      = if left.length ≤ n then 512 else BitVec.ofNat 64 (left.getD (n - 1) 0 + 1) := by
  rcases Nat.lt_or_ge n left.length with hlt | hge
  · have hlast : (left.take n).getLast? = some left[n - 1] := by
      rw [List.getLast?_take, if_neg hn.ne', List.getElem?_eq_getElem (by omega)]
      rfl
    rw [if_neg (by rw [List.length_take]; omega), if_neg (by omega), hlast, List.getD_eq_getElem _ _ (by omega)]
    rfl
  · rw [List.take_of_length_le hge, if_pos le_rfl, if_pos hge]
    rfl

/-- The elements that a gather takes, one a lane, and 0 in the lanes that are left. -/
theorem gather_lane (left : List Nat) (ew : Fin 4) (m base free : Nat) {k : Nat} (hk : k < laneN ew) :
    lane (ofLanes (laneW ew) ((left.take (laneN ew)).map fun i => (elemAt m (base + i * 2 ^ ew.val) (2 ^ ew.val)).getD free)) (laneW ew) k
      = (left[k]?.map fun i => (elemAt m (base + i * 2 ^ ew.val) (2 ^ ew.val)).getD free % 2 ^ laneW ew).getD 0 := by
  rw [lane_ofLanes_map (laneW_mul_laneN ew ▸ Nat.mul_le_mul_left _ (List.length_take_le _ _)), List.getElem?_take_of_lt hk]

/-- A state whose counter of free values has moved on or not. -/
def State.ticked (s : State) (b : Bool) : State := if b then s.tick else s

theorem State.turned.ticked {s u : State} {t : Tid} {x : Thread} (h : s.turned u t x) (b : Bool) : (s.ticked b).turned (u.ticked b) t x := by
  refine h.alike (fun v => v.ticked b) (fun v => ?_) (fun v => ?_) fun v => ?_ <;> cases b <;> rfl

theorem State.nextPc_ticked (s : State) (b : Bool) (t : Tid) : (s.ticked b).nextPc t = s.nextPc t := by cases b <;> rfl

/-- A gather whose block has been read leaves its thread with the register of its elements and the next position. -/
theorem State.issue_sgather {s : State} {t : Tid} {v : Fin 16} {g h : Rn} {ew : Fin 4} {x : Fin 16} {pa ks : Nat} {bs : List Byte}
    (hs : s.streams t (.sgather t v g h ew x) (block4k (s.g t g)) 4096 1 pa ks bs) :
    let left := s.gatherLeft t h x
    ∃ b free, (s.ticked b).became (s.issue t (.sgather t v g h ew x) (bodySgather t v g h ew x)) t
      (((s.thr t).setVr v.val (ofLanes (laneW ew) ((left.take (laneN ew)).map fun i =>
          (elemAt (ofBytes bs) ((s.g t g).toNat % 4096 + i * 2 ^ ew.val) (2 ^ ew.val)).getD free))).setGr h.val
        (BitVec.ofNat 64 (if left.length ≤ (left.take (laneN ew)).length then 512 else (left.take (laneN ew)).getLast?.getD 511 + 1))) := by
  refine ⟨((s.gatherLeft t h x).take (laneN ew)).any fun i =>
    (elemAt (ofBytes bs) ((s.g t g).toNat % 4096 + i * 2 ^ ew.val) (2 ^ ew.val)).isNone,
    (Config.freeWord (s.acting t (.sgather t v g h ew x)).freeCtr).toNat, ?_⟩
  refine State.issue_became_of hs.ready ?_ (((s.turned_acting t (.sgather t v g h ew x)).ticked _).setV_setG v _ h _) ?_
  · rw [bodySgather, State.acting_g, State.acting_g, State.acting_v]
    exact hs.streamThen _
  · rw [State.nextPc_ticked, Thread.slot_setGr, Thread.pc_setGr]
    rfl

/-- Settles O30: the range is read as it stands, and each operation writes what it makes of it. That an element which lies outside the block
of an SGATHER gives a free lane is the model's choice (log 36). -/
theorem streamOperations : Obligations.StreamOperations := by
  intro s t v g h ew x post acc pa ks bs
  dsimp only
  refine ⟨fun hs => ?_, fun hs => ?_, fun hs => ?_, fun hs => ?_, fun hs => ?_⟩
  · refine ⟨_, rfl, State.streams.became hs (by rw [bodySload, State.acting_g]) ?_ ?_⟩
    · cases post
      · exact (s.turned_acting t _).setV v _
      · dsimp only
        rw [State.g_setV, State.acting_g]
        exact (s.turned_acting t _).setV_setG v _ g _
    · cases post
      · rfl
      · simp only [if_true, Thread.slot_setGr, Thread.pc_setGr]
        rfl
  · refine ⟨_, fun i hi => ?_, _, rfl, State.streams.became hs (by rw [bodySscan, State.acting_g, State.acting_g, State.acting_thr_gr])
      ((s.turned_acting t _).setV v _) rfl⟩
    rw [getLsbD_ofNat_bitsOf _ hi, decide_eq_true hi, Bool.true_and]
  · generalize hleft : (List.range 512).filter (fun i => decide ((s.g t h).toNat ≤ i) && (s.v t x).getLsbD i) = left
    obtain ⟨b, free, ⟨hrun, hpc, hslot⟩, -, hbeside, hgr, -⟩ := State.issue_sgather hs
    rw [show s.gatherLeft t h x = left from hleft] at hbeside hgr
    rw [gather_next _ (laneN_pos ew)] at hgr
    refine ⟨_, rfl, ⟨hrun, hpc.trans (s.nextPc_ticked b t), hslot⟩, fun k hk => ?_, fun r hr => ?_, fun r => ?_⟩
    · have hlane := gather_lane left ew (ofBytes bs) ((s.g t g).toNat % 4096) free hk
      have hv := (Thread.sift_of_beside hbeside v.val).1.trans ((Thread.vr_setGr _ _ _ _).trans (Thread.vr_setVr_same _ _ _))
      rw [← hv] at hlane
      cases hi : left[k]? with
      | some i =>
        intro hin
        rw [hi, Option.map_some, elemAt_inside ew hin, Option.getD_some, Option.getD_some, Nat.mod_mod] at hlane
        exact hlane
      | none =>
        rw [hi] at hlane
        exact hlane
    · rw [State.v, (Thread.sift_of_beside hbeside r.val).1, Thread.vr_setGr, Thread.vr_setVr_ne _ _ (Fin.val_ne_of_ne hr)]
      rfl
    · rw [hgr, Thread.gr_setGr_or]
      rfl
  · refine ⟨_, _, fun i hi => ?_, _, rfl, State.streams.became hs (by rw [bodySdict, State.acting_g, State.acting_v])
      ((s.turned_acting t _).setV_setG v _ h _) ?_⟩
    · rw [lane_ofLanes_range (laneW_mul_laneN ew).le _ hi,
        getLsbD_ofNat_bitsOf _ (hi.trans_le (laneN_le ew)), decide_eq_true hi, Bool.true_and]
      exact ⟨elemAt_getD_zero _ _ _, elemAt_isNone _ _ _⟩
    · rw [Thread.slot_setGr, Thread.pc_setGr]
      rfl
  · refine ⟨_, rfl, State.streams.became hs (by rw [bodySaccadd, State.acting_g]) ?_ rfl⟩
    dsimp only
    rw [State.acting_ac]
    exact (s.turned_acting t _).setAc acc _

end Sys2Proof.Machine
end

section
/-!
EXACT ACCUMULATORS (R131 to R134).
-/
namespace Sys2Proof.Machine

set_option Elab.async false

theorem foldl_add_ofInt {n : Nat} {α : Type} (f : α → Int) (l : List α) (a : BitVec n) :
    l.foldl (fun r i => r + BitVec.ofInt n (f i)) a = a + BitVec.ofInt n (l.map f).sum := by
  induction l generalizing a with
  | nil => simp
  | cons i l ih => rw [List.foldl_cons, ih, List.map_cons, List.sum_cons, BitVec.ofInt_add, BitVec.add_assoc]

/-- What a value adds to FX, in units of 2^-2148; an infinity or a NaN nothing. -/
def Fv.scaled : Fv → Int
  | .fin neg m e => sgn neg m * 2 ^ (e + 2148).toNat
  | _ => 0

/-- Whether a value is plus infinity. -/
def Fv.isPinf : Fv → Bool
  | .inf neg => !neg
  | _ => false

/-- Whether a value is minus infinity. -/
def Fv.isNinf : Fv → Bool
  | .inf neg => neg
  | _ => false

theorem SumAcc.addFv_eq (a : SumAcc) (f : Fv) : a.addFv f = { a with
    fx := a.fx + BitVec.ofInt 4224 f.scaled, nan := a.nan || f.isNan, pinf := a.pinf || f.isPinf, ninf := a.ninf || f.isNinf } := by
  cases f with
  | nan => simp [SumAcc.addFv, Fv.scaled, Fv.isNan, Fv.isPinf, Fv.isNinf]
  | inf neg => cases neg <;> simp [SumAcc.addFv, Fv.scaled, Fv.isNan, Fv.isPinf, Fv.isNinf]
  | fin => simp [SumAcc.addFv, Fv.scaled, Fv.isNan, Fv.isPinf, Fv.isNinf]

/-- Values added one after another. -/
theorem SumAcc.foldl_addFv (fs : List Fv) (a : SumAcc) : fs.foldl SumAcc.addFv a = { a with
    fx := a.fx + BitVec.ofInt 4224 (fs.map Fv.scaled).sum, nan := a.nan || fs.any Fv.isNan, pinf := a.pinf || fs.any Fv.isPinf,
    ninf := a.ninf || fs.any Fv.isNinf } := by
  induction fs generalizing a with
  | nil => simp
  | cons f fs ih =>
    rw [List.foldl_cons, ih, SumAcc.addFv_eq]
    simp only [List.map_cons, List.sum_cons, List.any_cons, BitVec.ofInt_add, BitVec.add_assoc, Bool.or_assoc]

theorem SumAcc.foldl_addFv_map (p : Nat → Fv) (l : List Nat) (a : SumAcc) : l.foldl (fun r i => r.addFv (p i)) a = { a with
    fx := a.fx + BitVec.ofInt 4224 ((l.map p).map Fv.scaled).sum, nan := a.nan || (l.map p).any Fv.isNan,
    pinf := a.pinf || (l.map p).any Fv.isPinf, ninf := a.ninf || (l.map p).any Fv.isNinf } := by
  rw [← SumAcc.foldl_addFv, List.foldl_map]

theorem State.acting_accLanes (s : State) (t : Tid) (i : Instr) (g : Rn) (x : BitVec 7) (n : Nat) :
    (s.acting t i).accLanes t g x n = s.accLanes t g x n := by
  have h : (s.acting t i).accLane t g x = s.accLane t g x := by
    funext k
    rw [State.accLane, State.accLane, State.acting_g]
  rw [State.accLanes, h]
  rfl

/-! The image of an accumulator (R132). -/

/-- The flags of an accumulator as doubleword 66 of its image holds them. -/
def SumAcc.flags (a : SumAcc) : Nat := b2n a.pinf + 2 * b2n a.ninf + 4 * b2n a.nan

theorem SumAcc.flags_lt (a : SumAcc) : a.flags < 8 := by
  unfold SumAcc.flags b2n
  split_ifs <;> decide

/-- Doublewords 66 to 68 show the flags and the integer lane alone. -/
theorem SumAcc.dw_high {y : Nat} (hy : 66 ≤ y) (a : SumAcc) : a.dw y = if y = 66 then BitVec.ofNat 64 a.flags
    else if y = 67 then BitVec.ofNat 64 a.int.toNat else if y = 68 then BitVec.ofNat 64 (a.int.toNat / 2 ^ 64) else 0 := by
  rw [SumAcc.dw, if_neg (by omega)]
  rfl

theorem SumAcc.dw_low {y : Nat} (hy : y < 66) (a : SumAcc) : a.dw y = BitVec.ofNat 64 (a.fx.toNat / 2 ^ (64 * y)) := if_pos hy

/-- The image of an accumulator: FX in doublewords 0 to 65, the flags in 66, the integer lane in 67 and 68. -/
def SumAcc.image (a : SumAcc) : Nat := a.fx.toNat + a.flags * 2 ^ 4224 + a.int.toNat * 2 ^ 4288

theorem ofNat_eq_ofNat_of_mod {n x y : Nat} (h : x % 2 ^ n = y % 2 ^ n) : BitVec.ofNat n x = BitVec.ofNat n y :=
  BitVec.eq_of_toNat_eq (by rw [BitVec.toNat_ofNat, BitVec.toNat_ofNat, h])

/-- A doubleword of the image of an accumulator. -/
theorem SumAcc.dw_eq_image (a : SumAcc) (x : Nat) : a.dw x = BitVec.ofNat 64 (a.image / 2 ^ (64 * x)) := by
  have hb : 0 < 2 ^ 64 := by decide
  have hfx : a.fx.toNat < (2 ^ 64) ^ 66 := toNat_lt_pow a.fx rfl
  have hflags := a.flags_lt
  have hint : a.int.toNat < (2 ^ 64) ^ 2 := toNat_lt_pow a.int rfl
  have himage : a.image = (a.int.toNat * 2 ^ 64 + a.flags) * (2 ^ 64) ^ 66 + a.fx.toNat := by
    rw [SumAcc.image, two_pow_eq_pow (n := 4224) (w := 64) (k := 66) rfl, two_pow_eq_pow (n := 4288) (w := 64) (k := 67) rfl]
    ring
  rw [himage, pow_mul]
  rcases Nat.lt_or_ge x 66 with hx | hx
  · rw [SumAcc.dw_low hx]
    refine ofNat_eq_ofNat_of_mod ?_
    rw [digit_below hb hx, pow_mul]
  · obtain ⟨j, rfl⟩ := Nat.exists_eq_add_of_le hx
    rw [div_above hfx, SumAcc.dw_high hx]
    have hhigh (k : Nat) : (a.int.toNat * 2 ^ 64 + a.flags) / (2 ^ 64) ^ (1 + k) = a.int.toNat / (2 ^ 64) ^ k := by
      have h := div_above (b := 2 ^ 64) (k := 1) (lo := a.flags) (by omega) a.int.toNat k
      rwa [pow_one] at h
    match j with
    | 0 => exact ofNat_eq_ofNat_of_mod (by rw [pow_zero, Nat.div_one, Nat.mul_add_mod_self_right])
    | 1 => exact congrArg (BitVec.ofNat 64) ((hhigh 0).trans (Nat.div_one _)).symm
    | 2 => exact congrArg (BitVec.ofNat 64) ((hhigh 1).trans (by rw [pow_one])).symm
    | j + 3 =>
      have hzero : a.int.toNat / (2 ^ 64) ^ (j + 2) = 0 :=
        Nat.div_eq_of_lt (hint.trans_le (Nat.pow_le_pow_right hb (Nat.le_add_left 2 j)))
      rw [show j + 3 = 1 + (j + 2) by omega, hhigh, hzero, if_neg (by omega), if_neg (by omega), if_neg (by omega)]
      rfl

/-! A doubleword of the image written (R131, R132). -/

/-- Doublewords 0 to 65 of an image are the digits of FX. -/
theorem SumAcc.toNat_dw_fx (a : SumAcc) {x : Nat} (hx : x < 66) : (a.dw x).toNat = a.fx.toNat / (2 ^ 64) ^ x % 2 ^ 64 := by
  rw [SumAcc.dw_low hx, BitVec.toNat_ofNat, pow_mul]

theorem SumAcc.setDw_fx (a : SumAcc) {x : Nat} (hx : x < 66) (w : Word) :
    a.setDw x w = { a with fx := BitVec.ofNat 4224 (setDigit (2 ^ 64) x w.toNat a.fx.toNat) } := by
  rw [SumAcc.setDw, if_pos hx, setDigit, pow_mul]

theorem SumAcc.dw_setDw_fx (a : SumAcc) {x y : Nat} (hx : x < 66) (hy : y < 66) (w : Word) :
    (a.setDw x w).dw y = if y = x then w else a.dw y := by
  apply BitVec.eq_of_toNat_eq
  rw [SumAcc.toNat_dw_fx _ hy, SumAcc.setDw_fx _ hx]
  dsimp only
  rw [toNat_ofNat_setDigit (w := 64) (m := 66) (n := 4224) rfl hx, setDigit_digit w.isLt, apply_ite BitVec.toNat, SumAcc.toNat_dw_fx _ hy]

theorem SumAcc.setDw_beyond (a : SumAcc) {x : Nat} (hx : 69 ≤ x) (w : Word) : a.setDw x w = a := by
  rw [SumAcc.setDw, if_neg (by omega), if_neg (by omega), if_neg (by omega), if_neg (by omega)]

theorem SumAcc.setDw_flags (a : SumAcc) (w : Word) : a.setDw 66 w = { a with pinf := bit w 0, ninf := bit w 1, nan := bit w 2 } := rfl

theorem SumAcc.setDw_intLow (a : SumAcc) (w : Word) :
    a.setDw 67 w = { a with int := BitVec.ofNat 128 (a.int.toNat / 2 ^ 64 * 2 ^ 64 + w.toNat) } := rfl

theorem SumAcc.setDw_intHigh (a : SumAcc) (w : Word) :
    a.setDw 68 w = { a with int := BitVec.ofNat 128 (a.int.toNat % 2 ^ 64 + w.toNat * 2 ^ 64) } := rfl

/-- What a write of doubleword 66 or above leaves: FX, and what it does not name of the flags and the integer lane. -/
theorem SumAcc.setDw_high (a : SumAcc) {x : Nat} (hx : 66 ≤ x) (w : Word) : (a.setDw x w).fx = a.fx
    ∧ (x ≠ 66 → (a.setDw x w).flags = a.flags) ∧ (x ≠ 67 → (a.setDw x w).int.toNat % 2 ^ 64 = a.int.toNat % 2 ^ 64)
    ∧ (x ≠ 68 → (a.setDw x w).int.toNat / 2 ^ 64 = a.int.toNat / 2 ^ 64) := by
  have hint := a.int.isLt
  have hw := w.isLt
  rcases Nat.lt_or_ge x 69 with hx69 | hx69
  · obtain rfl | rfl | rfl : x = 66 ∨ x = 67 ∨ x = 68 := by omega
    · rw [SumAcc.setDw_flags]
      exact ⟨rfl, fun h => absurd rfl h, fun _ => rfl, fun _ => rfl⟩
    · rw [SumAcc.setDw_intLow]
      refine ⟨rfl, fun _ => by simp only [SumAcc.flags], fun h => absurd rfl h, fun _ => ?_⟩
      rw [BitVec.toNat_ofNat]
      omega
    · rw [SumAcc.setDw_intHigh]
      refine ⟨rfl, fun _ => by simp only [SumAcc.flags], fun _ => ?_, fun h => absurd rfl h⟩
      rw [BitVec.toNat_ofNat]
      omega
  · rw [SumAcc.setDw_beyond _ hx69]
    exact ⟨rfl, fun _ => rfl, fun _ => rfl, fun _ => rfl⟩

/-- The other doublewords keep what they hold. -/
theorem SumAcc.dw_setDw_ne (a : SumAcc) {x y : Nat} (hne : y ≠ x) (w : Word) : (a.setDw x w).dw y = a.dw y := by
  rcases Nat.lt_or_ge x 66 with hx | hx
  · rcases Nat.lt_or_ge y 66 with hy66 | hy66
    · rw [SumAcc.dw_setDw_fx _ hx hy66, if_neg hne]
    · rw [SumAcc.setDw_fx _ hx, SumAcc.dw_high hy66, SumAcc.dw_high hy66, SumAcc.flags, SumAcc.flags]
  · obtain ⟨hfx, hflags, hlow, hhigh⟩ := a.setDw_high hx w
    rcases Nat.lt_or_ge y 66 with hy66 | hy66
    · rw [SumAcc.dw_low hy66, SumAcc.dw_low hy66, hfx]
    · rw [SumAcc.dw_high hy66, SumAcc.dw_high hy66]
      split_ifs with h66 h67 h68
      · rw [hflags (by omega)]
      · exact ofNat_eq_ofNat_of_mod (hlow (by omega))
      · rw [hhigh (by omega)]
      · rfl

/-- Settles O31: sums are taken one addend after another, and a doubleword is a digit of the image. -/
theorem accumulatorOperations : Obligations.AccumulatorOperations := by
  intro s t acc v g ty x hi
  dsimp only
  refine ⟨?_, ?_, ?_, fun hr => ?_⟩
  · simp only [List.forall_mem_cons, List.not_mem_nil, false_imp_iff, implies_true, and_true]
    refine ⟨fun hr => ?_, fun hr => ?_, fun hr => ?_⟩
    · exact State.answers_becameAc hr rfl
    · refine State.answers_becameAc hr ?_
      rw [bodyAaddi, State.acting_v, State.acting_ac, State.acting_accLanes]
      dsimp only
      rw [foldl_add_ofInt]
      rfl
    · refine State.answers_becameAc hr ?_
      rw [bodyAcnt, State.acting_v, State.acting_ac]
      rfl
  · simp only [List.forall_mem_cons, List.not_mem_nil, false_imp_iff, implies_true, and_true]
    refine ⟨fun hr => ?_, fun hr => ?_⟩
    · refine State.answers_becameAc hr ?_
      rw [bodyAaddf, State.acting_v, State.acting_ac, State.acting_accLanes]
      rw [SumAcc.foldl_addFv_map]
      rfl
    · refine State.answers_becameAc hr ?_
      rw [bodyAmacf, State.acting_v, State.acting_vr, State.acting_ac, State.acting_accLanes]
      rw [SumAcc.foldl_addFv_map]
      rfl
  · simp only [List.forall_mem_cons, List.not_mem_nil, false_imp_iff, implies_true, and_true]
    refine ⟨fun hr => State.answers_wroteG hr ?_, fun hr => State.answers_wroteG hr ?_⟩
    · rw [bodyArdi, State.acting_ac, SumAcc.dw_eq_image]
      rfl
    · rw [bodyArdw, State.acting_ac, SumAcc.dw_eq_image]
      rfl
  · refine ⟨(s.ac t acc).setDw x.toNat (s.g t g), State.answers_becameAc hr (by rw [bodyAwrw, State.acting_ac, State.acting_g]), fun hx => ?_,
      fun hx => SumAcc.setDw_beyond _ hx _, fun y _ hne => SumAcc.dw_setDw_ne _ hne _⟩
    rw [SumAcc.dw_setDw_fx _ hx hx, if_pos rfl]

/-! The readout of FX (R134). -/

theorem SumAcc.readout_eq (a : SumAcc) : a.readout = if a.nan = true ∨ (a.pinf = true ∧ a.ninf = true) then (0x7FF8000000000000, 64)
    else if a.pinf = true then (0x7FF0000000000000, 0) else if a.ninf = true then (0xFFF0000000000000, 0)
    else if a.fx = 0 then (0, 0) else fmt64.roundInt 0 a.fx.toInt (-2148) false := by
  have hzero : a.fx = 0 → fmt64.roundInt 0 a.fx.toInt (-2148) false = (0, 0) := by
    intro h
    rw [h, show (0 : BitVec 4224) = 0#4224 from rfl, BitVec.toInt_zero]
    rfl
  unfold SumAcc.readout
  simp only [Bool.or_eq_true, Bool.and_eq_true]
  split_ifs with h1 h2 h3 h4
  · rfl
  · rfl
  · rfl
  · exact hzero h4
  · rfl

/-- What an operation that writes f[d] and the flags of FCSR has kept of its thread. -/
theorem State.issue_fpTo_beside {s : State} {t : Tid} {i : Instr} {body : State → Out} {d : Rn} {r : Nat × Nat} (hr : s.ready t i = true)
    (hb : body (s.acting t i) = (s.acting t i).fpTo t d r) (hno : fget ((s.thr t).c 1) 5 7 &&& r.2 = 0) :
    ((s.issue t i body).thr t).beside = (s.thr t).beside := by
  have ha := s.turned_acting t i
  obtain ⟨u, hu, hut, hend⟩ := ha.fpEnd r.2 fun u => u.setF t d (BitVec.ofNat 64 r.1)
  rw [ha.c rfl, show ({ s.thr t with run := .running } : Thread).c 1 = (s.thr t).c 1 from rfl, if_neg (not_not.mpr hno)] at hend
  obtain ⟨y, hy⟩ := ((s.acting t i).thr t).flagged_eq r.2
  rw [State.issue_ready _ _ _ _ hr, hb, State.fpTo, hend]
  refine ((hu.setF d _).ends (s.thr t).pc i).beside_thr.trans ?_
  rw [hy]
  exact ha.beside_thr

/-- Settles O32: the readout's cases are R134's, and an operation that writes f[G] leaves the accumulators as they are. -/
theorem accumulatorReadout : Obligations.AccumulatorReadout := by
  intro s t acc g
  dsimp only
  rw [← SumAcc.readout_eq]
  intro hr hno
  have hb : bodyArdf t acc g (s.acting t (.ardf t acc g)) = (s.acting t (.ardf t acc g)).fpTo t g (s.ac t acc).readout := by
    rw [bodyArdf, State.acting_ac]
  obtain ⟨h1, h2, h3, h4, h5, h6, h7⟩ := State.issue_fpTo hr hb hno
  have hbeside := State.issue_fpTo_beside hr hb (hno.elim (fun h => by rw [h, Nat.zero_and]) id)
  refine ⟨_, rfl, ?_, h4, h2, h3, ?_, h5, h6, h7⟩
  · exact BitVec.eq_of_toNat_eq (h1.trans (BitVec.toNat_ofNat _ _).symm)
  · exact (Thread.sift_of_beside hbeside acc.val).2

end Sys2Proof.Machine
end

section
/-!
TRANSLATION OF AN ACCESS (R162, R165, R169).
-/
namespace Sys2Proof.Machine

set_option Elab.async false

theorem State.xlate_miss {s : State} {t : Tid} {u : Use} {va : Word} (h : s.tlbMatch t u.space va = none) :
    s.xlate t u va = .fail (0x20 + u.space) none := by
  rw [State.xlate, h]

theorem State.xlate_match {s : State} {t : Tid} {u : Use} {va : Word} {i : Nat} {e : TlbSlot} (h : s.tlbMatch t u.space va = some (i, e)) :
    s.xlate t u va = if permCode e (s.thr t) u = 0 then .ok (e.ppn / 2 ^ e.size * 2 ^ e.size + va.toNat % 2 ^ e.size) e.kslot
      else .fail (permCode e (s.thr t) u) (some i) := by
  rw [State.xlate, h]

/-- An access that needs R or W where the entry does not give it has the first cause of R169. -/
theorem permCode_denied {e : TlbSlot} {u : Use} (x : Thread) (h : u.reads = true ∧ e.r = false ∨ u.writes = true ∧ e.w = false) :
    permCode e x u = 0x23 := by
  refine if_pos ?_
  obtain ⟨hu, he⟩ | ⟨hu, he⟩ := h <;> simp [hu, he]

/-- Settles O26: a match is checked by R169, and the address is the page's with the offset below it. -/
theorem translationOutcome : Obligations.TranslationOutcome := by
  intro s t u va i e
  refine ⟨State.xlate_miss, fun hm hp => ?_, fun hm hp => ⟨_, (State.xlate_match hm).trans (if_pos hp), ?_, ?_⟩⟩
  · rw [State.xlate_match hm, permCode_denied _ hp]
    rfl
  · rw [Nat.mul_add_mod_self_right, Nat.mod_mod]
  · rw [Nat.add_comm, Nat.add_mul_div_right _ _ (Nat.two_pow_pos _), Nat.div_eq_of_lt (Nat.mod_lt _ (Nat.two_pow_pos _)), Nat.zero_add]

end Sys2Proof.Machine
end

section
/-!
THE REGISTER FILE: where a register stands, what a write by the access codes of R12 leaves in a field, and which registers the region
table reads.
-/
namespace Sys2Proof.Machine

set_option Elab.async false

/-! Fields of a register. -/

/-- Two fields have no bit in common. -/
def Fld.apart (f g : Fld) : Bool := decide (f.lo + f.w ≤ g.lo) || decide (g.lo + g.w ≤ f.lo)

/-- The fields of a register lie within it, no two of them sharing a bit. -/
def FldsFit (fs : List Fld) : Prop := (∀ f ∈ fs, f.lo + f.w ≤ 64) ∧ fs.Pairwise fun f g => f.apart g = true

theorem regTable_fit : ∀ r ∈ regTable, FldsFit r.flds := by
  unfold FldsFit
  decide +kernel

theorem regAt_mem {rs : List RegDesc} {a i j : Nat} {r : RegDesc} (h : regAt rs a = some (r, i, j)) : r ∈ rs := by
  induction rs with
  | nil => exact absurd h (by simp [regAt])
  | cons q qs ih =>
    rw [regAt] at h
    split at h
    · cases h
      exact List.mem_cons_self
    · exact List.mem_cons_of_mem _ (ih h)

/-- What the indices of an address in a family say of it. -/
theorem RegDesc.eq_of_index {r : RegDesc} {a i j : Nat} (h : r.index a = some (i, j)) :
    i < r.n1 ∧ j < r.n2 ∧ a = r.base + i * r.s1 + j * r.s2 := by
  unfold RegDesc.index at h
  split at h
  · exact absurd h (by simp)
  next hb =>
    have hrow := Nat.div_add_mod' (a - r.base) r.s1
    have hcell := Nat.div_add_mod' (a - r.base) r.s2
    have hrowCell := Nat.div_add_mod' ((a - r.base) % r.s1) r.s2
    by_cases h1 : r.n1 = 1 <;> by_cases h2 : r.n2 = 1
    all_goals
      simp only [h1, h2, if_true, if_false, Option.ite_none_right_eq_some, Bool.and_eq_true, decide_eq_true_eq, beq_iff_eq, Option.some.injEq,
        Prod.mk.injEq] at h
      obtain ⟨⟨⟨hi, hj⟩, hq⟩, rfl, rfl⟩ := h
      omega

/-- Where one family alone holds an address, the address is its register's. -/
theorem regAt_of_index {rs : List RegDesc} {r : RegDesc} {a i j : Nat} (hr : r.index a = some (i, j)) (hm : r ∈ rs)
    (h : ∀ q ∈ rs, ∀ x y, x < q.n1 → y < q.n2 → a = q.base + x * q.s1 + y * q.s2 → q = r) : regAt rs a = some (r, i, j) := by
  induction rs with
  | nil => exact absurd hm List.not_mem_nil
  | cons q qs ih =>
    rw [regAt]
    cases hq : q.index a with
    | some c =>
      obtain ⟨hx, hy, ha⟩ := RegDesc.eq_of_index hq
      obtain rfl := h q List.mem_cons_self _ _ hx hy ha
      rw [hr] at hq
      cases hq
      rfl
    | none =>
      refine ih ((List.mem_cons.mp hm).resolve_left ?_) fun p hp => h p (List.mem_cons_of_mem _ hp)
      rintro rfl
      rw [hr] at hq
      cases hq

theorem RegDesc.index_cell {r : RegDesc} {i j : Nat} (hi : i < r.n1) (h1 : r.n1 ≠ 1) (hj : j < r.n2) (h2 : r.n2 ≠ 1) (h : j * r.s2 < r.s1)
    (hs : 0 < r.s2) : r.index (r.base + i * r.s1 + j * r.s2) = some (i, j) := by
  have hd : (i * r.s1 + j * r.s2) / r.s1 = i := by
    rw [Nat.add_comm, Nat.add_mul_div_right _ _ (by omega), Nat.div_eq_of_lt h, Nat.zero_add]
  have hm : (i * r.s1 + j * r.s2) % r.s1 = j * r.s2 := by
    rw [Nat.mul_add_mod_self_right, Nat.mod_eq_of_lt h]
  simp [RegDesc.index, h1, h2, Nat.add_assoc, hd, hm, hi, hj, hs]

/-- Writes of fields apart from a field leave it alone. -/
theorem fget_foldl_fset_apart {fs : List Fld} {f : Fld} (g : Fld → Nat) (hfit : ∀ q ∈ fs, q.lo + q.w ≤ 64)
    (h : ∀ q ∈ fs, f.apart q = true) (w : Word) :
    fget (fs.foldl (fun v q => fset v q.lo q.w (g q)) w) f.lo f.w = fget w f.lo f.w := by
  induction fs generalizing w with
  | nil => rfl
  | cons q qs ih =>
    rw [List.foldl_cons, ih (fun p hp => hfit p (List.mem_cons_of_mem _ hp)) (fun p hp => h p (List.mem_cons_of_mem _ hp))]
    have hq := h q List.mem_cons_self
    simp only [Fld.apart, Bool.or_eq_true, decide_eq_true_eq] at hq
    exact fget_fset_ne _ _ _ _ _ _ (hfit q List.mem_cons_self) hq

theorem fget_foldl_fset {fs : List Fld} (h : FldsFit fs) {f : Fld} (hf : f ∈ fs) (g : Fld → Nat) (w : Word) :
    fget (fs.foldl (fun v q => fset v q.lo q.w (g q)) w) f.lo f.w = g f % 2 ^ f.w := by
  obtain ⟨hfit, hap⟩ := h
  induction fs generalizing w with
  | nil => exact absurd hf List.not_mem_nil
  | cons q qs ih =>
    obtain ⟨hq, hap⟩ := List.pairwise_cons.mp hap
    have hfit' : ∀ p ∈ qs, p.lo + p.w ≤ 64 := fun p hp => hfit p (List.mem_cons_of_mem _ hp)
    rw [List.foldl_cons]
    obtain rfl | hf := List.mem_cons.mp hf
    · rw [fget_foldl_fset_apart g hfit' hq, fget_fset_same _ _ _ _ (hfit f List.mem_cons_self)]
    · exact ih hf _ hfit' hap

theorem fget_fullMask {lo w : Nat} (h : lo + w ≤ 64) : fget fullMask lo w = 2 ^ w - 1 := by
  unfold fget fullMask
  rw [BitVec.toNat_allOnes]
  refine Nat.eq_of_testBit_eq fun i => ?_
  rw [Nat.testBit_mod_two_pow, Nat.testBit_div_two_pow, Nat.testBit_two_pow_sub_one, Nat.testBit_two_pow_sub_one]
  grind

/-- A field of which every value is defined takes what is written, where every one of its bits is. -/
theorem Fld.write_rw {lo w rst o n : Nat} (ho : o < 2 ^ w) (hn : n < 2 ^ w) (locked : Bool) :
    (fld lo w .rw rst).write o n (2 ^ w - 1) locked = n := by
  have hmix : o - (o &&& (2 ^ w - 1)) ||| n &&& (2 ^ w - 1) = n := by
    rw [Nat.and_two_pow_sub_one_of_lt_two_pow ho, Nat.and_two_pow_sub_one_of_lt_two_pow hn, Nat.sub_self, Nat.zero_or]
  simp only [Fld.write, fld, hmix]
  exact if_pos (by simp; omega)

/-! Registers. -/

theorem State.rdw_regPut_ne (s : State) {a b : Nat} (v mask : Word) (h : b ≠ a) : (s.regPut a v mask).rdw b = s.rdw b := by
  unfold State.regPut
  split
  · exact s.rdw_wrw_ne _ _ _ h
  · rfl

theorem State.rd_regPut_ne (s : State) {a : Nat} (f : FRef) (v mask : Word) (h : f.addr ≠ a) : (s.regPut a v mask).rd f = s.rd f :=
  congrArg (fget · f.lo f.w) (s.rdw_regPut_ne v mask h)

@[simp] theorem State.regPut_ports (s : State) (a : Nat) (v mask : Word) : (s.regPut a v mask).ports = s.ports := by
  unfold State.regPut
  split <;> rfl

@[simp] theorem State.regPut_gpos (s : State) (a : Nat) (v mask : Word) : (s.regPut a v mask).gpos = s.gpos := by
  unfold State.regPut
  split <;> rfl

/-- A read-write field holds what was last written to it (R12). -/
theorem State.rd_regPut {a i j : Nat} {r : RegDesc} (hr : regAt regTable a = some (r, i, j)) {lo w rst : Nat} (hf : fld lo w .rw rst ∈ r.flds)
    (s : State) (v : Word) {mask : Word} (hm : fget mask lo w = 2 ^ w - 1) : (s.regPut a v mask).rd ⟨a, lo, w⟩ = fget v lo w := by
  have hw : fget (fldsWrite r.flds (s.rdw a) v mask (s.regLocked r i)) lo w = _ := fget_foldl_fset (regTable_fit r (regAt_mem hr)) hf _ 0
  rw [State.regPut, hr]
  dsimp only
  rw [State.rd, State.rdw_wrw_same, hw]
  dsimp only [fld] at hw ⊢
  rw [hm]
  exact (congrArg (· % 2 ^ w) (Fld.write_rw (fget_lt _ _ _) (fget_lt _ _ _) _)).trans (Nat.mod_eq_of_lt (fget_lt _ _ _))

/-- A word that is written whole to a register sets each of its read-write fields. -/
theorem State.rd_regPut_full {a i j : Nat} {r : RegDesc} (hr : regAt regTable a = some (r, i, j)) {lo w rst : Nat}
    (hf : fld lo w .rw rst ∈ r.flds) (s : State) (v : Word) : (s.regPut a v fullMask).rd ⟨a, lo, w⟩ = fget v lo w :=
  s.rd_regPut hr hf v (fget_fullMask ((regTable_fit r (regAt_mem hr)).1 _ hf))

theorem State.flag_wr (s : State) {a lo : Nat} (h : lo < 64) (b : Bool) : (s.wr ⟨a, lo, 1⟩ (b2n b)).flag ⟨a, lo, 1⟩ = b := by
  rw [State.flag, State.rd_wr_same _ _ _ (by dsimp only; omega)]
  cases b <;> rfl

theorem State.flag_eq_bit (s : State) (a i : Nat) : s.flag ⟨a, i, 1⟩ = bit (s.rdw a) i := (bit_eq_fget _ _).symm

/-! The region table. -/

/-- Where states u and s have the same registers in the region table's page, their regions are the same. -/
theorem State.regions_congr {s u : State} (h : ∀ a, 0xfe0008000000 ≤ a → a < 0xfe0008000800 → u.rdw a = s.rdw a) : u.regions = s.regions := by
  refine List.filterMap_congr fun n hn => ?_
  have hn := List.mem_range.mp hn
  have base : u.rdw (A.PRT_BASEn n) = s.rdw (A.PRT_BASEn n) := h _ (by unfold A.PRT_BASEn; omega) (by unfold A.PRT_BASEn; omega)
  have limit : u.rdw (A.PRT_LIMITn n) = s.rdw (A.PRT_LIMITn n) := h _ (by unfold A.PRT_LIMITn; omega) (by unfold A.PRT_LIMITn; omega)
  have attr : u.rdw (A.PRT_ATTRn n) = s.rdw (A.PRT_ATTRn n) := h _ (by unfold A.PRT_ATTRn; omega) (by unfold A.PRT_ATTRn; omega)
  have mono : u.rdw (A.PRT_MONOn n) = s.rdw (A.PRT_MONOn n) := h _ (by unfold A.PRT_MONOn; omega) (by unfold A.PRT_MONOn; omega)
  have valid : u.regionV n = s.regionV n := congrArg (fun w => fget w 0 1 == 1) attr
  have region : u.region n = s.region n := by
    unfold State.region State.flag State.rd
    dsimp only
    rw [base, limit, attr, mono]
  rw [valid, region]

theorem State.regions_regPut (s : State) {a : Nat} (v mask : Word) (h : a < 0xfe0008000000 ∨ 0xfe0008000800 ≤ a) :
    (s.regPut a v mask).regions = s.regions :=
  State.regions_congr fun b h1 h2 => s.rdw_regPut_ne v mask (by omega)

theorem State.regionOfRange_regPut (s : State) {a : Nat} (v mask : Word) (h : a < 0xfe0008000000 ∨ 0xfe0008000800 ≤ a) (pa n : Nat) :
    (s.regPut a v mask).regionOfRange pa n = s.regionOfRange pa n := by
  rw [State.regionOfRange, s.regions_regPut v mask h, State.regionOfRange]

end Sys2Proof.Machine
end

section
/-!
WRITES AT HOME AND THE REGISTERS. A write at home touches the registers of take domains, port queues and machine-check banks, and leaves
every other register alone: one rule per function of the model, in the order of the definitions, each by the rules of the functions it
calls.
-/
namespace Sys2Proof.Machine

set_option Elab.async false

/-- The register at an address, in a register file. -/
def regHeld (a : Nat) (m : SMap Word) : Word := SMap.get (ioReset a) m a

theorem State.rdw_eq_regHeld (s : State) (a : Nat) : s.rdw a = regHeld a s.io := rfl

theorem regHeld_put {a b : Nat} (m : SMap Word) (w : Word) (h : a ≠ b) : regHeld a (SMap.put m b w) = regHeld a m :=
  SMap.get_put_ne _ _ _ _ _ h

@[simp] theorem regHeld_ite (a : Nat) (c : Prop) [Decidable c] (m n : SMap Word) :
    regHeld a (if c then m else n) = if c then regHeld a m else regHeld a n := apply_ite (regHeld a) c m n

/-- An address of none of the registers that a write at home touches. -/
structure HomeSpared (a : Nat) : Prop where
  take : ∀ d, a ≠ A.TDn_TAKE d
  stat : ∀ d, a ≠ A.TDn_STAT d
  head : ∀ d, a ≠ A.TDn_HEAD d
  disc : ∀ d, a ≠ A.TDn_DISC d
  undo : a ≠ A.TK_UNDO
  held : a ≠ A.TK_HELD
  queue : ∀ n, a ≠ A.MPn_WQ n
  undec : a ≠ A.IS_UNDEC
  gstat : a ≠ A.MC_GSTAT
  status : ∀ b, a ≠ A.MCb_STATUS b
  addr : ∀ b, a ≠ A.MCb_ADDR b
  misc : ∀ b, a ≠ A.MCb_MISC b
  slate : ∀ b, a ≠ A.MCb_SLATE b

/-- That every turn of a loop leaves the register at an address alone. -/
def RegLoop {α : Type} (a : Nat) (f : State → α → State) : Prop := ∀ s x, regHeld a (f s x).io = regHeld a s.io

@[simp] theorem regLoop_iff {α : Type} (a : Nat) (f : State → α → State) :
    RegLoop a f ↔ ∀ s x, regHeld a (f s x).io = regHeld a s.io := ⟨id, id⟩

theorem State.foldl_reg {α : Type} {a : Nat} {f : State → α → State} (hf : RegLoop a f) (l : List α) (s : State) :
    regHeld a (l.foldl f s).io = regHeld a s.io := by
  induction l generalizing s with
  | nil => rfl
  | cons x l ih => exact (ih (f s x)).trans (hf s x)

section
variable {a : Nat}

@[simp] theorem State.linkPush_reg (s : State) (l : Nat) : regHeld a (s.linkPush l).io = regHeld a s.io := by simp [State.linkPush]

@[simp] theorem State.packetOut_reg (s : State) (g : Agent) (line : Nat) : regHeld a (s.packetOut g line).io = regHeld a s.io := by
  unfold State.packetOut
  split <;> simp

@[simp] theorem State.uncache_reg (s : State) (line k : Nat) : regHeld a (s.uncache line k).io = regHeld a s.io := by
  simp [State.uncache, State.setCache]

@[simp] theorem State.forget_reg (s : State) (d line : Nat) : regHeld a (s.forget d line).io = regHeld a s.io := by
  unfold State.forget
  dsimp only
  split <;> simp [State.foldl_reg]

@[simp] theorem State.promote_reg (s : State) (g : Nat) : regHeld a (s.promote g).io = regHeld a s.io := by
  simp [State.promote, State.foldl_reg]

@[simp] theorem State.recallPkg_reg (s : State) (line : Nat) : regHeld a (s.recallPkg line).io = regHeld a s.io := by
  simp [State.recallPkg]

@[simp] theorem State.dropLine_reg (s : State) (line : Nat) : regHeld a (s.dropLine line).io = regHeld a s.io := by
  simp [State.dropLine, State.foldl_reg]

@[simp] theorem State.lsWrite_reg (s : State) (d ofs : Nat) (bs : List Byte) (src : Option Nat) :
    regHeld a (s.lsWrite d ofs bs src).io = regHeld a s.io := by simp [State.lsWrite]

variable (ha : HomeSpared a)
include ha

theorem State.fillBank_reg (s : State) (b : Nat) (e : ErrRec) (ce : Nat) (ov : Bool) :
    regHeld a (s.fillBank b e ce ov).io = regHeld a s.io := by
  simp [State.fillBank, regHeld_put, ha.status, ha.addr, ha.misc, ha.slate]

/-- An error that cannot be corrected counts in no lifetime record. -/
theorem State.logErr_reg (s : State) (b : Nat) {e : ErrRec} (h : e.sev ≠ .corrected) : regHeld a (s.logErr b e).io = regHeld a s.io := by
  simp [State.logErr, h, State.fillBank_reg ha, regHeld_put, ha.status]

theorem State.mcQueue_reg (s : State) (code : Nat) (v : Word) : regHeld a (s.mcQueue code v).io = regHeld a s.io := by
  simp only [State.mcQueue]
  split <;> simp [regHeld_put, ha.gstat]

theorem State.logAsync_reg (s : State) (b : Nat) (e : ErrRec) : regHeld a (s.logAsync b e).io = regHeld a s.io := by
  rw [State.logAsync, State.mcQueue_reg ha, State.logErr_reg ha _ _ (by simp)]

theorem State.undecodable_reg (s : State) (bank pa : Nat) : regHeld a (s.undecodable bank pa).io = regHeld a s.io := by
  simp [State.undecodable, State.inc, State.logAsync_reg ha, regHeld_put, ha.undec]

theorem State.headStep_reg (s : State) (d : Nat) : regHeld a (s.headStep d).io = regHeld a s.io := by
  simp [State.headStep, regHeld_put, ha.head]

theorem State.cutStart_reg (s : State) (d : Nat) : regHeld a (s.cutStart d).io = regHeld a s.io := by
  simp [State.cutStart, regHeld_put, ha.take, ha.stat]

theorem State.cutTrigger_reg (s : State) (d : Nat) : regHeld a (s.cutTrigger d).io = regHeld a s.io := by
  simp [State.cutTrigger, State.cutStart_reg ha, regHeld_put, ha.stat]

theorem State.reelTrigger_reg (s : State) (d : Nat) : regHeld a (s.reelTrigger d).io = regHeld a s.io := by
  simp [State.reelTrigger, State.cutTrigger_reg ha]

theorem State.writeBlock_reg (s : State) (d take : Nat) (kind : BlockKind) (ents : List StagedUndo) :
    regHeld a (s.writeBlock d take kind ents).io = regHeld a s.io := by
  simp [State.writeBlock, State.reelTrigger_reg ha, State.headStep_reg ha]

theorem State.flushOne_reg (s : State) (d take : Nat) : regHeld a (s.flushOne d take).io = regHeld a s.io := by
  simp [State.flushOne, State.writeBlock_reg ha]

theorem State.flush_reg (s : State) (part : Bool) : regHeld a (s.flush part).io = regHeld a s.io := by
  simp [State.flush, State.foldl_reg, State.flushOne_reg ha]

theorem State.acceptUndo_reg (s : State) (e : UndoEntry) : regHeld a (s.acceptUndo e).io = regHeld a s.io := by
  simp [State.acceptUndo, State.flush_reg ha, regHeld_put, ha.undo]

theorem State.setHeld_reg (s : State) (h : List Held) : regHeld a (s.setHeld h).io = regHeld a s.io := by
  simp [State.setHeld, regHeld_put, ha.held]

theorem State.setWq_reg (s : State) (n : Nat) (l : List WqEnt) : regHeld a (s.setWq n l).io = regHeld a s.io := by
  simp [State.setWq, regHeld_put, ha.queue]

theorem State.portPut_reg (s : State) (n dev : Nat) (mask : BitVec 64) (d : LineData) (poison undo : Bool) (ks : Nat) :
    regHeld a (s.portPut n dev mask d poison undo ks).io = regHeld a s.io := by
  simp [State.portPut, State.logAsync_reg ha, State.setWq_reg ha]

theorem State.toMemory_reg (s : State) (line : Nat) (mask : BitVec 64) (d : LineData) (poison undo : Bool) (ks : Nat) :
    regHeld a (s.toMemory line mask d poison undo ks).io = regHeld a s.io := by
  unfold State.toMemory
  split <;> simp [State.portPut_reg ha, State.undecodable_reg ha]

theorem State.releaseHeld_reg (s : State) : regHeld a (s.releaseHeld).io = regHeld a s.io := by
  simp [State.releaseHeld, State.foldl_reg, State.toMemory_reg ha, State.setHeld_reg ha, regHeld_put, ha.undo]

theorem State.hold_reg (s : State) (line : Nat) (d : LineData) (poison : Bool) (ks dom : Nat) :
    regHeld a (s.hold line d poison ks dom).io = regHeld a s.io := by
  simp [State.hold, State.releaseHeld_reg ha, State.setHeld_reg ha]

theorem State.writeLine_reg (s : State) (line : Nat) (d : LineData) (poison pd : Bool) (ks : Nat) :
    regHeld a (s.writeLine line d poison pd ks).io = regHeld a s.io := by
  simp [State.writeLine, State.hold_reg ha, State.toMemory_reg ha]

theorem State.homeWriteNow_reg (s : State) (agent pa : Nat) (bs : List Byte) (ks : Nat) :
    regHeld a (s.homeWriteNow agent pa bs ks).io = regHeld a s.io := by
  simp only [State.homeWriteNow]
  split
  · simp [State.hold_reg ha, State.acceptUndo_reg ha, State.inc, regHeld_put, ha.disc]
  · simp [State.writeLine_reg ha]

theorem State.ncWrite_reg (s : State) (pa : Nat) (bs : List Byte) (ks : Nat) : regHeld a (s.ncWrite pa bs ks).io = regHeld a s.io := by
  unfold State.ncWrite
  split <;> simp [State.portPut_reg ha, State.undecodable_reg ha]

theorem State.homeWrite_reg (s : State) (agent n pa : Nat) (bs : List Byte) (ks : Nat) :
    regHeld a (s.homeWrite agent n pa bs ks).io = regHeld a s.io := by
  simp only [State.homeWrite]
  split
  · exact s.lsWrite_reg _ _ _ _
  · simp [State.homeWriteNow_reg ha, State.ncWrite_reg ha]

theorem State.homePieces_reg (s : State) (agent n fuel pa : Nat) (bs : List Byte) (ks : Nat) :
    regHeld a (s.homePieces agent n fuel pa bs ks).io = regHeld a s.io := by
  induction fuel generalizing s pa bs with
  | zero => rfl
  | succ fuel ih => simp [State.homePieces, ih, State.homeWrite_reg ha]

theorem State.rdw_homeWrites (s : State) (agent fuel pa : Nat) (bs : List Byte) (ks : Nat) :
    (s.homeWrites agent fuel pa bs ks).rdw a = s.rdw a := by
  simp [State.rdw_eq_regHeld, State.homeWrites, State.homePieces_reg ha]

/-- A zero-fill by the engine leaves the registers alone that a write at home does. -/
theorem State.rdw_engZero (s : State) (pa n : Nat) : (s.engZero pa n).rdw a = s.rdw a :=
  State.foldl_reg (fun s _ => State.rdw_homeWrites ha s _ _ _ _ _) _ s

end

theorem homeSpared_enctBase : HomeSpared A.ENCT_BASE := by
  constructor
  all_goals
    intros
    simp only [A.ENCT_BASE, A.TDn_TAKE, A.TDn_STAT, A.TDn_HEAD, A.TDn_DISC, A.TK_UNDO, A.TK_HELD, A.MPn_WQ, A.IS_UNDEC, A.MC_GSTAT,
      A.MCb_STATUS, A.MCb_ADDR, A.MCb_MISC, A.MCb_SLATE]
    omega

end Sys2Proof.Machine
end

section
/-!
TABLE ENTRIES AND THEIR CHECKS (R174, R293, R296, R335, R342, R344, R358, R365, R367, R382, R393).
-/
namespace Sys2Proof.Machine

set_option Elab.async false

/-! Where the tables' registers stand. -/

theorem regAt_isCtl : ∀ k : Fin 16, regAt regTable (A.IS_CTLs k) = some (D.IS_CTLs, k.val, 0) := by decide +kernel

theorem regAt_fwTgt : ∀ k : Fin 16, regAt regTable (A.FW_TGTw k) = some (D.FW_TGTw, k.val, 0) := by decide +kernel

theorem regAt_gdwTgt : ∀ w : Fin 8, regAt regTable (A.GDW_TGTw w) = some (D.GDW_TGTw, w.val, 0) := by decide +kernel

theorem regAt_rnCfg : regAt regTable A.RN_CFG = some (D.RN_CFG, 0, 0) := by decide +kernel

theorem regAt_rnEng : ∀ j : Fin 32, regAt regTable (A.RN_ENGe j) = some (D.RN_ENGe, j.val, 0) := by decide +kernel

theorem regTable_near_prt : regTable.filter (RegDesc.near 0xfe0008000010 0xfe0008000800) = [D.PRT_BASEn, D.PRT_LIMITn, D.PRT_ATTRn, D.PRT_MONOn] := by
  decide +kernel

theorem regAt_prtAttr (n : Fin 64) : regAt regTable (A.PRT_ATTRn n) = some (D.PRT_ATTRn, n.val, 0) := by
  rw [regAt_near regTable (lo := 0xfe0008000010) (hi := 0xfe0008000800) (by unfold A.PRT_ATTRn; omega) (by unfold A.PRT_ATTRn; omega),
    regTable_near_prt]
  revert n
  decide +kernel

theorem regTable_near_ptBase : regTable.filter (RegDesc.near 0xfe0000320000 0xfe0000322000) = [D.CUEV, D.CUE_PTBASEi] := by decide +kernel

theorem regAt_ptBase (i : Fin 1024) : regAt regTable (A.CUE_PTBASEi i) = some (D.CUE_PTBASEi, i.val, 0) := by
  rw [regAt_near regTable (lo := 0xfe0000320000) (hi := 0xfe0000322000) (by unfold A.CUE_PTBASEi; omega) (by unfold A.CUE_PTBASEi; omega),
    regTable_near_ptBase]
  refine regAt_of_index (by simp [RegDesc.index, D.CUE_PTBASEi]) (by decide) ?_
  simp only [List.forall_mem_cons, List.not_mem_nil, false_imp_iff, implies_true, and_true, D.CUEV, A.CUE_PTBASEi]
  omega

theorem regTable_near_iw : regTable.filter (RegDesc.near 0xfe0002801018 0xfe0002840000) = [D.GP_CTLr, D.GP_STATr, D.GP_PMr, D.GP_CPLr, D.GP_MSIr,
    D.GP_ERRr, D.GP_LOGr, D.GP_LOGSr, D.IW_BASErj, D.IW_SIZErj, D.IW_PArj, D.IW_ATTRrj] := by decide +kernel

theorem regAt_iwAttr (r : Fin 4) (j : Fin 32) : regAt regTable (A.IW_ATTRrj r j) = some (D.IW_ATTRrj, r.val, j.val) := by
  rw [regAt_near regTable (lo := 0xfe0002801018) (hi := 0xfe0002840000) (by unfold A.IW_ATTRrj; omega) (by unfold A.IW_ATTRrj; omega),
    regTable_near_iw]
  refine regAt_of_index (RegDesc.index_cell r.isLt (by decide) j.isLt (by decide) ?_ (by decide)) (by decide) ?_
  · simp only [D.IW_ATTRrj]
    omega
  · simp only [List.forall_mem_cons, List.not_mem_nil, false_imp_iff, implies_true, and_true, D.GP_CTLr, D.GP_STATr, D.GP_PMr, D.GP_CPLr,
      D.GP_MSIr, D.GP_ERRr, D.GP_LOGr, D.GP_LOGSr, D.IW_BASErj, D.IW_SIZErj, D.IW_PArj, A.IW_ATTRrj]
    and_intros <;> omega

theorem regTable_near_vrh : regTable.filter (RegDesc.near 0xfe0001900118 0xfe0001a00000) =
    [D.VRH_CTL, D.VRH_ENG, D.VRH_CUE, D.VRH_STAT, D.VRH_WIN_BASE, D.VRH_WIN_SIZE, D.VRH_WIN_PA, D.VRH_WIN_ATTR] := by decide +kernel

theorem regAt_vrhAttr (f : Fin 256) (w : Fin 8) : regAt regTable (A.VRH_WIN_ATTR f w) = some (D.VRH_WIN_ATTR, f.val, w.val) := by
  rw [regAt_near regTable (lo := 0xfe0001900118) (hi := 0xfe0001a00000) (by unfold A.VRH_WIN_ATTR; omega) (by unfold A.VRH_WIN_ATTR; omega),
    regTable_near_vrh]
  refine regAt_of_index (RegDesc.index_cell f.isLt (by decide) w.isLt (by decide) ?_ (by decide)) (by decide) ?_
  · simp only [D.VRH_WIN_ATTR]
    omega
  · simp only [List.forall_mem_cons, List.not_mem_nil, false_imp_iff, implies_true, and_true, D.VRH_CTL, D.VRH_ENG, D.VRH_CUE, D.VRH_STAT,
      D.VRH_WIN_BASE, D.VRH_WIN_SIZE, D.VRH_WIN_PA, A.VRH_WIN_ATTR]
    and_intros <;> omega

/-! What becomes of a V flag, bit 0 of its register. -/

/-- A register whose field of bit 0 is read-write. -/
theorem State.flag_regPut {a i j : Nat} {r : RegDesc} (hr : regAt regTable a = some (r, i, j)) (hf : fld 0 1 .rw 0 ∈ r.flds) (s : State) {v : Word}
    (hb : bit v 0 = true) : (s.regPut a v fullMask).flag ⟨a, 0, 1⟩ = true := by
  rw [State.flag, State.rd_regPut_full hr hf, ← bit_eq_fget, hb]

/-- An entry that fails its checks loses V and gets REFUSE. -/
theorem State.flag_refused (s : State) (a : Nat) :
    ((s.wr ⟨a, 0, 1⟩ 0).wr ⟨a, 1, 1⟩ 1).flag ⟨a, 0, 1⟩ = false ∧ ((s.wr ⟨a, 0, 1⟩ 0).wr ⟨a, 1, 1⟩ 1).flag ⟨a, 1, 1⟩ = true := by
  refine ⟨?_, State.flag_wr _ (by omega) true⟩
  rw [State.flag, State.rd_wr_ne _ _ _ _ (by simp) (by simp)]
  exact s.flag_wr (by omega) false

/-- A stored entry stays valid where its check passes, and is refused where it fails. -/
theorem State.flag_checked {s : State} {a : Nat} (hv : s.flag ⟨a, 0, 1⟩ = true) (ok : Bool) :
    let u := if s.flag ⟨a, 0, 1⟩ && !ok then (s.wr ⟨a, 0, 1⟩ 0).wr ⟨a, 1, 1⟩ 1 else s
    u.flag ⟨a, 0, 1⟩ = ok ∧ (ok = false → u.flag ⟨a, 1, 1⟩ = true) := by
  rw [hv]
  cases ok
  · exact ⟨(s.flag_refused a).1, fun _ => (s.flag_refused a).2⟩
  · exact ⟨hv, fun h => Bool.noConfusion h⟩

/-! Interleave sets and regions (R174, R296). -/

theorem State.setReason_lt (s : State) (i : Nat) : s.setReason i < 16 := by
  unfold State.setReason
  dsimp only
  split_ifs <;> decide

theorem State.regionReason_lt (s : State) (n : Nat) : s.regionReason n < 16 := by
  unfold State.regionReason
  dsimp only
  split_ifs <;> decide

theorem fget_isRefuse {why k : Nat} (hw : why < 16) (hk : k < 16) : let x := BitVec.ofNat 64 (2 ^ 8 + why * 16 + k)
    fget x 8 1 = 1 ∧ fget x 4 4 = why ∧ fget x 0 4 = k := by
  simp only [fget, BitVec.toNat_ofNat]
  omega

theorem fget_prtRefuse {why n : Nat} (hw : why < 16) (hn : n < 64) : let x := BitVec.ofNat 64 (2 ^ 12 + why * 2 ^ 8 + n)
    fget x 12 1 = 1 ∧ fget x 8 4 = why ∧ fget x 0 6 = n := by
  simp only [fget, BitVec.toNat_ofNat]
  omega

theorem State.isCtl_unset {s : State} (k : Fin 16) {v : Word} (hv : s.flag (F.IS_CTLs_V k) = false) (hb : bit v 0 = true) :
    let s1 := (s.regPut (A.IS_CTLs k) v fullMask).wr (F.IS_CTLs_V k) 0
    s.isCtl k v fullMask = if s1.setReason k = 0 then s1.wr (F.IS_CTLs_V k) 1
      else s1.wrw A.IS_REFUSE (BitVec.ofNat 64 (2 ^ 8 + s1.setReason k * 16 + k)) := by
  rw [State.isCtl, if_neg (by rw [hv]; exact Bool.false_ne_true)]
  exact if_pos (s.flag_regPut (regAt_isCtl k) (by decide) hb)

theorem State.prtAttr_unset {s : State} (n : Fin 64) {v : Word} (hv : s.regionV n = false) (hb : bit v 0 = true) :
    let s1 := (s.regPut (A.PRT_ATTRn n) v fullMask).wr (F.PRT_ATTRn_V n) 0
    s.prtAttr n v fullMask = if s1.regionReason n = 0 then s1.wr (F.PRT_ATTRn_V n) 1
      else s1.wrw A.PRT_REFUSE (BitVec.ofNat 64 (2 ^ 12 + s1.regionReason n * 2 ^ 8 + n)) := by
  rw [State.prtAttr, if_neg (by rw [hv]; exact Bool.false_ne_true)]
  exact if_pos (s.flag_regPut (regAt_prtAttr n) (by decide) hb)

theorem answers_isValidate {s : State} {k : Fin 16} {v : Word} (hv : s.flag (F.IS_CTLs_V k) = false) (hb : bit v 0 = true) :
    let s1 := (s.regPut (A.IS_CTLs k) v fullMask).wr (F.IS_CTLs_V k) 0
    answers (exec (.isValidate k v) s) fun u =>
      if s1.setReason k = 0 then u.flag (F.IS_CTLs_V k) = true
      else u.flag (F.IS_CTLs_V k) = false ∧ u.rd F.IS_REFUSE_VALID = 1 ∧ u.rd F.IS_REFUSE_REASON = s1.setReason k ∧ u.rd F.IS_REFUSE_SET = k := by
  intro s1
  refine ⟨_, congrArg Host.Outcome.next (State.isCtl_unset k hv hb), ?_⟩
  split_ifs with h
  · exact s1.flag_wr (by omega) true
  · refine ⟨?_, ?_⟩
    · rw [State.flag, State.rd, State.rdw_wrw_ne _ _ _ _ (by simp only [A.IS_CTLs, A.IS_REFUSE]; omega)]
      exact State.flag_wr _ (by omega) false
    · simp only [State.rd, State.rdw_wrw_same]
      exact fget_isRefuse (s1.setReason_lt k) k.isLt

theorem answers_isInvalidate {s : State} {k : Fin 16} (hv : s.flag (F.IS_CTLs_V k) = true) :
    answers (exec (.isInvalidate k) s) fun u =>
      u.flag (F.IS_CTLs_V k) = s.regions.any fun y => y.iset == k.val && (y.mtype == 2 || (y.mtype != 3 && s.homedHere y.base)) := by
  refine ⟨_, congrArg Host.Outcome.next (if_pos hv), ?_⟩
  rw [State.isCtl, if_pos hv]
  split_ifs with h
  · refine (s.flag_wr (by omega) false).trans ?_
    simp only [Bool.and_eq_true, Bool.not_eq_true'] at h
    exact h.2.symm
  · refine hv.trans ?_
    simp only [show bit (1 : Word) 0 = true by decide, show bit (0 : Word) 0 = false by decide, Bool.not_false, Bool.true_and, Bool.not_eq_true',
      Bool.not_eq_false] at h
    exact h.symm

theorem answers_prtValidate {s : State} {n : Fin 64} {v : Word} (hv : s.regionV n = false) (hb : bit v 0 = true) :
    let s1 := (s.regPut (A.PRT_ATTRn n) v fullMask).wr (F.PRT_ATTRn_V n) 0
    answers (exec (.prtValidate n v) s) fun u =>
      if s1.regionReason n = 0 then u.regionV n = true
      else u.regionV n = false ∧ u.rd F.PRT_REFUSE_VALID = 1 ∧ u.rd F.PRT_REFUSE_REASON = s1.regionReason n ∧ u.rd F.PRT_REFUSE_REGION = n := by
  intro s1
  refine ⟨_, congrArg Host.Outcome.next (State.prtAttr_unset n hv hb), ?_⟩
  split_ifs with h
  · exact s1.flag_wr (by omega) true
  · refine ⟨?_, ?_⟩
    · rw [State.regionV, State.flag, State.rd, State.rdw_wrw_ne _ _ _ _ (by simp only [A.PRT_ATTRn, A.PRT_REFUSE]; omega)]
      exact State.flag_wr _ (by omega) false
    · simp only [State.rd, State.rdw_wrw_same]
      exact fget_prtRefuse (s1.regionReason_lt n) n.isLt

theorem answers_prtInvalidate {s : State} {n : Fin 64} (hv : s.regionV n = true) :
    answers (exec (.prtInvalidate n) s) fun u => u.regionV n = false := by
  refine ⟨_, congrArg Host.Outcome.next (if_pos hv), ?_⟩
  rw [State.prtAttr, if_pos hv, if_pos (by decide)]
  exact s.flag_wr (by omega) false

/-! WRAP_CTL (R293). -/

theorem State.persistOk_regPut (s : State) (a n timeout : Nat) (v mask : Word) : (s.regPut a v mask).persistOk n timeout = s.persistOk n timeout := by
  simp [State.persistOk, State.pt]

/-- The registers of the interleave sets and regions stand above WRAP_CTL. -/
theorem State.portPersistent_wrapCtl (s : State) (n : Nat) (v mask : Word) :
    (s.regPut A.WRAP_CTL v mask).portPersistent n = s.portPersistent n := by
  have hctl (i : Nat) : (s.regPut A.WRAP_CTL v mask).rdw (A.IS_CTLs i) = s.rdw (A.IS_CTLs i) :=
    s.rdw_regPut_ne v mask (by simp only [A.IS_CTLs, A.WRAP_CTL]; omega)
  have hports (i : Nat) : (s.regPut A.WRAP_CTL v mask).rdw (A.IS_PORTSs i) = s.rdw (A.IS_PORTSs i) :=
    s.rdw_regPut_ne v mask (by simp only [A.IS_PORTSs, A.WRAP_CTL]; omega)
  unfold State.portPersistent State.homedHere State.setNames State.flag State.rd State.isPort
  rw [s.regions_regPut v mask (by decide), State.regPut_gpos]
  simp only [hctl, hports]

theorem State.persist_foldl (l : List Nat) (t : Nat) (s : State) :
    let u := l.foldl (fun s n => s.wr (F.MPn_CAP_PERSIST n) (b2n (s.persistOk n t))) s
    (∀ n ∈ l, u.rd (F.MPn_CAP_PERSIST n) = b2n (s.persistOk n t)) ∧ (∀ n ∉ l, u.rd (F.MPn_CAP_PERSIST n) = s.rd (F.MPn_CAP_PERSIST n))
      ∧ u.rd F.WRAP_CTL_GPF_TIMEOUT = s.rd F.WRAP_CTL_GPF_TIMEOUT := by
  induction l generalizing s with
  | nil => simp
  | cons m l ih =>
    obtain ⟨hin, hout, hgpf⟩ := ih (s.wr (F.MPn_CAP_PERSIST m) (b2n (s.persistOk m t)))
    have hok (n : Nat) : (s.wr (F.MPn_CAP_PERSIST m) (b2n (s.persistOk m t))).persistOk n t = s.persistOk n t := rfl
    have hne (n : Nat) (h : n ≠ m) : (s.wr (F.MPn_CAP_PERSIST m) (b2n (s.persistOk m t))).rd (F.MPn_CAP_PERSIST n) = s.rd (F.MPn_CAP_PERSIST n) :=
      s.rd_wr_addr _ _ _ (by simp only [A.MPn_CAP]; omega)
    have hself : (s.wr (F.MPn_CAP_PERSIST m) (b2n (s.persistOk m t))).rd (F.MPn_CAP_PERSIST m) = b2n (s.persistOk m t) := by
      rw [State.rd_wr_same _ _ _ (by simp)]
      cases s.persistOk m t <;> rfl
    refine ⟨fun n hn => ?_, fun n hn => ?_, hgpf.trans (s.rd_wr_addr _ _ _ (by simp only [A.MPn_CAP, A.WRAP_CTL]; omega))⟩
    · by_cases hl : n ∈ l
      · exact (hin n hl).trans (congrArg b2n (hok n))
      · obtain rfl : n = m := (List.mem_cons.mp hn).resolve_right hl
        exact (hout n hl).trans hself
    · obtain ⟨hm, hl⟩ := not_or.mp (mt List.mem_cons.mpr hn)
      exact (hout n hl).trans (hne n hm)

/-- A write of WRAP_CTL by what each port had before it. -/
theorem State.wrapCtl_eq (s : State) (v : Word) :
    let s1 := s.regPut A.WRAP_CTL v fullMask
    let t := s1.rd F.WRAP_CTL_GPF_TIMEOUT
    let ready := (List.range 16).filter fun n => s.flag (F.MPn_STAT_READY n)
    s.wrapCtl v fullMask = if ready.any fun n => s.flag (F.MPn_CAP_PERSIST n) && !s.persistOk n t && s.portPersistent n
      then (s1.wr F.WRAP_CTL_GPF_TIMEOUT (s.rd F.WRAP_CTL_GPF_TIMEOUT)).wr F.WRAP_CTL_TOREF 1
      else ready.foldl (fun s n => s.wr (F.MPn_CAP_PERSIST n) (b2n (s.persistOk n t))) s1 := by
  have hready (n : Nat) : (s.regPut A.WRAP_CTL v fullMask).flag (F.MPn_STAT_READY n) = s.flag (F.MPn_STAT_READY n) := by
    rw [State.flag, s.rd_regPut_ne _ _ _ (by simp only [A.MPn_STAT, A.WRAP_CTL]; omega), State.flag]
  have hpers (n : Nat) : (s.regPut A.WRAP_CTL v fullMask).flag (F.MPn_CAP_PERSIST n) = s.flag (F.MPn_CAP_PERSIST n) := by
    rw [State.flag, s.rd_regPut_ne _ _ _ (by simp only [A.MPn_CAP, A.WRAP_CTL]; omega), State.flag]
  unfold State.wrapCtl
  simp only [hready, hpers, State.persistOk_regPut, State.portPersistent_wrapCtl]

/-- That a write of WRAP_CTL whose time-out is t would take PERSIST from a port that a PERSISTENT region uses (R293). -/
def State.gpfBad (s : State) (t port : Nat) : Prop :=
  port < 16 ∧ s.rd (F.MPn_STAT_READY port) = 1 ∧ s.rd (F.MPn_CAP_PERSIST port) = 1 ∧ s.persistOk port t = false ∧ s.portPersistent port = true

theorem State.gpfBad_any (s : State) (t : Nat) :
    (((List.range 16).filter fun n => s.flag (F.MPn_STAT_READY n)).any fun n =>
      s.flag (F.MPn_CAP_PERSIST n) && !s.persistOk n t && s.portPersistent n) = true ↔ ∃ p, s.gpfBad t p := by
  simp only [List.any_eq_true, List.mem_filter, List.mem_range, State.flag, beq_iff_eq, Bool.and_eq_true, Bool.not_eq_true', State.gpfBad,
    and_assoc]

theorem answers_gpfRefused {s : State} {v : Word} (h : ∃ p, s.gpfBad ((s.regPut A.WRAP_CTL v fullMask).rd F.WRAP_CTL_GPF_TIMEOUT) p) :
    answers (exec (.gpfTimeoutWrite v) s) fun u => u.rd F.WRAP_CTL_GPF_TIMEOUT = s.rd F.WRAP_CTL_GPF_TIMEOUT ∧ u.rd F.WRAP_CTL_TOREF = 1 := by
  refine ⟨_, congrArg Host.Outcome.next ((s.wrapCtl_eq v).trans (if_pos ((s.gpfBad_any _).mpr h))), ?_, State.rd_wr_same _ _ _ (by decide)⟩
  rw [State.rd_wr_ne _ _ _ _ (by decide) (by decide), State.rd_wr_same _ _ _ (by decide)]
  exact Nat.mod_eq_of_lt (s.rd_lt _)

theorem answers_gpfJudged {s : State} {v : Word} (h : ¬ ∃ p, s.gpfBad ((s.regPut A.WRAP_CTL v fullMask).rd F.WRAP_CTL_GPF_TIMEOUT) p) :
    answers (exec (.gpfTimeoutWrite v) s) fun u => u.rd F.WRAP_CTL_GPF_TIMEOUT = (s.regPut A.WRAP_CTL v fullMask).rd F.WRAP_CTL_GPF_TIMEOUT
      ∧ ∀ p, p < 16 → s.rd (F.MPn_STAT_READY p) = 1 →
        u.rd (F.MPn_CAP_PERSIST p) = b2n (s.persistOk p ((s.regPut A.WRAP_CTL v fullMask).rd F.WRAP_CTL_GPF_TIMEOUT)) := by
  refine ⟨_, congrArg Host.Outcome.next ((s.wrapCtl_eq v).trans (if_neg (mt (s.gpfBad_any _).mp h))), ?_⟩
  obtain ⟨hin, -, hgpf⟩ := State.persist_foldl ((List.range 16).filter fun n => s.flag (F.MPn_STAT_READY n))
    ((s.regPut A.WRAP_CTL v fullMask).rd F.WRAP_CTL_GPF_TIMEOUT) (s.regPut A.WRAP_CTL v fullMask)
  refine ⟨hgpf, fun p hp hr => (hin p ?_).trans (congrArg b2n (s.persistOk_regPut _ _ _ _ _))⟩
  exact List.mem_filter.mpr ⟨List.mem_range.mpr hp, beq_iff_eq.mpr hr⟩

/-! Fabric, device and enclave windows (R335, R344, R382, R393). -/

theorem answers_fwValidate {s : State} {k : Fin 16} {v : Word} (hv : s.flag (F.FW_TGTw_V k) = false) (hb : bit v 0 = true) :
    answers (exec (.fwValidate k v) s) fun u => u.flag (F.FW_TGTw_V k) = (s.regPut (A.FW_TGTw k) v fullMask).fwOk k
      ∧ ((s.regPut (A.FW_TGTw k) v fullMask).fwOk k = false → u.flag (F.FW_TGTw_REFUSE k) = true) := by
  refine ⟨_, congrArg Host.Outcome.next (if_neg (by rw [hv]; exact Bool.false_ne_true)), ?_⟩
  exact State.flag_checked (s.flag_regPut (regAt_fwTgt k) (by decide) hb) _

theorem answers_gdwValidate {s : State} {w : Fin 8} {v : Word} (hv : s.flag (F.GDW_TGTw_V w) = false) (hb : bit v 0 = true) :
    answers (exec (.gdwValidate w v) s) fun u => u.flag (F.GDW_TGTw_V w) = (s.regPut (A.GDW_TGTw w) v fullMask).gdwOk w
      ∧ ((s.regPut (A.GDW_TGTw w) v fullMask).gdwOk w = false → u.flag (F.GDW_TGTw_REFUSE w) = true) := by
  refine ⟨_, congrArg Host.Outcome.next (if_neg (by rw [hv]; exact Bool.false_ne_true)), ?_⟩
  exact State.flag_checked (s.flag_regPut (regAt_gdwTgt w) (by decide) hb) _

/-- A range lies in one valid region of type VOLATILE. -/
def State.inVolatile (s : State) (pa n : Nat) : Bool := match s.regionOfRange pa n with
  | some y => y.mtype == 0
  | none => false

theorem State.ptBase_unset {s : State} (i : Fin 1024) {v : Word} (hv : s.flag (F.CUE_PTBASEi_V i) = false) (hb : bit v 0 = true) :
    let s1 := s.regPut (A.CUE_PTBASEi i) v fullMask
    s.ptBase i v fullMask = if s1.flag (F.CUE_PTBASEi_V i) && !s.inVolatile (fget v 6 46 * 64) 1088
      then (s1.wr (F.CUE_PTBASEi_V i) 0).wr (F.CUE_PTBASEi_REFUSE i) 1 else s1 := by
  have hput : (s.regPut (A.CUE_PTBASEi i) v fullMask).flag (F.CUE_PTBASEi_V i) = true := s.flag_regPut (regAt_ptBase i) (by decide) hb
  have hpa : (s.regPut (A.CUE_PTBASEi i) v fullMask).ptAddr i = fget v 6 46 * 64 :=
    congrArg (· * 64) (s.rd_regPut_full (regAt_ptBase i) (rst := 0) (by decide) v)
  have hreg := s.regionOfRange_regPut (a := A.CUE_PTBASEi i) v fullMask (by simp only [A.CUE_PTBASEi]; omega) (fget v 6 46 * 64) 1088
  rw [State.ptBase, if_neg (by rw [hv]; exact Bool.false_ne_true)]
  dsimp only
  rw [hput, hpa, hreg, State.inVolatile]
  cases s.regionOfRange (fget v 6 46 * 64) 1088 with
  | none => rfl
  | some y => cases h : y.mtype == 0 <;> simp [h, mtVolatile]

theorem answers_cuePtbaseValidate {s : State} {i : Fin 1024} {v : Word} (hv : s.flag (F.CUE_PTBASEi_V i) = false) (hb : bit v 0 = true) :
    answers (exec (.cuePtbaseValidate i v) s) fun u => u.flag (F.CUE_PTBASEi_V i) = s.inVolatile (fget v 6 46 * 64) 1088
      ∧ (s.inVolatile (fget v 6 46 * 64) 1088 = false → u.flag (F.CUE_PTBASEi_REFUSE i) = true) :=
  ⟨_, congrArg Host.Outcome.next (s.ptBase_unset i hv hb), State.flag_checked (s.flag_regPut (regAt_ptBase i) (by decide) hb) _⟩

theorem answers_enctBaseValidate {s : State} {v : Word} (hv : s.flag F.ENCT_BASE_V = false)
    (hput : (s.regPut A.ENCT_BASE v fullMask).flag F.ENCT_BASE_V = true) :
    answers (exec (.enctBaseValidate v) s) fun u =>
      u.flag F.ENCT_BASE_V = s.inVolatile ((s.regPut A.ENCT_BASE v fullMask).rd F.ENCT_BASE_BASE * 2 ^ 19) (2 ^ 19) := by
  refine ⟨_, rfl, ?_⟩
  have hold : bit (s.rdw A.ENCT_BASE) 0 = false := (s.flag_eq_bit _ _).symm.trans hv
  have hreg (pa : Nat) := s.regionOfRange_regPut (a := A.ENCT_BASE) v fullMask (by decide) pa (2 ^ 19)
  unfold State.enctBase State.inVolatile
  dsimp only
  rw [hput, hold, Bool.not_false, Bool.and_self, if_pos rfl, hreg, Nat.mul_comm]
  cases s.regionOfRange ((s.regPut A.ENCT_BASE v fullMask).rd F.ENCT_BASE_BASE * 2 ^ 19) (2 ^ 19) with
  | none => exact State.flag_wr _ (by omega) false
  | some y =>
    dsimp only
    split_ifs with hm
    · rw [State.flag, State.rd, State.rdw_engZero homeSpared_enctBase]
      exact hput.trans hm.symm
    · exact (State.flag_wr _ (by omega) false).trans (Bool.eq_false_iff.mpr hm).symm

/-! Inbound windows (R342, R365). -/

theorem State.winReason_lt (s : State) (w : WinRef) (others : List WinRef) (vmid ks : Nat) : s.winReason w others vmid ks < 16 := by
  have hc (pa n : Nat) (b : Bool) : s.rangeReason pa n vmid ks b < 16 := by
    unfold State.rangeReason
    split
    · split_ifs <;> decide
    · decide
  unfold State.winReason
  dsimp only
  split_ifs
  any_goals decide
  all_goals exact hc _ _ _

section
variable {s : State} {w : WinRef} {r : RegDesc} {i j : Nat} (hr : regAt regTable w.attr = some (r, i, j)) (hf : fld 0 1 .rw 0 ∈ r.flds)
include hr hf

theorem State.winAttr_sets (others : List WinRef) (vk : State → Nat × Nat) {v : Word} (hv : s.winV w = false) (hb : bit v 0 = true) :
    let s1 := s.regPut w.attr v fullMask
    let c := s1.winReason w others (vk s1).1 (vk s1).2
    (s.winAttr w others vk v fullMask).winV w = (c == 0) ∧ (c ≠ 0 → (s.winAttr w others vk v fullMask).rd ⟨w.attr, 6, 4⟩ = c) := by
  intro s1 c
  have hput : s1.winV w = true := (s1.flag_eq_bit _ _).symm.trans (s.flag_regPut hr hf hb)
  have heq : s.winAttr w others vk v fullMask = if c = 0 then s1 else s1.wrw w.attr (fset (setBit (s1.rdw w.attr) 0 false) 6 4 c) := by
    rw [State.winAttr, if_neg (by rw [hv]; exact Bool.false_ne_true)]
    exact if_neg (by rw [hput]; exact Bool.false_ne_true)
  rw [heq]
  by_cases hc : c = 0
  · rw [if_pos hc, hput, beq_iff_eq.mpr hc]
    exact ⟨rfl, fun h => absurd hc h⟩
  · rw [if_neg hc, beq_eq_false_iff_ne.mpr hc, State.winV, State.rd, State.rdw_wrw_same]
    refine ⟨?_, fun _ => (fget_fset_same _ _ _ _ (by decide)).trans (Nat.mod_eq_of_lt (s1.winReason_lt _ _ _ _))⟩
    rw [bit_fset_ne _ _ _ _ _ (by decide) (by decide), bit_setBit_same _ _ _ (by decide)]

theorem State.winAttr_clears (others : List WinRef) (vk : State → Nat × Nat) : (s.winAttr w others vk 0 1#64).winV w = false := by
  unfold State.winAttr
  by_cases hv : s.winV w
  · rw [if_pos hv, if_pos (by decide), State.winV, State.rdw_wrw_same, bit_setBit_same _ _ _ (by decide)]
  · have hput : (s.regPut w.attr 0 1#64).winV w = false := by
      rw [State.winV, bit_eq_fget]
      exact congrArg (· == 1) (s.rd_regPut hr hf 0 (by decide))
    rw [if_neg hv]
    exact (congrArg (State.winV · w) (if_pos (by rw [hput]; rfl))).trans hput

end

theorem answers_iwValidate {s : State} {r : Fin 4} {j : Fin 32} {v : Word} (hv : s.winV (iwRef r j) = false) (hb : bit v 0 = true) :
    let why := (s.regPut (A.IW_ATTRrj r j) v fullMask).winReason (iwRef r j) (iwAll r) (fget v 10 12) (fget v 22 10)
    answers (exec (.iwValidate r j v) s) fun u => u.winV (iwRef r j) = (why == 0) ∧ (why ≠ 0 → u.rd (F.IW_ATTRrj_REASON r j) = why) := by
  have hr := regAt_iwAttr r j
  have h := State.winAttr_sets (w := iwRef r j) hr (by decide) (iwAll r)
    (fun s => (s.rd (F.IW_ATTRrj_VMID r j), s.rd (F.IW_ATTRrj_KSLOT r j))) hv hb
  dsimp only [iwRef] at h
  rw [s.rd_regPut_full hr (rst := 0) (by decide) v, s.rd_regPut_full hr (rst := 0) (by decide) v] at h
  exact ⟨_, rfl, h⟩

theorem answers_iwInvalidate (s : State) (r : Fin 4) (j : Fin 32) : answers (exec (.iwInvalidate r j) s) fun u => u.winV (iwRef r j) = false :=
  ⟨_, rfl, State.winAttr_clears (w := iwRef r j) (regAt_iwAttr r j) (by decide) _ _⟩

theorem answers_vrhWinValidate {s : State} {f : Fin 256} {w : Fin 8} {v : Word} (hh : s.vrfHere f = true) (hv : s.winV (vrhRef f w) = false)
    (hb : bit v 0 = true) :
    let why := (s.regPut (A.VRH_WIN_ATTR f w) v fullMask).winReason (vrhRef f w) (vrhAll f) (s.rd (F.VRH_CTL_VMID f)) (s.rd (F.VRH_CTL_KSLOT f))
    answers (exec (.vrhWinValidate f w v) s) fun u => u.winV (vrhRef f w) = (why == 0) ∧ (why ≠ 0 → u.rd (F.VRH_WIN_ATTR_REASON f w) = why) := by
  have hne : A.VRH_CTL f ≠ A.VRH_WIN_ATTR f w := by
    simp only [A.VRH_CTL, A.VRH_WIN_ATTR]
    omega
  have h := State.winAttr_sets (w := vrhRef f w) (regAt_vrhAttr f w) (by decide) (vrhAll f)
    (fun s => (s.rd (F.VRH_CTL_VMID f), s.rd (F.VRH_CTL_KSLOT f))) hv hb
  dsimp only [vrhRef] at h
  rw [s.rd_regPut_ne _ v fullMask hne, s.rd_regPut_ne _ v fullMask hne] at h
  exact ⟨_, congrArg Host.Outcome.next (if_pos hh), h⟩

/-! Runners (R358, R367). -/

theorem execRnModeWrite_on {s : State} {v : Word} (h : ∃ g, g < 256 ∧ s.vrfOn g = true) : exec (.rnModeWrite v) s = .next s := by
  obtain ⟨g, hg, hon⟩ := h
  refine congrArg Host.Outcome.next (if_pos (List.any_eq_true.mpr ⟨g, List.mem_range.mpr hg, ?_⟩))
  rw [hon, Bool.true_or]

/-- A register that a filter of the register file keeps. -/
theorem State.rdw_of_keep {s u : State} {p : Nat → Word → Bool} {a : Nat} (h : u.io = SMap.keep p s.io) (hp : ∀ v, p a v = true) :
    u.rdw a = s.rdw a := by
  rw [State.rdw, h, SMap.get, SMap.find?_keep_of p _ a hp]
  rfl

/-- A register that a filter of the register file drops returns to its reset value. -/
theorem State.rdw_of_drop {s u : State} {p : Nat → Word → Bool} {a : Nat} (h : u.io = SMap.keep p s.io) (hp : ∀ v, p a v = false) :
    u.rdw a = ioReset a := by
  rw [State.rdw, h, SMap.get, SMap.find?_keep_of_not p _ a hp]
  rfl

/-- An address outside the pages of the functions, guest and host (R358). -/
def offVrfPages (a : Nat) : Bool := !(A.VRF_SQBASE 0 ≤ a && a < A.VRH_CTL 256)

theorem offVrfPages_rnCfg : offVrfPages A.RN_CFG = true := by decide

/-- A change of MODE, where no function is on or in reset, drops the functions and the registers of their pages. -/
theorem State.rnCfg_changes {s : State} {v : Word} (h : ∀ g, g < 256 → s.vrfOn g = false ∧ s.flag (F.VRH_STAT_RSTBUSY g) = false)
    (hm : s.rnQuiesce ≠ bit v 0) : let s1 := s.regPut A.RN_CFG v fullMask
    s1.rnQuiesce = bit v 0 ∧ (s.rnCfg v fullMask).vrfs = []
      ∧ (s.rnCfg v fullMask).io = SMap.keep (fun a _ => offVrfPages a) (s1.wr F.RN_CFG_NVRF (if bit v 0 then 256 else 64)).io := by
  have hidle : ¬ ((List.range 256).any fun f => s.vrfOn f || s.flag (F.VRH_STAT_RSTBUSY f)) = true := by
    simp only [List.any_eq_true, List.mem_range, not_exists, not_and]
    intro g hg
    rw [(h g hg).1, (h g hg).2]
    exact Bool.false_ne_true
  have hmode : (s.regPut A.RN_CFG v fullMask).rnQuiesce = bit v 0 :=
    (congrArg (· == 1) (s.rd_regPut_full regAt_rnCfg (rst := 0) (by decide) v)).trans (bit_eq_fget v 0).symm
  unfold State.rnCfg
  rw [if_neg hidle]
  dsimp only
  rw [hmode, if_neg (mt beq_iff_eq.mp hm.symm)]
  exact ⟨rfl, rfl, rfl⟩

theorem answers_rnModeWrite {s : State} {v : Word} (h : ∀ g, g < 256 → s.vrfOn g = false ∧ s.flag (F.VRH_STAT_RSTBUSY g) = false)
    (hm : s.rnQuiesce ≠ bit v 0) : answers (exec (.rnModeWrite v) s) fun u => u.rnQuiesce = bit v 0
      ∧ u.rd F.RN_CFG_NVRF = (if bit v 0 then 256 else 64) ∧ u.vrfs = [] ∧ ∀ a, A.VRF_SQBASE 0 ≤ a → a < A.VRH_CTL 256 → u.rdw a = ioReset a := by
  obtain ⟨hmode, hvrfs, hio⟩ := State.rnCfg_changes h hm
  refine ⟨_, rfl, ?_, ?_, hvrfs, fun a h1 h2 => State.rdw_of_drop hio fun _ => ?_⟩
  · rw [State.rnQuiesce, State.flag, State.rd, State.rdw_of_keep hio fun _ => offVrfPages_rnCfg]
    exact (congrArg (· == 1) (State.rd_wr_ne _ F.RN_CFG_NVRF F.RN_CFG_MODE _ (by decide) (by decide))).trans hmode
  · rw [State.rd, State.rdw_of_keep hio fun _ => offVrfPages_rnCfg]
    refine (State.rd_wr_same _ F.RN_CFG_NVRF _ (by decide)).trans ?_
    cases bit v 0 <;> rfl
  · rw [offVrfPages, decide_eq_true h1, decide_eq_true h2]
    rfl

theorem State.rnEng_full (s : State) (j : Nat) (v : Word) :
    let s1 := s.regPut (A.RN_ENGe j) v fullMask
    s.rnEng j v fullMask = if (List.range 32).foldl (fun a y => a + s1.rd (F.RN_ENGe_CREDITS y)) 0 ≤ 32768 then s1.wr (F.RN_ENGe_REFUSED j) 0
      else (s1.wr (F.RN_ENGe_CREDITS j) (s.rd (F.RN_ENGe_CREDITS j))).wr (F.RN_ENGe_REFUSED j) 1 := by
  unfold State.rnEng
  dsimp only
  rw [if_neg (show ¬ fullMask &&& 0x7FF0000#64 = 0 by decide)]
  by_cases h : (List.range 32).foldl (fun a y => a + (s.regPut (A.RN_ENGe j) v fullMask).rd (F.RN_ENGe_CREDITS y)) 0 ≤ 32768
  · rw [if_pos h, if_neg (Nat.not_lt.mpr h)]
  · rw [if_neg h, if_pos (Nat.not_le.mp h)]

theorem answers_rnCreditsWrite (s : State) (j : Fin 32) (v : Word) :
    let s1 := s.regPut (A.RN_ENGe j) v fullMask
    answers (exec (.rnCreditsWrite j v) s) fun u =>
      if (List.range 32).foldl (fun a y => a + s1.rd (F.RN_ENGe_CREDITS y)) 0 ≤ 32768
      then u.rd (F.RN_ENGe_CREDITS j) = fget v 16 11 ∧ u.rd (F.RN_ENGe_REFUSED j) = 0
      else u.rd (F.RN_ENGe_CREDITS j) = s.rd (F.RN_ENGe_CREDITS j) ∧ u.rd (F.RN_ENGe_REFUSED j) = 1 := by
  intro s1
  have hput : s1.rd (F.RN_ENGe_CREDITS j) = fget v 16 11 := s.rd_regPut_full (regAt_rnEng j) (rst := 1024) (by decide) v
  have hcred (u : State) (x : Nat) : (u.wr (F.RN_ENGe_REFUSED j) x).rd (F.RN_ENGe_CREDITS j) = u.rd (F.RN_ENGe_CREDITS j) :=
    u.rd_wr_ne _ _ _ (by simp) (by simp)
  refine ⟨_, congrArg Host.Outcome.next (s.rnEng_full j v), ?_⟩
  split_ifs with h
  · exact ⟨(hcred _ _).trans hput, State.rd_wr_same _ _ _ (by simp)⟩
  · refine ⟨(hcred _ _).trans ?_, State.rd_wr_same _ _ _ (by simp)⟩
    exact (State.rd_wr_same _ _ _ (by simp)).trans (Nat.mod_eq_of_lt (s.rd_lt _))

/-- Settles O48: each command stores what it is given and judges it by its own checks, in the state with the new value. That a change of
RN_CFG.MODE resets the guest and the host page of each function is the model's reading of R358 (log 11). -/
theorem validations : Obligations.Validations := by
  intro s k n r j w f i v
  exact ⟨answers_isValidate, answers_isInvalidate, answers_prtValidate, answers_prtInvalidate, answers_gpfRefused, answers_gpfJudged,
    answers_fwValidate, answers_gdwValidate, answers_iwValidate, answers_iwInvalidate s r j, answers_vrhWinValidate, answers_cuePtbaseValidate,
    answers_enctBaseValidate, execRnModeWrite_on, answers_rnModeWrite, answers_rnCreditsWrite s j v⟩

end Sys2Proof.Machine
end

section
/-!
MESSAGES ON THEIR WAY (R195 to R197, R213): what a message that is sent leaves alone, when it may arrive, and what its arrival takes off.
-/
namespace Sys2Proof.Machine

set_option Elab.async false

theorem State.packetOut_eq (s : State) (a : Agent) (line : Nat) : ∃ l, s.packetOut a line = { s with links := l } := by
  unfold State.packetOut State.linkPush
  dsimp only
  split
  · split_ifs
    · exact ⟨s.links, rfl⟩
    · exact ⟨s.links, rfl⟩
    · exact ⟨_, rfl⟩
  · exact ⟨s.links, rfl⟩

/-- Between s and u messages have been put on their way, in the order of the list, all with the flag nc; else only replay buffers and take
views have changed. -/
def State.posted (s u : State) (nc : Bool) (l : List (MsgKind × Agent × Nat)) : Prop :=
  ∃ v k ms, ms.map Msg.key = l ∧ (∀ m ∈ ms, m.nc = nc) ∧ u = { s with views := v, links := k, msgs := s.msgs ++ ms }

theorem State.posted.refl (s : State) (nc : Bool) : s.posted s nc [] :=
  ⟨s.views, s.links, [], rfl, by simp, by rw [List.append_nil]⟩

theorem State.posted.trans {s u w : State} {nc : Bool} {l m : List (MsgKind × Agent × Nat)} (h : s.posted u nc l) (h' : u.posted w nc m) :
    s.posted w nc (l ++ m) := by
  obtain ⟨v, k, ms, rfl, hn, rfl⟩ := h
  obtain ⟨v', k', ms', rfl, hn', rfl⟩ := h'
  refine ⟨v', k', ms ++ ms', List.map_append, fun x hx => ?_, by rw [← List.append_assoc]⟩
  exact (List.mem_append.mp hx).elim (hn x) (hn' x)

theorem State.posted_post (s : State) {m : Msg} {nc : Bool} (h : m.nc = nc) : s.posted (s.post m) nc [m.key] := by
  unfold State.post
  dsimp only
  split
  · split
    · obtain ⟨v, hv⟩ := s.promote_eq (s.viewNo m.agent)
      obtain ⟨k, hk⟩ := State.packetOut_eq { s with views := v } m.agent m.line
      exact ⟨v, k, [m], rfl, by simp [h], by rw [hv, hk]⟩
    · obtain ⟨k, hk⟩ := s.packetOut_eq m.agent m.line
      exact ⟨s.views, k, [m], rfl, by simp [h], by rw [hk]⟩
  · obtain ⟨k, hk⟩ := s.packetOut_eq m.agent m.line
    exact ⟨s.views, k, [m], rfl, by simp [h], by rw [hk]⟩

theorem State.posted_send (s : State) (k : MsgKind) (a : Agent) (line : Nat) : s.posted (s.send k a line) false [(k, a, line)] :=
  s.posted_post rfl

theorem State.posted_sendAll (s : State) (k : MsgKind) (as : List Agent) (line : Nat) :
    s.posted (s.sendAll k as line) false (as.map fun a => (k, a, line)) := by
  induction as generalizing s with
  | nil => exact .refl s false
  | cons a as ih => exact (s.posted_send k a line).trans (ih (s.send k a line))

/-- A grant sends the data, where it is asked for, and then the GO. -/
theorem State.posted_grant (s : State) (go : MsgKind) (a : Agent) (line : Nat) (dat : Option Bool) :
    s.posted (s.grant go a line dat) false ((dat.map fun x => (MsgKind.dat x, a, line)).toList ++ [(go, a, line)]) := by
  unfold State.grant
  cases dat with
  | none => exact s.posted_send go a line
  | some x =>
    refine State.posted.trans (nc := false) (s.posted_post ?_) (State.posted_send _ go a line)
    rfl

theorem State.posted_grantNc (s : State) (a : Agent) (line : Nat) (dat : Option (List Byte × Bool)) :
    s.posted (s.grantNc a line dat) true ((dat.map fun _ => (MsgKind.dat false, a, line)).toList ++ [(.goNc, a, line)]) := by
  unfold State.grantNc
  cases dat with
  | none => exact s.posted_post rfl
  | some x =>
    refine State.posted.trans (nc := true) (s.posted_post ?_) (State.posted_post _ ?_)
    · rfl
    · rfl

section
variable {s u : State} {nc : Bool} {l : List (MsgKind × Agent × Nat)} (h : s.posted u nc l)
include h

theorem State.posted.sent : s.sent u l := by
  obtain ⟨v, k, ms, rfl, -, rfl⟩ := h
  exact List.map_append

theorem State.posted.lines : u.lines = s.lines := by
  obtain ⟨v, k, ms, -, -, rfl⟩ := h
  rfl

theorem State.posted.mem : u.mem = s.mem := by
  obtain ⟨v, k, ms, -, -, rfl⟩ := h
  rfl

theorem State.posted.line (x : Nat) : u.line x = s.line x := by
  unfold State.line
  rw [h.lines]

end

/-! When a message may arrive. -/

/-- A message on a channel without an order arrives once it is on its way. -/
theorem State.hasMsg_of_mem {s : State} {k : MsgKind} {a : Agent} {line : Nat} (ho : k.ordered = false) (hs : k.snoops = false) {m : Msg}
    (hm : m ∈ s.msgs) (hk : m.key = (k, a, line)) (hn : m.nc = false) : s.hasMsg k a line = true := by
  obtain ⟨rfl, rfl, rfl⟩ : m.kind = k ∧ m.agent = a ∧ m.line = line := by simpa [Msg.key] using hk
  have h : ((s.msgs.filter fun x => x.agent == m.agent && x.line == m.line && !x.nc).any fun x => x.kind == m.kind) = true :=
    List.any_eq_true.mpr ⟨m, List.mem_filter.mpr ⟨hm, by simp [hn]⟩, beq_self_eq_true _⟩
  simp only [State.hasMsg, ho, hs, h, Bool.false_eq_true, if_false, Bool.not_false, Bool.true_or, Bool.and_self]

theorem State.posted.hasMsg {s u : State} {l : List (MsgKind × Agent × Nat)} (h : s.posted u false l) {k : MsgKind} {a : Agent} {line : Nat}
    (ho : k.ordered = false) (hs : k.snoops = false) (hk : (k, a, line) ∈ l) : u.hasMsg k a line = true := by
  obtain ⟨v, w, ms, rfl, hn, rfl⟩ := h
  obtain ⟨m, hm, hmk⟩ := List.mem_map.mp hk
  exact State.hasMsg_of_mem ho hs (List.mem_append_right _ hm) hmk (hn m hm)

/-- No message to an agent about a line is on its way on the channel whose order R197 keeps. -/
def State.channelClear (s : State) (a : Agent) (line : Nat) : Prop :=
  ∀ m ∈ s.msgs, m.agent = a → m.line = line → m.nc = false → m.kind.ordered = false

/-- A grant or EVA that is sent arrives next where none of its channel stands before it (R197). -/
theorem State.posted.hasMsg_ordered {s u : State} {l : List (MsgKind × Agent × Nat)} {k : MsgKind} {a : Agent} {line : Nat}
    (h : s.posted u false (l ++ [(k, a, line)])) (ho : k.ordered = true) (hs : k.snoops = false) (hl : ∀ x ∈ l, x.1.ordered = false)
    (hc : s.channelClear a line) : u.hasMsg k a line = true := by
  obtain ⟨v, w, ms, hms, hn, rfl⟩ := h
  obtain ⟨ms, z, rfl, rfl, hz⟩ := List.map_eq_append_iff.mp hms
  obtain ⟨m, rfl, hk⟩ := List.map_eq_singleton_iff.mp hz
  obtain ⟨rfl, rfl, rfl⟩ : m.kind = k ∧ m.agent = a ∧ m.line = line := by simpa [Msg.key] using hk
  have hm : m.nc = false := hn m (by simp)
  have hs1 : ((s.msgs.filter fun x => x.agent == m.agent && x.line == m.line && !x.nc).filter fun x => x.kind.ordered) = [] := by
    simp only [List.filter_eq_nil_iff, List.mem_filter, Bool.and_eq_true, beq_iff_eq, Bool.not_eq_true']
    rintro x ⟨hx, ⟨ha, hx'⟩, hc'⟩
    simp [hc x hx ha hx' hc']
  have hs2 : ((ms.filter fun x => x.agent == m.agent && x.line == m.line && !x.nc).filter fun x => x.kind.ordered) = [] := by
    simp only [List.filter_eq_nil_iff, List.mem_filter]
    rintro x ⟨hx, -⟩
    exact Bool.eq_false_iff.mp (hl _ (List.mem_map_of_mem hx))
  simp [State.hasMsg, ho, hs, List.filter_append, hs1, hs2, hm]

/-! What an arrival takes off. -/

theorem State.recv_eq (s : State) (k : MsgKind) (a : Agent) (line : Nat) :
    ∃ v ms, ms.Sublist s.msgs ∧ s.recv k a line = { s with views := v, msgs := ms } := by
  unfold State.recv
  dsimp only
  split
  · split
    · obtain ⟨v, hv⟩ := State.promote_eq { s with msgs := _ } (s.viewNo a)
      exact ⟨v, _, List.eraseP_sublist, hv⟩
    · exact ⟨s.views, _, List.eraseP_sublist, rfl⟩
  · exact ⟨s.views, s.msgs, List.Sublist.refl _, rfl⟩

end Sys2Proof.Machine
end

section
/-!
REQUESTS AT HOME (R190, R191, R193 to R195), and the settlement of O34.
-/
namespace Sys2Proof.Machine

set_option Elab.async false

theorem LineRec.present_addAgent (r : LineRec) {a : Agent} (h : a ≠ .hub) : (r.addAgent a).present a = true := by
  cases a with
  | die d =>
    simp only [LineRec.addAgent, LineRec.addDp, LineRec.present]
    split_ifs with hd
    · exact hd
    · simp
  | pkg p =>
    simp only [LineRec.addAgent, LineRec.present]
    split_ifs with hp
    · exact hp
    · simp
  | hub => exact absurd rfl h

/-- An agent that has been added to an entry stays so whatever else the home writes of the entry. -/
theorem LineRec.present_addAgent_with (r : LineRec) {a : Agent} (h : a ≠ .hub) (d : DirSt) (f : Option Nat) (t : Option HomeTxn) :
    ({ r.addAgent a with dir := d, fh := f, txn := t } : LineRec).present a = true := by
  have hp := r.present_addAgent h
  cases a <;> exact hp

/-! What a request does to the line and which messages go out. -/

/-- Between s and u agent a has become the owner of a line, no transaction is left, and the messages of the kinds ks have gone to it. -/
def State.grantedLine (s u : State) (a : Agent) (line : Nat) (ks : List MsgKind) : Prop :=
  (u.line line).dir = .owned ∧ (u.line line).present a = true ∧ (u.line line).txn = none ∧ s.sent u (ks.map fun k => (k, a, line))

/-- Between s and u a transaction has started, which waits for the answers of the agents as to snoops of kind k. -/
def State.waitsFor (s u : State) (line : Nat) (q : HomeReq) (k : MsgKind) (as : List Agent) : Prop :=
  (u.line line).txn = some ⟨q, as, [], false⟩ ∧ (u.line line).dir = (s.line line).dir ∧ s.sent u (as.map fun h => (k, h, line))

theorem State.sent_of_msgs {s z u : State} {l : List (MsgKind × Agent × Nat)} (hz : z.msgs = s.msgs) (h : z.sent u l) : s.sent u l := by
  unfold State.sent at *
  rwa [← hz]

section
variable {s z : State} {a : Agent} {line : Nat}

theorem State.grantedLine_grant {r : LineRec} (hz : z.msgs = s.msgs) (hd : r.dir = .owned) (hp : r.present a = true) (ht : r.txn = none)
    (dat : Option Bool) : s.grantedLine ((z.setLine line r).grant .goE a line dat) a line ((dat.map MsgKind.dat).toList ++ [.goE]) := by
  have h := (z.setLine line r).posted_grant .goE a line dat
  have hl : ((z.setLine line r).grant .goE a line dat).line line = r := (h.line line).trans (z.line_setLine line r)
  have hs : s.sent ((z.setLine line r).grant .goE a line dat) _ := State.sent_of_msgs (z := z.setLine line r) hz h.sent
  unfold State.grantedLine
  rw [hl]
  refine ⟨hd, hp, ht, ?_⟩
  cases dat <;> exact hs

theorem State.waitsFor_await (hz : z.msgs = s.msgs) (hd : (z.line line).dir = (s.line line).dir) (q : HomeReq) (k : MsgKind) (as : List Agent) :
    s.waitsFor (z.await line q k as) line q k as := by
  have h := (z.setLine line { z.line line with txn := some ⟨q, as, [], false⟩ }).posted_sendAll k as line
  have hl := (h.line line).trans (z.line_setLine line _)
  exact ⟨congrArg LineRec.txn hl, (congrArg LineRec.dir hl).trans hd, State.sent_of_msgs hz h.sent⟩

end

/-! The home serves a request. -/

/-- An entry that is given to a line changes its age alone. -/
theorem State.line_dirAlloc (s : State) (line : Nat) : let r := (s.dirAlloc line).line line
    r.dir = (s.line line).dir ∧ r.fh = (s.line line).fh ∧ r.holders = (s.line line).holders ∧ ∀ a, r.present a = (s.line line).present a := by
  unfold State.dirAlloc
  dsimp only
  split
  · have hl : State.line { s.setLine line { s.line line with alloc := s.nextId } with nextId := s.nextId + 1 } line
        = { s.line line with alloc := s.nextId } := s.line_setLine line _
    rw [hl]
    exact ⟨rfl, rfl, rfl, fun a => by cases a <;> rfl⟩
  · exact ⟨rfl, rfl, rfl, fun a => rfl⟩

@[simp] theorem State.dirAlloc_msgs (s : State) (line : Nat) : (s.dirAlloc line).msgs = s.msgs := by
  unfold State.dirAlloc
  dsimp only
  split <;> rfl

section
variable {s : State} {a : Agent} {line : Nat}

theorem State.homeGo_rdS_free (ha : a ≠ .hub) (hd : (s.line line).dir = .free) : s.grantedLine (s.homeGo line (.rdS a)) a line [.dat false, .goE] := by
  obtain ⟨hdir, -⟩ := s.line_dirAlloc line
  simp only [State.homeGo, hdir, hd]
  exact State.grantedLine_grant (s.dirAlloc_msgs line) rfl (LineRec.present_addAgent_with _ ha _ _ _) rfl (some false)

theorem State.homeGo_rdS_owned (hd : (s.line line).dir = .owned) :
    s.waitsFor (s.homeGo line (.rdS a)) line (.rdS a) .snpS ((s.line line).holders.filter fun h => h != a) := by
  obtain ⟨hdir, hfh, hholders, hpres⟩ := s.line_dirAlloc line
  simp only [State.homeGo, hdir, hd, hholders]
  exact State.waitsFor_await (s.dirAlloc_msgs line) hdir _ _ _

/-- A holder that forwards is snooped, for a die as the next one, for a package for its data alone (R189, R193). -/
theorem State.homeGo_rdS_forwarder (ha : a ≠ .hub) (hd : (s.line line).dir = .shared) {f : Nat} (hf : (s.line line).fh = some f) :
    s.waitsFor (s.homeGo line (.rdS a)) line (.rdS a) (if (agentDie a).isSome then .snpS else .snpCur) [.die (Fin.ofNat 12 f)] := by
  obtain ⟨hdir, hfh, hholders, hpres⟩ := s.line_dirAlloc line
  simp only [State.homeGo, hdir, hd, hfh, hf]
  cases a with
  | die d => exact State.waitsFor_await (s.dirAlloc_msgs line) hdir _ _ _
  | pkg p => exact State.waitsFor_await (s.dirAlloc_msgs line) hdir _ _ _
  | hub => exact absurd rfl ha

/-- Without a forwarder the home's own data go out, and a die that asks becomes the forwarder. -/
theorem State.homeGo_rdS_unforwarded (ha : a ≠ .hub) (hd : (s.line line).dir = .shared) (hf : (s.line line).fh = none) :
    let u := s.homeGo line (.rdS a)
    (∀ d, agentDie a = some d → (u.line line).fh = some d) ∧ (u.line line).present a = true
      ∧ s.sent u [(.dat false, a, line), (if (agentDie a).isSome then .goF else .goS, a, line)] := by
  obtain ⟨hdir, hfh, hholders, hpres⟩ := s.line_dirAlloc line
  have hm := s.dirAlloc_msgs line
  simp only [State.homeGo, hdir, hd, hfh, hf]
  cases a with
  | die d =>
    refine ⟨fun e he => ?_, ?_, State.sent_of_msgs hm (State.posted_grant _ _ _ _ _).sent⟩
    · rw [(State.posted_grant _ _ _ _ _).line, State.line_setLine]
      exact he
    · rw [(State.posted_grant _ _ _ _ _).line, State.line_setLine]
      exact LineRec.present_addAgent_with _ ha _ _ _
  | pkg p =>
    refine ⟨(fun e he => nomatch he), ?_, State.sent_of_msgs hm (State.posted_grant _ _ _ _ _).sent⟩
    rw [(State.posted_grant _ _ _ _ _).line, State.line_setLine]
    exact LineRec.present_addAgent_with _ ha _ _ _
  | hub => exact absurd rfl ha

theorem State.homeGo_rdX (ha : a ≠ .hub) : let others := (s.line line).holders.filter fun h => h != a
    if others = [] then s.grantedLine (s.homeGo line (.rdX a)) a line [.dat false, .goE]
    else s.waitsFor (s.homeGo line (.rdX a)) line (.rdX a) .snpX others := by
  obtain ⟨hdir, hfh, hholders, hpres⟩ := s.line_dirAlloc line
  simp only [State.homeGo, hholders, List.isEmpty_iff]
  split_ifs
  · exact State.grantedLine_grant (s.dirAlloc_msgs line) rfl (LineRec.present_addAgent_with _ ha _ _ _) rfl (some false)
  · exact State.waitsFor_await (s.dirAlloc_msgs line) hdir _ _ _

theorem State.homeGo_upg (ha : a ≠ .hub) (hd : (s.line line).dir = .shared) (hp : (s.line line).present a = true) :
    let others := (s.line line).holders.filter fun h => h != a
    if others = [] then s.grantedLine (s.homeGo line (.upg a)) a line [.goE]
    else s.waitsFor (s.homeGo line (.upg a)) line (.upg a) .snpX others := by
  obtain ⟨hdir, hfh, hholders, hpres⟩ := s.line_dirAlloc line
  simp only [State.homeGo, hdir, hd, hholders, hpres, hp, List.isEmpty_iff, decide_true, Bool.and_self, if_true]
  split_ifs
  · exact State.grantedLine_grant (s.dirAlloc_msgs line) rfl (LineRec.present_addAgent_with _ ha _ _ _) rfl none
  · exact State.waitsFor_await (s.dirAlloc_msgs line) hdir _ _ _

theorem State.homeGo_cur_owned {o : Agent} {os : List Agent} (hd : (s.line line).dir = .owned) (ho : (s.line line).holders = o :: os) :
    s.waitsFor (s.homeGo line (.cur a)) line (.cur a) .snpCur [o] := by
  simp only [State.homeGo, hd, ho]
  exact State.waitsFor_await rfl rfl _ _ _

theorem State.homeGo_cur_home (h : (s.line line).dir = .owned → (s.line line).holders = []) : let u := s.homeGo line (.cur a)
    (u.line line).dir = (s.line line).dir ∧ s.sent u [(.dat false, a, line), (.goNc, a, line)] := by
  have hgo : s.homeGo line (.cur a)
      = (s.setLine line { s.line line with txn := none }).grantNc a line (some (s.curData line)) := by
    simp only [State.homeGo]
    split
    next hd ho => exact absurd (h hd) (by rw [ho]; exact List.cons_ne_nil _ _)
    next => rfl
  have hp := (s.setLine line { s.line line with txn := none }).posted_grantNc a line (some (s.curData line))
  have hl := (hp.line line).trans (s.line_setLine line _)
  dsimp only
  rw [hgo, hl]
  exact ⟨rfl, hp.sent⟩

end

/-! A request arrives at its home. -/

section
variable {s : State} {a : Agent} {line : Nat} (hears : s.hears a = true) (reaches : s.reaches a = true) (credit : s.hasCredit a = true)
  (homed : s.homedHere (line * 64) = true)
include hears reaches credit homed

/-- A request waits behind the transaction that is active on its line. -/
theorem State.homeReq_busy {x : HomeTxn} (ht : (s.line line).txn = some x) (q : HomeReq) :
    s.homeReq a line q none = s.setLine line { s.line line with queue := (s.line line).queue ++ [q] } := by
  simp [State.homeReq, hears, reaches, credit, homed, ht]

/-- A request for a line at rest, which needs no victim, is served. -/
theorem State.homeReq_idle (ht : (s.line line).txn = none) (hq : (s.line line).queue = []) {q : HomeReq}
    (hv : q.takes = true → s.dirFull line = false) : s.homeReq a line q none = s.homeGo line q := by
  have hs : s.homeStart line q none = s.homeGo line q := by
    unfold State.homeStart State.dirVictim
    cases hk : q.takes with
    | false => rfl
    | true => simp [hv hk]
  simp [State.homeReq, hears, reaches, credit, homed, ht, hq, hs]

end

/-- A line that has an entry needs no victim. -/
theorem State.dirFull_of_entry {s : State} {line : Nat} (h : (s.line line).dir ≠ .free) : s.dirFull line = false := by
  simp [State.dirFull, h]

/-! A command makes its request. -/

/-- An agent that is a die may ask for a line: it is not being evicted, and a thread waits for it or a prefetch has a miss entry (R154, R200). -/
def State.mayAsk (s : State) (a : Agent) (line : Nat) : Prop := ∀ d, agentDie a = some d → SMap.find? (s.line line).evict d = none
  ∧ (s.demand d line = true ∨ l2MissRoom (SMap.get [] s.miss (s.prefetcher d)) 5 = true)

/-- In s command i makes request q of agent a for a line; only miss entries and free values have been taken before. -/
def State.asksBy (s : State) (i : Instr) (a : Agent) (line : Nat) (q : HomeReq) : Prop :=
  ∃ m n, exec i s = .next (State.homeReq { s with miss := m, freeCtr := n } a line q none)

theorem State.dieAsks_eq {s : State} {d : DieNo} {line : Nat} (hc : s.cacheable (line * 64) = true) (ha : s.mayAsk (.die d) line) (q : HomeReq) :
    ∃ m n, s.dieAsks d line q none = State.homeReq { s with miss := m, freeCtr := n } (.die d) line q none := by
  obtain ⟨he, hm⟩ := ha d.val rfl
  unfold State.dieAsks
  rw [if_neg (by simp [hc, he])]
  dsimp only
  split_ifs with hdem hroom hh
  · exact ⟨s.miss, s.freeCtr, rfl⟩
  · exact ⟨_, _, rfl⟩
  · exact ⟨s.miss, s.freeCtr, rfl⟩
  · exact absurd (hm.resolve_left hdem) hroom

section
variable {s : State} {a : Agent} {line : Nat} (hub : a ≠ .hub) (cached : s.cacheable (line * 64) = true)
include hub cached

theorem State.pkgAsks_eq (q : HomeReq) : s.pkgAsks a line q none = State.homeReq { s with miss := s.miss, freeCtr := s.freeCtr } a line q none :=
  if_neg (by simp [hub, cached])

variable (asks : s.mayAsk a line)
include asks

theorem State.asksBy_rdS (hst : ∀ d, agentDie a = some d → (s.line line).stOf d = .i) : s.asksBy (.rdS a line none) a line (.rdS a) := by
  cases a with
  | die d =>
    obtain ⟨m, n, h⟩ := State.dieAsks_eq cached asks (.rdS (.die d))
    exact ⟨m, n, congrArg Host.Outcome.next ((if_pos (hst d.val rfl)).trans h)⟩
  | pkg p => exact ⟨_, _, congrArg Host.Outcome.next (State.pkgAsks_eq hub cached _)⟩
  | hub => exact absurd rfl hub

theorem State.asksBy_rdX (hst : ∀ d, agentDie a = some d → (s.line line).stOf d = .i) : s.asksBy (.rdX a line none) a line (.rdX a) := by
  cases a with
  | die d =>
    obtain ⟨m, n, h⟩ := State.dieAsks_eq cached asks (.rdX (.die d))
    exact ⟨m, n, congrArg Host.Outcome.next ((if_pos (hst d.val rfl)).trans h)⟩
  | pkg p => exact ⟨_, _, congrArg Host.Outcome.next (State.pkgAsks_eq hub cached _)⟩
  | hub => exact absurd rfl hub

theorem State.asksBy_upg (hst : ∀ d, agentDie a = some d → (s.line line).stOf d ≠ .m ∧ (s.line line).stOf d ≠ .e) :
    s.asksBy (.upg a line none) a line (.upg a) := by
  cases a with
  | die d =>
    obtain ⟨m, n, h⟩ := State.dieAsks_eq cached asks (.upg (.die d))
    exact ⟨m, n, congrArg Host.Outcome.next ((if_neg (by simp [hst d.val rfl])).trans h)⟩
  | pkg p => exact ⟨_, _, congrArg Host.Outcome.next (State.pkgAsks_eq hub cached _)⟩
  | hub => exact absurd rfl hub

end

section
variable {s : State} {a : Agent} {line : Nat} (hears : s.hears a = true) (reaches : s.reaches a = true) (credit : s.hasCredit a = true)
  (homed : s.homedHere (line * 64) = true)
include hears reaches credit homed

theorem State.asksBy.busy {i : Instr} {q : HomeReq} {x : HomeTxn} (h : s.asksBy i a line q) (ht : (s.line line).txn = some x) :
    answers (exec i s) fun u => (u.line line).queue = (s.line line).queue ++ [q] ∧ s.sent u [] := by
  obtain ⟨m, n, h⟩ := h
  rw [h, State.homeReq_busy (s := { s with miss := m, freeCtr := n }) hears reaches credit homed ht q]
  exact answers_next ⟨congrArg LineRec.queue (State.line_setLine _ line _), (List.append_nil _).symm⟩

/-- What is so of every state that has the request served is so after the command. -/
theorem State.asksBy.idle {i : Instr} {q : HomeReq} {P : State → Prop} (h : s.asksBy i a line q) (ht : (s.line line).txn = none)
    (hq : (s.line line).queue = []) (hv : s.dirFull line = false)
    (hP : ∀ m n, P (State.homeGo { s with miss := m, freeCtr := n } line q)) : answers (exec i s) P := by
  obtain ⟨m, n, h⟩ := h
  rw [h, State.homeReq_idle (s := { s with miss := m, freeCtr := n }) hears reaches credit homed ht hq (fun _ => hv)]
  exact answers_next (hP m n)

theorem answers_rdNc {pa size : Nat} (cached : s.cacheable pa = true) (here : s.homedHere pa = true) (hls : s.lsOf pa = none) (hl : pa / 64 = line)
    (ht : (s.line line).txn = none) (hq : (s.line line).queue = []) {P : State → Prop} (hP : P (s.homeGo line (.cur a))) :
    answers (exec (.rdNc a pa size) s) P := by
  subst hl
  have hgo := State.homeReq_idle hears reaches credit homed ht hq (q := .cur a) (fun h => Bool.noConfusion h)
  refine ⟨_, ?_, hP⟩
  simp [execRdNc, State.pkgLs, hears, reaches, hls, cached, here, hgo]

end

/-- Settles O34: the command makes its request, which waits behind a transaction or is served at once, by its kind and by the line's entry. -/
theorem coherenceRequests : Obligations.CoherenceRequests := by
  intro s a line pa size x
  dsimp only
  intro hears reaches credit hub homed cached
  have busy {i : Instr} {q : HomeReq} (h : s.asksBy i a line q) (ht) := State.asksBy.busy (x := x) hears reaches credit homed h ht
  have idle {i : Instr} {q : HomeReq} {P} (h : s.asksBy i a line q) := State.asksBy.idle (P := P) hears reaches credit homed h
  have rdS := State.asksBy_rdS (s := s) (line := line) hub cached
  have rdX := State.asksBy_rdX (s := s) (line := line) hub cached
  have upg := State.asksBy_upg (s := s) (line := line) hub cached
  refine ⟨?_, ?_, ?_, ?_, ?_, ?_, ?_⟩
  · rintro ⟨hask, hst⟩ ht p hp
    simp only [List.mem_cons, List.not_mem_nil, or_false] at hp
    obtain rfl | rfl | rfl := hp
    · exact busy (rdS hask hst) ht
    · exact busy (rdX hask hst) ht
    · exact busy (upg hask fun d hd => by simp [hst d hd]) ht
  · rintro ⟨hask, hst⟩ ht hq hd hv
    exact idle (rdS hask hst) ht hq hv fun m n => State.homeGo_rdS_free (s := { s with miss := m, freeCtr := n }) hub hd
  · rintro ⟨hask, hst⟩ ht hq hd
    exact idle (rdS hask hst) ht hq (State.dirFull_of_entry (by simp [hd])) fun m n =>
      State.homeGo_rdS_owned (s := { s with miss := m, freeCtr := n }) hd
  · rintro ⟨hask, hst⟩ ht hq hd
    refine idle (rdS hask hst) ht hq (State.dirFull_of_entry (by simp [hd])) fun m n => ?_
    cases hf : (s.line line).fh with
    | some f =>
      have h := State.homeGo_rdS_forwarder (s := { s with miss := m, freeCtr := n }) hub hd hf
      cases a with
      | die d => exact h
      | pkg p => exact h
      | hub => exact absurd rfl hub
    | none =>
      have h := State.homeGo_rdS_unforwarded (s := { s with miss := m, freeCtr := n }) hub hd hf
      cases a with
      | die d => exact ⟨h.1 d.val rfl, h.2⟩
      | pkg p => exact h.2
      | hub => exact absurd rfl hub
  · rintro ⟨hask, hst⟩ ht hq hv
    exact idle (rdX hask hst) ht hq hv fun m n => State.homeGo_rdX (s := { s with miss := m, freeCtr := n }) hub
  · rintro hask ht hq hd hp hst
    exact idle (upg hask hst) ht hq (State.dirFull_of_entry (by simp [hd])) fun m n =>
      State.homeGo_upg (s := { s with miss := m, freeCtr := n }) hub hd hp
  · intro hca hho hls hl ht hq
    refine answers_rdNc hears reaches credit homed hca hho hls hl ht hq ?_
    split
    next hd ho => exact State.homeGo_cur_owned hd ho
    next hno =>
      refine State.homeGo_cur_home fun hd => ?_
      cases ho : (s.line line).holders with
      | nil => rfl
      | cons o os => exact (hno o os hd ho).elim

end Sys2Proof.Machine
end

section
/-!
ACCESSES WITHOUT CACHING AND LOCAL STORES through the H-die (R187, R195, R421), and the settlement of O35.
-/
namespace Sys2Proof.Machine

set_option Elab.async false

/-! Errors that are logged. -/

/-- Between s and u nothing but registers has changed. -/
def State.regsOnly (s u : State) : Prop := ∃ io, u = { s with io := io }

theorem State.regsOnly.refl (s : State) : s.regsOnly s := ⟨s.io, rfl⟩

theorem State.regsOnly.trans {s u v : State} (h : s.regsOnly u) (h' : u.regsOnly v) : s.regsOnly v := by
  obtain ⟨_, rfl⟩ := h
  obtain ⟨io, rfl⟩ := h'
  exact ⟨io, rfl⟩

theorem State.regsOnly_wrw (s : State) (a : Nat) (v : Word) : s.regsOnly (s.wrw a v) := ⟨_, rfl⟩

theorem State.regsOnly_wr (s : State) (f : FRef) (v : Nat) : s.regsOnly (s.wr f v) := s.regsOnly_wrw _ _

theorem State.regsOnly_fillBank (s : State) (b : Nat) (e : ErrRec) (ce : Nat) (ov : Bool) : s.regsOnly (s.fillBank b e ce ov) :=
  (((s.regsOnly_wrw _ _).trans (State.regsOnly_wr _ _ _)).trans (State.regsOnly_wrw _ _ _)).trans (State.regsOnly_wrw _ _ _)

theorem State.regsOnly_logErr (s : State) (b : Nat) (e : ErrRec) : s.regsOnly (s.logErr b e) := by
  have hce : s.regsOnly (if e.sev = .corrected then s.incSat (F.DLY_CEs_COUNT (e.struct - 1)) 1 else s) := by
    split
    · exact s.regsOnly_wr _ _
    · exact .refl s
  unfold State.logErr
  dsimp only
  generalize (if e.sev = .corrected then s.incSat (F.DLY_CEs_COUNT (e.struct - 1)) 1 else s) = z at hce ⊢
  split
  · split
    · exact (hce.trans (z.regsOnly_wr _ _)).trans (State.regsOnly_wr _ _ _)
    · split
      · exact hce.trans (z.regsOnly_fillBank _ _ _ _)
      · exact hce.trans (z.regsOnly_wr _ _)
  · exact hce.trans (z.regsOnly_fillBank _ _ _ _)

/-- An error that is logged changes registers and the machine checks that wait. -/
theorem State.logAsync_eq (s : State) (b : Nat) (e : ErrRec) : ∃ io t p, s.logAsync b e = { s with io := io, threads := t, mcPend := p } := by
  obtain ⟨io, hio⟩ := s.regsOnly_logErr b { e with sev := .recoverable, cause := 0x90 }
  unfold State.logAsync State.mcQueue
  rw [hio]
  dsimp only
  split
  · split_ifs <;> exact ⟨_, _, _, rfl⟩
  · split_ifs <;> exact ⟨_, _, _, rfl⟩

theorem State.undecodable_eq (s : State) (b pa : Nat) : ∃ io t p, s.undecodable b pa = { s with io := io, threads := t, mcPend := p } :=
  State.logAsync_eq (s.inc F.IS_UNDEC_COUNT 1) b _

/-! Writes and reads of a local store. -/

theorem State.homePieces_nil (s : State) (g n fuel pa ks : Nat) : s.homePieces g n fuel pa [] ks = s := by
  cases fuel <;> rfl

/-- A write of an agent at home, within one line of a local store. -/
theorem State.homeWrites_ls {s : State} {pa x o : Nat} {data : List Byte} (hls : s.lsOf pa = some (x, o)) (hrun : s.dieRunning x = true)
    (hlen : data.length ≤ 64 - pa % 64) (g ks : Nat) :
    ∃ n, s.homeWrites g (data.length + 1) pa data ks = { s.lsWrite x o data none with nextId := n } := by
  have hpieces : s.homePieces g s.nextId (data.length + 1) pa data ks = s.lsWrite x o data none := by
    rw [State.homePieces]
    split_ifs with hd
    · obtain rfl := List.isEmpty_iff.mp hd
      simp [State.lsWrite, State.lsReach, hrun]
    · dsimp only
      rw [List.take_of_length_le hlen, List.drop_eq_nil_of_le hlen, State.homePieces_nil, State.homeWrite, hls]
  unfold State.homeWrites
  rw [hpieces]
  dsimp only
  split_ifs
  · exact ⟨_, rfl⟩
  · exact ⟨_, rfl⟩

/-- Bytes written in a local store, each by its number in the memory. -/
theorem State.wroteLs.bytes {s u : State} {d o : Nat} {bs : List Byte} (h : s.wroteLs u d o bs) : u.mem.dev = s.mem.dev
    ∧ (∀ i, i < bs.length → SMap.find? u.mem.ls (d * lsSize + o + i) = some (bs.getD i 0))
    ∧ ∀ i, i < d * lsSize + o ∨ d * lsSize + o + bs.length ≤ i → SMap.find? u.mem.ls i = SMap.find? s.mem.ls i := by
  obtain ⟨hdev, hin, hout⟩ := h
  rw [Nat.mul_comm d lsSize]
  refine ⟨hdev, fun i hi => (hin i hi).trans ?_, hout⟩
  rw [List.getD_eq_getElem _ _ hi, List.getElem?_eq_getElem hi]

theorem State.wroteLs.posted {s z u : State} {d o : Nat} {bs : List Byte} {nc : Bool} {l : List (MsgKind × Agent × Nat)} (h : s.wroteLs z d o bs)
    (hp : z.posted u nc l) : s.wroteLs u d o bs := by
  unfold State.wroteLs at *
  rwa [hp.mem]

/-- A read of a local store uses up a free value at most. -/
theorem State.lsRead_eq (s : State) (d o n : Nat) (src : Option Nat) : ∃ bs p k, s.lsRead d o n src = (bs, p, { s with freeCtr := k }) := by
  unfold State.lsRead
  split
  · dsimp only
    split_ifs
    · exact ⟨_, _, _, rfl⟩
    · exact ⟨_, _, s.freeCtr, rfl⟩
  · exact ⟨_, _, s.freeCtr, rfl⟩

/-! A message to a die. -/

theorem State.post_msgs_die (s : State) {m : Msg} {d : DieNo} (h : m.agent = .die d) : (s.post m).msgs = s.msgs ++ [m] := by
  unfold State.post
  rw [h]

/-- A die that takes a message without caching off changes no more than its views. -/
theorem State.promoteIf_eq (s : State) (b : Bool) (g : Nat) : ∃ v, (if b then s.promote g else s) = { s with views := v } := by
  split
  · exact s.promote_eq g
  · exact ⟨s.views, rfl⟩

section
variable {s : State} {pa x o : Nat} (hls : s.lsOf pa = some (x, o))
include hls

theorem answers_wrNc_die {a : DieNo} (view : ViewAgent) {data : List Byte} (hears : s.dieRunning a = true) (linked : s.linked a = true)
    (hrun : s.dieRunning x = true) (hlen : data.length ≤ 64 - pa % 64) :
    answers (exec (.wrNc (.die a) view pa data) s) fun u => s.wroteLs u x o data ∧ s.sent u [(.goNc, .die a, pa / 64)] := by
  obtain ⟨n, hn⟩ := State.homeWrites_ls hls hrun hlen view.val 0
  obtain ⟨hw, m, hm⟩ := s.lsWrite_wrote x o data none (by simp [State.lsReach, hrun])
  rw [hm] at hn hw
  have hp := State.posted_grantNc { s with mem := m, nextId := n } (.die a) (pa / 64) none
  refine ⟨_, ?_, State.wroteLs.posted (z := { s with mem := m, nextId := n }) hw hp, hp.sent⟩
  simp [execWrNc, State.hears, State.reaches, State.pkgLs, agentDie, hears, linked, hn]

theorem answers_wrNc_pkg {p : Fin 16} (view : ViewAgent) (data : List Byte) (member : s.member p = true) :
    answers (exec (.wrNc (.pkg p) view pa data) s) fun u => u.mem = s.mem ∧ s.sent u [(.goNc, .pkg p, pa / 64)] := by
  obtain ⟨io, t, q, hu⟩ := s.undecodable_eq 353 pa
  have hp := State.posted_grantNc { s with io := io, threads := t, mcPend := q } (.pkg p) (pa / 64) none
  refine ⟨_, ?_, hp.mem, hp.sent⟩
  simp [execWrNc, State.hears, State.reaches, State.pkgLs, agentDie, member, hls, hu]

theorem answers_lsr_running {d : DieNo} (size : Nat) (hears : s.dieRunning d = true) (linked : s.linked d = true) (hrun : s.dieRunning x = true) :
    let z := Agent.die (Fin.ofNat 12 x)
    answers (exec (.lsr d pa size) s) fun u => u.mem = s.mem
      ∧ u.msgs = s.msgs ++ [⟨.snpLsr, z, pa, s.marks z, d, List.replicate size 0, false, true⟩] := by
  refine ⟨_, ?_, (s.posted_post rfl).mem, s.post_msgs_die rfl⟩
  simp [execLsr, State.hears, hears, linked, hls, hrun]

theorem answers_lsw_running {d : DieNo} (data : List Byte) (hears : s.dieRunning d = true) (linked : s.linked d = true)
    (hrun : s.dieRunning x = true) : let z := Agent.die (Fin.ofNat 12 x)
    answers (exec (.lsw d pa data) s) fun u => u.mem = s.mem ∧ u.msgs = s.msgs ++ [⟨.snpLsw, z, pa, s.marks z, d, data, false, true⟩] := by
  refine ⟨_, ?_, (s.posted_post rfl).mem, s.post_msgs_die rfl⟩
  simp [execLsw, State.hears, hears, linked, hls, hrun]

theorem answers_lsr_stopped {d : DieNo} (size : Nat) (hears : s.dieRunning d = true) (linked : s.linked d = true) (hrun : s.dieRunning x = false) :
    answers (exec (.lsr d pa size) s) fun u => s.sent u [(.dat false, .die d, pa / 64), (.goNc, .die d, pa / 64)] ∧ u.mem = s.mem := by
  have hp := s.posted_grantNc (.die d) (pa / 64) (some (List.replicate size 0, true))
  refine ⟨_, ?_, hp.sent, hp.mem⟩
  simp [execLsr, State.hears, hears, linked, hls, hrun]

theorem answers_lsw_stopped {d : DieNo} (data : List Byte) (hears : s.dieRunning d = true) (linked : s.linked d = true)
    (hrun : s.dieRunning x = false) :
    answers (exec (.lsw d pa data) s) fun u => s.sent u [(.goNc, .die d, pa / 64)] ∧ u.mem = s.mem := by
  have hp := s.posted_grantNc (.die d) (pa / 64) none
  refine ⟨_, ?_, hp.sent, hp.mem⟩
  simp [execLsw, State.hears, hears, linked, hls, hrun]

theorem answers_snpLsw {d : DieNo} {data : List Byte} {m : Msg} (hm : s.lsMsg .snpLsw d pa (fun b => b == data) = some m)
    (hrun : s.dieRunning x = true) : answers (exec (.snpLsw d pa data) s) fun u => s.wroteLs u x o data
      ∧ State.sent { s with msgs := s.msgs.erase m } u [(.goNc, .die (Fin.ofNat 12 m.req), pa / 64)] := by
  obtain ⟨v, hv⟩ := State.promoteIf_eq { s with msgs := s.msgs.erase m } m.marked d.val
  obtain ⟨hw, w, hm'⟩ := State.lsWrite_wrote { s with msgs := s.msgs.erase m, views := v } x o data none (by
    simp only [State.lsReach, Bool.or_eq_true]
    exact .inl hrun)
  rw [hm'] at hw
  have hp := State.posted_grantNc { s with msgs := s.msgs.erase m, views := v, mem := w } (.die (Fin.ofNat 12 m.req)) (pa / 64) none
  refine ⟨_, ?_, State.wroteLs.posted (z := { s with msgs := s.msgs.erase m, views := v, mem := w }) hw hp, hp.sent⟩
  rw [exec_snpLsw, execSnpLsw, hm, hls]
  dsimp only
  rw [hv, hm']

theorem answers_snpLsr {d : DieNo} {size : Nat} {m : Msg} (hm : s.lsMsg .snpLsr d pa (fun b => b.length == size) = some m) :
    answers (exec (.snpLsr d pa size) s) fun u => u.mem = s.mem ∧ State.sent { s with msgs := s.msgs.erase m } u
      [(.dat false, .die (Fin.ofNat 12 m.req), pa / 64), (.goNc, .die (Fin.ofNat 12 m.req), pa / 64)] := by
  obtain ⟨v, hv⟩ := State.promoteIf_eq { s with msgs := s.msgs.erase m } m.marked d.val
  obtain ⟨bs, q, k, hk⟩ := State.lsRead_eq { s with msgs := s.msgs.erase m, views := v } x o size none
  have hp := State.posted_grantNc { s with msgs := s.msgs.erase m, views := v, freeCtr := k } (.die (Fin.ofNat 12 m.req)) (pa / 64)
    (some (bs, q))
  refine ⟨_, ?_, hp.mem, hp.sent⟩
  rw [exec_snpLsr, execSnpLsr, hm, hls]
  dsimp only
  rw [hv, hk]

end

/-- The completion of an access without caching is taken off and changes neither a line nor memory. -/
theorem answers_goNc {s : State} {d : DieNo} (hm : ∃ m ∈ s.msgs, m.kind = .goNc ∧ m.agent = .die d) (hrun : s.dieRunning d = true)
    (linked : s.linked d = true) : answers (exec (.goNc d) s) fun u => u.msgs.length + 1 = s.msgs.length ∧ u.lines = s.lines ∧ u.mem = s.mem := by
  obtain ⟨m, hm, hk, ha⟩ := hm
  obtain ⟨q, hq⟩ := Option.isSome_iff_exists.mp
    (List.find?_isSome (p := fun m : Msg => m.kind == MsgKind.goNc && m.agent == Agent.die d).mpr ⟨m, hm, by simp [hk, ha]⟩)
  obtain ⟨v, hv⟩ := State.promoteIf_eq { s with msgs := s.msgs.erase q } q.marked (s.viewNo q.agent)
  have hlen := List.length_erase_of_mem (List.mem_of_find?_eq_some hq)
  have hpos := List.length_pos_of_mem hm
  refine ⟨{ s with msgs := s.msgs.erase q, views := v }, ?_, ?_, rfl, rfl⟩
  · rw [exec_goNc, execGoNc, hq]
    dsimp only
    rw [if_pos (by simp [hrun, linked]), State.ncRecv]
    exact congrArg Host.Outcome.next hv
  · show (s.msgs.erase q).length + 1 = s.msgs.length
    omega

/-- Settles O35: each access finds its store, and its completion goes out once the store's die, or the H-die in its place, has answered. That
an access of another package finds no store is R187; that its write is not heard of again is the model's choice (log 6). -/
theorem uncachedAccesses : Obligations.UncachedAccesses := by
  intro s a p view d pa size x o data m
  dsimp only
  refine ⟨fun hls => ⟨?_, ?_, ?_, ?_, ?_, ?_⟩, answers_goNc⟩
  · intro hears linked hrun hlen
    obtain ⟨u, hu, hw, hs⟩ := answers_wrNc_die hls view hears linked hrun hlen
    exact ⟨u, hu, hw.bytes, hs⟩
  · exact answers_wrNc_pkg hls view data
  · intro hears linked hrun
    exact ⟨answers_lsr_running hls size hears linked hrun, answers_lsw_running hls data hears linked hrun⟩
  · intro hears linked hrun
    exact ⟨answers_lsr_stopped hls size hears linked hrun, answers_lsw_stopped hls data hears linked hrun⟩
  · intro hm hrun
    obtain ⟨u, hu, hw, hs⟩ := answers_snpLsw hls hm hrun
    exact ⟨u, hu, hw.bytes, hs⟩
  · exact answers_snpLsr hls

end Sys2Proof.Machine
end

section
/-!
SNOOPS AND ANSWERS (R190, R193, R195, R198, R200, R201), and the settlement of O36.
-/
namespace Sys2Proof.Machine

set_option Elab.async false

/-! The caches of a die. -/

/-- Between s and u nothing but the caches of the dies, the lines chosen to leave them, and free values taken has changed. -/
def State.cachesOnly (s u : State) : Prop := ∃ c v n, u = { s with caches := c, victims := v, freeCtr := n }

theorem State.cachesOnly.refl (s : State) : s.cachesOnly s := ⟨s.caches, s.victims, s.freeCtr, rfl⟩

theorem State.cachesOnly.trans {s u v : State} (h : s.cachesOnly u) (h' : u.cachesOnly v) : s.cachesOnly v := by
  obtain ⟨_, _, _, rfl⟩ := h
  obtain ⟨c, w, n, rfl⟩ := h'
  exact ⟨c, w, n, rfl⟩

theorem State.cachesOnly_foldl {α : Type} {f : State → α → State} (hf : ∀ (s : State) a, s.cachesOnly (f s a)) (l : List α) (s : State) :
    s.cachesOnly (l.foldl f s) := by
  induction l generalizing s with
  | nil => exact .refl s
  | cons a l ih => exact (hf s a).trans (ih (f s a))

theorem State.cachesOnly_uncache (s : State) (line k : Nat) : s.cachesOnly (s.uncache line k) := by
  unfold State.uncache
  split
  · exact ⟨_, s.victims, s.freeCtr, rfl⟩
  · exact .refl s

theorem State.cachesOnly_forget (s : State) (d line : Nat) : s.cachesOnly (s.forget d line) := by
  have h := (State.cachesOnly_foldl (fun (s : State) k => s.cachesOnly_uncache line k) (dieL12s d) s).trans (State.cachesOnly_uncache _ line (l3No d))
  unfold State.forget
  dsimp only
  split
  · exact h.trans ⟨_, _, _, rfl⟩
  · exact h

/-! The state of a line in a die. -/

theorem LineRec.stOf_setSt (r : LineRec) (d e : Nat) (x : LineSt) : (r.setSt d x).stOf e = if e = d then x else r.stOf e := by
  unfold LineRec.setSt LineRec.stOf
  dsimp only
  split_ifs with hx he he
  · rw [SMap.get, SMap.find?_del, if_pos he]
    exact hx.symm
  · rw [SMap.get, SMap.find?_del, if_neg he, SMap.get]
  · rw [SMap.get_put, if_pos he]
  · rw [SMap.get_put, if_neg he]

/-! A die answers a snoop. -/

section
variable {s : State} {d : DieNo} {line : Nat} {k : MsgKind} (homed : s.homedHere (line * 64) = true) (after : LineSt → LineSt)
  (answer : LineSt → MsgKind)
include homed

theorem State.snoop_waiting (hw : (s.line line).snoopWaits d = true) : s.snoop k d line after answer = s := by
  simp [State.snoop, homed, hw]

variable (running : s.dieRunning d = true) (linked : s.linked d = true) (here : s.hasMsg k (.die d) line = true)
include running linked here

/-- A line in the eviction buffer keeps its record. -/
theorem State.snoop_evicted (hw : (s.line line).snoopWaits d = false) (he : SMap.find? (s.line line).evict d ≠ none) :
    ∃ v ms, s.snoop k d line after answer = State.send { s with views := v, msgs := ms } .rspEvx (.die d) line := by
  obtain ⟨v, ms, -, hr⟩ := s.recv_eq k (.die d) line
  refine ⟨v, ms, ?_⟩
  rw [State.snoop, hr]
  exact (if_neg (by simp [homed])).trans ((if_neg (by simp [here, hw, running, linked])).trans (if_pos (Option.isSome_iff_ne_none.mpr he)))

/-- A line that the die holds, or does not hold, takes the state after the snoop. -/
theorem State.snoop_answered (hw : (s.line line).snoopWaits d = false) (he : SMap.find? (s.line line).evict d = none) :
    ∃ z : State, z.lines = s.lines ∧ z.mem = s.mem ∧ s.snoop k d line after answer
      = (z.setLine line ((s.line line).setSt d (after ((s.line line).stOf d)))).send (answer ((s.line line).stOf d)) (.die d) line := by
  obtain ⟨v, ms, -, hr⟩ := s.recv_eq k (.die d) line
  have hs : s.snoop k d line after answer = (State.snooped { s with views := v, msgs := ms } d line (after ((s.line line).stOf d))).send
      (answer ((s.line line).stOf d)) (.die d) line := by
    rw [State.snoop, hr]
    exact (if_neg (by simp [homed])).trans ((if_neg (by simp [here, hw, running, linked])).trans (if_neg (by
      show ¬ (SMap.find? (s.line line).evict d).isSome = true
      simp [he])))
  rw [hs, State.snooped]
  split
  · obtain ⟨c, w, n, hf⟩ := State.cachesOnly_forget { s with views := v, msgs := ms } d line
    rw [hf]
    exact ⟨{ s with views := v, msgs := ms, caches := c, victims := w, freeCtr := n }, rfl, rfl, rfl⟩
  · exact ⟨{ s with views := v, msgs := ms }, rfl, rfl, rfl⟩

/-- A snoop by its three cases: it waits, finds the line in the eviction buffer, or finds its state. -/
theorem State.answers_snoop {i : Instr} (hi : exec i s = .next (s.snoop k d line after answer))
    {y : MsgKind} (hy : answer ((s.line line).stOf d) = y) (hk : y.ordered = false ∧ y.snoops = false) : let r := s.line line
    (r.snoopWaits d = true → exec i s = .next s)
    ∧ (r.snoopWaits d = false → SMap.find? r.evict d = none → answers (exec i s) fun u => (u.line line).stOf d = after (r.stOf d)
        ∧ u.hasMsg y (.die d) line = true ∧ (∀ e, e ≠ d.val → (u.line line).stOf e = r.stOf e)
        ∧ (∀ l, l ≠ line → u.line l = s.line l) ∧ u.mem = s.mem)
    ∧ (r.snoopWaits d = false → SMap.find? r.evict d ≠ none → answers (exec i s) fun u => u.line line = r
        ∧ u.hasMsg .rspEvx (.die d) line = true ∧ u.mem = s.mem) := by
  dsimp only
  rw [hi]
  refine ⟨fun hw => ?_, fun hw he => ?_, fun hw he => ?_⟩
  · rw [State.snoop_waiting homed after answer hw]
  · obtain ⟨z, hlines, hmem, hz⟩ := State.snoop_answered homed after answer running linked here hw he
    rw [hz, hy]
    have hp := (z.setLine line ((s.line line).setSt d (after ((s.line line).stOf d)))).posted_send y (.die d) line
    have hl := (hp.line line).trans (z.line_setLine line _)
    refine answers_next ⟨?_, hp.hasMsg hk.1 hk.2 (List.mem_singleton_self _), fun e he => ?_, fun l hl => ?_, hp.mem.trans hmem⟩
    · rw [hl, LineRec.stOf_setSt, if_pos rfl]
    · rw [hl, LineRec.stOf_setSt, if_neg he]
    · rw [hp.line, State.line_setLine_ne _ _ _ _ hl, State.line, hlines, State.line]
  · obtain ⟨v, ms, hz⟩ := State.snoop_evicted homed after answer running linked here hw he
    rw [hz]
    have hp := State.posted_send { s with views := v, msgs := ms } .rspEvx (.die d) line
    exact answers_next ⟨hp.line line, hp.hasMsg rfl rfl (List.mem_singleton_self _), hp.mem⟩

end

/-! The last answer ends a transaction. -/

/-- A line's record once a transaction for ownership has ended: its requester alone holds it. -/
def LineRec.ownedBy (r : LineRec) (a : Agent) : LineRec :=
  { ({ r with txn := none, dp := [], rp := [] } : LineRec).addAgent a with dir := .owned, fh := none }

theorem LineRec.ownedBy_fields (r : LineRec) (a : Agent) : (r.ownedBy a).txn = none ∧ (r.ownedBy a).dir = .owned
    ∧ (r.ownedBy a).evict = r.evict ∧ (r.ownedBy a).queue = r.queue := by
  cases a <;> exact ⟨rfl, rfl, rfl, rfl⟩

theorem LineRec.holders_ownedBy (r : LineRec) {a : Agent} (h : a ≠ .hub) : (r.ownedBy a).holders = [a] := by
  cases a with
  | die d => simp [LineRec.ownedBy, LineRec.addAgent, LineRec.addDp, LineRec.holders]
  | pkg p => simp [LineRec.ownedBy, LineRec.addAgent, LineRec.holders]
  | hub => exact absurd rfl h

theorem State.homeRun_empty {s : State} {line : Nat} (hq : (s.line line).queue = []) : s.homeRun line = s := by
  simp [State.homeRun, hq]

/-- Where no eviction is kept with a line, none is consumed. -/
theorem State.consumeKept_none {s : State} {line : Nat} (he : ∀ c ∈ (s.line line).evict, c.2.consumed = false) :
    ∃ e, s.consumeKept line = s.setLine line { s.line line with evict := e } := by
  have hk : (s.line line).evict.filter (fun c => c.2.consumed) = [] := List.filter_eq_nil_iff.mpr fun c hc => by simp [he c hc]
  unfold State.consumeKept
  dsimp only
  rw [hk]
  exact ⟨_, rfl⟩

/-- A read for ownership whose answers have all come grants the line with its data (R193). -/
theorem State.homeFinish_rdX {s : State} {line : Nat} {b : Agent} {dirty : Bool} (ht : (s.line line).txn = some ⟨.rdX b, [], [], dirty⟩)
    (hq : (s.line line).queue = []) (he : ∀ c ∈ (s.line line).evict, c.2.consumed = false) :
    ∃ (z g : State) (e : SMap EvictEnt), z.msgs = s.msgs ∧ z.posted g false [(.dat dirty, b, line), (.goE, b, line)]
      ∧ s.homeFinish line = g.setLine line { (s.line line).ownedBy b with evict := e } := by
  obtain ⟨-, -, hev, hqu⟩ := (s.line line).ownedBy_fields b
  have hgone : (s.line line).evict.filter (fun c => c.2.consumed) = [] := List.filter_eq_nil_iff.mpr fun c hc => by simp [he c hc]
  let z := (s.setLine line { s.line line with txn := none }).setLine line ((s.line line).ownedBy b)
  have hp := z.posted_grant .goE b line (some dirty)
  have hl : (z.grant .goE b line (some dirty)).line line = (s.line line).ownedBy b := (hp.line line).trans (State.line_setLine _ line _)
  obtain ⟨e, hc⟩ := State.consumeKept_none (s := z.grant .goE b line (some dirty)) (line := line) (by rwa [hl, hev])
  have hrun : (State.consumeKept (z.grant .goE b line (some dirty)) line).homeRun line = State.consumeKept (z.grant .goE b line (some dirty)) line := by
    refine State.homeRun_empty ?_
    rw [hc, State.line_setLine, hl]
    exact hqu.trans hq
  refine ⟨z, _, e, rfl, hp, ?_⟩
  rw [← hl, ← hc, ← hrun]
  simp [State.homeFinish, ht, hgone, z, LineRec.ownedBy]

theorem State.homeAnswer_last {s : State} {line : Nat} {a : Agent} {q : HomeReq} (ht : (s.line line).txn = some ⟨q, [a], [], false⟩) (dirty : Bool) :
    s.homeAnswer a line dirty false = (s.setLine line { s.line line with txn := some ⟨q, [], [], dirty⟩ }).homeFinish line := by
  simp [State.homeAnswer, ht]

theorem SMap.mem_of_find? {α : Type} {m : SMap α} {i : Nat} {x : α} (h : SMap.find? m i = some x) : (i, x) ∈ m := by
  induction m with
  | nil => exact nomatch h
  | cons c m ih =>
    obtain ⟨k, v⟩ := c
    rw [SMap.find?] at h
    split_ifs at h with hk
    · cases h
      exact hk ▸ List.mem_cons_self
    · exact List.mem_cons_of_mem _ (ih h)

/-- An answer from the eviction buffer leaves the transaction waiting for the eviction's own message (R201). -/
theorem State.homeAnswer_evx {s : State} {line : Nat} {a : Agent} {q : HomeReq} (ht : (s.line line).txn = some ⟨q, [a], [], false⟩)
    (he : ∀ c ∈ (s.line line).evict, c.2.consumed = false) :
    s.homeAnswer a line false true = s.setLine line { s.line line with txn := some ⟨q, [], [a], false⟩ } := by
  have hk : (SMap.find? (s.line line).evict (agentNo a)).elim false (·.consumed) = false := by
    cases hf : SMap.find? (s.line line).evict (agentNo a) with
    | none => rfl
    | some e => exact he _ (SMap.mem_of_find? hf)
  simp [State.homeAnswer, ht, hk, State.homeFinish]

section
variable {s : State} {d : DieNo} {line : Nat} {k : MsgKind} (running : s.dieRunning d = true) (linked : s.linked d = true)
  (here : s.hasMsg k (.die d) line = true) {b : Agent} (ht : (s.line line).txn = some ⟨.rdX b, [.die d], [], false⟩)
  (he : ∀ c ∈ (s.line line).evict, c.2.consumed = false)
include running linked here ht he

/-- The last answer to a read for ownership makes its requester the line's one owner, with data and GO on their way to it. -/
theorem answers_lastAnswer {i : Instr} {dirty : Bool}
    (hi : (s.due k (.die d) line && s.hears (.die d)) = true → exec i s = .next ((s.recv k (.die d) line).homeAnswer (.die d) line dirty false))
    (hb : b ≠ .hub) (hq : (s.line line).queue = []) (hc : s.channelClear b line) : answers (exec i s) fun u => (u.line line).txn = none
      ∧ (u.line line).dir = .owned ∧ (u.line line).holders = [b] ∧ u.hasMsg (.dat dirty) b line = true ∧ u.hasMsg .goE b line = true := by
  obtain ⟨v, ms, hms, hr⟩ := s.recv_eq k (.die d) line
  have hl := State.line_setLine { s with views := v, msgs := ms } line { s.line line with txn := some ⟨.rdX b, [], [], dirty⟩ }
  obtain ⟨z, g, e, hz, hp, hf⟩ := State.homeFinish_rdX
    (s := State.setLine { s with views := v, msgs := ms } line { s.line line with txn := some ⟨.rdX b, [], [], dirty⟩ }) (line := line)
    (by rw [hl]) (by rwa [hl]) (by rwa [hl])
  obtain ⟨hr1, hr2, -, -⟩ := LineRec.ownedBy_fields { s.line line with txn := some ⟨.rdX b, [], [], dirty⟩ } b
  have hr3 := LineRec.holders_ownedBy { s.line line with txn := some ⟨.rdX b, [], [], dirty⟩ } hb
  have hcz : z.channelClear b line := fun m hm => hc m (hms.subset (by rwa [hz] at hm))
  rw [hi (by simp [State.due, State.reaches, State.hears, running, linked, here]), hr,
    State.homeAnswer_last (s := { s with views := v, msgs := ms }) ht dirty]
  refine ⟨_, congrArg Host.Outcome.next hf, ?_⟩
  beta_reduce
  rw [hl, State.line_setLine]
  have hdat : g.hasMsg (.dat dirty) b line = true := hp.hasMsg rfl rfl List.mem_cons_self
  have hgo : g.hasMsg .goE b line = true :=
    State.posted.hasMsg_ordered (l := [(.dat dirty, b, line)]) hp rfl rfl (by simp [MsgKind.ordered]) hcz
  exact ⟨hr1, hr2, hr3, hdat, hgo⟩

theorem answers_rspEvx (hk : k = .rspEvx) : answers (exec (.rspEvx (.die d) line) s) fun u =>
    (u.line line).txn = some ⟨.rdX b, [], [.die d], false⟩ ∧ (u.line line).dir = (s.line line).dir := by
  subst hk
  obtain ⟨v, ms, -, hr⟩ := s.recv_eq .rspEvx (.die d) line
  have hl := State.line_setLine { s with views := v, msgs := ms } line { s.line line with txn := some ⟨.rdX b, [], [.die d], false⟩ }
  refine ⟨State.setLine { s with views := v, msgs := ms } line { s.line line with txn := some ⟨.rdX b, [], [.die d], false⟩ }, ?_, ?_⟩
  · rw [exec_rspEvx, execRspEvx, if_pos (by simp [State.due, State.reaches, State.hears, running, linked, here]), hr,
      State.homeAnswer_evx (s := { s with views := v, msgs := ms }) ht he]
    rfl
  · beta_reduce
    rw [hl]
    exact ⟨rfl, rfl⟩

end

/-- Settles O36: a snoop is answered by its three cases, and the last answer of a read for ownership ends the transaction with a grant. -/
theorem snoopsAndAnswers : Obligations.SnoopsAndAnswers := by
  intro s d line b dirty
  dsimp only
  intro running linked homed
  refine ⟨fun p hp here => ?_, fun ht hb hq he hc => ⟨fun p hp here => ?_, fun here => answers_rspEvx running linked here ht he rfl⟩⟩
  · have snoop (i : Instr) (k : MsgKind) (after : LineSt → LineSt) (answer : LineSt → MsgKind) (here : s.hasMsg k (.die d) line = true) :=
      State.answers_snoop (i := i) homed after answer running linked here
    simp only [List.mem_cons, List.not_mem_nil, or_false] at hp
    obtain rfl | rfl | rfl | rfl := hp
    · exact snoop (.snpS d line) .snpS _ _ here rfl (by cases (s.line line).stOf d <;> rfl) (by cases (s.line line).stOf d <;> exact ⟨rfl, rfl⟩)
    · exact snoop (.snpX d line) .snpX _ _ here rfl (by cases (s.line line).stOf d <;> rfl) (by cases (s.line line).stOf d <;> exact ⟨rfl, rfl⟩)
    · exact snoop (.snpCur d line) .snpCur _ _ here rfl (by cases (s.line line).stOf d <;> rfl) (by cases (s.line line).stOf d <;> exact ⟨rfl, rfl⟩)
    · exact snoop (.snpBinv d line) .snpBinv _ _ here rfl (by cases (s.line line).stOf d <;> rfl) (by cases (s.line line).stOf d <;> exact ⟨rfl, rfl⟩)
  · simp only [List.mem_cons, List.not_mem_nil, or_false] at hp
    obtain rfl | rfl | rfl := hp
    · exact answers_lastAnswer running linked here ht he (fun h => congrArg Host.Outcome.next (if_pos h)) hb hq hc
    · exact answers_lastAnswer running linked here ht he (fun h => congrArg Host.Outcome.next (if_pos h)) hb hq hc
    · exact answers_lastAnswer running linked here ht he (fun h => congrArg Host.Outcome.next (if_pos h)) hb hq hc

end Sys2Proof.Machine
end

section
/-!
MISSES, VICTIMS AND EVICTIONS (R190, R195, R197, R198, R200 to R202), and the settlement of O37.
-/
namespace Sys2Proof.Machine

set_option Elab.async false

/-! A line comes into the L3 of a die. -/

theorem State.cachesOnly_setCache (s : State) (k : Nat) (l : List CacheEnt) : s.cachesOnly (s.setCache k l) := ⟨_, s.victims, s.freeCtr, rfl⟩

theorem State.cachesOnly_allocate (s : State) (k cls line : Nat) : s.cachesOnly (s.allocate k cls line).1 := by
  unfold State.allocate
  dsimp only
  split
  · exact .refl s
  · split
    · exact s.cachesOnly_setCache _ _
    · split
      · exact (s.cachesOnly_setCache _ _).trans ⟨_, _, _, rfl⟩
      · exact .refl s

theorem State.cachesOnly_l3Choose (s : State) (d line : Nat) : s.cachesOnly (s.l3Choose d line) := by
  have h := State.cachesOnly_foldl (fun (s : State) k => s.cachesOnly_uncache line k) (dieL12s d) s
  unfold State.l3Choose
  dsimp only
  split
  · exact h.trans ⟨_, _, _, rfl⟩
  · exact h

theorem State.cachesOnly_l3Fill (s : State) (d cls line : Nat) : s.cachesOnly (s.l3Fill d cls line) := by
  unfold State.l3Fill
  dsimp only
  generalize hz : State.allocate _ (l3No d) cls line = z
  have h : s.cachesOnly z.1 := by
    rw [← hz]
    refine State.cachesOnly.trans ?_ (State.cachesOnly_allocate _ _ _ _)
    split
    · split
      · exact ⟨_, _, _, rfl⟩
      · exact .refl s
    · exact .refl s
  split
  · exact h.trans (State.cachesOnly_l3Choose _ _ _)
  · exact h

theorem State.cachesOnly_l2Clean (s : State) (d line : Nat) : s.cachesOnly (s.l2Clean d line) := by
  refine State.cachesOnly_foldl (fun z k => ?_) _ s
  dsimp only
  split
  · exact z.cachesOnly_setCache _ _
  · exact .refl z

theorem State.cachesOnly.line {s u : State} (h : s.cachesOnly u) (l : Nat) : u.line l = s.line l := by
  obtain ⟨_, _, _, rfl⟩ := h
  rfl

/-! A miss completes. -/

theorem State.missFree_eq (s : State) (d line : Nat) : ∃ m, s.missFree d line = { s with miss := m } := by
  unfold State.missFree
  split
  · exact ⟨_, rfl⟩
  · exact ⟨s.miss, rfl⟩

/-- A clean line that comes into a die is written back for no take. -/
theorem State.landed_clean {s : State} {d line : Nat} (h : (s.line line).pd = false) : s.landed d line = s := by
  simp [State.landed, h]

/-- A line's record once a die holds it in state x after a miss: the hold window of a line that a thread waits for has begun (R198). -/
def LineRec.filled (r : LineRec) (d : Nat) (x : LineSt) (want : Bool) : LineRec :=
  { (r.setSt d x) with
    gotGo := SMap.del r.gotGo d, gotDat := SMap.del r.gotDat d, hold := if !want || r.hold.contains d then r.hold else r.hold ++ [d] }

theorem LineRec.setSt_fields (r : LineRec) (d : Nat) (x : LineSt) : (r.setSt d x).pd = r.pd ∧ (r.setSt d x).queue = r.queue
    ∧ (r.setSt d x).txn = r.txn ∧ (r.setSt d x).data = r.data := ⟨rfl, rfl, rfl, rfl⟩

theorem List.mem_unless_contains {α : Type} [BEq α] [LawfulBEq α] {l : List α} {a : α} {want : Bool} (h : want = true) :
    a ∈ if !want || l.contains a then l else l ++ [a] := by
  split_ifs with hc
  · simpa [h] using hc
  · simp

/-- With its GO and its data a miss is complete. -/
theorem State.missDone_both {s : State} {d line : Nat} {g : LineSt} {dirty : Bool} (hg : SMap.find? (s.line line).gotGo d = some g)
    (hd : SMap.find? (s.line line).gotDat d = some dirty) (hpd : (s.line line).pd = false) (hq : (s.line line).queue = []) :
    (s.missDone d line).line line = (s.line line).filled d (if g = .e && dirty then .m else g) (s.demand d line)
      ∧ (s.missDone d line).mem = s.mem := by
  generalize hr : (s.line line).filled d (if g = .e && dirty then .m else g) (s.demand d line) = r
  have hrpd : r.pd = false := by rw [← hr]; exact hpd
  have hrq : r.queue = [] := by rw [← hr]; exact hq
  generalize hz : ((s.forget d line).setLine line r).l3Fill d 0 line = z
  have hzl : z.line line = r := by
    rw [← hz, (State.cachesOnly_l3Fill _ d 0 line).line, State.line_setLine]
  have hzm : z.mem = s.mem := by simp [← hz]
  have hdone : s.missDone d line = (if s.demand d line then z else z.missFree d line).homeRun line := by
    rw [← State.landed_clean (s := z) (d := d) (by rw [hzl]; exact hrpd), ← hz, ← hr]
    simp only [State.missDone, hg, hd]
    rfl
  rw [hdone]
  split
  · rw [State.homeRun_empty (by rw [hzl]; exact hrq)]
    exact ⟨hzl, hzm⟩
  · obtain ⟨m, hm⟩ := z.missFree_eq d line
    have hl : (z.missFree d line).line line = r := by rw [hm]; exact hzl
    rw [State.homeRun_empty (by rw [hl]; exact hrq)]
    exact ⟨hl, (z.missFree_mem d line).trans hzm⟩

theorem State.missDone_noGo {s : State} {d line : Nat} (hg : SMap.find? (s.line line).gotGo d = none) : s.missDone d line = s := by
  simp [State.missDone, hg]

theorem State.missDone_noDat {s : State} {d line : Nat} (hd : SMap.find? (s.line line).gotDat d = none) : s.missDone d line = s := by
  unfold State.missDone
  dsimp only
  rw [hd]
  split
  next h => exact nomatch h
  next => rfl

/-! GO and DAT arrive. -/

/-- After u a die holds a line in state x, its hold window has begun where a thread waits for it, and its grant and data are used up. -/
def State.filledLine (s u : State) (d : DieNo) (line : Nat) (x : LineSt) : Prop :=
  (u.line line).stOf d = x ∧ (s.demand d line = true → d.val ∈ (u.line line).hold)
    ∧ SMap.find? (u.line line).gotGo d = none ∧ SMap.find? (u.line line).gotDat d = none ∧ u.mem = s.mem

theorem State.filledLine_of {s z u : State} {d : DieNo} {line : Nat} {r : LineRec} {x : LineSt} (hl : u.line line = r.filled d x (z.demand d line))
    (hm : u.mem = z.mem) (hmiss : z.miss = s.miss) (hmem : z.mem = s.mem) : s.filledLine u d line x := by
  have hdem : z.demand d line = s.demand d line := by rw [State.demand, hmiss, State.demand]
  unfold State.filledLine
  rw [hl, hdem]
  refine ⟨?_, fun h => List.mem_unless_contains h, ?_, ?_, hm.trans hmem⟩
  · exact (LineRec.stOf_setSt _ _ _ _).trans (if_pos rfl)
  · simp [LineRec.filled, SMap.find?_del]
  · simp [LineRec.filled, SMap.find?_del]

section
variable {s : State} {d : DieNo} {line : Nat} (running : s.dieRunning d = true) (linked : s.linked d = true)
  (homed : s.homedHere (line * 64) = true)
include running linked homed

section
variable {k : MsgKind} (here : s.hasMsg k (.die d) line = true) (g : LineSt)
include here

theorem State.comes_here : s.comes k d line = true := by
  simp [State.comes, running, linked, homed, here]

/-- A GO for a line that the die does not hold with rights enough goes with its data. -/
theorem State.go_miss (hst : g = .e → (s.line line).stOf d = .i) : ∃ v ms, s.go k g d line
    = (State.setLine { s with views := v, msgs := ms } line { s.line line with gotGo := SMap.put (s.line line).gotGo d g }).missDone d line := by
  obtain ⟨v, ms, -, hr⟩ := s.recv_eq k (.die d) line
  have hz : State.homedHere { s with views := v, msgs := ms } (line * 64) = true := homed
  refine ⟨v, ms, ?_⟩
  have hx : ¬ (decide (g = .e) && (decide ((s.line line).stOf d = .s) || decide ((s.line line).stOf d = .f))) = true := by
    intro h
    obtain ⟨hg, h⟩ := Bool.and_eq_true_iff.mp h
    simp [hst (of_decide_eq_true hg)] at h
  rw [State.go, hr]
  dsimp only
  rw [if_neg (by simp [State.comes_here running linked homed here]), if_pos homed, if_pos hz]
  exact if_neg hx

/-- A GO_E for a copy that the die holds needs no data. -/
theorem State.go_held (hst : (s.line line).stOf d = .s ∨ (s.line line).stOf d = .f) : ∃ v ms, s.go k .e d line
    = State.setLine { s with views := v, msgs := ms } line { (s.line line).setSt d .m with
        hold := if !s.demand d line || (s.line line).hold.contains d.val then (s.line line).hold else (s.line line).hold ++ [d.val] } := by
  obtain ⟨v, ms, -, hr⟩ := s.recv_eq k (.die d) line
  have hz : State.homedHere { s with views := v, msgs := ms } (line * 64) = true := homed
  have hx : (decide (LineSt.e = .e) && (decide ((s.line line).stOf d = .s) || decide ((s.line line).stOf d = .f))) = true := by simpa using hst
  refine ⟨v, ms, ?_⟩
  rw [State.go, hr]
  dsimp only
  rw [if_neg (by simp [State.comes_here running linked homed here]), if_pos homed, if_pos hz]
  exact if_pos hx

theorem answers_go {i : Instr} (hi : exec i s = .next (s.go k g d line)) (hst : g = .e → (s.line line).stOf d = .i) (hq : (s.line line).queue = []) :
    (∀ dirty, SMap.find? (s.line line).gotDat d = some dirty → (s.line line).pd = false →
        answers (exec i s) fun u => s.filledLine u d line (if g = .e && dirty then .m else g))
    ∧ (SMap.find? (s.line line).gotDat d = none →
        answers (exec i s) fun u => SMap.find? (u.line line).gotGo d = some g ∧ (u.line line).st = (s.line line).st) := by
  obtain ⟨v, ms, hgo⟩ := State.go_miss running linked homed here g hst
  have hl := State.line_setLine { s with views := v, msgs := ms } line { s.line line with gotGo := SMap.put (s.line line).gotGo d g }
  have hgot : SMap.find? (SMap.put (s.line line).gotGo d g) d = some g := by simp [SMap.find?_put]
  rw [hi, hgo]
  refine ⟨fun dirty hdat hpd => ?_, fun hdat => ?_⟩
  · obtain ⟨hu, hm⟩ := State.missDone_both (d := d) (g := g) (dirty := dirty) (by rw [hl]; exact hgot) (by rw [hl]; exact hdat) (by rw [hl]; exact hpd)
      (by rw [hl]; exact hq)
    exact answers_next (State.filledLine_of hu hm rfl rfl)
  · rw [State.missDone_noDat (by rw [hl]; exact hdat)]
    refine answers_next ?_
    rw [hl]
    exact ⟨hgot, rfl⟩

theorem answers_goHeld (hk : k = .goE) (hst : (s.line line).stOf d = .s ∨ (s.line line).stOf d = .f) :
    answers (exec (.goE d line) s) fun u => (u.line line).stOf d = .m ∧ (s.demand d line = true → d.val ∈ (u.line line).hold) := by
  subst hk
  obtain ⟨v, ms, hgo⟩ := State.go_held running linked homed here hst
  refine ⟨_, congrArg Host.Outcome.next hgo, ?_⟩
  beta_reduce
  rw [State.line_setLine]
  exact ⟨((s.line line).stOf_setSt d d .m).trans (if_pos rfl), fun h => List.mem_unless_contains h⟩

end

theorem answers_dat {dirty : Bool} (here : s.hasMsg (.dat dirty) (.die d) line = true) (hq : (s.line line).queue = []) :
    (∀ g, SMap.find? (s.line line).gotGo d = some g → (s.line line).pd = false →
        answers (exec (.dat d line dirty) s) fun u => s.filledLine u d line (if g = .e && dirty then .m else g))
    ∧ (SMap.find? (s.line line).gotGo d = none →
        answers (exec (.dat d line dirty) s) fun u => SMap.find? (u.line line).gotDat d = some dirty ∧ (u.line line).st = (s.line line).st) := by
  obtain ⟨v, ms, -, hr⟩ := s.recv_eq (.dat dirty) (.die d) line
  have hl := State.line_setLine { s with views := v, msgs := ms } line { s.line line with gotDat := SMap.put (s.line line).gotDat d dirty }
  have hgot : SMap.find? (SMap.put (s.line line).gotDat d dirty) d = some dirty := by simp [SMap.find?_put]
  have hdat : exec (.dat d line dirty) s = .next ((State.setLine { s with views := v, msgs := ms } line
      { s.line line with gotDat := SMap.put (s.line line).gotDat d dirty }).missDone d line) := by
    rw [exec_dat, execDat, hr]
    dsimp only
    rw [if_neg (by simp [State.comes_here running linked homed here]), if_pos homed]
    rfl
  rw [hdat]
  refine ⟨fun g hgo hpd => ?_, fun hgo => ?_⟩
  · obtain ⟨hu, hm⟩ := State.missDone_both (d := d) (g := g) (dirty := dirty) (by rw [hl]; exact hgo) (by rw [hl]; exact hgot) (by rw [hl]; exact hpd)
      (by rw [hl]; exact hq)
    exact answers_next (State.filledLine_of hu hm rfl rfl)
  · rw [State.missDone_noGo (by rw [hl]; exact hgo)]
    refine answers_next ?_
    rw [hl]
    exact ⟨hgot, rfl⟩

end

/-! A hold window ends, and an eviction is acknowledged. -/

theorem State.holdEnd_line (s : State) (d line : Nat) (hq : (s.line line).queue = []) : let u := s.holdEnd d line
    d ∉ (u.line line).hold ∧ (u.line line).st = (s.line line).st ∧ u.msgs = s.msgs := by
  unfold State.holdEnd
  dsimp only
  split
  next =>
    have hl := s.line_setLine line { s.line line with hold := (s.line line).hold.filter fun x => x != d }
    rw [State.homeRun_empty (by rw [hl]; exact hq), hl]
    exact ⟨by simp, rfl, rfl⟩
  next h => exact ⟨by simpa using h, rfl, rfl⟩

theorem answers_eva {s : State} {d : DieNo} {line : Nat} (linked : s.linked d = true) (here : s.hasMsg .eva (.die d) line = true) :
    answers (exec (.eva d line) s) fun u => SMap.find? (u.line line).evict d = none ∧ (u.line line).st = (s.line line).st := by
  obtain ⟨v, ms, -, hr⟩ := s.recv_eq .eva (.die d) line
  have heva : exec (.eva d line) s
      = .next (State.setLine { s with views := v, msgs := ms } line { s.line line with evict := SMap.del (s.line line).evict d }) := by
    rw [exec_eva, execEva, if_pos (by simp [here, linked]), hr]
    rfl
  rw [heva]
  refine answers_next ?_
  rw [State.line_setLine]
  exact ⟨by simp [SMap.find?_del], rfl⟩

/-! A line leaves a die. -/

/-- Between s and u neither a line's record nor a message on its way has changed. -/
def State.linesKept (s u : State) : Prop := u.lines = s.lines ∧ u.msgs = s.msgs

theorem State.linesKept.trans {s u v : State} (h : s.linesKept u) (h' : u.linesKept v) : s.linesKept v := ⟨h'.1.trans h.1, h'.2.trans h.2⟩

theorem State.linesKept.line {s u : State} (h : s.linesKept u) (l : Nat) : u.line l = s.line l := by
  unfold State.line
  rw [h.1]

theorem State.linesKept_foldl {α : Type} {f : State → α → State} (hf : ∀ (s : State) a, s.linesKept (f s a)) (l : List α) (s : State) :
    s.linesKept (l.foldl f s) := by
  induction l generalizing s with
  | nil => exact ⟨rfl, rfl⟩
  | cons a l ih => exact (hf s a).trans (ih (f s a))

theorem State.cachesOnly.linesKept {s u : State} (h : s.cachesOnly u) : s.linesKept u := by
  obtain ⟨_, _, _, rfl⟩ := h
  exact ⟨rfl, rfl⟩

theorem State.linesKept_setWq (s : State) (n : Nat) (q : List WqEnt) : s.linesKept (s.setWq n q) := by
  unfold State.setWq
  dsimp only
  split
  · exact ⟨rfl, rfl⟩
  · exact ⟨rfl, rfl⟩

theorem State.linesKept_logAsync (s : State) (b : Nat) (e : ErrRec) : s.linesKept (s.logAsync b e) := by
  obtain ⟨_, _, _, h⟩ := s.logAsync_eq b e
  rw [h]
  exact ⟨rfl, rfl⟩

theorem State.linesKept_portPut (s : State) (n dev : Nat) (mask : BitVec 64) (d : LineData) (poison undo : Bool) (ks : Nat) :
    s.linesKept (s.portPut n dev mask d poison undo ks) := by
  have hput (z : State) (q : List WqEnt) (k : Nat) : z.linesKept { (z.setWq n q) with nextId := k } := z.linesKept_setWq n q
  unfold State.portPut
  split
  · exact s.linesKept_logAsync _ _
  · dsimp only
    refine State.linesKept.trans ?_ (hput _ _ _)
    split_ifs
    · exact s.linesKept_setWq _ _
    · exact ⟨rfl, rfl⟩
    · exact s.linesKept_setWq _ _
    · exact ⟨rfl, rfl⟩

theorem State.linesKept_toMemory (s : State) (line : Nat) (mask : BitVec 64) (d : LineData) (poison undo : Bool) (ks : Nat) :
    s.linesKept (s.toMemory line mask d poison undo ks) := by
  unfold State.toMemory
  split
  · exact s.linesKept_portPut _ _ _ _ _ _ _
  · obtain ⟨_, _, _, h⟩ := s.undecodable_eq _ _
    rw [h]
    exact ⟨rfl, rfl⟩
  · exact ⟨rfl, rfl⟩

theorem State.linesKept_releaseHeld (s : State) : s.linesKept s.releaseHeld := by
  refine State.linesKept.trans (u := s.wr F.TK_UNDO_PERSISTED s.persisted) ⟨rfl, rfl⟩ (State.linesKept_foldl (fun z h => ?_) _ _)
  dsimp only
  split
  · exact State.linesKept.trans ⟨rfl, rfl⟩ (State.linesKept_toMemory _ _ _ _ _ _ _)
  · exact ⟨rfl, rfl⟩

theorem State.linesKept_writeLine (s : State) (line : Nat) (d : LineData) (poison pd : Bool) (ks : Nat) :
    s.linesKept (s.writeLine line d poison pd ks) := by
  unfold State.writeLine
  split
  · exact State.linesKept.trans ⟨rfl, rfl⟩ (State.linesKept_releaseHeld _)
  · exact s.linesKept_toMemory _ _ _ _ _ _

/-- A line that becomes clean keeps its states in the dies. -/
theorem State.cleanLine_line (s : State) (line : Nat) (homed : s.homedHere (line * 64) = true) :
    ((s.cleanLine line).line line).st = (s.line line).st ∧ (s.cleanLine line).msgs = s.msgs := by
  have h := State.cachesOnly_foldl (f := fun s (c : Nat × LineSt) => s.l2Clean c.1 line) (fun z c => z.cachesOnly_l2Clean c.1 line) (s.line line).st s
  obtain ⟨c, v, n, h⟩ := h
  unfold State.cleanLine
  dsimp only
  split
  · rw [h, if_pos (by exact homed), State.line_setLine]
    exact ⟨rfl, (State.linesKept_writeLine _ _ _ _ _ _).2⟩
  · exact ⟨rfl, rfl⟩

theorem LineRec.dropAgent_st (r : LineRec) (a : Agent) : (r.dropAgent a).st = r.st := by
  unfold LineRec.dropAgent
  cases a with
  | die d => dsimp only; split <;> rfl
  | pkg p => dsimp only; split <;> rfl
  | hub => dsimp only; split <;> rfl

theorem LineRec.present_dropAgent (r : LineRec) (a : Agent) : (r.dropAgent a).present a = false := by
  unfold LineRec.dropAgent LineRec.present
  cases a with
  | die d => dsimp only; split <;> simp
  | pkg p => dsimp only; split <;> simp
  | hub => rfl

/-- A write-back or an eviction notice for a line at rest takes the die off its entry and is acknowledged. -/
theorem State.homeEvict_rest {s : State} {d : DieNo} {line : Nat} (dirty : Bool) (homed : s.homedHere (line * 64) = true)
    (ht : (s.line line).txn = none) (hc : s.channelClear (.die d) line) : let u := s.homeEvict (.die d) line dirty
    (u.line line).st = (s.line line).st ∧ (u.line line).present (.die d) = false ∧ u.hasMsg .eva (.die d) line = true
      ∧ u.mem = (if dirty then s.cleanLine line else s).mem := by
  have hev : s.homeEvict (.die d) line dirty
      = ((if dirty then s.cleanLine line else s).setLine line (((if dirty then s.cleanLine line else s).line line).dropAgent (.die d))).send
        .eva (.die d) line := by
    simp [State.homeEvict, homed, ht]
  have hclean : ((if dirty then s.cleanLine line else s).line line).st = (s.line line).st
      ∧ (if dirty then s.cleanLine line else s).msgs = s.msgs := by
    split
    · exact s.cleanLine_line line homed
    · exact ⟨rfl, rfl⟩
  obtain ⟨hst, hmsgs⟩ := hclean
  dsimp only
  rw [hev]
  generalize (if dirty then s.cleanLine line else s) = z at hst hmsgs ⊢
  have hp := (z.setLine line ((z.line line).dropAgent (.die d))).posted_send .eva (.die d) line
  rw [hp.line, State.line_setLine]
  refine ⟨(LineRec.dropAgent_st _ _).trans hst, LineRec.present_dropAgent _ _, ?_, hp.mem⟩
  refine State.posted.hasMsg_ordered (l := []) hp rfl rfl (by simp) fun m hm => hc m ?_
  exact hmsgs ▸ hm

/-! The die gives the line up. -/

/-- A line's record once the die has put it in its eviction buffer. -/
def LineRec.evicting (r : LineRec) (d : Nat) (dirty : Bool) : LineRec := { (r.setSt d .i) with evict := SMap.put r.evict d ⟨dirty, false⟩ }

theorem State.l3Evict_eq (s : State) (d line : Nat) (dirty : Bool) :
    ∃ z, s.cachesOnly z ∧ s.l3Evict d line dirty = z.setLine line ((s.line line).evicting d dirty) := by
  have h := s.cachesOnly_forget d line
  refine ⟨_, h, ?_⟩
  unfold State.l3Evict
  dsimp only
  rw [h.line line]
  rfl

theorem State.rollDrop_keeps (s : State) (line : Nat) : let u := s.rollDrop line
    (u.line line).st = (s.line line).st ∧ (u.line line).txn = (s.line line).txn ∧ u.msgs = s.msgs ∧ u.gpos = s.gpos := by
  unfold State.rollDrop
  split
  next k _ =>
    split
    · have hl : (State.inc (s.setLine line { s.line line with data := none, poison := false, pd := false }) (F.TDn_DISC_COUNT k) 1).line line
          = { s.line line with data := none, poison := false, pd := false } := s.line_setLine line _
      dsimp only
      rw [hl]
      exact ⟨rfl, rfl, rfl, rfl⟩
    · exact ⟨rfl, rfl, rfl, rfl⟩
  · exact ⟨rfl, rfl, rfl, rfl⟩

theorem State.rollDrop_none {s : State} {line : Nat} (h : ∀ k, s.domOf (line * 64) = some k → s.rolling k = false) : s.rollDrop line = s := by
  unfold State.rollDrop
  split
  next k hk => simp [h k hk]
  · rfl

/-! Dirty data of an uncut take are held. -/

theorem List.foldl_fixed_of_mem {α β : Type} {f : α → β → α} {a : α} {l : List β} (h : ∀ x ∈ l, f a x = a) : l.foldl f a = a := by
  induction l with
  | nil => rfl
  | cons x l ih =>
    rw [List.foldl_cons, h x List.mem_cons_self]
    exact ih fun y hy => h y (List.mem_cons_of_mem x hy)

/-- A release at which no held write is old enough leaves them all (R220). -/
theorem State.releaseHeld_none {s : State} (h : ∀ x ∈ s.mem.held, s.persisted < x.mark) : s.releaseHeld.mem = s.mem := by
  unfold State.releaseHeld
  dsimp only
  exact (congrArg State.mem (List.foldl_fixed_of_mem (a := s.wr F.TK_UNDO_PERSISTED s.persisted) fun x hx => if_neg (Nat.not_le_of_lt (h x hx)))).trans rfl

theorem State.heldOf_release {s : State} {l : List Held} {x : Held} (hl : s.mem.held = l ++ [x]) (hm : ∀ h ∈ s.mem.held, s.persisted < h.mark) :
    s.releaseHeld.heldOf x.line = some x := by
  rw [State.heldOf, State.releaseHeld_none hm, hl]
  simp

/-- A write that is held is the newest of its line. -/
theorem State.heldOf_hold {s : State} (line : Nat) (v : LineData) (poison : Bool) (ks dom : Nat) (hp : s.persisted < s.accepted)
    (hm : ∀ h ∈ s.mem.held, s.persisted < h.mark) : ∃ h, (s.hold line v poison ks dom).heldOf line = some h ∧ h.data = v := by
  refine ⟨_, State.heldOf_release (l := s.mem.held.filter fun h => h.line != line)
    (x := { line := line, data := v, poison := poison, kslot := ks, dom := dom, mark := s.accepted, id := _ }) rfl fun x hx => ?_, rfl⟩
  obtain hx | hx := List.mem_append.mp hx
  · exact hm x (List.mem_filter.mp hx).1
  · obtain rfl := List.mem_singleton.mp hx
    exact hp

theorem State.heldOf_cleanLine {s : State} {line : Nat} {v : LineData} (homed : s.homedHere (line * 64) = true)
    (hd : (s.line line).data = some v) (hpd : (s.line line).pd = true) (hp : s.persisted < s.accepted)
    (hm : ∀ h ∈ s.mem.held, s.persisted < h.mark) : ∃ h, (s.cleanLine line).heldOf line = some h ∧ h.data = v := by
  have h := State.cachesOnly_foldl (f := fun s (c : Nat × LineSt) => s.l2Clean c.1 line) (fun z c => z.cachesOnly_l2Clean c.1 line) (s.line line).st s
  obtain ⟨c, w, n, h⟩ := h
  unfold State.cleanLine
  dsimp only
  rw [hd]
  dsimp only
  rw [h, if_pos (by exact homed), hpd]
  exact State.heldOf_hold (s := { s with caches := c, victims := w, freeCtr := n }) line v _ _ _ hp hm

/-- What an eviction message does to a line that the die holds. -/
theorem State.evicts {s : State} {d : DieNo} {line : Nat} (dirty : Bool) (homed : s.homedHere (line * 64) = true) (ht : (s.line line).txn = none)
    (hc : s.channelClear (.die d) line) {z : State} (hst : ((z.line line).st = ((s.l3Evict d line dirty).line line).st))
    (htz : (z.line line).txn = ((s.l3Evict d line dirty).line line).txn) (hmz : z.msgs = (s.l3Evict d line dirty).msgs)
    (hgz : z.gpos = (s.l3Evict d line dirty).gpos) : let u := z.homeEvict (.die d) line dirty
    (u.line line).stOf d = .i ∧ (u.line line).present (.die d) = false ∧ u.hasMsg .eva (.die d) line = true
      ∧ u.mem = (if dirty then z.cleanLine line else z).mem := by
  obtain ⟨y, ⟨_, _, _, rfl⟩, hy⟩ := s.l3Evict_eq d line dirty
  rw [hy, State.line_setLine] at hst htz
  rw [hy] at hmz hgz
  have homedz : z.homedHere (line * 64) = true := by
    unfold State.homedHere at homed ⊢
    rw [hgz]
    exact homed
  obtain ⟨h1, h2, h3, h4⟩ := State.homeEvict_rest dirty homedz (htz.trans ht) (fun m hm => hc m (by rwa [hmz] at hm))
  refine ⟨?_, h2, h3, h4⟩
  have hi : ((s.line line).setSt d .i).stOf d = .i := by simp [LineRec.stOf_setSt]
  unfold LineRec.stOf at hi ⊢
  rw [h1, hst]
  exact hi

section
variable {s : State} {d : DieNo} {line : Nat} (running : s.dieRunning d = true) (linked : s.linked d = true)
  (homed : s.homedHere (line * 64) = true) (hu : d.val ∉ (s.line line).undoP) (hev : s.evictCount d < 64) (ht : (s.line line).txn = none)
  (hc : s.channelClear (.die d) line)
include running linked homed hu hev ht hc

/-- A dirty victim leaves its die, and its data, where a take is open for them, are held at their home. -/
theorem answers_wbd {v : LineData} {far : FarData} (hm : (s.line line).stOf d = .m) (hw : s.hasMsg .wbd (.die d) line = false) :
    answers (exec (.wbd (.die d) line far) s) fun u => (u.line line).stOf d = .i ∧ (u.line line).present (.die d) = false
      ∧ u.hasMsg .eva (.die d) line = true
      ∧ ((s.line line).data = some v → (s.line line).pd = true → (∀ k, s.domOf (line * 64) = some k → s.rolling k = false) →
        s.persisted < s.accepted → (∀ h ∈ s.mem.held, s.persisted < h.mark) → ∃ h, u.heldOf line = some h ∧ h.data = v) := by
  have hx : exec (.wbd (.die d) line far) s = .next (((s.l3Evict d line true).rollDrop line).homeEvict (.die d) line true) := by
    simp [execWbd, State.hears, running, State.due, State.reaches, linked, hw, hm, agentDie, State.mayEvict, hu, hev]
  obtain ⟨k1, k2, k3, k4⟩ := (s.l3Evict d line true).rollDrop_keeps line
  obtain ⟨h1, h2, h3, h4⟩ := State.evicts true homed ht hc k1 k2 k3 k4
  rw [hx]
  refine answers_next ⟨h1, h2, h3, fun hd hpd hr hp hh => ?_⟩
  obtain ⟨z, ⟨c, w, n, rfl⟩, hz⟩ := s.l3Evict_eq d line true
  have hl := State.line_setLine { s with caches := c, victims := w, freeCtr := n } line ((s.line line).evicting d true)
  rw [State.heldOf, h4, hz, State.rollDrop_none (by exact hr)]
  exact State.heldOf_cleanLine (by exact homed) (by rw [hl]; exact hd) (by rw [hl]; exact hpd) hp hh

theorem answers_evc (hm : (s.line line).stOf d = .e ∨ (s.line line).stOf d = .f ∨ (s.line line).stOf d = .s) :
    answers (exec (.evc (.die d) line) s) fun u => (u.line line).stOf d = .i ∧ (u.line line).present (.die d) = false
      ∧ u.hasMsg .eva (.die d) line = true := by
  have hx : exec (.evc (.die d) line) s = .next ((s.l3Evict d line false).homeEvict (.die d) line false) := by
    simp [execEvc, State.hears, running, linked, or_assoc, hm, agentDie, State.mayEvict, hu, hev]
  obtain ⟨h1, h2, h3, -⟩ := State.evicts (s := s) false homed ht hc rfl rfl rfl rfl
  rw [hx]
  exact answers_next ⟨h1, h2, h3⟩

end

/-- Settles O37: a grant and its data complete a miss in either order, and a victim's home takes its die off the line. -/
theorem grantsAndEvictions : Obligations.GrantsAndEvictions := by
  intro s d line dirty g v
  dsimp only
  intro running linked homed hq
  refine ⟨fun p hp here hst => ?_, fun here hst => answers_goHeld running linked homed here rfl hst, fun here => ?_, ?_,
    fun here => answers_eva linked here, fun p hp hst hu hev ht hw hc => ?_⟩
  · simp only [List.mem_cons, List.not_mem_nil, or_false] at hp
    obtain rfl | rfl | rfl := hp
    · have h := answers_go running linked homed here .e (i := .goE d line) rfl hst hq
      exact ⟨h.1 dirty, h.2⟩
    · have h := answers_go running linked homed here .f (i := .goF d line) rfl hst hq
      exact ⟨h.1 dirty, h.2⟩
    · have h := answers_go running linked homed here .s (i := .goS d line) rfl hst hq
      exact ⟨h.1 dirty, h.2⟩
  · have h := answers_dat running linked homed here hq
    exact ⟨h.1 g, h.2⟩
  · obtain ⟨h1, h2, h3⟩ := s.holdEnd_line d line hq
    exact answers_next ⟨h1, h2, (congrArg (List.map Msg.key) h3).trans (List.append_nil _).symm⟩
  · simp only [List.mem_cons, List.not_mem_nil, or_false] at hp
    obtain rfl | rfl := hp
    · obtain ⟨u, hu', h1, h2, h3, h4⟩ := answers_wbd running linked homed hu hev ht hc (v := v) (far := ⟨none, none⟩) (by simpa using hst) hw
      exact ⟨u, hu', h1, h2, h3, fun _ => h4⟩
    · obtain ⟨u, hu', h1, h2, h3⟩ := answers_evc running linked homed hu hev ht hc (by simpa using hst)
      exact ⟨u, hu', h1, h2, h3, fun h => absurd h (by simp)⟩

end Sys2Proof.Machine
end

section
/-!
MEMORY PORTS: the requests that wait, the arbiter and the write queue (R295, R299 to R305).
-/
namespace Sys2Proof.Machine

set_option Elab.async false

/-! Registers that are left alone. -/

/-- States s and u have the same registers at the addresses of P. -/
def State.sameIn (P : Nat → Prop) (s u : State) : Prop := ∀ a, P a → u.rdw a = s.rdw a

theorem State.sameIn.refl (P : Nat → Prop) (s : State) : s.sameIn P s := fun _ _ => rfl

section
variable {P : Nat → Prop} {s u : State}

theorem State.sameIn.trans {v : State} (h : s.sameIn P u) (h' : u.sameIn P v) : s.sameIn P v := fun a ha => (h' a ha).trans (h a ha)

theorem State.sameIn.mono {Q : Nat → Prop} (h : s.sameIn P u) (hq : ∀ a, Q a → P a) : s.sameIn Q u := fun a ha => h a (hq a ha)

theorem State.sameIn.rd (h : s.sameIn P u) (f : FRef) (hf : P f.addr) : u.rd f = s.rd f := congrArg (fget · f.lo f.w) (h _ hf)

theorem State.sameIn.flag (h : s.sameIn P u) (f : FRef) (hf : P f.addr) : u.flag f = s.flag f := congrArg (· == 1) (h.rd f hf)

theorem State.sameIn_of_io (h : u.io = s.io) : s.sameIn P u := fun a _ => by rw [State.rdw, h, State.rdw]

theorem State.sameIn_wrw (s : State) {a : Nat} (v : Word) (h : ¬ P a) : s.sameIn P (s.wrw a v) := fun _ hb =>
  s.rdw_wrw_ne _ _ _ fun hab => h (hab ▸ hb)

theorem State.sameIn_wr (s : State) (f : FRef) (v : Nat) (h : ¬ P f.addr) : s.sameIn P (s.wr f v) := s.sameIn_wrw _ h

theorem State.sameIn_foldl {α : Type} {f : State → α → State} {l : List α} (hf : ∀ (s : State), ∀ a ∈ l, s.sameIn P (f s a)) (s : State) :
    s.sameIn P (l.foldl f s) := by
  induction l generalizing s with
  | nil => exact .refl P s
  | cons a l ih => exact (hf s a List.mem_cons_self).trans (ih (fun z b hb => hf z b (List.mem_cons_of_mem a hb)) (f s a))

end

/-- The registers of the decode of an address: all but those of the ports' queues and arbiters. -/
def decodeReg (a : Nat) : Prop :=
  ¬ (0xfe0002000000 ≤ a ∧ a < 0xfe0002100000 ∧ ((a - 0xfe0002000000) % 0x10000 = 0x28 ∨ 0x2000 ≤ (a - 0xfe0002000000) % 0x10000))

theorem not_decodeReg_wq (n : Fin 16) : ¬ decodeReg (A.MPn_WQ n) := by
  have := n.isLt
  unfold decodeReg A.MPn_WQ
  omega

theorem not_decodeReg_arb (n : Fin 16) {r k : Nat} (hr : r < 32) (hk : k < 0x18) : ¬ decodeReg (0xfe0002002000 + k + n * 0x10000 + r * 0x18) := by
  have := n.isLt
  have hm : (0xfe0002002000 + k + n * 0x10000 + r * 0x18 - 0xfe0002000000) % 0x10000 = 0x2000 + k + r * 0x18 := by omega
  unfold decodeReg
  omega

/-- The registers behind the memory ports' are none of theirs. -/
theorem decodeReg_above {c x : Nat} (h : 0xfe0002100000 ≤ c) : decodeReg (c + x) := by
  unfold decodeReg
  omega

theorem decodeReg_set {c i : Nat} (h : c < 0xfe0000004020) (hi : i < 16) : decodeReg (c + i * 0x20) := by
  unfold decodeReg
  omega

/-- The registers of a memory port before its queue's. -/
theorem decodeReg_port {c : Nat} (n : Nat) (h1 : 0xfe0002000000 ≤ c) (h2 : c < 0xfe0002000028) : decodeReg (c + n * 0x10000) := by
  unfold decodeReg
  omega

/-! The decode of an address rests on these registers and the package's position. -/

theorem State.iset_lt {s : State} {r : Region} (h : r ∈ s.regions) : r.iset < 16 := by
  obtain ⟨n, -, hn⟩ := List.mem_filterMap.mp h
  split at hn
  · cases hn
    exact fget_lt _ _ _
  · exact nomatch hn

section
variable {s u : State} (h : s.sameIn decodeReg u) (hg : u.gpos = s.gpos)
include h

theorem State.viaSet_congr {i : Nat} (hi : i < 16) (pa : Nat) : u.viaSet i pa = s.viaSet i pa := by
  have ctl (lo w : Nat) : u.rd ⟨A.IS_CTLs i, lo, w⟩ = s.rd ⟨A.IS_CTLs i, lo, w⟩ := h.rd _ (decodeReg_set (by decide) hi)
  have valid : u.flag (F.IS_CTLs_V i) = s.flag (F.IS_CTLs_V i) := congrArg (· == 1) (ctl 0 1)
  have base : u.isBase i = s.isBase i := congrArg (2 ^ 21 * ·) (h.rd (F.IS_BASEs_BASE i) (decodeReg_set (by decide) hi))
  have size : u.isSize i = s.isSize i := congrArg (2 ^ 21 * ·) (h.rd (F.IS_SIZEs_SIZE i) (decodeReg_set (by decide) hi))
  have ways : u.isPort i = s.isPort i := funext fun k => by
    rw [State.isPort, h (A.IS_PORTSs i) (decodeReg_set (by decide) hi), State.isPort]
  have ready (p : Nat) : u.portReady p = s.portReady p := by
    rw [State.portReady, h.flag (F.MPn_STAT_READY p) (decodeReg_port p (by decide) (by decide)), h.flag (F.MPn_STAT_UP p) (decodeReg_port p (by decide) (by decide)),
      State.portReady]
  have dev (p : Nat) : u.devBase p = s.devBase p := congrArg (2 ^ 28 * ·) (h.rd (F.MPn_DEVBASE_BASE p) (decodeReg_port p (by decide) (by decide)))
  unfold State.viaSet
  rw [valid, base, size, ways, ctl, ctl, ctl, ctl]
  dsimp only
  rw [ready, dev]

theorem State.regions_decode : u.regions = s.regions :=
  State.regions_congr fun a h1 h2 => h a (by unfold decodeReg; omega)

theorem State.regionOf_decode (pa : Nat) : u.regionOf pa = s.regionOf pa := by
  unfold State.regionOf
  rw [State.regions_decode h]

theorem State.gdwOf_decode (r : Region) : u.gdwOf r = s.gdwOf r := by
  refine congrArg (fun p => List.find? p (List.range 8)) (funext fun w => ?_)
  rw [h.flag (F.GDW_TGTw_V w) (decodeReg_above (by decide)), h.rd (F.GDW_BASEw_BASE w) (decodeReg_above (by decide)),
    h.rd (F.GDW_SIZEw_SIZE w) (decodeReg_above (by decide))]

theorem State.gpUp_decode (p : Nat) : u.gpUp p = s.gpUp p := h.flag (F.GP_STATr_UP p) (decodeReg_above (by decide))

theorem State.member_decode (p : Nat) : u.member p = s.member p := by
  rw [State.member, h.rd F.GRP_STAT_MEMBER (decodeReg_above (c := A.GRP_STAT) (x := 0) (by decide)), State.member]

include hg

/-- Where an access goes depends on no register of a queue or an arbiter. -/
theorem State.route_congr (pa : Nat) : u.route pa = s.route pa := by
  have target (w : Nat) : u.rd (F.GDW_TGTw_PORT w) = s.rd (F.GDW_TGTw_PORT w) := h.rd _ (decodeReg_above (by decide))
  have window (w : Nat) : u.rd (F.GDW_DEVBASEw_BASE w) = s.rd (F.GDW_DEVBASEw_BASE w) := h.rd _ (decodeReg_above (by decide))
  have start (w : Nat) : u.rd (F.GDW_BASEw_BASE w) = s.rd (F.GDW_BASEw_BASE w) := h.rd _ (decodeReg_above (by decide))
  have far {c : Nat} (hc : 0xfe0002100000 ≤ c) (w lo k : Nat) : u.rd ⟨c + w * 0x20, lo, k⟩ = s.rd ⟨c + w * 0x20, lo, k⟩ :=
    h.rd _ (decodeReg_above hc)
  have fabric : u.flag F.FAB_ID_ASSIGNED = s.flag F.FAB_ID_ASSIGNED := h.flag _ (decodeReg_above (c := A.FAB_ID) (x := 0) (by decide))
  have ls : u.lsOf pa = s.lsOf pa := by rw [State.lsOf, State.lsBase, hg, State.lsOf, State.lsBase]
  have home : u.homedHere pa = s.homedHere pa := by rw [State.homedHere, hg, State.homedHere]
  unfold State.route
  rw [ls, State.regionOf_decode h]
  split
  · rfl
  split
  · rfl
  next r hr =>
  dsimp only
  have ftgt : u.flag (F.FW_TGTw_V r.iset) = s.flag (F.FW_TGTw_V r.iset) := congrArg (· == 1) (far (c := 0xfe0003008110) (by decide) r.iset _ _)
  rw [State.viaSet_congr h (State.iset_lt (List.mem_of_find?_eq_some hr)), State.gdwOf_decode h, home, hg, State.member_decode h, fabric, ftgt,
    far (c := 0xfe0003008100) (by decide), far (c := 0xfe0003008108) (by decide), far (c := 0xfe0003008110) (by decide),
    far (c := 0xfe0003008118) (by decide), State.gpUp_decode h]
  split
  · rfl
  split
  · split
    next w hw => rw [target, window, start, State.gpUp_decode h]
    · rfl
  · rfl

theorem State.portOf_congr (n line : Nat) : u.portOf n line = s.portOf n line := by
  unfold State.portOf
  rw [State.route_congr h hg]

end

/-! Reads at a port. -/

/-- Between s and u nothing but registers and what the ports hold has changed, and no register of the decode. -/
def State.atPorts (s u : State) : Prop := (∃ io p, u = { s with io := io, ports := p }) ∧ s.sameIn decodeReg u

theorem State.atPorts.refl (s : State) : s.atPorts s := ⟨⟨s.io, s.ports, rfl⟩, .refl _ s⟩

theorem State.atPorts.trans {s u v : State} (h : s.atPorts u) (h' : u.atPorts v) : s.atPorts v := by
  obtain ⟨⟨_, _, rfl⟩, h⟩ := h
  obtain ⟨⟨io, p, rfl⟩, h'⟩ := h'
  exact ⟨⟨io, p, rfl⟩, h.trans h'⟩

theorem State.atPorts_wr (s : State) (f : FRef) (v : Nat) (h : ¬ decodeReg f.addr) : s.atPorts (s.wr f v) := ⟨⟨_, s.ports, rfl⟩, s.sameIn_wr f v h⟩

theorem State.atPorts_setPt (s : State) (n : Nat) (x : PortSt) : s.atPorts (s.setPt n x) := ⟨⟨s.io, _, rfl⟩, fun _ _ => rfl⟩

section
variable {s u : State} (h : s.atPorts u)
include h

theorem State.atPorts.mem : u.mem = s.mem := by
  obtain ⟨⟨io, p, rfl⟩, -⟩ := h
  rfl

theorem State.atPorts.wq (n : Nat) : u.wq n = s.wq n := by rw [State.wq, h.mem, State.wq]

theorem State.atPorts.portOf (n line : Nat) : u.portOf n line = s.portOf n line := by
  obtain ⟨⟨io, p, rfl⟩, hs⟩ := h
  exact State.portOf_congr hs rfl n line

theorem State.atPorts.wqHit (n dev : Nat) : u.wqHit n dev = s.wqHit n dev := by
  unfold State.wqHit
  rw [h.wq]

theorem State.atPorts.burstNow (n : Nat) (q : PortReq) : u.burstNow n q = s.burstNow n q := by
  simp only [State.burstNow, h.portOf, h.wqHit]

end

@[simp] theorem State.pt_setPt (s : State) (n : Nat) (x : PortSt) : (s.setPt n x).pt n = x := by simp [State.pt, State.setPt]

/-- Whether a line at a port is served by the port's queue (R301). -/
def State.servedByQueue (s : State) (n l : Nat) : Bool := (s.portOf n l).any fun dev => s.wqHit n dev == some true

/-- Whether one line of a read is sent to the device of port n (R301). -/
def State.goesToDevice (s : State) (n l : Nat) : Bool := (s.portOf n l).isSome && !s.servedByQueue n l

/-- The reads that lines of a burst send to the device. -/
def State.sentReads (s : State) (n : Nat) (q : PortReq) (l : List Nat) : List PortReq :=
  (l.filter fun i => s.goesToDevice n (q.line + i)).map fun i => { q with line := q.line + i, left := 1 }

theorem State.atPorts.sentReads {s u : State} (h : s.atPorts u) (n : Nat) (q : PortReq) (l : List Nat) :
    u.sentReads n q l = s.sentReads n q l := by
  simp only [State.sentReads, State.goesToDevice, State.servedByQueue, h.portOf, h.wqHit]

section
variable {n : Fin 16} (q : PortReq)

/-- After u port n has the reads given on their way beside its own, and no register but its queue's has changed. -/
def State.readsAt (s u : State) (n : Fin 16) (l : List PortReq) : Prop :=
  s.atPorts u ∧ u.pt n = { s.pt n with reads := (s.pt n).reads ++ l } ∧ s.sameIn (fun a => a ≠ A.MPn_WQ n) u

theorem State.readsAt_readLine (s : State) (i : Nat) : s.readsAt (s.readLine n q (q.line + i)) n (s.sentReads n q [i]) := by
  unfold State.readLine State.sentReads State.goesToDevice State.servedByQueue
  cases hp : s.portOf n (q.line + i) with
  | none =>
    refine ⟨.refl s, ?_, .refl _ s⟩
    simp [hp]
  | some dev =>
    dsimp only
    split
    next hw =>
      refine ⟨s.atPorts_wr _ _ (not_decodeReg_wq n), ?_, s.sameIn_wr _ _ (by simp)⟩
      simp [hp, hw, State.pt]
    next hw =>
      refine ⟨s.atPorts_setPt _ _, ?_, fun _ _ => rfl⟩
      simp [hp, hw]

theorem State.readsAt_foldl (s : State) (l : List Nat) : s.readsAt (l.foldl (fun s i => s.readLine n q (q.line + i)) s) n (s.sentReads n q l) := by
  induction l generalizing s with
  | nil => exact ⟨.refl s, by simp [State.sentReads], .refl _ s⟩
  | cons i l ih =>
    obtain ⟨h1, h2, h3⟩ := s.readsAt_readLine q i (n := n)
    obtain ⟨k1, k2, k3⟩ := ih (s.readLine n q (q.line + i))
    refine ⟨h1.trans k1, ?_, h3.trans k3⟩
    have happ : s.sentReads n q (i :: l) = s.sentReads n q [i] ++ s.sentReads n q l := by
      simp only [State.sentReads, ← List.map_append, ← List.filter_append, List.singleton_append]
    rw [List.foldl_cons, k2, h2, h1.sentReads, happ, List.append_assoc]

/-- What the lines of a burst up to its next break point send to the device (R305). -/
def State.askedReads (s : State) (n : Nat) (q : PortReq) : List PortReq := s.sentReads n q (List.range (s.burstNow n q))

/-- A burst that is granted. -/
theorem State.acceptRead_spec (s : State) : let u := s.acceptRead n q
    (u.pt n).reads = (s.pt n).reads ++ s.askedReads n q ∧ (u.pt n).owner = q.rq
      ∧ (s.burstNow n q = q.unit → (u.pt n).waits = SMap.del (s.pt n).waits q.rq)
      ∧ u.mem = s.mem ∧ s.sameIn (fun a => a ≠ A.MPn_WQ n) u := by
  obtain ⟨h1, h2, h3⟩ := s.readsAt_foldl q (List.range (s.burstNow n q)) (n := n)
  unfold State.acceptRead
  dsimp only
  rw [State.pt_setPt, h2]
  refine ⟨rfl, rfl, fun hk => ?_, h1.mem, h3⟩
  rw [if_neg (by omega)]

end

/-- A counter that counts up wraps at its width. -/
theorem State.rd_inc (s : State) (f : FRef) (k : Nat) (h : f.lo + f.w ≤ 64) : (s.inc f k).rd f = (s.rd f + k) % 2 ^ f.w := s.rd_wr_same f _ h

/-! A read reaches its port. -/

section
variable {s : State} {n : Fin 16} {rq : Fin 32} {cls : Fin 64} {lines : Fin 4096} {line : LineNo} {a : Nat}

/-- The request that a read of a burst makes. -/
def State.readReq (s : State) (n : Nat) (rq : Fin 32) (cls : Fin 64) (line lines : Nat) : PortReq :=
  ⟨line, s.burstLen n line (lines + 1), rq, cls, if rq = 20 then 3 else 0⟩

/-- Whether the queue of a port serves every line of a request (R301). -/
def State.allServed (s : State) (n : Nat) (q : PortReq) : Bool := (List.range q.left).all fun i => s.servedByQueue n (q.line + i)

variable (here : s.route (line * 64) = .port n a) (hrq : rq.val < 30) (hw : SMap.find? (s.pt n).waits rq = none)
  (hb : ∀ y, (s.pt n).burst = some y → y.rq ≠ rq.val) (hh : s.heldOf line = none)
include here hrq hw hb hh

theorem exec_portRead_here : exec (.portRead n rq ⟨line, lines⟩ cls) s = .next (
    if s.allServed n (s.readReq n rq cls line lines) then s.inc (F.MPn_WQ_FWD_HITS n) (s.readReq n rq cls line lines).left
    else if (s.pt n).waits == [] && (s.pt n).burst.isNone && (s.pt n).owner = rq.val then s.acceptRead n (s.readReq n rq cls line lines)
    else s.setPt n { s.pt n with waits := SMap.put (s.pt n).waits rq.val (s.readReq n rq cls line lines) }) := by
  have hany : (s.pt n).burst.any (fun b => b.rq == rq.val) = false := by
    cases hbu : (s.pt n).burst with
    | none => rfl
    | some y => simpa using hb y hbu
  rw [exec_portRead, execPortRead, here]
  dsimp only
  have hurg : (if rq.val = 20 then 3 else 0) = if rq = 20 then 3 else 0 := if_congr ⟨fun h => Fin.ext h, fun h => h ▸ rfl⟩ rfl rfl
  rw [if_neg (by simp [hw, hany, hh]; omega), hurg]
  rfl

theorem answers_portRead_served (hall : s.allServed n (s.readReq n rq cls line lines) = true) : answers (exec (.portRead n rq ⟨line, lines⟩ cls) s) fun u =>
    u.ports = s.ports ∧ u.rd (F.MPn_WQ_FWD_HITS n) = (s.rd (F.MPn_WQ_FWD_HITS n) + (s.readReq n rq cls line lines).left) % 2 ^ 32 := by
  rw [exec_portRead_here here hrq hw hb hh, if_pos hall]
  exact answers_next ⟨rfl, s.rd_inc (F.MPn_WQ_FWD_HITS n) _ (Nat.le_of_ble_eq_true rfl)⟩

theorem answers_portRead_free (hall : s.allServed n (s.readReq n rq cls line lines) = false)
    (hfree : (s.pt n).waits = [] ∧ (s.pt n).burst = none ∧ (s.pt n).owner = rq.val) :
    answers (exec (.portRead n rq ⟨line, lines⟩ cls) s) fun u => let q := s.readReq n rq cls line lines
      (u.pt n).reads = (s.pt n).reads ++ s.askedReads n q ∧ (s.burstNow n q = q.unit → (u.pt n).waits = []) ∧ u.mem = s.mem := by
  obtain ⟨hwaits, hburst, howner⟩ := hfree
  rw [exec_portRead_here here hrq hw hb hh, hall, if_neg Bool.false_ne_true, if_pos (by simp [hwaits, hburst, howner])]
  obtain ⟨h1, -, h3, h4, -⟩ := s.acceptRead_spec (n := n) (s.readReq n rq cls line lines)
  exact answers_next ⟨h1, fun hk => (h3 hk).trans (by rw [hwaits]; rfl), h4⟩

theorem answers_portRead_waits (hall : s.allServed n (s.readReq n rq cls line lines) = false)
    (hfree : ¬ ((s.pt n).waits = [] ∧ (s.pt n).burst = none ∧ (s.pt n).owner = rq.val)) :
    answers (exec (.portRead n rq ⟨line, lines⟩ cls) s) fun u =>
      SMap.find? (u.pt n).waits rq = some (s.readReq n rq cls line lines) ∧ (u.pt n).reads = (s.pt n).reads := by
  have hno : ¬ ((s.pt n).waits == [] && (s.pt n).burst.isNone && decide ((s.pt n).owner = rq.val)) = true := by
    simpa [and_assoc] using hfree
  rw [exec_portRead_here here hrq hw hb hh, hall, if_neg Bool.false_ne_true, if_neg hno]
  refine answers_next ?_
  rw [State.pt_setPt]
  exact ⟨by simp [SMap.find?_put], rfl⟩

end

/-! The arbiter decides. -/

theorem State.arbBeats_urg {s : State} {n : Nat} {x y : PortReq} : if s.arbBeats n x y then y.urg ≤ x.urg else x.urg ≤ y.urg := by
  unfold State.arbBeats
  dsimp only
  split
  next hu => split <;> simp_all; omega
  next hu => rw [not_ne_iff.mp hu, ite_self]

/-- The request that the arbiter picks of a list, the first being the best so far (R305). -/
def State.arbWinner (s : State) (n : Nat) (q : PortReq) (l : List PortReq) : PortReq := l.foldl (fun b q => if s.arbBeats n q b then q else b) q

theorem State.arbWinner_spec (s : State) (n : Nat) (q : PortReq) (l : List PortReq) :
    s.arbWinner n q l ∈ q :: l ∧ ∀ y ∈ q :: l, y.urg ≤ (s.arbWinner n q l).urg := by
  induction l generalizing q with
  | nil => simp [State.arbWinner]
  | cons x l ih =>
    have hstep : s.arbWinner n q (x :: l) = s.arbWinner n (if s.arbBeats n x q then x else q) l := rfl
    obtain ⟨hmem, hmax⟩ := ih (if s.arbBeats n x q then x else q)
    have hb := State.arbBeats_urg (s := s) (n := n) (x := x) (y := q)
    rw [hstep]
    split_ifs at hmem hmax hb ⊢
    all_goals grind

section
variable {s : State} {n : Fin 16} {cycles : Nat}

/-- The winner is granted, and its registers count (R305). -/
theorem State.arbDecide_winner {q : PortReq} {l : List PortReq} (hl : s.arbReady n = q :: l) (hr : (s.arbWinner n q l).rq < 32) :
    let w := s.arbWinner n q l
    let u := s.arbDecide n cycles
    (u.pt n).reads = (s.pt n).reads ++ s.askedReads n w ∧ (u.pt n).owner = w.rq
      ∧ (s.burstNow n w = w.unit → SMap.find? (u.pt n).waits w.rq = none)
      ∧ u.rd (F.MPn_ARBr_GRANTS_COUNT n w.rq) = (s.rd (F.MPn_ARBr_GRANTS_COUNT n w.rq) + 1) % 2 ^ 48 := by
  dsimp only
  generalize hw : s.arbWinner n q l = w at hr ⊢
  let z1 := s.inc (F.MPn_ARBr_GRANTS_COUNT n w.rq) 1
  let z2 := z1.inc (F.MPn_ARBr_WAIT_CYCLES n w.rq) cycles
  let z := z2.wr (F.MPn_ARBr_MAXWAIT_CYCLES n w.rq) (Nat.max (z2.rd (F.MPn_ARBr_MAXWAIT_CYCLES n w.rq)) (Nat.min cycles (2 ^ 32 - 1)))
  have hdec : s.arbDecide n cycles = z.acceptRead n w := by
    subst hw
    rw [State.arbDecide, hl]
    rfl
  have hz : s.atPorts z := ((s.atPorts_wr _ _ (not_decodeReg_arb n hr (k := 0) (by decide))).trans
    (State.atPorts_wr _ _ _ (not_decodeReg_arb n hr (k := 8) (by decide)))).trans (State.atPorts_wr _ _ _ (not_decodeReg_arb n hr (k := 16) (by decide)))
  have hcount : z.rd (F.MPn_ARBr_GRANTS_COUNT n w.rq) = (s.rd (F.MPn_ARBr_GRANTS_COUNT n w.rq) + 1) % 2 ^ 48 := by
    have hmax : z.rd (F.MPn_ARBr_GRANTS_COUNT n w.rq) = z2.rd (F.MPn_ARBr_GRANTS_COUNT n w.rq) :=
      z2.rd_wr_addr _ _ _ (by dsimp only [A.MPn_ARBr_GRANTS, A.MPn_ARBr_MAXWAIT]; omega)
    have hwait : z2.rd (F.MPn_ARBr_GRANTS_COUNT n w.rq) = z1.rd (F.MPn_ARBr_GRANTS_COUNT n w.rq) :=
      z1.rd_wr_addr _ _ _ (by dsimp only [A.MPn_ARBr_GRANTS, A.MPn_ARBr_WAIT]; omega)
    rw [hmax, hwait]
    exact s.rd_inc _ 1 (Nat.le_of_ble_eq_true rfl)
  obtain ⟨h1, h2, h3, -, h5⟩ := z.acceptRead_spec (n := n) w
  rw [hdec]
  refine ⟨?_, h2, fun hk => ?_, ?_⟩
  · rw [h1, State.askedReads, hz.burstNow, hz.sentReads]
    rfl
  · rw [h3 (by rwa [hz.burstNow]), SMap.find?_del, if_pos rfl]
  · exact (h5.rd (F.MPn_ARBr_GRANTS_COUNT n w.rq) (by dsimp only [A.MPn_ARBr_GRANTS, A.MPn_WQ]; omega)).trans hcount

end

section
variable {s : State} {n : Fin 16} {cycles : Nat}

theorem answers_arbGrant_decide (hb : (s.pt n).burst = none) (hne : s.arbReady n ≠ []) (hrq : ∀ y ∈ s.arbReady n, y.rq < 32) :
    ∃ w ∈ s.arbReady n, (∀ y ∈ s.arbReady n, y.urg ≤ w.urg) ∧ answers (exec (.arbGrant n cycles) s) fun u =>
      (u.pt n).reads = (s.pt n).reads ++ s.askedReads n w ∧ (u.pt n).owner = w.rq
        ∧ (s.burstNow n w = w.unit → SMap.find? (u.pt n).waits w.rq = none)
        ∧ u.rd (F.MPn_ARBr_GRANTS_COUNT n w.rq) = (s.rd (F.MPn_ARBr_GRANTS_COUNT n w.rq) + 1) % 2 ^ 48 := by
  obtain ⟨q, l, hl⟩ := List.exists_cons_of_ne_nil hne
  obtain ⟨hmem, hmax⟩ := s.arbWinner_spec n q l
  rw [← hl] at hmem hmax
  refine ⟨_, hmem, hmax, ?_⟩
  rw [exec_arbGrant, execArbGrant, hb]
  exact answers_next (State.arbDecide_winner hl (hrq _ hmem))

/-- A burst goes on where no request that waits is more urgent. -/
theorem answers_arbGrant_burst {q : PortReq} (hb : (s.pt n).burst = some q) (hmax : ∀ y ∈ s.arbReady n, y.urg ≤ q.urg) :
    answers (exec (.arbGrant n cycles) s) fun u => (u.pt n).reads = (s.pt n).reads ++ s.askedReads n q ∧ (u.pt n).owner = q.rq := by
  obtain ⟨h1, h2, -⟩ := s.acceptRead_spec (n := n) q
  have hno : ¬ ((s.arbReady n).any fun y => decide (q.urg < y.urg)) = true := by
    simpa using hmax
  rw [exec_arbGrant, execArbGrant, hb]
  dsimp only
  rw [if_neg hno]
  exact answers_next ⟨h1, h2⟩

theorem answers_urgencyRise {rq : Fin 32} {age : Nat} {q : PortReq} (hw : SMap.find? (s.pt n).waits rq = some q) :
    let urg := max q.urg (urgencyOf age (s.rd (F.MPn_QOSc_TARGET_NS n q.cls)))
    answers (exec (.urgencyRise n rq age) s) fun u => SMap.find? (u.pt n).waits rq = some { q with urg := urg }
      ∧ u.rd (F.MPn_URG_OVERRUN n) = if urg = 3 ∧ q.urg < 3 then (s.rd (F.MPn_URG_OVERRUN n) + 1) % 2 ^ 32 else s.rd (F.MPn_URG_OVERRUN n) := by
  dsimp only
  rw [exec_urgencyRise, execUrgencyRise]
  dsimp only
  rw [hw]
  refine answers_next ⟨?_, ?_⟩
  · rw [State.pt_setPt]
    exact (SMap.find?_put _ _ _ _).trans (if_pos rfl)
  · dsimp only
    split
    next h =>
      rw [if_pos (by simpa using h)]
      exact s.rd_inc (F.MPn_URG_OVERRUN n) 1 (Nat.le_of_ble_eq_true rfl)
    next h =>
      rw [if_neg (by simpa using h)]
      rfl

/-! A write joins the queue and completes at its device. -/

@[simp] theorem State.wq_setWq (s : State) (n : Nat) (q : List WqEnt) : (s.setWq n q).wq n = q := by
  unfold State.setWq
  dsimp only
  split <;> simp [State.wq]

/-- Beside registers a queue that is stored changes the memory's queues alone. -/
theorem State.setWq_eq (s : State) (n : Nat) (q : List WqEnt) :
    ∃ io, s.setWq n q = { s with mem := { s.mem with wq := SMap.put s.mem.wq n q }, io := io } := by
  unfold State.setWq
  dsimp only
  split
  · exact ⟨_, rfl⟩
  · exact ⟨_, rfl⟩

theorem answers_portWrite {line : LineNo} {a : Nat} {mask : BitVec 64} {data : LineData} (here : s.route (line * 64) = .port n a)
    (works : s.works = true) (hk : s.keyOk (s.line line).kslot = true) (hfree : ∀ y ∈ s.wq n, y.dev ≠ a) :
    answers (exec (.portWrite n line mask data) s) fun u =>
      u.wq n = s.wq n ++ [⟨a, mask, data, false, s.keyOf (s.line line).kslot, false, false, s.nextId⟩] ∧ u.ports = s.ports := by
  have hclash : ((s.wq n).any fun x => x.dev == a && !x.sent && !x.undo) = false := by
    simp only [List.any_eq_false, Bool.and_eq_true, beq_iff_eq]
    rintro x hx ⟨⟨h, -⟩, -⟩
    exact hfree x hx h
  let e : WqEnt := ⟨a, mask, data, false, s.keyOf (s.line line).kslot, false, false, s.nextId⟩
  have hput : s.portPut n a mask data false false (s.line line).kslot = { (s.setWq n (s.wq n ++ [e])) with nextId := s.nextId + 1 } := by
    simp [State.portPut, wqInsert, hk, hclash, e]
  obtain ⟨io, hset⟩ := s.setWq_eq n (s.wq n ++ [e])
  rw [exec_portWrite, execPortWrite, works, here]
  dsimp only
  rw [if_neg (by simp), if_pos rfl, hput]
  refine answers_next ⟨s.wq_setWq n _, ?_⟩
  rw [hset]

theorem Mem.devByte_devPut (m : Mem) (a x : Nat) (b : Byte) : (m.devPut a [b]).devByte x = if x = a then b else m.devByte x :=
  SMap.get_setByte devFill m.dev a x b

/-- A write of a line changes the bytes of its mask. -/
theorem Mem.devByte_devWrite (m : Mem) (a i : Nat) (mask : BitVec 64) (d : LineData) :
    (m.devWrite a mask d).devByte (a + i) = if i < 64 ∧ mask.getLsbD i = true then lineByte d i else m.devByte (a + i) := by
  have h (k : Nat) : ((List.range k).foldl (fun m i => if mask.getLsbD i then m.devPut (a + i) [lineByte d i] else m) m).devByte (a + i)
      = if i < k ∧ mask.getLsbD i = true then lineByte d i else m.devByte (a + i) := by
    induction k with
    | zero => simp
    | succ k ih =>
      rw [List.range_succ, List.foldl_append, List.foldl_cons, List.foldl_nil]
      split
      next hm =>
        rw [Mem.devByte_devPut, ih]
        by_cases hik : i = k
        · rw [if_pos (by rw [hik]), if_pos ⟨by omega, by rwa [hik]⟩, hik]
        · rw [if_neg (by omega)]
          exact if_congr (and_congr_left' (by omega)) rfl rfl
      next hm =>
        rw [ih]
        by_cases hik : i = k
        · rw [if_neg (by omega), if_neg (by simp [hik, hm])]
        · exact if_congr (and_congr_left' (by omega)) rfl rfl
  exact h 64

theorem Mem.devByte_devComplete (m : Mem) (a x : Nat) (e : WqEnt) : (m.devComplete a e).devByte x = (m.devWrite a e.mask e.data).devByte x := by
  unfold Mem.devComplete
  dsimp only
  split_ifs <;> rfl

theorem answers_deviceWriteCompletion {line : LineNo} {a : Nat} {e : WqEnt} (here : s.route (line * 64) = .port n a) (works : s.works = true)
    (he : List.find? (fun y => y.dev == a) (s.wq n) = some e) : answers (exec (.deviceWriteCompletion n line) s) fun u =>
      u.wq n = (s.wq n).filter (fun y => y.id != e.id)
      ∧ ∀ i, u.mem.devByte (devNo n a + i) = if i < 64 ∧ e.mask.getLsbD i = true then lineByte e.data i else s.mem.devByte (devNo n a + i) := by
  have hat : s.portOf n line = some a := by simp [State.portOf, here]
  obtain ⟨io, hset⟩ := State.setWq_eq { s with mem := s.mem.devComplete (devNo n a) e } n ((s.wq n).filter fun x => x.id != e.id)
  rw [exec_deviceWriteCompletion, execDeviceWriteCompletion, works, hat]
  dsimp only
  rw [if_neg (by simp), he]
  refine answers_next ⟨State.wq_setWq _ _ _, fun i => ?_⟩
  dsimp only
  rw [hset]
  exact (Mem.devByte_devComplete _ _ _ _).trans (Mem.devByte_devWrite _ _ _ _ _)

theorem answers_deviceReadResponse {line : LineNo} {q : PortReq} {pois ovl : Bool}
    (hq : List.find? (fun y => y.line == line) (s.pt n).reads = some q) :
    answers (exec (.deviceReadResponse n line pois ovl) s) fun u => (u.pt n).reads = (s.pt n).reads.erase q ∧ (u.pt n).overload = ovl
      ∧ u.rd (F.MPn_ERR_POISON_RD n) = (s.rd (F.MPn_ERR_POISON_RD n) + if pois then 1 else 0) % 2 ^ 32 := by
  let z := s.setPt n { s.pt n with reads := (s.pt n).reads.erase q, overload := ovl }
  have hpt : z.pt n = { s.pt n with reads := (s.pt n).reads.erase q, overload := ovl } := s.pt_setPt n _
  have hpois : (z.poisonRead n line).pt n = z.pt n ∧ (z.poisonRead n line).rd (F.MPn_ERR_POISON_RD n) = (s.rd (F.MPn_ERR_POISON_RD n) + 1) % 2 ^ 32 := by
    have hinc := z.rd_inc (F.MPn_ERR_POISON_RD n) 1 (Nat.le_of_ble_eq_true rfl)
    unfold State.poisonRead
    dsimp only
    split
    · split
      · exact ⟨rfl, hinc⟩
      · exact ⟨rfl, hinc⟩
    · split
      · exact ⟨rfl, hinc⟩
      · exact ⟨rfl, hinc⟩
  have hx : exec (.deviceReadResponse n line pois ovl) s = .next (if pois then z.poisonRead n line else z) := by
    rw [exec_deviceReadResponse, execDeviceReadResponse]
    dsimp only
    rw [hq]
  rw [hx]
  refine answers_next ?_
  cases pois with
  | true => exact ⟨congrArg PortSt.reads (hpois.1.trans hpt), congrArg PortSt.overload (hpois.1.trans hpt), hpois.2⟩
  | false => exact ⟨congrArg PortSt.reads hpt, congrArg PortSt.overload hpt, (Nat.mod_eq_of_lt (fget_lt _ _ _)).symm⟩

end

end Sys2Proof.Machine
end

section
/-!
MEMORY PORTS: training and the loss of a link (R292, R293, R307, R309), and the settlement of O47.
-/
namespace Sys2Proof.Machine

set_option Elab.async false

/-! What the loss of a link leaves alone. -/

/-- The registers of interleave sets and regions, and those of the take domains that give their place. -/
def tableReg (a : Nat) : Prop :=
  (0xfe0000004000 ≤ a ∧ a < 0xfe0000004200) ∨ (0xfe0008000000 ≤ a ∧ a < 0xfe0008000800)
    ∨ ∃ d, d < 8 ∧ (a = A.TDn_CFG d ∨ a = A.TDn_SEG0 d ∨ a = A.TDn_SEG1 d)

/-- These registers and the memory ports': the loss of a memory link leaves them alone but for the port's own. -/
def lossKept (a : Nat) : Prop := tableReg a ∨ (0xfe0002000000 ≤ a ∧ a < 0xfe0002100000)

theorem tableReg_apart {a : Nat} (h : tableReg a) : (a < 0xfe0002000000 ∨ 0xfe0008000000 ≤ a) ∧ ∀ d, d < 8 → a ≠ A.TDn_SPOIL d ∧ a ≠ A.TDn_STAT d := by
  unfold tableReg A.TDn_CFG A.TDn_SEG0 A.TDn_SEG1 at h
  unfold A.TDn_SPOIL A.TDn_STAT
  obtain h | h | ⟨k, hk, h⟩ := h
  · exact ⟨by omega, fun d hd => by omega⟩
  · exact ⟨by omega, fun d hd => by omega⟩
  · exact ⟨by omega, fun d hd => by omega⟩

/-- The banks' registers, the dailies' and the mirrors' lie between. -/
theorem not_lossKept_between {a : Nat} (h1 : 0xfe0004000000 ≤ a) (h2 : a < 0xfe0008000000) : ¬ lossKept a := by
  rintro (h | h)
  · have := (tableReg_apart h).1
    omega
  · omega

theorem not_lossKept_spoil {d : Nat} (hd : d < 8) : ¬ lossKept (A.TDn_SPOIL d) ∧ ¬ lossKept (A.TDn_STAT d) := by
  refine ⟨?_, ?_⟩
  · rintro (h | h)
    · exact ((tableReg_apart h).2 d hd).1 rfl
    · dsimp only [A.TDn_SPOIL] at h
      omega
  · rintro (h | h)
    · exact ((tableReg_apart h).2 d hd).2 rfl
    · dsimp only [A.TDn_STAT] at h
      omega

theorem lossKept_port (n : Fin 16) {c : Nat} (h1 : 0xfe0002000000 ≤ c) (h2 : c < 0xfe0002010000) : lossKept (c + n * 0x10000) := by
  have := n.isLt
  exact .inr (by omega)

section
variable {P : Nat → Prop} (hP : ∀ a, 0xfe0004000000 ≤ a → a < 0xfe0008000000 → ¬ P a)
include hP

theorem State.sameIn_lanesCount (s : State) {base lo hi : Nat} (h : base + hi < 0x10000) : s.sameIn P (s.lanesCount base lo hi) := by
  refine State.sameIn_foldl (fun z i hi' => z.sameIn_wr _ _ ?_) s
  have := List.mem_range.mp hi'
  exact hP _ (by dsimp only [A.DLY_LANEq]; omega) (by dsimp only [A.DLY_LANEq]; omega)

theorem State.sameIn_fillBank (s : State) {b : Nat} (hb : b < 354) (e : ErrRec) (ce : Nat) (ov : Bool) : s.sameIn P (s.fillBank b e ce ov) := by
  have hbank {c : Nat} (h1 : 0xfe0004000000 ≤ c) (h2 : c < 0xfe0004002000) : ¬ P (c + b * 0x40) := hP _ (by omega) (by omega)
  exact (((s.sameIn_wrw _ (hbank (c := 0xfe0004001000) (by decide) (by decide))).trans
    (State.sameIn_wr _ _ _ (hbank (c := 0xfe0004001008) (by decide) (by decide)))).trans
    (State.sameIn_wrw _ _ (hbank (c := 0xfe0004001010) (by decide) (by decide)))).trans
    (State.sameIn_wrw _ _ (hbank (c := 0xfe0004001018) (by decide) (by decide)))

theorem State.sameIn_logErr (s : State) {b : Nat} (hb : b < 354) {e : ErrRec} (he : e.sev ≠ .corrected) : s.sameIn P (s.logErr b e) := by
  have hover : ¬ P (F.MCb_STATUS_OVER b).addr := hP _ (by dsimp only [A.MCb_STATUS]; omega) (by dsimp only [A.MCb_STATUS]; omega)
  unfold State.logErr
  dsimp only
  rw [if_neg he, if_neg he, if_neg he]
  split
  · split
    · exact s.sameIn_fillBank hP hb _ _ _
    · exact s.sameIn_wr _ _ hover
  · exact s.sameIn_fillBank hP hb _ _ _

theorem State.sameIn_mcQueue (s : State) (code : Nat) (v : Word) : s.sameIn P (s.mcQueue code v) := by
  have hgstat : ¬ P F.MC_GSTAT_PENDING.addr := hP _ (by decide) (by decide)
  unfold State.mcQueue
  dsimp only
  split
  · split_ifs <;> exact State.sameIn_of_io rfl
  · split_ifs
    · exact s.sameIn_wr _ _ hgstat
    · exact State.sameIn_wr { s with mcPend := s.mcPend ++ [(code, v)] } _ _ hgstat

theorem State.sameIn_logAsync (s : State) {b : Nat} (hb : b < 354) (e : ErrRec) : s.sameIn P (s.logAsync b e) := by
  unfold State.logAsync
  refine State.sameIn.trans ?_ (State.sameIn_mcQueue hP _ _ _)
  have he : ({ e with sev := .recoverable, cause := 0x90 } : ErrRec).sev ≠ .corrected := by simp
  exact s.sameIn_logErr hP hb he

end

/-! A domain is spoiled. -/

theorem State.foldl_io_ports {α : Type} {f : State → α → State} (hf : ∀ s a, (f s a).io = s.io ∧ (f s a).ports = s.ports) (l : List α) (s : State) :
    (l.foldl f s).io = s.io ∧ (l.foldl f s).ports = s.ports := by
  induction l generalizing s with
  | nil => exact ⟨rfl, rfl⟩
  | cons a l ih => exact ⟨(ih (f s a)).1.trans (hf s a).1, (ih (f s a)).2.trans (hf s a).2⟩

theorem State.setViews_io_ports (s : State) (d take : Nat) : (s.setViews d take).io = s.io ∧ (s.setViews d take).ports = s.ports := by
  refine State.foldl_io_ports (fun z a => ?_) _ s
  exact ⟨rfl, rfl⟩

theorem State.returnCredits_io_ports (s : State) (d : Nat) (p : Nat → Bool) :
    (s.returnCredits d p).io = s.io ∧ (s.returnCredits d p).ports = s.ports := by
  unfold State.returnCredits
  dsimp only
  refine State.foldl_io_ports (fun z k => ?_) _ (s.setDom d _)
  exact ⟨rfl, rfl⟩

theorem State.rcFresh_cases (s : State) (d : Nat) : s.rcFresh d = s ∨ ∃ v, s.rcFresh d = s.wr (F.MIR_RCn_STATE d) v := by
  unfold State.rcFresh
  dsimp only
  split_ifs
  · exact .inl rfl
  · exact .inr ⟨_, rfl⟩
  · exact .inr ⟨_, rfl⟩
  · exact .inl rfl

/-- An address of none of the registers that change when a domain is spoiled. -/
def spoilKept (d a : Nat) : Prop := a ≠ A.TDn_SPOIL d ∧ a ≠ A.TDn_STAT d ∧ a ≠ A.MIR_RCn d

theorem spoilKept_of_lossKept {d a : Nat} (hd : d < 8) (ha : lossKept a) : spoilKept d a := by
  obtain ⟨hspoil, hstat⟩ := not_lossKept_spoil hd
  refine ⟨fun h => hspoil (h ▸ ha), fun h => hstat (h ▸ ha), fun h => ?_⟩
  exact not_lossKept_between (by unfold A.MIR_RCn at h; omega) (by unfold A.MIR_RCn at h; omega) ha

theorem spoilKept_stat {d k : Nat} (hd : d < 8) (hk : k < 8) (h : k ≠ d) : spoilKept d (A.TDn_STAT k) := by
  unfold spoilKept A.TDn_STAT A.TDn_SPOIL A.MIR_RCn
  omega

/-- The registers of a domain that is spoiled (R236). -/
theorem State.spoil_regs (s : State) {d : Nat} (hd : d < 8) : s.sameIn (spoilKept d) (s.spoil d) ∧ (s.spoil d).ports = s.ports
    ∧ (s.domEn d = true → (s.spoil d).rd (F.TDn_STAT_SPOILED d) = 1) := by
  unfold State.spoil
  split
  next hen => exact ⟨.refl _ s, rfl, fun h => absurd h (by simpa using hen)⟩
  next hen =>
    dsimp only
    generalize hz0 : (if s.spoiled d then s else s.wr (F.TDn_SPOIL_FIRST d) (s.cutTake d + 1)) = z0
    have h0 : s.sameIn (spoilKept d) z0 ∧ z0.ports = s.ports := by
      rw [← hz0]
      split
      · exact ⟨.refl _ s, rfl⟩
      · exact ⟨s.sameIn_wr _ _ (fun h => h.1 rfl), rfl⟩
    generalize hz1 : ((z0.wr (F.TDn_STAT_SPOILED d) 1).wr (F.TDn_STAT_PENDING d) 0).wr (F.TDn_STAT_CUTTING d) 0 = z1
    have hstat (z : State) (v : Nat) {lo w : Nat} : z.sameIn (spoilKept d) (z.wr ⟨A.TDn_STAT d, lo, w⟩ v) := z.sameIn_wr _ _ (fun h => h.2.1 rfl)
    have h1 : s.sameIn (spoilKept d) z1 ∧ z1.ports = s.ports ∧ z1.rd (F.TDn_STAT_SPOILED d) = 1 := by
      rw [← hz1]
      refine ⟨((h0.1.trans (hstat _ _)).trans (hstat _ _)).trans (hstat _ _), h0.2, ?_⟩
      rw [State.rd_wr_ne _ _ _ _ (by simp) (.inr (.inr (by simp))), State.rd_wr_ne _ _ _ _ (by simp) (.inr (.inr (by simp)))]
      exact z0.rd_wr_same _ _ (by simp)
    generalize hz2 : ((z1.setDom d _).setViews d _).returnCredits d _ = z2
    have h2 : z2.io = z1.io ∧ z2.ports = z1.ports := by
      obtain ⟨v1, v2⟩ := State.setViews_io_ports (z1.setDom d _) d ((z1.setDom d _).openTake d)
      obtain ⟨c1, c2⟩ := State.returnCredits_io_ports (State.setViews (z1.setDom d _) d ((z1.setDom d _).openTake d)) d fun _ => true
      rw [← hz2]
      exact ⟨c1.trans v1, c2.trans v2⟩
    have h3 : s.sameIn (spoilKept d) z2 := h1.1.trans (State.sameIn_of_io h2.1)
    have h4 : z2.rd (F.TDn_STAT_SPOILED d) = 1 := by
      have := h1.2.2
      rwa [State.rd, State.rdw, ← h2.1] at this
    obtain hrc | ⟨v, hrc⟩ := z2.rcFresh_cases d
    · rw [hrc]
      exact ⟨h3, h2.2.trans h1.2.1, fun _ => h4⟩
    · rw [hrc]
      refine ⟨h3.trans (z2.sameIn_wr _ _ (fun h => h.2.2 rfl)), h2.2.trans h1.2.1, fun _ => (z2.rd_wr_addr _ _ _ ?_).trans h4⟩
      dsimp only [A.TDn_STAT, A.MIR_RCn]
      omega

/-! The domains of a port. -/

theorem any_congr_mem {α : Type} {l : List α} {p q : α → Bool} (h : ∀ a ∈ l, p a = q a) : l.any p = l.any q := by
  induction l with
  | nil => rfl
  | cons a l ih => rw [List.any_cons, List.any_cons, h a List.mem_cons_self, ih fun b hb => h b (List.mem_cons_of_mem a hb)]

section
variable {s u : State} (h : s.sameIn tableReg u) {d : Nat} (hd : d < 8)
include h

/-- The ports of an interleave set. -/
theorem State.setPorts_kept {i : Nat} (hi : i < 16) : u.rd (F.IS_CTLs_WAYS i) = s.rd (F.IS_CTLs_WAYS i) ∧ u.isPort i = s.isPort i := by
  have set {c : Nat} (h1 : 0xfe0000004000 ≤ c) (h2 : c < 0xfe0000004020) : tableReg (c + i * 0x20) := .inl (by omega)
  refine ⟨h.rd _ (set (by decide) (by decide)), funext fun k => ?_⟩
  rw [State.isPort, h (A.IS_PORTSs i) (set (by decide) (by decide)), State.isPort]

theorem State.setNames_kept (n : Nat) {i : Nat} (hi : i < 16) : u.setNames i n = s.setNames i n := by
  obtain ⟨ways, ports⟩ := State.setPorts_kept h hi
  have valid : u.flag (F.IS_CTLs_V i) = s.flag (F.IS_CTLs_V i) := h.flag _ (.inl ⟨by dsimp only [A.IS_CTLs]; omega, by dsimp only [A.IS_CTLs]; omega⟩)
  rw [State.setNames, valid, ways, ports, State.setNames]

theorem State.regions_kept : u.regions = s.regions := State.regions_congr fun _ h1 h2 => h _ (.inr (.inl ⟨h1, h2⟩))

theorem State.domPorts_kept (d : Nat) : u.domPorts d = s.domPorts d := by
  unfold State.domPorts
  rw [State.regions_kept h]
  refine List.filter_congr fun n _ => ?_
  simp only [List.any_map]
  refine any_congr_mem fun r hr => ?_
  obtain ⟨ways, ports⟩ := State.setPorts_kept h (State.iset_lt (List.mem_filter.mp hr).1)
  simp only [Function.comp_apply, ways, ports]

include hd

theorem State.domEn_kept : u.domEn d = s.domEn d := h.flag _ (.inr (.inr ⟨d, hd, .inl rfl⟩))

theorem State.segments_kept (two : Bool) : u.segments d two = s.segments d two := by
  have seg0 (lo w : Nat) : u.rd ⟨A.TDn_SEG0 d, lo, w⟩ = s.rd ⟨A.TDn_SEG0 d, lo, w⟩ := h.rd _ (.inr (.inr ⟨d, hd, .inr (.inl rfl)⟩))
  have seg1 (lo w : Nat) : u.rd ⟨A.TDn_SEG1 d, lo, w⟩ = s.rd ⟨A.TDn_SEG1 d, lo, w⟩ := h.rd _ (.inr (.inr ⟨d, hd, .inr (.inr rfl)⟩))
  simp only [State.segments, State.seg0Size, State.seg1Size, seg0, seg1]

theorem State.domOnPort_kept (n : Nat) : u.domOnPort d n = s.domOnPort d n := by
  have link : u.flag (F.TDn_SEG1_LINK d) = s.flag (F.TDn_SEG1_LINK d) := h.flag _ (.inr (.inr ⟨d, hd, .inr (.inr rfl)⟩))
  unfold State.domOnPort
  rw [State.domPorts_kept h, link, State.segments_kept h hd, State.regions_kept h]
  congr 1
  refine any_congr_mem fun g _ => any_congr_mem fun r hr => ?_
  rw [State.setNames_kept h n (State.iset_lt hr)]

end

/-! The domains of a lost port are spoiled. -/

/-- A domain with memory or reel on a port is spoiled (R307). -/
def State.spoilOn (n : Nat) (s : State) (d : Nat) : State := if s.domEn d && s.domOnPort d n then s.spoil d else s

theorem State.spoilOn_spec (n : Nat) (s : State) {d : Nat} (hd : d < 8) : s.sameIn lossKept (s.spoilOn n d) ∧ (s.spoilOn n d).ports = s.ports
    ∧ (s.spoilOn n d).mem = s.mem
    ∧ (∀ k, k < 8 → s.rd (F.TDn_STAT_SPOILED k) = 1 → (s.spoilOn n d).rd (F.TDn_STAT_SPOILED k) = 1)
    ∧ (s.domEn d = true → s.domOnPort d n = true → (s.spoilOn n d).rd (F.TDn_STAT_SPOILED d) = 1) := by
  obtain ⟨h1, h2, h3⟩ := s.spoil_regs hd
  unfold State.spoilOn
  split
  next hc =>
    obtain ⟨hen, -⟩ := Bool.and_eq_true_iff.mp hc
    refine ⟨fun a ha => h1 a (spoilKept_of_lossKept hd ha), h2, s.spoil_mem d, fun k hk hs => ?_, fun _ _ => h3 hen⟩
    by_cases hkd : k = d
    · rw [hkd]
      exact h3 hen
    · exact (h1.rd (F.TDn_STAT_SPOILED k) (spoilKept_stat hd hk hkd)).trans hs
  next hc => exact ⟨.refl _ s, rfl, rfl, fun _ _ h => h, fun h h' => absurd (Bool.and_eq_true_iff.mpr ⟨h, h'⟩) hc⟩

theorem State.spoilOn_foldl (n : Nat) (s : State) {l : List Nat} (hl : ∀ d ∈ l, d < 8) : let u := l.foldl (State.spoilOn n) s
    s.sameIn lossKept u ∧ u.ports = s.ports ∧ u.mem = s.mem
      ∧ (∀ k, k < 8 → s.rd (F.TDn_STAT_SPOILED k) = 1 → u.rd (F.TDn_STAT_SPOILED k) = 1)
      ∧ (∀ d ∈ l, s.domEn d = true → s.domOnPort d n = true → u.rd (F.TDn_STAT_SPOILED d) = 1) := by
  induction l generalizing s with
  | nil => exact ⟨.refl _ s, rfl, rfl, fun _ _ h => h, fun d hd => absurd hd List.not_mem_nil⟩
  | cons x l ih =>
    have hx := hl x List.mem_cons_self
    obtain ⟨h1, h2, h3, h4, h5⟩ := s.spoilOn_spec n hx
    obtain ⟨k1, k2, k3, k4, k5⟩ := ih (s.spoilOn n x) fun d hd => hl d (List.mem_cons_of_mem x hd)
    refine ⟨h1.trans k1, k2.trans h2, k3.trans h3, fun k hk hs => k4 k hk (h4 k hk hs), fun d hd hen hon => ?_⟩
    obtain rfl | hd' := List.mem_cons.mp hd
    · exact k4 d hx (h5 hen hon)
    · exact k5 d hd' ((State.domEn_kept (h1.mono fun _ => .inl) (hl d hd)).trans hen)
        ((State.domOnPort_kept (h1.mono fun _ => .inl) (hl d hd) n).trans hon)

/-! A memory link goes down. -/

/-- The registers that stay as they are when port n loses its link. -/
def portKept (n a : Nat) : Prop := lossKept a ∧ a ≠ A.MPn_STAT n ∧ a ≠ A.MPn_ERR n ∧ a ≠ A.MPn_WQ n

theorem portKept_table (n : Fin 16) {a : Nat} (h : tableReg a) : portKept n a := by
  have := n.isLt
  have := (tableReg_apart h).1
  refine ⟨.inl h, ?_, ?_, ?_⟩
  · unfold A.MPn_STAT; omega
  · unfold A.MPn_ERR; omega
  · unfold A.MPn_WQ; omega

theorem portKept_ctl (n : Fin 16) : portKept n (A.MPn_CTL n) := by
  refine ⟨lossKept_port n (by decide) (by decide), ?_, ?_, ?_⟩
  · dsimp only [A.MPn_CTL, A.MPn_STAT]; omega
  · dsimp only [A.MPn_CTL, A.MPn_ERR]; omega
  · dsimp only [A.MPn_CTL, A.MPn_WQ]; omega

/-- What port n holds once its link is down. -/
def PortSt.down (x : PortSt) : PortSt := { x with phase := .off, reads := [], waits := [], burst := none }

/-- The state in which port n has gone down, before its loss is recorded. -/
def State.portDown (s : State) (n : Nat) : State :=
  (((s.mpLanes n).wr (F.MPn_STAT_UP n) 0).wr (F.MPn_STAT_READY n) 0).setPt n (s.pt n).down

/-- The state in which the loss has been logged, its reads have failed, and its queue is discarded. -/
def State.portLost (s : State) (n : Nat) : State :=
  let z := (s.pt n).pendLines.foldl (fun z l => z.failRead l)
    (((s.portDown n).wr (F.MPn_STAT_LOST n) 1).logAsync (312 + n) (ErrRec.plain .recoverable 17 6))
  (z.inc (F.MPn_ERR_DISCARD n) (z.wq n).length).setWq n []

section
variable (s : State) (n : Fin 16)

theorem State.mpLanes_spec : s.sameIn lossKept (s.mpLanes n) ∧ s.regsOnly (s.mpLanes n) := by
  have := n.isLt
  have hw : s.rd (F.MPn_CAP_WIDTH n) < 2 ^ 4 := fget_lt _ _ _
  unfold State.mpLanes
  split
  · refine ⟨s.sameIn_lanesCount (fun _ => not_lossKept_between) (by omega), ?_⟩
    unfold State.lanesCount
    generalize List.range _ = l
    generalize s = z
    induction l generalizing z with
    | nil => exact .refl z
    | cons x l ih => exact State.regsOnly.trans (z.regsOnly_wr _ _) (ih _)
  · exact ⟨.refl _ s, .refl s⟩

theorem State.mpLoss_eq : s.mpLoss n = if !(s.flag (F.MPn_CTL_EN n) && s.flag (F.MPn_STAT_UP n)) || s.power = .wrap || s.power = .park
    then s.portDown n else (List.range 8).foldl (State.spoilOn n) (s.portLost n) := by
  obtain ⟨io, hl⟩ := (s.mpLanes_spec n).2
  unfold State.mpLoss State.portDown State.portLost State.portDown
  dsimp only
  rw [hl]
  rfl

theorem State.portDown_spec : let u := s.portDown n
    s.sameIn (portKept n) u ∧ u.rd (F.MPn_ERR_DISCARD n) = s.rd (F.MPn_ERR_DISCARD n) ∧ u.rd (F.MPn_STAT_UP n) = 0 ∧ u.rd (F.MPn_STAT_READY n) = 0
      ∧ u.pt n = (s.pt n).down ∧ u.mem = s.mem := by
  obtain ⟨h, io, hl⟩ := s.mpLanes_spec n
  unfold State.portDown
  have hreg : s.sameIn (fun a => lossKept a ∧ a ≠ A.MPn_STAT n) (((s.mpLanes n).wr (F.MPn_STAT_UP n) 0).wr (F.MPn_STAT_READY n) 0) :=
    ((h.mono fun _ ha => ha.1).trans (State.sameIn_wr _ _ _ (by simp))).trans (State.sameIn_wr _ _ _ (by simp))
  refine ⟨hreg.mono fun _ ha => ⟨ha.1, ha.2.1⟩, ?_, ?_, ?_, State.pt_setPt _ _ _, ?_⟩
  · refine hreg.rd (F.MPn_ERR_DISCARD n) ⟨lossKept_port n (by decide) (by decide), ?_⟩
    dsimp only [A.MPn_ERR, A.MPn_STAT]
    omega
  · refine (State.rd_wr_ne _ _ (F.MPn_STAT_UP n) _ (by simp) (.inr (.inl (by simp)))).trans ?_
    exact State.rd_wr_same _ _ _ (by simp)
  · exact State.rd_wr_same _ (F.MPn_STAT_READY n) _ (by simp)
  · rw [hl]
    rfl

/-- Reads that fail mark lines alone. -/
theorem State.failReads_eq (z : State) (l : List Nat) : ∃ r, l.foldl (fun z l => z.failRead l) z = { z with lines := r } := by
  induction l generalizing z with
  | nil => exact ⟨z.lines, rfl⟩
  | cons x l ih =>
    have hx : ∃ r, z.failRead x = { z with lines := r } := by
      unfold State.failRead
      split
      · exact ⟨_, rfl⟩
      · exact ⟨z.lines, rfl⟩
    obtain ⟨r, hr⟩ := hx
    obtain ⟨r', hr'⟩ := ih (z.failRead x)
    exact ⟨r', by rw [List.foldl_cons, hr', hr]⟩

theorem State.sameIn_setWq {P : Nat → Prop} (z : State) (q : List WqEnt) (h : ¬ P (A.MPn_WQ n)) : z.sameIn P (z.setWq n q) := by
  have h1 : z.sameIn P { z with mem := { z.mem with wq := SMap.put z.mem.wq n q } } := fun _ _ => rfl
  unfold State.setWq
  dsimp only
  split
  · exact (h1.trans (State.sameIn_wr _ _ _ h)).trans (State.sameIn_wr _ _ _ h)
  · exact h1.trans (State.sameIn_wr _ _ _ h)

theorem State.portLost_spec : let u := s.portLost n
    s.sameIn (portKept n) u ∧ u.rd (F.MPn_STAT_UP n) = 0 ∧ u.rd (F.MPn_STAT_READY n) = 0 ∧ u.rd (F.MPn_STAT_LOST n) = 1
      ∧ u.rd (F.MPn_ERR_DISCARD n) = (s.rd (F.MPn_ERR_DISCARD n) + (s.wq n).length) % 2 ^ 32
      ∧ u.pt n = (s.pt n).down ∧ u.wq n = [] := by
  have hn := n.isLt
  obtain ⟨d1, d2, d3, d4, d5, d6⟩ := s.portDown_spec n
  generalize hx : s.portDown n = x at d1 d2 d3 d4 d5 d6
  generalize hy : (x.wr (F.MPn_STAT_LOST n) 1).logAsync (312 + n) (ErrRec.plain .recoverable 17 6) = y
  have hlog : (x.wr (F.MPn_STAT_LOST n) 1).sameIn lossKept y :=
    hy ▸ State.sameIn_logAsync (fun _ => not_lossKept_between) _ (by omega) _
  obtain ⟨io, t, p, hyeq⟩ := (x.wr (F.MPn_STAT_LOST n) 1).logAsync_eq (312 + n) (ErrRec.plain .recoverable 17 6)
  obtain ⟨r, hz⟩ := State.failReads_eq y (s.pt n).pendLines
  have hu : s.portLost n = (State.inc { y with lines := r } (F.MPn_ERR_DISCARD n) (y.wq n).length).setWq n [] := by
    unfold State.portLost
    rw [hx, hy]
    dsimp only
    rw [hz]
    rfl
  have hmem : y.mem = s.mem := by
    rw [← hy, hyeq]
    exact d6
  have hpt : y.pt n = (s.pt n).down := by
    rw [← hy, hyeq]
    exact d5
  have stat {lo w : Nat} : (s.portLost n).rd ⟨A.MPn_STAT n, lo, w⟩ = (x.wr (F.MPn_STAT_LOST n) 1).rd ⟨A.MPn_STAT n, lo, w⟩ := by
    rw [hu]
    refine ((State.sameIn_setWq n (P := fun a => a = A.MPn_STAT n) _ _ ?_).rd _ rfl).trans ((State.rd_wr_addr _ _ _ _ ?_).trans
      (hlog.rd ⟨A.MPn_STAT n, lo, w⟩ (lossKept_port n (by decide) (by decide))))
    · dsimp only [A.MPn_WQ, A.MPn_STAT]; omega
    · dsimp only [A.MPn_ERR, A.MPn_STAT]; omega
  have err : x.rd (F.MPn_ERR_DISCARD n) = y.rd (F.MPn_ERR_DISCARD n) := by
    refine ((x.rd_wr_addr _ _ _ ?_).symm).trans (hlog.rd (F.MPn_ERR_DISCARD n) (lossKept_port n (by decide) (by decide))).symm
    dsimp only [A.MPn_ERR, A.MPn_STAT]; omega
  refine ⟨?_, ?_, ?_, ?_, ?_, ?_, ?_⟩
  · rw [hu]
    have h1 : x.sameIn (portKept n) y := (x.sameIn_wr _ _ (fun h => h.2.1 rfl)).trans (hlog.mono fun _ ha => ha.1)
    have h2 : y.sameIn (portKept n) (State.inc { y with lines := r } (F.MPn_ERR_DISCARD n) (y.wq n).length) :=
      State.sameIn_wr { y with lines := r } _ _ (fun h => h.2.2.1 rfl)
    exact ((d1.trans h1).trans h2).trans (State.sameIn_setWq n _ _ (fun h => h.2.2.2 rfl))
  · exact stat.trans ((x.rd_wr_ne _ _ _ (by simp) (.inr (.inl (by simp)))).trans d3)
  · exact stat.trans ((x.rd_wr_ne _ _ _ (by simp) (.inr (.inl (by simp)))).trans d4)
  · exact stat.trans (x.rd_wr_same (F.MPn_STAT_LOST n) 1 (by simp))
  · have hwq : (y.wq n).length = (s.wq n).length := by rw [State.wq, hmem, State.wq]
    have hsum : State.rd { y with lines := r } (F.MPn_ERR_DISCARD n) = s.rd (F.MPn_ERR_DISCARD n) := err.symm.trans d2
    rw [hu, ← hwq, ← hsum]
    refine ((State.sameIn_setWq n (P := fun a => a = A.MPn_ERR n) _ _ ?_).rd (F.MPn_ERR_DISCARD n) rfl).trans (State.rd_inc _ _ _ (by simp))
    dsimp only [A.MPn_WQ, A.MPn_ERR]; omega
  · obtain ⟨w, hw⟩ := State.setWq_eq (State.inc { y with lines := r } (F.MPn_ERR_DISCARD n) (y.wq n).length) n []
    rw [hu, hw]
    exact hpt
  · rw [hu, State.wq_setWq]

/-- A link that goes down leaves its port off, and no other register of a table or a port changed than the port's own. -/
theorem State.mpLoss_spec : let u := s.mpLoss n
    s.sameIn (portKept n) u ∧ u.rd (F.MPn_STAT_UP n) = 0 ∧ u.rd (F.MPn_STAT_READY n) = 0 ∧ u.pt n = (s.pt n).down := by
  rw [State.mpLoss_eq]
  split
  · obtain ⟨h1, -, h3, h4, h5, -⟩ := s.portDown_spec n
    exact ⟨h1, h3, h4, h5⟩
  · obtain ⟨h1, h2, h3, -, -, h6, -⟩ := s.portLost_spec n
    obtain ⟨k1, k2, -⟩ := State.spoilOn_foldl n (s.portLost n) (l := List.range 8) fun d hd => List.mem_range.mp hd
    have kept (f : FRef) (hf : f.addr = A.MPn_STAT n) := k1.rd f (hf ▸ lossKept_port n (c := 0xfe0002000020) (by decide) (by decide))
    refine ⟨h1.trans (k1.mono fun _ ha => ha.1), (kept (F.MPn_STAT_UP n) rfl).trans h2, (kept (F.MPn_STAT_READY n) rfl).trans h3, ?_⟩
    rw [State.pt, k2]
    exact h6

/-- A link that is lost while it is up: what waited is discarded and counted, and the domains on the port are spoiled (R307). -/
theorem answers_mpLinkLoss (hen : s.rd (F.MPn_CTL_EN n) = 1) (hup : s.rd (F.MPn_STAT_UP n) = 1) (hp : s.power = .run) :
    answers (exec (.mpLinkLoss n) s) fun u => (u.rd (F.MPn_STAT_UP n) = 0 ∧ u.rd (F.MPn_STAT_READY n) = 0) ∧ u.rd (F.MPn_STAT_LOST n) = 1
      ∧ u.wq n = [] ∧ (u.pt n).reads = [] ∧ u.rd (F.MPn_ERR_DISCARD n) = (s.rd (F.MPn_ERR_DISCARD n) + (s.wq n).length) % 2 ^ 32
      ∧ ∀ d, d < 8 → s.domEn d = true → s.domOnPort d n = true → u.rd (F.TDn_STAT_SPOILED d) = 1 := by
  obtain ⟨h1, h2, h3, h4, h5, h6, h7⟩ := s.portLost_spec n
  obtain ⟨k1, k2, k3, -, k5⟩ := State.spoilOn_foldl n (s.portLost n) (l := List.range 8) fun d hd => List.mem_range.mp hd
  have kept (f : FRef) {c : Nat} (hc : f.addr = c + n * 0x10000) (h1 : 0xfe0002000000 ≤ c) (h2 : c < 0xfe0002010000) :=
    k1.rd f (hc ▸ lossKept_port n h1 h2)
  have table := h1.mono fun _ => portKept_table n
  rw [exec_mpLinkLoss, execMpLinkLoss, State.mpLoss_eq, if_neg (by simp [State.flag, hen, hup, hp])]
  refine answers_next ⟨⟨?_, ?_⟩, ?_, ?_, ?_, ?_, fun d hd hdom hon => ?_⟩
  · exact (kept (F.MPn_STAT_UP n) rfl (by decide) (by decide)).trans h2
  · exact (kept (F.MPn_STAT_READY n) rfl (by decide) (by decide)).trans h3
  · exact (kept (F.MPn_STAT_LOST n) rfl (by decide) (by decide)).trans h4
  · rw [State.wq, k3]
    exact h7
  · rw [State.pt, k2]
    exact congrArg PortSt.reads h6
  · exact (kept (F.MPn_ERR_DISCARD n) rfl (by decide) (by decide)).trans h5
  · exact k5 d (List.mem_range.mpr hd) ((State.domEn_kept table hd).trans hdom) ((State.domOnPort_kept table hd n).trans hon)

/-! Training. -/

theorem State.mpRetrain_phase : ((s.mpRetrain n).pt n).phase = .training := by
  unfold State.mpRetrain
  rw [State.pt_setPt]

/-- Training leaves the port's own control register as it is. -/
theorem State.mpRetrain_ctl {lo w : Nat} : (s.mpRetrain n).rd ⟨A.MPn_CTL n, lo, w⟩ = s.rd ⟨A.MPn_CTL n, lo, w⟩ := by
  unfold State.mpRetrain
  dsimp only
  split
  · exact (s.mpLoss_spec n).1.rd ⟨A.MPn_CTL n, lo, w⟩ (portKept_ctl n)
  · rfl

theorem State.mpRetrain_down (hf : s.rd (F.MPn_STAT_UP n) = 0 → s.rd (F.MPn_STAT_READY n) = 0) :
    (s.mpRetrain n).rd (F.MPn_STAT_UP n) = 0 ∧ (s.mpRetrain n).rd (F.MPn_STAT_READY n) = 0 := by
  unfold State.mpRetrain
  dsimp only
  split
  next =>
    obtain ⟨-, h2, h3, -⟩ := s.mpLoss_spec n
    exact ⟨h2, h3⟩
  next hup =>
    have hlt : s.rd (F.MPn_STAT_UP n) < 2 ^ 1 := fget_lt _ _ _
    have h0 : s.rd (F.MPn_STAT_UP n) = 0 := by
      simp only [State.flag, beq_iff_eq] at hup
      omega
    exact ⟨h0, hf h0⟩

/-! A write of MPn_CTL. -/

theorem regAt_mpCtl : ∀ n : Fin 16, regAt regTable (A.MPn_CTL n) = some (D.MPn_CTL, n.val, 0) := by decide +kernel

theorem Fld.write_rwl {lo w rst o n : Nat} (ho : o < 2 ^ w) (hn : n < 2 ^ w) : (fld lo w .rwl rst).write o n (2 ^ w - 1) false = n :=
  Fld.write_rw (lo := lo) (rst := rst) ho hn false

/-- A lockable field of a register that is not locked holds what was last written to it (R12). -/
theorem State.rd_regPut_rwl {a i j : Nat} {r : RegDesc} (hr : regAt regTable a = some (r, i, j)) {lo w rst : Nat}
    (hf : fld lo w .rwl rst ∈ r.flds) {z : State} (hl : z.regLocked r i = false) (v : Word) : (z.regPut a v fullMask).rd ⟨a, lo, w⟩ = fget v lo w := by
  have hw : fget (fldsWrite r.flds (z.rdw a) v fullMask false) lo w = _ := fget_foldl_fset (regTable_fit r (regAt_mem hr)) hf _ 0
  rw [State.regPut, hr]
  dsimp only
  rw [State.rd, State.rdw_wrw_same, hl, hw]
  dsimp only [fld] at hw ⊢
  rw [show fget fullMask lo w = 2 ^ w - 1 from fget_fullMask ((regTable_fit r (regAt_mem hr)).1 _ hf)]
  exact (congrArg (· % 2 ^ w) (Fld.write_rwl (fget_lt _ _ _) (fget_lt _ _ _))).trans (Nat.mod_eq_of_lt (fget_lt _ _ _))

/-- EN of a port whose control register is not locked is as written. -/
theorem State.rd_regPut_en (hl : s.rd (F.MPn_CTL_LOCK n) = 0) (v : Word) :
    (s.regPut (A.MPn_CTL n) v fullMask).rd (F.MPn_CTL_EN n) = if bit v 0 then 1 else 0 := by
  have hlock : s.regLocked D.MPn_CTL n = false := by
    have hb : bit (s.rdw (A.MPn_CTL n)) 1 = false := by
      rw [bit_eq_fget]
      exact beq_eq_false_iff_ne.mpr fun h => by
        rw [State.rd] at hl
        exact absurd (h.symm.trans hl) (by decide)
    exact (Bool.and_eq_false_iff).mpr (.inr hb)
  rw [State.rd_regPut_rwl (regAt_mpCtl n) (lo := 0) (w := 1) (rst := 0) (by decide) hlock v, bit_eq_fget]
  have hlt : fget v 0 1 < 2 ^ 1 := fget_lt _ _ _
  split
  next h => exact beq_iff_eq.mp h
  next h =>
    have : fget v 0 1 ≠ 1 := fun h1 => h (beq_iff_eq.mpr h1)
    omega

section
variable {s : State} {n : Fin 16} {v : Word} (hl : s.rd (F.MPn_CTL_LOCK n) = 0)
include hl

theorem answers_mpEnable_on (hen : s.rd (F.MPn_CTL_EN n) = 0) (hv : bit v 0 = true) (hf : s.rd (F.MPn_STAT_UP n) = 0 → s.rd (F.MPn_STAT_READY n) = 0) :
    answers (exec (.mpEnable n v) s) fun u => u.rd (F.MPn_CTL_EN n) = 1 ∧ (u.pt n).phase = .training
      ∧ u.rd (F.MPn_STAT_UP n) = 0 ∧ u.rd (F.MPn_STAT_READY n) = 0 := by
  have hput := s.rd_regPut_en n hl v
  rw [if_pos hv] at hput
  have hstat {lo w : Nat} : (s.regPut (A.MPn_CTL n) v fullMask).rd ⟨A.MPn_STAT n, lo, w⟩ = s.rd ⟨A.MPn_STAT n, lo, w⟩ :=
    s.rd_regPut_ne _ _ _ (by dsimp only [A.MPn_STAT, A.MPn_CTL]; omega)
  have hx : exec (.mpEnable n v) s = .next ((s.regPut (A.MPn_CTL n) v fullMask).mpRetrain n) := by
    simp [execMpEnable, State.mpCtl, State.flag, hen, hput]
  rw [hx]
  exact answers_next ⟨(State.mpRetrain_ctl _ n).trans hput, State.mpRetrain_phase _ n, State.mpRetrain_down _ n (by rw [hstat, hstat]; exact hf)⟩

theorem answers_mpEnable_off (hen : s.rd (F.MPn_CTL_EN n) = 1) (hv : bit v 0 = false) (hname : ¬ ∃ i, i < 16 ∧ s.setNames i n = true) :
    answers (exec (.mpEnable n v) s) fun u => u.rd (F.MPn_CTL_EN n) = 0 ∧ (u.pt n).phase = .off
      ∧ u.rd (F.MPn_STAT_UP n) = 0 ∧ u.rd (F.MPn_STAT_READY n) = 0 := by
  have hput := s.rd_regPut_en n hl v
  rw [if_neg (by simp [hv])] at hput
  have hno : ((List.range 16).any fun i => s.setNames i n) = false := by
    simpa using hname
  have hx : exec (.mpEnable n v) s = .next ((s.regPut (A.MPn_CTL n) v fullMask).mpLoss n) := by
    simp [execMpEnable, State.mpCtl, State.flag, hen, hput, hno]
  obtain ⟨h1, h2, h3, h4⟩ := (s.regPut (A.MPn_CTL n) v fullMask).mpLoss_spec n
  rw [hx]
  exact answers_next ⟨(h1.rd (F.MPn_CTL_EN n) (portKept_ctl n)).trans hput, congrArg PortSt.phase h4, h2, h3⟩

end

theorem answers_mpEnable_named {s : State} {n : Fin 16} {v : Word} (hen : s.rd (F.MPn_CTL_EN n) = 1)
    (hname : ∃ i, i < 16 ∧ s.setNames i n = true) : answers (exec (.mpEnable n v) s) fun u => u.rd (F.MPn_CTL_EN n) = 1 := by
  have hyes : ((List.range 16).any fun i => s.setNames i n) = true := by
    simpa using hname
  let z := (s.regPut (A.MPn_CTL n) v fullMask).wr (F.MPn_CTL_EN n) 1
  have hz : z.rd (F.MPn_CTL_EN n) = 1 := State.rd_wr_same _ _ _ (by simp)
  have hx : exec (.mpEnable n v) s = .next (if bit (v &&& fullMask) 8 then z.mpRetrain n else z) := by
    simp [execMpEnable, State.mpCtl, State.flag, hen, hyes, z, hz]
  rw [hx]
  refine answers_next ?_
  split
  · exact (z.mpRetrain_ctl n).trans hz
  · exact hz

/-! A device comes up. -/

/-- What a refused device leaves: its code, and a port that is off (R292). -/
theorem State.mpRefuse_spec (code : Nat) (hc : code < 256) : let u := s.mpRefuse n code
    (u.rd (F.MPn_STAT_REFUSE n) = code ∧ (u.pt n).phase = .off) ∧ u.rd (F.MPn_STAT_UP n) = s.rd (F.MPn_STAT_UP n)
      ∧ (u.pt n).dev = (s.pt n).dev ∧ u.rd (F.MPn_CAP_CAP_GIB n) = s.rd (F.MPn_CAP_CAP_GIB n) := by
  have hpt : (s.mpRefuse n code).pt n = { s.pt n with phase := .off } := by
    unfold State.mpRefuse
    rw [State.pt_setPt]
  refine ⟨⟨?_, congrArg PortSt.phase hpt⟩, ?_, ?_, ?_⟩
  · exact (s.rd_wr_same (F.MPn_STAT_REFUSE n) code (by simp)).trans (Nat.mod_eq_of_lt hc)
  · exact s.rd_wr_ne (F.MPn_STAT_REFUSE n) (F.MPn_STAT_UP n) code (by simp) (.inr (.inl (by simp)))
  · rw [hpt]
  · refine s.rd_wr_addr _ _ _ ?_
    dsimp only [A.MPn_CAP, A.MPn_STAT]
    omega

theorem answers_mpTrainTimeout (hp : (s.pt n).phase = .training) :
    answers (exec (.mpTrainTimeout n) s) fun u => u.rd (F.MPn_STAT_REFUSE n) = 7 ∧ (u.pt n).phase = .off := by
  rw [exec_mpTrainTimeout, execMpTrainTimeout, if_pos hp]
  exact answers_next (s.mpRefuse_spec n 7 (by decide)).1

/-- The capacity that MPn_CAP of a device names. -/
theorem fget_capGib {g c l w r b : Nat} (hc : c ≤ 2048) (hl : l < 16) (hw : w < 16) (hr : r < 16) (hb : b ≤ 1) :
    fget (BitVec.ofNat 64 (2 ^ 48 * g + 2 ^ 36 * c + 2 ^ 20 * l + 2 ^ 12 * w + r * 2 ^ 4 + b * 8)) 36 12 = c := by
  unfold fget
  rw [BitVec.toNat_ofNat]
  omega

theorem State.mpReport_cap (d : DevInfo) : (s.mpReport n d).rd (F.MPn_CAP_CAP_GIB n) = min d.capGib 2048 := by
  unfold State.mpReport
  dsimp only
  have hne : (F.MPn_CAP_CAP_GIB n).addr ≠ A.MPn_PPART n := by
    dsimp only [A.MPn_CAP, A.MPn_PPART]
    omega
  rw [State.rd, State.rdw_wrw_ne _ _ _ _ hne, State.rdw_wrw_same]
  have hb : b2n d.flit256 ≤ 1 := by cases d.flit256 <;> decide
  exact fget_capGib (Nat.min_le_right _ _) (Nat.mod_lt _ (by decide)) (Nat.mod_lt _ (by decide))
    (Nat.mod_lt _ (by decide)) hb

/-- The code that refuses a device (R292). -/
def deviceRefusal (d : DevInfo) : Nat := if d.isSwitch then 6 else if !d.type3 then 1 else if !d.cxlMem then 3 else if !d.hdmH then 2 else 0

theorem State.mpRefuse_refusal (d : DevInfo) : (if d.isSwitch then s.mpRefuse n 6 else if !d.type3 then s.mpRefuse n 1
    else if !d.cxlMem then s.mpRefuse n 3 else if !d.hdmH then s.mpRefuse n 2 else s)
      = if deviceRefusal d = 0 then s else s.mpRefuse n (deviceRefusal d) := by
  unfold deviceRefusal
  cases d.isSwitch with
  | true => rfl
  | false =>
    cases d.type3 with
    | false => rfl
    | true =>
      cases d.cxlMem with
      | false => rfl
      | true => cases d.hdmH <;> rfl

theorem answers_mpLinkUp (hp : (s.pt n).phase = .training) (dev : DevInfo) : answers (exec (.mpLinkUp n dev) s) fun u =>
    u.rd (F.MPn_STAT_UP n) = 1 ∧ (u.pt n).dev = some dev ∧ u.rd (F.MPn_CAP_CAP_GIB n) = min dev.capGib 2048
      ∧ if deviceRefusal dev = 0 then (u.pt n).phase = .waiting else u.rd (F.MPn_STAT_REFUSE n) = deviceRefusal dev ∧ (u.pt n).phase = .off := by
  let y := (State.mpReport (s.lanesCount (1632 + 8 * n.val) dev.width 8) n dev).wr (F.MPn_STAT_UP n) 1
  generalize hz : y.setPt n { State.pt (s.lanesCount (1632 + 8 * n.val) dev.width 8) n with phase := .waiting, dev := some dev } = z
  have hup : z.rd (F.MPn_STAT_UP n) = 1 := by
    rw [← hz]
    exact State.rd_wr_same _ (F.MPn_STAT_UP n) 1 (by simp)
  have hcap : z.rd (F.MPn_CAP_CAP_GIB n) = min dev.capGib 2048 := by
    rw [← hz]
    refine (State.rd_wr_addr _ (F.MPn_STAT_UP n) (F.MPn_CAP_CAP_GIB n) 1 ?_).trans (State.mpReport_cap _ n dev)
    dsimp only [A.MPn_CAP, A.MPn_STAT]
    omega
  have hpt : z.pt n = { State.pt (s.lanesCount (1632 + 8 * n.val) dev.width 8) n with phase := .waiting, dev := some dev } := by
    rw [← hz, State.pt_setPt]
  have hx : exec (.mpLinkUp n dev) s = .next (if deviceRefusal dev = 0 then z else z.mpRefuse n (deviceRefusal dev)) := by
    rw [exec_mpLinkUp, execMpLinkUp, if_neg (by simp [hp]), ← hz]
    exact congrArg Host.Outcome.next (State.mpRefuse_refusal _ n dev)
  rw [hx]
  refine answers_next ?_
  split
  next h0 => exact ⟨hup, congrArg PortSt.dev hpt, hcap, congrArg PortSt.phase hpt⟩
  next h0 =>
    have hc : deviceRefusal dev < 256 := by
      unfold deviceRefusal
      split_ifs <;> decide
    obtain ⟨h1, h2, h3, h4⟩ := z.mpRefuse_spec n (deviceRefusal dev) hc
    exact ⟨h2.trans hup, h3.trans (congrArg PortSt.dev hpt), h4.trans hcap, h1⟩

theorem State.pt_wr (z : State) (f : FRef) (v k : Nat) : (z.wr f v).pt k = z.pt k := rfl

/-- A device whose memory is active (R292, R293). -/
theorem answers_memoryActive (hp : (s.pt n).phase = .waiting) : answers (exec (.memoryActive n true) s) fun u => (u.pt n).phase = .ready
    ∧ u.rd (F.MPn_STAT_READY n) = 1 ∧ u.rd (F.MPn_STAT_REFUSE n) = 0 ∧ u.rd (F.MPn_CAP_PERSIST n) = b2n (s.persistOk n (s.rd F.WRAP_CTL_GPF_TIMEOUT)) := by
  let z := ((s.setPt n { s.pt n with phase := .ready }).wr (F.MPn_STAT_READY n) 1).wr (F.MPn_STAT_REFUSE n) 0
  have hpt : z.pt n = { s.pt n with phase := .ready } := by rw [State.pt_wr, State.pt_wr, State.pt_setPt]
  have hok (k : Nat) : z.persistOk n k = s.persistOk n k := by
    unfold State.persistOk
    rw [hpt]
  have htime : z.rd F.WRAP_CTL_GPF_TIMEOUT = s.rd F.WRAP_CTL_GPF_TIMEOUT := by
    refine (State.rd_wr_addr _ _ _ _ ?_).trans (State.rd_wr_addr (s.setPt n _) _ _ _ ?_)
    · dsimp only [A.WRAP_CTL, A.MPn_STAT]; omega
    · dsimp only [A.WRAP_CTL, A.MPn_STAT]; omega
  have hx : exec (.memoryActive n true) s = .next (z.wr (F.MPn_CAP_PERSIST n) (b2n (s.persistOk n (s.rd F.WRAP_CTL_GPF_TIMEOUT)))) := by
    rw [exec_memoryActive, execMemoryActive, if_neg (by simp [hp]), if_neg (by simp), ← hok, ← htime]
  have hstat {lo w : Nat} (k : Nat) : (z.wr (F.MPn_CAP_PERSIST n) k).rd ⟨A.MPn_STAT n, lo, w⟩ = z.rd ⟨A.MPn_STAT n, lo, w⟩ := by
    refine z.rd_wr_addr _ _ _ ?_
    dsimp only [A.MPn_CAP, A.MPn_STAT]
    omega
  rw [hx]
  refine answers_next ⟨by rw [State.pt_wr, hpt], ?_, ?_, ?_⟩
  · refine (hstat _).trans ((State.rd_wr_ne _ _ _ _ (by simp) (.inr (.inl (by simp)))).trans ?_)
    exact State.rd_wr_same _ (F.MPn_STAT_READY n) 1 (by simp)
  · exact (hstat _).trans (State.rd_wr_same _ (F.MPn_STAT_REFUSE n) 0 (by simp))
  · refine (z.rd_wr_same (F.MPn_CAP_PERSIST n) _ (by simp)).trans ?_
    cases s.persistOk n (s.rd F.WRAP_CTL_GPF_TIMEOUT) <;> rfl

theorem answers_memoryActive_refused (hp : (s.pt n).phase = .waiting) :
    answers (exec (.memoryActive n false) s) fun u => u.rd (F.MPn_STAT_REFUSE n) = 5 ∧ (u.pt n).phase = .off := by
  rw [exec_memoryActive, execMemoryActive, if_neg (by simp [hp]), if_pos (by simp)]
  exact answers_next (s.mpRefuse_spec n 5 (by decide)).1

theorem answers_memoryActiveTimeout (hp : (s.pt n).phase = .waiting) :
    answers (exec (.memoryActiveTimeout n) s) fun u => u.rd (F.MPn_STAT_REFUSE n) = 4 ∧ (u.pt n).phase = .off := by
  rw [exec_memoryActiveTimeout, execMemoryActiveTimeout, if_pos hp]
  exact answers_next (s.mpRefuse_spec n 4 (by decide)).1

end

/-- Settles O47: each command of a memory port by its own rule: training and refusals, the loss of the link, the queue, reads and the arbiter. -/
theorem memoryPorts : Obligations.MemoryPorts := by
  intro s n v dev line mask data rq cls lines age cycles a e q pois ovl
  dsimp only
  refine ⟨fun hl => ⟨fun hen hv hf => answers_mpEnable_on hl hen hv hf, fun hen hv hno => answers_mpEnable_off hl hen hv hno,
      fun hen hname => answers_mpEnable_named hen hname⟩, fun hen hf => ?_, fun hp => ⟨answers_mpLinkUp s n hp dev, answers_mpTrainTimeout s n hp⟩,
    fun hp => ⟨?_, answers_memoryActive_refused s n hp, answers_memoryActiveTimeout s n hp⟩, fun hen hup hp => answers_mpLinkLoss s n hen hup hp,
    fun here works hk hfree => answers_portWrite here works hk hfree, fun here hrq hw hb hh => ?_, fun hw => answers_urgencyRise hw,
    fun hb hne hr => answers_arbGrant_decide hb hne hr, fun hb hmax => answers_arbGrant_burst hb hmax,
    fun here works he => answers_deviceWriteCompletion here works he, fun hq => answers_deviceReadResponse hq⟩
  · rw [exec_mpRetrain, execMpRetrain, if_pos (by simp [State.flag, hen])]
    exact answers_next ⟨s.mpRetrain_phase n, s.mpRetrain_down n hf⟩
  · obtain ⟨u, hu, h1, h2, h3, h4⟩ := answers_memoryActive s n hp
    refine ⟨u, hu, h1, h2, h3, h4.trans ?_⟩
    unfold State.persistOk
    cases (s.pt n).dev with
    | none => rfl
    | some d =>
      unfold b2n
      exact if_congr (by simp [and_assoc]) rfl rfl
  · exact ⟨fun hall => answers_portRead_served here hrq hw hb hh hall, fun hall hfree => answers_portRead_free here hrq hw hb hh hall hfree,
      fun hall hfree => answers_portRead_waits here hrq hw hb hh hall hfree⟩

end Sys2Proof.Machine
end
